-- ==== Sys2Proof/Word.lean ====
section
/-! DEFINITION. The word types of the Gledon 2524 (00_scope R5: registers of 32 bits; 12 R479: bytes and
little-endian fields) and the one small map type the state is made of. -/

namespace Sys2Proof

abbrev Byte := BitVec 8
abbrev Half := BitVec 16
abbrev Word := BitVec 32
abbrev DWord := BitVec 64

/-- Sparse data by key: a list of (key, value) pairs whose keys rise strictly. The operations that keep the
form are in Machine/Ops.lean. -/
abbrev SMap (α : Type) := List (Nat × α)

end Sys2Proof
end

