-- ==== Sys2Proof/Config.lean ====
section
/-! DEFINITION. What one part fixes and what the spec leaves open. Every `opaque` constant here is a FREE VALUE: it
has no body, so no statement can rest on a value of it (notes/assumptions names each). -/

namespace Sys2Proof.Config

/-- Free values of the random number generator (12 R482 initial SEQ, R504 SESSION, NONCE_D, ephemeral keys), indexed
by the free-value counter of the state. -/
opaque freeWord : Nat → Word
/-- Random byte strings: counter, then length wanted. -/
opaque freeBytes : Nat → Nat → List Byte
/-- The shared secret Z of 12 R505 (66 bytes) for a host's ephemeral point and the part's ephemeral key number. -/
opaque sharedSecret : List Byte → Nat → List Byte
/-- The part's ECDSA P-521 signature (132 bytes) over a digest, by the device identity key (12 R504, 15 R585). -/
opaque deviceSign : List Byte → List Byte
/-- The DCQCN rate number after a congestion notification (12 R473: the algorithm's values are not given). -/
opaque dcqcnRate : Nat → Word
/-- Boot ROM version reported by 15 R585. -/
opaque romVersion : Word
/-- EXP of 09 R379 between its stated bounds: true takes the upper of the two FP32 neighbours allowed. -/
opaque expRoundsUp : BitVec 32 → Bool
/-- The FP32 natural logarithm of 10 R418, whose rounding the spec does not state: true takes the FP32 neighbour of larger
magnitude. -/
opaque logRoundsUp : BitVec 32 → Bool
/-- LOGP of a token whose probability is 0 in FP32: the spec states no logarithm of 0. -/
opaque logOfZero : BitVec 32
/-- The Harvor JEP106 identity code of 18 R677. -/
opaque jep106 : BitVec 11
/-- Contents of the 512 KiB of Pegbox SRAM in a crash dump (16 R626): byte by free-value index. -/
opaque pegSram : Nat → List Byte
/-- The RDMA memory key and base virtual address VA0 of a load window (08 R306), by window number. -/
opaque windowKey : Nat → Word
opaque windowVa : Nat → DWord
/-- The RDMA memory key and base virtual address of a partition's Tuning staging area, fixed per part (11 R470). -/
opaque tuneKey : Nat → Word
opaque tuneVa : Nat → DWord
/-- Whether every member of a PIPELINE or TENSOR consort has a CURRENT epoch of the master's number for a model (14 R555);
the master's knowledge of the other members, by free-value index. -/
opaque memberEpochs : Nat → Bool

/-- The bytes of a STRUM_RESULT event after its TYPE and PARTITION (14 R552), whose layout the spec does not give, as a function
of the result and of T. -/
opaque strumRecord : Nat → DWord → List Byte

end Sys2Proof.Config
end

