-- ==== Sys2Proof/Syntax.lean ====
section
/-! DEFINITION. The commands of the block, one constructor per row of the command table, and the operands they take. -/

namespace Sys2Proof

/-- The 32-byte Strand header, field by field (12 R479). -/
structure Hdr where
  version : Byte
  ttype : Byte
  part : Byte
  flags : Byte
  seq : Word
  ack : Word
  length : Half
  rsv0 : Half
  stream : Word
  credit : Word
  session : Word
  rsv1 : Word
  deriving DecidableEq, Repr

/-- A Strand datagram as it reaches the port: its source, the partition whose address it names (32 and above: a
device address), its congestion mark, the CORE cycle of its acceptance within the 10 ns period of the counter, its header, its payload and the bytes after it (the tag). -/
structure Dgram where
  src : BitVec 128
  sport : Half
  dest : Nat
  ce : Bool
  cycle : Nat
  hdr : Hdr
  payload : List Byte
  tag : List Byte
  deriving DecidableEq, Repr

/-- An exact dyadic number, m times 2^e. -/
structure Dy where
  m : Int
  e : Int
  deriving DecidableEq, Repr

/-- A kind of non-volatile write in progress (16 R604). -/
inductive NvWrite where
  | fusePulse | pageProgram | erase
  deriving DecidableEq, Repr

/-- What one conversion really gave: the column, how far its code lies from the ideal, marks. -/
structure ConvEv where
  tile : Nat
  col : Nat
  dev : Int
  unsettled : Bool
  badParity : Bool
  deriving DecidableEq, Repr

/-- A cell that changed by itself: row segment, slot 0-63 or 64 for the harmonic slot, bit of the slot. -/
structure Upset where
  tile : Nat
  planeB : Bool
  seg : Nat
  slot : Nat
  bit : Nat
  deriving DecidableEq, Repr

/-- A fitted column: course, tile, column, GAIN and OFF. -/
structure Fit where
  course : Nat
  tile : Nat
  col : Nat
  gain : Int
  off : Int
  deriving DecidableEq, Repr

/-- The mean squares a calibration finds for a tile, in (1/84 LSB)^2. -/
structure CalMse where
  course : Nat
  tile : Nat
  mseF : Dy
  mseH : Dy
  deriving DecidableEq, Repr

/-- The results of one die: T of R276, the fits and the mean squares found. -/
structure DieCal where
  die : Nat
  temp : Int
  fits : List Fit
  mses : List CalMse
  deriving DecidableEq, Repr

/-- One stream's part of a batch description (14 R556): its offset in the member's range, its first position, their number, whether
they are prompt positions, and the tokens at them where the description carries them. -/
structure BatchEnt where
  off : Nat
  pos0 : Nat
  count : Nat
  prefill : Bool
  toks : List Nat
  deriving DecidableEq, Repr

/-- The commands, one constructor for each row of the command table. -/
inductive Instr where
  /-- FRAME_DROP (R474): `corr` and `unc` count the FEC codewords corrected and not corrected in the frame. -/
  | frameDrop (corr : Nat) (unc : Nat)
  /-- STRAND_BAD_HEADER (R481): the datagram as it arrives. -/
  | strandBadHeader (m : Dgram)
  /-- UNBOUND_SOURCE_DROP (R526): the datagram as it arrives. -/
  | unboundSourceDrop (m : Dgram)
  /-- ASSOC_OPEN (R482). -/
  | assocOpen (m : Dgram)
  /-- ASSOC_CLOSE (R488). -/
  | assocClose (m : Dgram)
  /-- HEADER_ACK (R486). -/
  | headerAck (m : Dgram)
  /-- WAKE_FRAME (R639). -/
  | wakeFrame (m : Dgram)
  /-- ADMIT (R397). -/
  | admitStream (m : Dgram)
  /-- APPEND (R399). -/
  | append (m : Dgram)
  /-- PAUSE (R391). -/
  | pause (m : Dgram)
  /-- RESUME (R424). -/
  | resume (m : Dgram)
  /-- CANCEL (R393). -/
  | cancel (m : Dgram)
  /-- PARK (R425). -/
  | park (m : Dgram)
  /-- UNPARK (R426). -/
  | unpark (m : Dgram)
  /-- PREFIX_REGISTER (R428). -/
  | prefixRegister (m : Dgram)
  /-- PREFIX_DROP (R366). -/
  | prefixDrop (m : Dgram)
  /-- LOAD_BEGIN (R305). -/
  | loadBegin (m : Dgram)
  /-- LOAD_COMMIT (R310). -/
  | loadCommit (m : Dgram)
  /-- LOAD_ABORT (R502). -/
  | loadAbort (m : Dgram)
  /-- ADAPTER_LOAD_OPEN (R332). -/
  | adapterLoadOpen (m : Dgram)
  /-- ADAPTER_LOAD_REMOVE (R334). -/
  | adapterLoadRemove (m : Dgram)
  /-- TABLE_EDIT (R364). -/
  | tableEdit (m : Dgram)
  /-- SYNC_SIGNAL_ADD (R528). -/
  | syncSignalAdd (m : Dgram)
  /-- SYNC_SIGNAL_SET (R528). -/
  | syncSignalSet (m : Dgram)
  /-- SYNC_WAIT_NOTIFY (R529). -/
  | syncWaitNotify (m : Dgram)
  /-- MGMT_READ (R509). -/
  | mgmtRead (m : Dgram)
  /-- MGMT_WRITE (R509). -/
  | mgmtWrite (m : Dgram)
  /-- MGMT_RESET_STAGE (R510). -/
  | mgmtResetStage (m : Dgram)
  /-- MGMT_RESET_PARTITION (R510). -/
  | mgmtResetPartition (m : Dgram)
  /-- MGMT_RESET_DIE (R510). -/
  | mgmtResetDie (m : Dgram)
  /-- MGMT_RESET_WARM (R510). -/
  | mgmtResetWarm (m : Dgram)
  /-- MGMT_RESET_COLD (R510). -/
  | mgmtResetCold (m : Dgram)
  /-- ATTEST_REPORT (R585). -/
  | attestReport (m : Dgram)
  /-- SESSION_OPEN (R504). -/
  | sessionOpen (m : Dgram)
  /-- SESSION_CLOSE (R507). -/
  | sessionClose (m : Dgram)
  /-- CLAIM (R572). -/
  | claim (m : Dgram)
  /-- CERTS (R586). -/
  | certs (m : Dgram)
  /-- UPDATE_CHUNK (R579). -/
  | updateChunk (m : Dgram)
  /-- UPDATE_VERIFY_DONE (R580). -/
  | updateVerifyDone
  /-- UPDATE_PROGRAM_DONE (R580): whether the read-back agrees. -/
  | updateProgramDone (readBackOk : Bool)
  /-- UPDATE_ABORT (R581). -/
  | updateAbort (m : Dgram)
  /-- UPDATE_IDLE_TIMEOUT (R581). -/
  | updateIdleTimeout
  /-- RDMA_WRITE_LOAD (R308): queue pair, partition, memory key, virtual address, CE mark, data. -/
  | rdmaWriteLoad (qp : Nat) (p : Nat) (key : Word) (va : DWord) (ce : Bool) (data : List Byte)
  /-- PFC_XON_TX (R477): the priority, and the bytes its free buffer falls to and rises to. -/
  | pfcXonTx (strand : Bool) (low : Nat) (high : Nat)
  /-- RDMA_WRITE_TUNE_STAGING (R436): queue pair, partition, byte offset, CE mark, data. -/
  | rdmaWriteTuneStaging (qp : Nat) (p : Nat) (off : Nat) (ce : Bool) (data : List Byte)
  /-- RDMA_WRITE_MASK (R412): queue pair, partition, byte offset, CE mark, data. -/
  | rdmaWriteMask (qp : Nat) (p : Nat) (off : Nat) (ce : Bool) (data : List Byte)
  /-- RDMA_WRITE_CONSORT_PORT (R556): port entry, queue pair, CE mark, data. -/
  | rdmaWriteConsortPort (k : Nat) (qp : Nat) (ce : Bool) (data : List Byte)
  /-- RDMA_FIREWALL_REFUSE (R526): the claimed partition and the queue pair. -/
  | rdmaFirewallRefuse (p : Nat) (qp : Nat)
  /-- CNP_RX (R473). -/
  | cnpRx (qp : Nat)
  /-- PFC_XOFF_RX (R477). -/
  | pfcXoffRx (prio : Nat)
  /-- PFC_XON_RX (R477). -/
  | pfcXonRx (prio : Nat)
  /-- ARP_REQUEST (R474). -/
  | arpRequest (ip : Word)
  /-- NEIGHBOR_SOLICIT (R474). -/
  | neighborSolicit (ip : BitVec 128)
  /-- ICMP_ECHO_REQUEST (R474). -/
  | icmpEchoRequest (dst : BitVec 128) (data : List Byte)
  /-- PTP_SYNC_RX (R549): PTP domain, time of sending in 0.25 ns, and the fractions of a count at arrival and at the answer. -/
  | ptpSyncRx (dom : Nat) (t1 : Int) (f2 : Nat) (f3 : Nat)
  /-- PTP_DELAY_REQ_RX (R549). -/
  | ptpDelayReqRx (dom : Nat)
  /-- PTP_SYNC_INTERVAL (R549). -/
  | ptpSyncInterval
  /-- CLOCK_SLEW (R549). -/
  | clockSlew
  /-- TRANSCEIVER_INSERT (R667). -/
  | transceiverInsert
  /-- TRANSCEIVER_REMOVE (R667). -/
  | transceiverRemove
  /-- ACK_TIMER (R485): the association. -/
  | ackTimer (aid : Nat)
  /-- RETRANSMIT_TIMEOUT (R486): the association. -/
  | retransmitTimeout (aid : Nat)
  /-- ASSOC_LOST (R487): the association. -/
  | assocLost (aid : Nat)
  /-- TOKENS_LATE (R487): the association. -/
  | tokensLate (aid : Nat)
  /-- SESSION_IDLE_TIMEOUT (R507). -/
  | sessionIdleTimeout (num : Word)
  /-- TOKEN_RECORD_ARRIVAL (R497). -/
  | tokenRecordArrival (i : Nat)
  /-- TUNING_LOAD (R435). -/
  | tuningLoad (m : Dgram) (p : Nat)
  /-- TUNING_ABORT (R464). -/
  | tuningAbort (m : Dgram) (p : Nat)
  /-- TUNING_VERIFY_DONE (R459). -/
  | tuningVerifyDone (p : Nat)
  /-- TUNING_BARRIER_REACHED (R459). -/
  | tuningBarrierReached (p : Nat)
  /-- TUNING_BARRIER_TIMEOUT (R462). -/
  | tuningBarrierTimeout (p : Nat)
  /-- MAP_COMMIT (R521). -/
  | mapCommit (m : Dgram)
  /-- MAP_DISCARD (R520). -/
  | mapDiscard (m : Dgram)
  /-- MAP_BARRIER (R522). -/
  | mapBarrier (p : Nat)
  /-- MAP_HANDOVER_END (R523): the hand-over by its place, and the units that pass. -/
  | mapHandoverEnd (k : Nat) (base : Nat) (count : Nat)
  /-- CONSORT_JOIN (R547). -/
  | consortJoin (m : Dgram)
  /-- CONSORT_JOIN_REQUEST_RX (R547): member, record digest, serial, CGEN, PART enabled, STREAM_COUNT, alignment held. -/
  | consortJoinRequestRx (k : Nat) (digest : List Byte) (serial : DWord) (cgen : Nat) (partOn : Bool) (streams : Nat) (timeOk : Bool)
  /-- CONSORT_LEAVE (R559). -/
  | consortLeave (m : Dgram)
  /-- STRUM_SIGNAL (R551). -/
  | strumSignal (m : Dgram) (arg : Half) (obj : BitVec 10)
  /-- STRUM_GATE (R551). -/
  | strumGate (m : Dgram) (arg : Half) (obj : BitVec 10)
  /-- STRUM_TUNE (R551). -/
  | strumTune (m : Dgram) (arg : Half) (obj : BitVec 10)
  /-- STRUM_RECEIVE (R552): a Strum, or the order to cancel it. -/
  | strumReceive (cancel : Bool) (action : Nat) (arg : Half) (obj : BitVec 10) (t : DWord)
  /-- STRUM_ACK_DEADLINE (R552). -/
  | strumAckDeadline
  /-- STRUM_FIRE (R552). -/
  | strumFire
  /-- CONSORT_SYNC_UPDATE_RX (R554): consort object, OP, value, CORE cycle. -/
  | consortSyncUpdateRx (k : Nat) (op : Nat) (v : DWord) (cycle : Nat)
  /-- CONSORT_ENTRY_RX (R555): offset, entry and ADMIT, or no entry and a forwarded message. -/
  | consortEntryRx (off : Nat) (entry : List Byte) (m : Dgram)
  /-- BATCH_DESCRIPTOR_RX (R556). -/
  | batchDescriptorRx (bid : Nat) (model : Nat) (epoch : Word) (ents : List BatchEnt)
  /-- MEMBER_ALIGN_LOST (R550): the member. -/
  | memberAlignLost (k : Nat)
  /-- MASTER_LOST (R553). -/
  | masterLost
  /-- CONSORT_PORT_TIMEOUT (R557): the member. -/
  | consortPortTimeout (k : Nat)
  /-- SOFTWARE_RESET_DIE (R629). -/
  | softwareResetDie (m : Dgram) (die : BitVec 5)
  /-- SOFTWARE_RESET_WARM (R629). -/
  | softwareResetWarm (m : Dgram)
  /-- SOFTWARE_RESET_COLD (R629). -/
  | softwareResetCold (m : Dgram)
  /-- REINSTATE (R623). -/
  | reinstate (m : Dgram)
  /-- POWER_REQ_ACTIVE (R636). -/
  | powerReqActive (m : Dgram) (autoIdle : Bool)
  /-- POWER_REQ_HUSH (R637). -/
  | powerReqHush (m : Dgram) (autoIdle : Bool)
  /-- POWER_REQ_VIGIL (R637). -/
  | powerReqVigil (m : Dgram) (autoIdle : Bool)
  /-- POWER_DRAIN_DONE (R637): rail and clock requests held. -/
  | powerDrainDone (held : Nat)
  /-- DRAIN_TIMEOUT (R636). -/
  | drainTimeout
  /-- AUTO_IDLE_ENTER (R635). -/
  | autoIdleEnter
  /-- IDLE_EXIT (R635). -/
  | idleExit
  /-- WAKE_DONE (R640): rail and clock requests held. -/
  | wakeDone (held : Nat)
  /-- VIGIL_SAMPLE (R642): lanes with signal, readings by the fixed path, SN_VIN. -/
  | vigilSample (lanes : Nat) (temps : List Half) (vin : Half)
  /-- KEY_READ (R594). -/
  | keyRead (m : Dgram)
  /-- KEY_ENROLL (R570). -/
  | keyEnroll (m : Dgram)
  /-- KEY_REVOKE (R570). -/
  | keyRevoke (m : Dgram)
  /-- KEY_STORE_WRITTEN (R570). -/
  | keyStoreWritten
  /-- TILE_TEST (R266). -/
  | tileTest (m : Dgram) (f : Nat) (c : Nat) (t : Nat)
  /-- TILE_REINSTATE (R266). -/
  | tileReinstate (m : Dgram) (f : Nat) (c : Nat) (t : Nat)
  /-- TRACKER_CLEAR (R107). -/
  | trackerClear (m : Dgram) (f : Nat) (c : Nat) (t : Nat) (col : BitVec 10)
  /-- LO_CAPTURE_READ (R111). -/
  | loCaptureRead (m : Dgram) (a : Word)
  /-- MULTI_WORD_CAPTURE_READ (R432). -/
  | multiWordCaptureRead (m : Dgram) (a : Word)
  /-- POWER_ON (R653). -/
  | powerOn
  /-- BROWN_OUT (R597). -/
  | brownOut
  /-- OVER_VOLTAGE (R653). -/
  | overVoltage
  /-- PIN_RESET (R672). -/
  | pinReset
  /-- PIN_RESET_RELEASE (R672). -/
  | pinResetRelease
  /-- WATCHDOG_EXPIRY (R564). -/
  | watchdogExpiry
  /-- LOCKUP (R564). -/
  | lockup
  /-- CLOCK_FAIL (R46). -/
  | clockFail
  /-- DEBUG_RESET (R597). -/
  | debugReset
  /-- TAP_RESET (R677): the level TRST_N takes. -/
  | tapReset (level : Bool)
  /-- JTAG_IDCODE (R677). -/
  | jtagIdcode
  /-- JTAG_BYPASS (R677): bits shifted in. -/
  | jtagBypass (tdi : List Bool)
  /-- JTAG_SAMPLE_PRELOAD (R677): cells loaded. -/
  | jtagSamplePreload (preload : List (Nat × Bool))
  /-- JTAG_EXTEST (R677): cells driven, bits shifted in. -/
  | jtagExtest (cells : List (Nat × Bool)) (tdi : List Bool)
  /-- JTAG_CLAMP (R677): bits shifted in. -/
  | jtagClamp (tdi : List Bool)
  /-- ESCALATE (R614): a lesser reset by its place, or the device scope. -/
  | escalate (k : Option Nat)
  /-- DEVICE_RESET_RELEASE (R602): straps before and after the sampling instant, and which of two levels was taken. -/
  | deviceResetRelease (b0 : BitVec 2) (c0 : BitVec 2) (b1 : BitVec 2) (c1 : BitVec 2) (pb : BitVec 2) (pc : BitVec 2)
  /-- ROOT_PLL_LOCK (R45). -/
  | rootPllLock
  /-- CALIBRATION_COMMIT (R278): what calibration found, by die. -/
  | calibrationCommit (l : List DieCal)
  /-- DEVICE_RESET_DONE (R613). -/
  | deviceResetDone
  /-- DIE_RESET_DONE (R612). -/
  | dieResetDone (n : Nat)
  /-- PARTITION_RESET_DONE (R611). -/
  | partitionResetDone (p : Nat)
  /-- STAGE_RESET_DONE (R611). -/
  | stageResetDone (p : Nat) (stage : Nat)
  /-- PPS_IN_EDGE (R675): ns of low level before, ns since the edge before. -/
  | ppsInEdge (low : Nat) (gap : Nat)
  /-- PPS_OUT_PULSE (R676). -/
  | ppsOutPulse
  /-- FLIT_CRC_FAIL (R25): channel, the flit as received, and whether the replay awaited there came intact before it. -/
  | flitCrcFail (ch : Nat) (h : DWord) (payload : List Byte) (crc : BitVec 40) (replayed : Bool)
  /-- REPLAY_REQUEST_RX (R25). -/
  | replayRequestRx (ch : Nat) (lseq : Nat)
  /-- LINK_RETRAIN_DONE (R26): link, success. -/
  | linkRetrainDone (l : Nat) (ok : Bool)
  /-- FIREWALL_FLIT_DISCARD (R30). -/
  | firewallFlitDiscard (b : Nat) (h : DWord)
  /-- SLICE_ARRIVAL (R73). -/
  | sliceArrival (f : Nat) (c : Nat) (w : Nat) (stream : Nat) (scale : Nat) (payload : List Byte) (outl : List Byte)
  /-- PASS_START (R95). -/
  | passStart (f : Nat) (c : Nat) (sl : Nat) (stall : Nat)
  /-- PLUCK (R75): tiles that may pluck, what conversions gave, cells upset, Capo items pending. -/
  | pluck (f : Nat) (c : Nat) (go : List Nat) (convs : List ConvEv) (upsets : List Upset) (backlog : Nat)
  /-- ENCORE_PASS_END (R171). -/
  | encorePassEnd (f : Nat) (c : Nat) (sl : Nat)
  /-- GROUP_HANDON (R162). -/
  | groupHandon (f : Nat) (c : Nat) (t : Nat) (g : Nat)
  /-- RECONVERT_RESULT (R87): the deviation of the code, and marks. -/
  | reconvertResult (f : Nat) (c : Nat) (t : Nat) (col : Nat) (dev : Int) (unsettled : Bool) (badParity : Bool)
  /-- COLUMN_RECOMPUTE_DONE (R164). -/
  | columnRecomputeDone (f : Nat) (c : Nat) (t : Nat) (col : Nat)
  /-- GROUP_RECOMPUTE_DONE (R230). -/
  | groupRecomputeDone (f : Nat) (c : Nat) (t : Nat) (g : Nat)
  /-- FETCHED_ROW_ARRIVAL (R235): ECC verdicts by offset. -/
  | fetchedRowArrival (f : Nat) (c : Nat) (w : Nat) (errs : List (Nat × Nat))
  /-- REPAIR_SWAP (R236). -/
  | repairSwap (f : Nat) (c : Nat) (t : Nat)
  /-- PLANE_LOAD_START (R315): ECC verdicts by offset. -/
  | planeLoadStart (f : Nat) (c : Nat) (t : Nat) (errs : List (Nat × Nat))
  /-- ROW_SEGMENT_ARRIVAL (R93): `errs` the bit errors of its words, by offset. -/
  | rowSegmentArrival (f : Nat) (c : Nat) (t : Nat) (row : Nat) (g : Nat) (planeB : Bool) (parityOk : Bool) (errs : List (Nat × Nat))
  /-- LOAD_END_MARKER (R93). -/
  | loadEndMarker (f : Nat) (c : Nat) (t : Nat) (planeB : Bool)
  /-- PLANE_DRAINED (R93). -/
  | planeDrained (f : Nat) (c : Nat) (t : Nat) (planeB : Bool) (waited : Nat)
  /-- DRONE_SAMPLE_DONE (R177). -/
  | droneSampleDone (f : Nat) (c : Nat)
  /-- DRONE_REFIT (R281). -/
  | droneRefit (f : Nat) (c : Nat) (t : Nat) (band : Nat) (col : Nat)
  /-- QUALITY_PUBLISH (R283). -/
  | qualityPublish (f : Nat) (c : Nat) (t : Nat)
  /-- FOLD_WINDOW_END (R290). -/
  | foldWindowEnd (f : Nat) (c : Nat) (sl : Nat)
  /-- PASS_END (R174). -/
  | passEnd (f : Nat) (c : Nat) (sl : Nat)
  /-- TAILPIECE_TERM_ARRIVAL (R193). -/
  | tailpieceTermArrival (f : Nat) (c : Nat) (parityErr : Bool) (inside : Bool)
  /-- TAILPIECE_DATA_FLIT (R199). -/
  | tailpieceDataFlit (f : Nat) (c : Nat) (sl : Nat) (stream : Nat) (payload : List Byte)
  /-- TREE_RESULT (R203), or a parity error found in the tree. -/
  | treeResult (f : Nat) (c : Nat) (sl : Nat) (slice : Nat) (col : Nat) (parityErr : Bool)
  /-- BUFFER_SEALED (R216). -/
  | bufferSealed (f : Nat) (c : Nat) (sl : Nat) (bufB : Bool) (wait : Nat)
  /-- BUFFER_DRAIN_START (R215); `par` names a slot with a parity error. -/
  | bufferDrainStart (f : Nat) (c : Nat) (sl : Nat) (bufB : Bool) (par : Option Nat)
  /-- BUFFER_DRAIN_DONE (R215). -/
  | bufferDrainDone (f : Nat) (c : Nat) (sl : Nat) (bufB : Bool)
  /-- BRIDGE_TENSOR_PASS (R537): the outputs computed, FP32. -/
  | bridgeTensorPass (p : Nat) (b : Nat) (stage : Nat) (stream : Nat) (pos : Nat) (vals : List Word)
  /-- SELFTEST_START (R253). -/
  | selftestStart (f : Nat) (c : Nat) (t : Nat)
  /-- SELFTEST_RESULT (R254): 0 PASS, 1 COLUMN, 2 FAIL, 3 not run; the column of each. -/
  | selftestResult (f : Nat) (c : Nat) (t : Nat) (kat : Nat) (scan : Nat) (katCol : Nat) (scanCol : Nat)
  /-- PERIODIC_SCAN_DUE (R247). -/
  | periodicScanDue (f : Nat) (c : Nat) (t : Nat)
  /-- OBSERVATION_END (R246). -/
  | observationEnd (f : Nat) (c : Nat) (t : Nat)
  /-- HBM_PATROL_SCRUB (R245): Bridge, stack, address, bit errors found. -/
  | hbmPatrolScrub (b : Nat) (stack : Nat) (addr : Nat) (n : Nat)
  /-- SENSOR_SAMPLE (R646). -/
  | sensorSample (die : Nat) (k : Nat) (v : Half)
  /-- POWER_SENSOR_SAMPLE (R646). -/
  | powerSensorSample (hbms : List (Nat × Nat × Half)) (vin : Half) (iin : Half) (pin : Half)
  /-- THERMAL_GRACE_END (R649). -/
  | thermalGraceEnd
  /-- TLEVEL_STEP (R649): rail and clock requests held. -/
  | tlevelStep (held : Nat)
  /-- PLEVEL_STEP (R650): rail and clock requests held. -/
  | plevelStep (held : Nat)
  /-- THERMAL_TRIP (R652). -/
  | thermalTrip (die : Nat) (k : Nat) (v : Half)
  /-- KV_APPEND_PIECE (R372). -/
  | kvAppendPiece (b : Nat) (i : Nat) (draft : Bool) (l : Nat) (pos : Nat) (kind : Nat) (head : Nat) (bf16 : Bool) (data : List Byte)
      (errs : List (Nat × Nat))
  /-- ATTENTION_STEP (R374). -/
  | attentionStep (b : Nat) (i : Nat) (lk : Nat) (appends : Bool)
  /-- ATTENTION_OUTPUT (R375). -/
  | attentionOutput (b : Nat) (i : Nat) (lk : Nat) (errs : List (Nat × Nat)) (words : List (Nat × Nat))
  /-- STAGING_FLUSH_ACK (R370). -/
  | stagingFlushAck (b : Nat) (i : Nat) (lk : Nat) (first : Nat)
  /-- EDIT_PUBLISH (R360). -/
  | editPublish (b : Nat) (wait : Nat)
  /-- GENERATION_END (R361). -/
  | generationEnd (b : Nat)
  /-- BATCH_FORMATION (R402). -/
  | batchFormation (p : Nat)
  /-- STEP_BOUNDARY (R392). -/
  | stepBoundary (i : Nat)
  /-- DRAFT_STEP_DONE (R407): logits, FP32. -/
  | draftStepDone (i : Nat) (logits : List (List Word))
  /-- PICK_SAMPLE (R413): logits, FP32. -/
  | pickSample (i : Nat) (logits : List (List Word))
  /-- DEADLINE_REACHED (R417). -/
  | deadlineReached (i : Nat)
  /-- PARK_EXPIRY (R427). -/
  | parkExpiry (i : Nat)
  /-- KV_HOLD_TIMEOUT (R405). -/
  | kvHoldTimeout (i : Nat)
  /-- SCHEDULER_RESUME (R423). -/
  | schedulerResume (p : Nat)
  /-- STAGE_PASS_TIMEOUT (R609). -/
  | stagePassTimeout (f : Nat) (c : Nat) (sl : Nat)
  /-- MGMT_COMMAND_TIMEOUT (R610): the waiting message by its place, and the registers accessed. -/
  | mgmtCommandTimeout (k : Nat) (n : Nat)
  /-- FAR_PREFETCH_START (R320). -/
  | farPrefetchStart (p : Nat) (model : Nat) (e : Word) (tag : Nat)
  /-- FAR_LAYER_LANDED (R321). -/
  | farLayerLanded (shards : List (Nat × List Byte))
  /-- FAR_READ_TIMEOUT (R322). -/
  | farReadTimeout (b : Nat) (exhausted : Bool)
  /-- EPOCH_RETIRE_BY (R326). -/
  | epochRetireBy (p : Nat) (model : Nat)
  /-- WINDOW_IDLE_TIMEOUT (R314). -/
  | windowIdleTimeout (n : Nat)
  /-- ETH_LINK_UP (R513). -/
  | ethLinkUp
  /-- ETH_LINK_DOWN (R513): lanes still locked, FEC lock. -/
  | ethLinkDown (lanes : Byte) (fec : Bool)
  /-- PTP_DELAY_RESP_RX (R549): PTP domain, time of arrival in 0.25 ns. -/
  | ptpDelayRespRx (dom : Nat) (t4 : Int)
  /-- CONSORT_JOIN_RESULT_RX (R547). -/
  | consortJoinResultRx (code : Nat) (joined : List Nat)
  /-- STRUM_ACK_RX (R552). -/
  | strumAckRx (k : Nat) (t : DWord)
  /-- CONSORT_TOKEN_RECORDS_RX (R556). -/
  | consortTokenRecordsRx (h : Word) (recs : List (List Byte))
  /-- LOAD_COMMIT_RESULT (R310): window, and whether a value is not finite. -/
  | loadCommitResult (n : Nat) (nonFinite : Bool)
  /-- AT_RISK_TTFT (R421). -/
  | atRiskTtft (i : Nat)
  /-- EDIT_DATA_TRANSFER_DONE (R358). -/
  | editDataTransferDone (b : Nat) (data : List Byte)
  /-- PERSISTENT_LOG_PROGRAMMED (R588). -/
  | persistentLogProgrammed
  /-- NV_WRITE_PULSE_END (R604): the pulse that follows. -/
  | nvWritePulseEnd (next : Option NvWrite)
  /-- OVER_VOLTAGE_END (R653). -/
  | overVoltageEnd
  /-- EXACT_GROUP_DONE (R181). -/
  | exactGroupDone (f : Nat) (c : Nat) (sl : Nat) (stall : Nat)
  deriving DecidableEq, Repr

end Sys2Proof
end

