-- ==== Sys2Proof/WellFormed.lean ====
section
/-! DEFINITION. Which commands are well-formed: every operand that names a partition, a die, a course, a tile or another numbered thing
lies in the range of those the part has (00_scope, 01 R1-R31, 02 R61, 10 R388). -/

namespace Sys2Proof

def okPart (p : Nat) : Bool := decide (p < 32)
/-- A Fret or Bridge die, or a pair. -/
def okDie (n : Nat) : Bool := decide (n < 12)
def okFc (f c : Nat) : Bool := okDie f && decide (c < 16)
/-- A physical tile, the spare among them; a working tile. -/
def okTile (t : Nat) : Bool := decide (t < 33)
def okFct (f c t : Nat) : Bool := okFc f c && okTile t
def okW (w : Nat) : Bool := decide (w < 32)
def okSlot (s : Nat) : Bool := decide (s < 4)
def okGroup (g : Nat) : Bool := decide (g < 8)
/-- A data column, or 512 + g for the harmonic column of group g. -/
def okCol (col : Nat) : Bool := decide (col < 520)
def okStream (i : Nat) : Bool := decide (i < 262144)
def okQp (qp : Nat) : Bool := decide (qp < 4096)
/-- Channels by their receivers: Fret and Bridge sides of the Necks, ports of the torus. -/
def okChan (ch : Nat) : Bool := decide (ch < 12) || (decide (16 ≤ ch) && decide (ch < 28)) || (decide (32 ≤ ch) && decide (ch < 80))
    || (decide (96 ≤ ch) && decide (ch < 112) && decide (2 ≤ ch % 4))
/-- Links: the Necks, the east and the south port of every Bridge, and the south port of every Headstock stop. -/
def okLink (l : Nat) : Bool :=
  decide (l < 12) || (decide (32 ≤ l) && decide (l < 80) && (decide (l % 4 = 0) || decide (l % 4 = 3)))
    || (decide (96 ≤ l) && decide (l < 112) && decide (l % 4 = 3))
/-- Die codes of 17 R655. -/
def okDieCode (n : Nat) : Bool := decide (n < 12) || (decide (16 ≤ n) && decide (n < 28)) || decide (n = 32)
def okConv (x : ConvEv) : Bool := okTile x.tile && okCol x.col
def okUpset (x : Upset) : Bool := okTile x.tile && decide (x.seg < 4096) && decide (x.slot ≤ 64)
def okFit (x : Fit) : Bool := decide (x.course < 16) && okTile x.tile && okCol x.col
def okMse (x : CalMse) : Bool := decide (x.course < 16) && okTile x.tile
def okCal (x : DieCal) : Bool := okDie x.die && x.fits.all okFit && x.mses.all okMse

/-- The operands of a command lie in the ranges of what they name. -/
def WellFormed : Instr → Bool
  | .frameDrop _ _ => true
  | .strandBadHeader _ => true
  | .unboundSourceDrop _ => true
  | .assocOpen _ => true
  | .assocClose _ => true
  | .headerAck _ => true
  | .wakeFrame _ => true
  | .admitStream _ => true
  | .append _ => true
  | .pause _ => true
  | .resume _ => true
  | .cancel _ => true
  | .park _ => true
  | .unpark _ => true
  | .prefixRegister _ => true
  | .prefixDrop _ => true
  | .loadBegin _ => true
  | .loadCommit _ => true
  | .loadAbort _ => true
  | .adapterLoadOpen _ => true
  | .adapterLoadRemove _ => true
  | .tableEdit _ => true
  | .syncSignalAdd _ => true
  | .syncSignalSet _ => true
  | .syncWaitNotify _ => true
  | .mgmtRead _ => true
  | .mgmtWrite _ => true
  | .mgmtResetStage _ => true
  | .mgmtResetPartition _ => true
  | .mgmtResetDie _ => true
  | .mgmtResetWarm _ => true
  | .mgmtResetCold _ => true
  | .attestReport _ => true
  | .sessionOpen _ => true
  | .sessionClose _ => true
  | .claim _ => true
  | .certs _ => true
  | .updateChunk _ => true
  | .updateVerifyDone => true
  | .updateProgramDone _ => true
  | .updateAbort _ => true
  | .updateIdleTimeout => true
  | .rdmaWriteLoad qp p _ _ _ _ => okQp qp && okPart p
  | .pfcXonTx _ low high => decide (low ≤ 4194304) && decide (high ≤ 4194304)
  | .rdmaWriteTuneStaging qp p _ _ _ => okQp qp && okPart p
  | .rdmaWriteMask qp p _ _ _ => okQp qp && okPart p
  | .rdmaWriteConsortPort _ qp _ _ => okQp qp
  | .rdmaFirewallRefuse p qp => okQp qp && okPart p
  | .cnpRx qp => okQp qp
  | .pfcXoffRx prio => decide (prio < 8)
  | .pfcXonRx prio => decide (prio < 8)
  | .arpRequest _ => true
  | .neighborSolicit _ => true
  | .icmpEchoRequest _ _ => true
  | .ptpSyncRx dom _ _ _ => decide (dom < 256)
  | .ptpDelayReqRx dom => decide (dom < 256)
  | .ptpSyncInterval => true
  | .clockSlew => true
  | .transceiverInsert => true
  | .transceiverRemove => true
  | .ackTimer _ => true
  | .retransmitTimeout _ => true
  | .assocLost _ => true
  | .tokensLate _ => true
  | .sessionIdleTimeout _ => true
  | .tokenRecordArrival i => okStream i
  | .tuningLoad _ p => okPart p
  | .tuningAbort _ p => okPart p
  | .tuningVerifyDone p => okPart p
  | .tuningBarrierReached p => okPart p
  | .tuningBarrierTimeout p => okPart p
  | .mapCommit _ => true
  | .mapDiscard _ => true
  | .mapBarrier p => okPart p
  | .mapHandoverEnd _ _ _ => true
  | .consortJoin _ => true
  | .consortJoinRequestRx k digest _ _ _ _ _ => decide (k < 16) && decide (digest.length = 64)
  | .consortLeave _ => true
  | .strumSignal _ _ _ => true
  | .strumGate _ _ _ => true
  | .strumTune _ _ _ => true
  | .strumReceive _ action _ _ _ => decide (1 ≤ action) && decide (action ≤ 3)
  | .strumAckDeadline => true
  | .strumFire => true
  | .consortSyncUpdateRx k op _ _ => decide (k < 1024) && decide (op < 2)
  | .consortEntryRx _ _ _ => true
  | .batchDescriptorRx _ model _ _ => decide (model < 4)
  | .memberAlignLost k => decide (k < 16)
  | .masterLost => true
  | .consortPortTimeout k => decide (k < 16)
  | .softwareResetDie _ _ => true
  | .softwareResetWarm _ => true
  | .softwareResetCold _ => true
  | .reinstate _ => true
  | .powerReqActive _ _ => true
  | .powerReqHush _ _ => true
  | .powerReqVigil _ _ => true
  | .powerDrainDone _ => true
  | .drainTimeout => true
  | .autoIdleEnter => true
  | .idleExit => true
  | .wakeDone _ => true
  | .vigilSample lanes _ _ => decide (lanes ≤ 8)
  | .keyRead _ => true
  | .keyEnroll _ => true
  | .keyRevoke _ => true
  | .keyStoreWritten => true
  | .tileTest _ f c t => okFct f c t
  | .tileReinstate _ f c t => okFct f c t
  | .trackerClear _ f c t _ => okFct f c t
  | .loCaptureRead _ _ => true
  | .multiWordCaptureRead _ _ => true
  | .powerOn => true
  | .brownOut => true
  | .overVoltage => true
  | .pinReset => true
  | .pinResetRelease => true
  | .watchdogExpiry => true
  | .lockup => true
  | .clockFail => true
  | .debugReset => true
  | .tapReset _ => true
  | .jtagIdcode => true
  | .jtagBypass _ => true
  | .jtagSamplePreload _ => true
  | .jtagExtest _ _ => true
  | .jtagClamp _ => true
  | .escalate _ => true
  | .deviceResetRelease _ _ _ _ _ _ => true
  | .rootPllLock => true
  | .calibrationCommit l => l.all fun x => okCal x
  | .deviceResetDone => true
  | .dieResetDone n => okDie n
  | .partitionResetDone p => okPart p
  | .stageResetDone p _ => okPart p
  | .ppsInEdge _ _ => true
  | .ppsOutPulse => true
  | .flitCrcFail ch _ payload _ _ => okChan ch && decide (payload.length = 256)
  | .replayRequestRx ch lseq => okChan ch && decide (lseq < 4096)
  | .linkRetrainDone l _ => okLink l
  | .firewallFlitDiscard b _ => okDie b
  | .sliceArrival f c w stream _ _ _ => okFc f c && okW w && okStream stream
  | .passStart f c sl _ => okFc f c && okSlot sl
  | .pluck f c go convs upsets _ => okFc f c && go.all okTile && convs.all okConv && upsets.all okUpset
  | .encorePassEnd f c sl => okFc f c && okSlot sl
  | .groupHandon f c t g => okFct f c t && okGroup g
  | .reconvertResult f c t col _ _ _ => okFct f c t && okCol col
  | .columnRecomputeDone f c t col => okFct f c t && okCol col
  | .groupRecomputeDone f c t g => okFct f c t && okGroup g
  | .fetchedRowArrival f c w _ => okFc f c && okW w
  | .repairSwap f c t => okFct f c t
  | .planeLoadStart f c t _ => okFct f c t
  | .rowSegmentArrival f c t row g _ _ _ => okFct f c t && decide (row < 512) && okGroup g
  | .loadEndMarker f c t _ => okFct f c t
  | .planeDrained f c t _ _ => okFct f c t
  | .droneSampleDone f c => okFc f c
  | .droneRefit f c t band col => okFct f c t && decide (band < 4) && okCol col
  | .qualityPublish f c t => okFct f c t
  | .foldWindowEnd f c sl => okFc f c && okSlot sl
  | .passEnd f c sl => okFc f c && okSlot sl
  | .tailpieceTermArrival f c _ _ => okFc f c
  | .tailpieceDataFlit f c sl stream _ => okFc f c && okSlot sl && okStream stream
  | .treeResult f c sl _ col _ => okFc f c && okSlot sl && decide (col < 512)
  | .bufferSealed f c sl _ _ => okFc f c && okSlot sl
  | .bufferDrainStart f c sl _ _ => okFc f c && okSlot sl
  | .bufferDrainDone f c sl _ => okFc f c && okSlot sl
  | .bridgeTensorPass p b _ stream _ _ => okPart p && okDie b && okStream stream
  | .selftestStart f c t => okFct f c t
  | .selftestResult f c t kat scan _ _ => okFct f c t && decide (kat < 4) && decide (scan < 4)
  | .periodicScanDue f c t => okFct f c t
  | .observationEnd f c t => okFct f c t
  | .hbmPatrolScrub b stack _ _ => okDie b && decide (stack < 2)
  | .sensorSample die k _ => okDieCode die && decide (k < 8)
  | .powerSensorSample _ _ _ _ => true
  | .thermalGraceEnd => true
  | .tlevelStep _ => true
  | .plevelStep _ => true
  | .thermalTrip die k _ => okDieCode die && decide (k < 10)
  | .kvAppendPiece b i _ _ _ _ _ _ _ _ => okDie b && okStream i
  | .attentionStep b i _ _ => okDie b && okStream i
  | .attentionOutput b i _ _ _ => okDie b && okStream i
  | .stagingFlushAck b i _ _ => okDie b && okStream i
  | .editPublish b _ => okDie b
  | .generationEnd b => okDie b
  | .batchFormation p => okPart p
  | .stepBoundary i => okStream i
  | .draftStepDone i _ => okStream i
  | .pickSample i _ => okStream i
  | .deadlineReached i => okStream i
  | .parkExpiry i => okStream i
  | .kvHoldTimeout i => okStream i
  | .schedulerResume p => okPart p
  | .stagePassTimeout f c sl => okFc f c && okSlot sl
  | .mgmtCommandTimeout _ _ => true
  | .farPrefetchStart p model _ _ => okPart p && decide (model < 4)
  | .farLayerLanded _ => true
  | .farReadTimeout b _ => okDie b
  | .epochRetireBy p model => okPart p && decide (model < 4)
  | .windowIdleTimeout n => decide (n < 1024)
  | .ethLinkUp => true
  | .ethLinkDown _ _ => true
  | .ptpDelayRespRx dom _ => decide (dom < 256)
  | .consortJoinResultRx code joined => decide (code < 6) && joined.all fun k => decide (k < 16)
  | .strumAckRx k _ => decide (k < 16)
  | .consortTokenRecordsRx _ _ => true
  | .loadCommitResult n _ => decide (n < 1024)
  | .atRiskTtft i => okStream i
  | .editDataTransferDone b _ => okDie b
  | .persistentLogProgrammed => true
  | .nvWritePulseEnd _ => true
  | .overVoltageEnd => true
  | .exactGroupDone f c sl _ => okFc f c && okSlot sl

end Sys2Proof
end

