-- ==== Sys2Proof/Machine/RegMap.lean ====
section
/-! DEFINITION. Management space (00_scope R5-R14, 19 R682): which addresses hold a register, the access types of
its fields, its reset word, and the addresses the meanings name. -/

namespace Sys2Proof.Machine

/-- Where an address lies: the block it belongs to and the offset inside it (00_scope R7-R9, 02 R100). -/
inductive Loc where
  | hs (o : Nat)
  | part (p o : Nat)
  | peg (o : Nat)
  | br (n o : Nat)
  | ft (n o : Nat)
  | cs (n c o : Nat)
  | tile (n c t o : Nat)
  deriving DecidableEq, Repr

/-- The writable bits of one register: `keeper` when it holds an RWK field (R14), `rw` the bits a write sets, `w1c`
the bits a 1 clears, `wo` the bits that trigger an action, `ctr` its counter fields as (low bit, width) (R12). -/
structure RegDef where
  keeper : Bool := false
  rw : Word := 0#32
  w1c : Word := 0#32
  wo : Word := 0#32
  ctr : List (Nat × Nat) := []
  deriving DecidableEq, Repr

def regRO : RegDef := {}
def regRW (m : Word) : RegDef := { rw := m }
def regRWK (m : Word) : RegDef := { keeper := true, rw := m }
def regWO (m : Word) : RegDef := { wo := m }
def regCtr : RegDef := { ctr := [(0, 32)] }

/-- `o` is one of the words from `lo` to `hi`. -/
def inWords (o lo hi : Nat) : Bool := decide (lo ≤ o) && decide (o ≤ hi) && decide (o % 4 = 0)

def regDefHs (o : Nat) : Option RegDef :=
  if inWords o 0x0 0x2C then some regRO
  else if o = 0x100 then some { ctr := [(8, 8)] }
  else if inWords o 0x900 0x91C || inWords o 0x940 0x948 then some regRO
  else if o = 0x2000 then some (regRW 0x7F#32)
  else if o = 0x2020 then some (regRW 0xFFF#32)
  else if inWords o 0x2004 0x201C || inWords o 0x2024 0x2030 then some regRO
  else if inWords o 0x2040 0x2054 then some regCtr
  else if o = 0x2100 then some (regRW 0x3FFFF#32)
  else if inWords o 0x2140 0x217C then some regRO
  else if inWords o 0x21C0 0x21E0 then some regCtr
  else if o = 0x3000 then some regRO
  else if o = 0x3004 then some (regRWK 0xFFFFFFFF#32)
  else if inWords o 0x3020 0x3054 then some regCtr
  else if o = 0x4000 then some (regRWK 0x31F#32)
  else if o = 0x4004 then some (regWO 0xC0000000#32)
  else if o = 0x4008 then some regRO
  else if o = 0x4010 then some (regRW 0x3FFF#32)
  else if inWords o 0x4014 0x4018 then some regRO
  else if inWords o 0x4400 0x47FC then some (regRWK 0xFFFFFFFF#32)
  else if o = 0x5000 then some (regRWK 0x1#32)
  else if o = 0x5004 then some (regWO 0xC0000000#32)
  else if inWords o 0x5008 0x500C then some regRO
  else if inWords o 0x5010 0x5014 then some (regRW 0xFFFFFFFF#32)
  else if o = 0x5018 then some (regRW 0xC3FFFFFF#32)
  else if inWords o 0x5020 0x502C then some regCtr
  else if inWords o 0x5400 0x57FC then some (regRWK 0xFFFFFFFF#32)
  else if o = 0x6000 then some { keeper := true, rw := 0xFF000000#32, wo := 0x1#32 }
  else if o = 0x6004 || o = 0x6010 then some regRO
  else if o = 0x6014 then some (regRW 0x8001FFFF#32)
  else if inWords o 0x6020 0x6030 then some regCtr
  else if inWords o 0x6400 0x67FC then some regRO
  else if o = 0x7000 then some (regRWK 0xF0000000#32)
  else if o = 0x7004 then some regRO
  else if o = 0x7008 then some (regRWK 0xFF#32)
  else if o = 0x700C then some (regRWK 0x33#32)
  else if o = 0x7010 then some (regRWK 0xFFF#32)
  else if inWords o 0x7020 0x7034 then some regCtr
  else if o = 0x7200 then some regRO
  else if o = 0x7204 then some regCtr
  else none

def regDefPart (o : Nat) : Option RegDef :=
  if o = 0x0 then some (regWO 0xC0000000#32)
  else if inWords o 0x4 0x20 then some regRO
  else if inWords o 0x24 0x28 then some regCtr
  else if inWords o 0x2C 0x38 || inWords o 0x40 0x7C then some regRO
  else if inWords o 0x80 0x9C then some regCtr
  else if inWords o 0xA0 0xAC then some regRO
  else if inWords o 0xB0 0xBC then some regCtr
  else none

def regDefPeg (o : Nat) : Option RegDef :=
  if o = 0x0 || o = 0x10 then some regRO
  else if o = 0x14 then some (regWO 0x80000000#32)
  else if o = 0x20 then some (regRW 0x3F#32)
  else if o = 0x24 then some (regRWK 0xC0000000#32)
  else if o = 0x28 || inWords o 0x40 0x7C then some regRO
  else if o = 0x80 then some (regRW 0x1F#32)
  else if inWords o 0x84 0x88 then some regRO
  else if inWords o 0x100 0x18C then some (regRW 0xFFFFFFFF#32)
  else if o = 0x200 then some regRO
  else if o = 0x204 then some (regRW 0xFFFFFFFF#32)
  else if inWords o 0x240 0x26C then some regRO
  else if o = 0x280 then some (regRW 0x3FF#32)
  else if inWords o 0x2C0 0x2FC then some regRO
  else if inWords o 0x300 0x30C then some regCtr
  else none

def regDefBr (o : Nat) : Option RegDef :=
  if o = 0x200 then some { ctr := [(16, 8)] }
  else if o = 0x204 then some { ctr := [(0, 16), (16, 16)] }
  else if o = 0x210 then some { ctr := [(0, 8), (8, 8), (16, 8), (24, 8)] }
  else if inWords o 0x300 0x310 || inWords o 0x400 0x410 then some regCtr
  else if o = 0x500 then some regRO
  else if inWords o 0x600 0x608 then some regCtr
  else if o = 0x700 then some (regRW 0x7F#32)
  else if inWords o 0x704 0x718 then some regRO
  else if o = 0x71C then some { ctr := [(0, 13)] }
  else if inWords o 0x720 0x750 || inWords o 0x800 0x820 then some regCtr
  else if inWords o 0x900 0x924 then some regRO
  else none

def regDefFt (o : Nat) : Option RegDef :=
  if o = 0x8000 then some (regRW 0x1#32)
  else if o = 0x8010 then some (regRWK 0xC00003FF#32)
  else if o = 0x8014 then some { w1c := 0x80000000#32 }
  else if inWords o 0x8020 0x8024 then some regRO
  else if inWords o 0x8028 0x8034 then some regCtr
  else if inWords o 0x8900 0x891C then some regRO
  else none

def regDefCs (o : Nat) : Option RegDef :=
  if inWords o 0x0 0xC || inWords o 0x60 0x6C || inWords o 0x100 0x10C || inWords o 0x200 0x20C
    || inWords o 0x240 0x24C || inWords o 0x2E0 0x2EC || inWords o 0x20 0x24 then some regRO
  else if inWords o 0x28 0x50 || inWords o 0x70 0x80 || inWords o 0x120 0x158 || inWords o 0x220 0x238
    || inWords o 0x260 0x2A0 || inWords o 0x2F0 0x2F4 then some regCtr
  else if inWords o 0x110 0x114 then some regRO
  else if o = 0x180 then some (regRW 0xFFFF#32)
  else if o = 0x184 || inWords o 0x210 0x21C || o = 0x250 || inWords o 0x2C0 0x2DC then some regRO
  else none

def regDefTile (o : Nat) : Option RegDef :=
  if inWords o 0x0 0x8 || o = 0x18 || o = 0x1C || o = 0x14 || o = 0x20 || inWords o 0x40 0xFC || o = 0x104 then
    some regRO
  else if o = 0xC then some regCtr
  else if o = 0x10 then some { ctr := [(0, 8), (8, 8)] }
  else if o = 0x100 then some { rw := 0x3FF#32, wo := 0x80000000#32 }
  else none

/-- The block and offset of an address of a region that is not reserved (R7-R9). -/
def locOf (a : Nat) : Option Loc :=
  if a < 0x400000 then
    if 0x10000 ≤ a ∧ a < 0x12000 then some (.part ((a - 0x10000) / 0x100) (a % 0x100)) else some (.hs a)
  else if a < 0x800000 then some (.peg (a - 0x400000))
  else if 0x1000000 ≤ a ∧ a < 0x1C00000 then
    some (.br ((a - 0x1000000) / 0x100000) (a % 0x100000))
  else if 0x2000000 ≤ a ∧ a < 0x2C00000 then
    let n := (a - 0x2000000) / 0x100000
    let c := a % 0x100000 / 0x10000
    let o := a % 0x10000
    if 0x8000 ≤ o then (if c = 0 then some (.ft n o) else none)
    else if 0x400 ≤ o ∧ o < 0x400 + 33 * 0x200 then some (.tile n c ((o - 0x400) / 0x200) ((o - 0x400) % 0x200))
    else some (.cs n c o)
  else none

def regDefOf : Loc → Option RegDef
  | .hs o => regDefHs o
  | .part _ o => regDefPart o
  | .peg o => regDefPeg o
  | .br _ o => regDefBr o
  | .ft _ o => regDefFt o
  | .cs _ _ o => regDefCs o
  | .tile _ _ _ o => regDefTile o

/-- No bit of the register can be written (R13). -/
def RegDef.allRO (r : RegDef) : Bool :=
  r.rw == 0#32 && r.w1c == 0#32 && r.wo == 0#32 && r.ctr.isEmpty

/-- The selector registers, Strum times and key buffer that each session holds its own copy of (13 R525, R540,
14 R558, 15 R591, 16 R628). -/
def perSession : Loc → Bool
  | .hs o => o = 0x2000 || o = 0x2020 || o = 0x2100 || o = 0x4000 || o = 0x4010 || o = 0x5000 || o = 0x5010
      || o = 0x5014 || o = 0x6014
  | .peg o => o = 0x20 || o = 0x80 || o = 0x204 || o = 0x280 || inWords o 0x100 0x18C
  | .br _ o => o = 0x700
  | .cs _ _ o => o = 0x180
  | .tile _ _ _ o => o = 0x100
  | _ => false

abbrev addrPart (p o : Nat) : Nat := 0x10000 + p * 0x100 + o
abbrev addrBr (n o : Nat) : Nat := 0x1000000 + n * 0x100000 + o
abbrev addrFt (n o : Nat) : Nat := 0x2000000 + n * 0x100000 + o
abbrev addrCs (n c o : Nat) : Nat := 0x2000000 + n * 0x100000 + c * 0x10000 + o
abbrev addrTile (n c t o : Nat) : Nat := addrCs n c (0x400 + t * 0x200 + o)

abbrev HS_PARTID : Nat := 0x0000
abbrev HS_ORDER : Nat := 0x0004
abbrev HS_SERIALLO : Nat := 0x0008
abbrev HS_SERIALHI : Nat := 0x000C
abbrev HS_MACLO : Nat := 0x0010
abbrev HS_MACHI : Nat := 0x0014
abbrev HS_RSTCAUSE : Nat := 0x0018
abbrev HS_STRAPS : Nat := 0x001C
abbrev HS_TIMELO : Nat := 0x0020
abbrev HS_TIMEHI : Nat := 0x0024
abbrev HS_PWRSTATE : Nat := 0x0028
abbrev HS_WDSTAT : Nat := 0x002C
abbrev HS_CLKSTAT : Nat := 0x0100
abbrev HS_LDSEL : Nat := 0x2000
abbrev HS_ADPSEL : Nat := 0x2020
abbrev HS_LDCOMMIT : Nat := 0x2040
abbrev HS_STSEL : Nat := 0x2100
abbrev HS_STDATA0 : Nat := 0x2140
abbrev HS_ETHSTAT : Nat := 0x3000
abbrev HS_ETHCFG : Nat := 0x3004
abbrev HS_FECCORR : Nat := 0x3020
abbrev HS_FECUNC : Nat := 0x3024
abbrev HS_RXDROP : Nat := 0x3028
abbrev HS_STRBADHDR : Nat := 0x302C
abbrev HS_STROOO : Nat := 0x3030
abbrev HS_STRDUP : Nat := 0x3034
abbrev HS_STRNOCRED : Nat := 0x3038
abbrev HS_STRRETX : Nat := 0x303C
abbrev HS_STRLOST : Nat := 0x3040
abbrev HS_STRLATE : Nat := 0x3044
abbrev HS_AUTHFAIL : Nat := 0x3048
abbrev HS_PFCTX : Nat := 0x304C
abbrev HS_PFCRX : Nat := 0x3050
abbrev HS_CNPTX : Nat := 0x3054
abbrev HS_MAPSEL : Nat := 0x4000
abbrev HS_MAPCTL : Nat := 0x4004
abbrev HS_MAPSTAT : Nat := 0x4008
abbrev HS_SYNCSEL : Nat := 0x4010
abbrev HS_SYNCVALLO : Nat := 0x4014
abbrev HS_SYNCVALHI : Nat := 0x4018
abbrev HS_MAPDATA0 : Nat := 0x4400
abbrev HS_CNSSEL : Nat := 0x5000
abbrev HS_CNSCTL : Nat := 0x5004
abbrev HS_CNSSTAT : Nat := 0x5008
abbrev HS_CNSOFFS : Nat := 0x500C
abbrev HS_STRUMTLO : Nat := 0x5010
abbrev HS_STRUMTHI : Nat := 0x5014
abbrev HS_STRUMCTL : Nat := 0x5018
abbrev HS_CNSTXB : Nat := 0x5020
abbrev HS_CNSRXB : Nat := 0x5024
abbrev HS_STRUMCNT : Nat := 0x5028
abbrev HS_STRUMCAN : Nat := 0x502C
abbrev HS_CNSDATA0 : Nat := 0x5400
abbrev HS_RSTCTL : Nat := 0x6000
abbrev HS_RSTHIST : Nat := 0x6004
abbrev HS_DUMPSTAT : Nat := 0x6010
abbrev HS_DUMPSEL : Nat := 0x6014
abbrev HS_DIERST : Nat := 0x6020
abbrev HS_RSTDROP : Nat := 0x6024
abbrev HS_NVDELAY : Nat := 0x6028
abbrev HS_MGMTTMO : Nat := 0x602C
abbrev HS_RSTESC : Nat := 0x6030
abbrev HS_DUMPDATA0 : Nat := 0x6400
abbrev HS_PWRCTL : Nat := 0x7000
abbrev HS_THRTSTAT : Nat := 0x7004
abbrev HS_THERMCFG : Nat := 0x7008
abbrev HS_SNFILT : Nat := 0x700C
abbrev HS_PLIMIT : Nat := 0x7010
abbrev HS_THRTWARN : Nat := 0x7020
abbrev HS_THRTMS : Nat := 0x7024
abbrev HS_PWRLIM : Nat := 0x7028
abbrev HS_VFHOLD : Nat := 0x702C
abbrev HS_VIGILSAMP : Nat := 0x7030
abbrev HS_INRANGE : Nat := 0x7034
abbrev HS_PINSTAT : Nat := 0x7200
abbrev HS_PPSBAD : Nat := 0x7204
abbrev PG_BOOTSTAT : Nat := 0x400000
abbrev PG_UPDSTAT : Nat := 0x400010
abbrev PG_UPDCTL : Nat := 0x400014
abbrev PG_KEYSEL : Nat := 0x400020
abbrev PG_KEYCTL : Nat := 0x400024
abbrev PG_KEYSTAT : Nat := 0x400028
abbrev PG_FWMEAS0 : Nat := 0x400040
abbrev PG_DIESEL : Nat := 0x400080
abbrev PG_DIEIDLO : Nat := 0x400084
abbrev PG_DIEIDHI : Nat := 0x400088
abbrev PG_KEYDATA0 : Nat := 0x400100
abbrev PG_RINGHEAD : Nat := 0x400200
abbrev PG_RINGSEL : Nat := 0x400204
abbrev PG_RINGDATA0 : Nat := 0x400240
abbrev PG_LOGSEL : Nat := 0x400280
abbrev PG_LOGDATA0 : Nat := 0x4002C0
abbrev PG_ATTEST : Nat := 0x400300
abbrev PG_UPDFAIL : Nat := 0x400304
abbrev PG_LOGDROP : Nat := 0x400308
abbrev PG_LOGCRC : Nat := 0x40030C
abbrev PT_TUNECTL (p : Nat) : Nat := addrPart p 0x00
abbrev PT_TUNESTAT (p : Nat) : Nat := addrPart p 0x04
abbrev PT_TUNEERR (p : Nat) : Nat := addrPart p 0x08
abbrev PT_TUNEKEY (p : Nat) : Nat := addrPart p 0x0C
abbrev PT_TUNEVALO (p : Nat) : Nat := addrPart p 0x10
abbrev PT_TUNEVAHI (p : Nat) : Nat := addrPart p 0x14
abbrev PT_TUNESERLO (p : Nat) : Nat := addrPart p 0x18
abbrev PT_TUNESERHI (p : Nat) : Nat := addrPart p 0x1C
abbrev PT_TUNEBARR (p : Nat) : Nat := addrPart p 0x20
abbrev PT_TUNELOADS (p : Nat) : Nat := addrPart p 0x24
abbrev PT_TUNEREFUSE (p : Nat) : Nat := addrPart p 0x28
abbrev PT_CHOICELO (p : Nat) : Nat := addrPart p 0x2C
abbrev PT_CHOICEHI (p : Nat) : Nat := addrPart p 0x30
abbrev PT_CHOICERLO (p : Nat) : Nat := addrPart p 0x34
abbrev PT_CHOICERHI (p : Nat) : Nat := addrPart p 0x38
abbrev PT_TUNEHASH0 (p : Nat) : Nat := addrPart p 0x40
abbrev PT_FWFLIT (p : Nat) : Nat := addrPart p 0x80
abbrev PT_FWDGRAM (p : Nat) : Nat := addrPart p 0x84
abbrev PT_FWRDMA (p : Nat) : Nat := addrPart p 0x88
abbrev PT_FWMGMT (p : Nat) : Nat := addrPart p 0x8C
abbrev PT_FBBYTES (p : Nat) : Nat := addrPart p 0x90
abbrev PT_HBMBYTES (p : Nat) : Nat := addrPart p 0x94
abbrev PT_SYNCSIG (p : Nat) : Nat := addrPart p 0x98
abbrev PT_SYNCNOTE (p : Nat) : Nat := addrPart p 0x9C
abbrev PT_FAULTCTX0 (p : Nat) : Nat := addrPart p 0xA0
abbrev PT_FAULTCTX1 (p : Nat) : Nat := addrPart p 0xA4
abbrev PT_FAULTCTX2 (p : Nat) : Nat := addrPart p 0xA8
abbrev PT_FAULTCTX3 (p : Nat) : Nat := addrPart p 0xAC
abbrev PT_STGFAULT (p : Nat) : Nat := addrPart p 0xB0
abbrev PT_ROLLBACK (p : Nat) : Nat := addrPart p 0xB4
abbrev PT_STGRESET (p : Nat) : Nat := addrPart p 0xB8
abbrev PT_PARTRESET (p : Nat) : Nat := addrPart p 0xBC
abbrev HS_LDFAIL : Nat := 0x2044
abbrev HS_LDABORT : Nat := 0x2048
abbrev HS_LDNAK : Nat := 0x204C
abbrev HS_EPOCHRET : Nat := 0x2050
abbrev HS_ADMITDRAIN : Nat := 0x2054
abbrev HS_ADMITOK : Nat := 0x21C0
abbrev HS_ADMITBUSY : Nat := 0x21C4
abbrev HS_ADMITREF : Nat := 0x21C8
abbrev HS_BATCHCNT : Nat := 0x21CC
abbrev HS_SCHPAUSE : Nat := 0x21D0
abbrev HS_SCHRESUME : Nat := 0x21D4
abbrev HS_PARKEXP : Nat := 0x21D8
abbrev HS_DEADLINE : Nat := 0x21DC
abbrev HS_KVHOLDFAIL : Nat := 0x21E0
abbrev BR_NECKSTAT (n : Nat) : Nat := addrBr n 0x200
abbrev BR_NECKRETRY (n : Nat) : Nat := addrBr n 0x204
abbrev BR_FBRETRY (n : Nat) : Nat := addrBr n 0x210
abbrev BR_XOUTCNT (n : Nat) : Nat := addrBr n 0x300
abbrev BR_SLICEZERO (n : Nat) : Nat := addrBr n 0x304
abbrev BR_SLICECLAMP (n : Nat) : Nat := addrBr n 0x308
abbrev BR_NONFINITE (n : Nat) : Nat := addrBr n 0x30C
abbrev BR_FP8SAT (n : Nat) : Nat := addrBr n 0x310
abbrev BR_HBMCE0 (n : Nat) : Nat := addrBr n 0x400
abbrev BR_HBMUE0 (n : Nat) : Nat := addrBr n 0x408
abbrev BR_POISONRD (n : Nat) : Nat := addrBr n 0x410
abbrev BR_FARWAIT (n : Nat) : Nat := addrBr n 0x600
abbrev BR_FARTMO (n : Nat) : Nat := addrBr n 0x604
abbrev BR_EPOCHSW (n : Nat) : Nat := addrBr n 0x608
abbrev BR_STGPEAK (n : Nat) : Nat := addrBr n 0x71C
abbrev BR_KVSTAGED (n : Nat) : Nat := addrBr n 0x720
abbrev BR_KVDIRECT (n : Nat) : Nat := addrBr n 0x724
abbrev BR_STGFLUSH (n : Nat) : Nat := addrBr n 0x728
abbrev BR_TCHIT (n : Nat) : Nat := addrBr n 0x72C
abbrev BR_TCMISS (n : Nat) : Nat := addrBr n 0x730
abbrev BR_GENWAIT (n : Nat) : Nat := addrBr n 0x734
abbrev BR_EDITS (n : Nat) : Nat := addrBr n 0x738
abbrev BR_KVNOPAGE (n : Nat) : Nat := addrBr n 0x73C
abbrev BR_KVFAULT (n : Nat) : Nat := addrBr n 0x740
abbrev BR_KVPOISON (n : Nat) : Nat := addrBr n 0x744
abbrev BR_EMPTYATT (n : Nat) : Nat := addrBr n 0x748
abbrev BR_ATTSAT (n : Nat) : Nat := addrBr n 0x74C
abbrev BR_MASKMISS (n : Nat) : Nat := addrBr n 0x750
abbrev BR_PICKCNT (n : Nat) : Nat := addrBr n 0x800
abbrev BR_DRAFTTOK (n : Nat) : Nat := addrBr n 0x804
abbrev BR_DRAFTACC (n : Nat) : Nat := addrBr n 0x808
abbrev BR_ALLREJ (n : Nat) : Nat := addrBr n 0x80C
abbrev BR_DRAFTHALF (n : Nat) : Nat := addrBr n 0x810
abbrev BR_STOPTOK (n : Nat) : Nat := addrBr n 0x814
abbrev BR_STOPSEQ (n : Nat) : Nat := addrBr n 0x818
abbrev BR_PICKEMPTY (n : Nat) : Nat := addrBr n 0x81C
abbrev BR_TOKHOLD (n : Nat) : Nat := addrBr n 0x820
abbrev FT_PLUCKCFG (n : Nat) : Nat := addrFt n 0x8000
abbrev FT_TILECTL (n : Nat) : Nat := addrFt n 0x8010
abbrev FT_STSTAT (n : Nat) : Nat := addrFt n 0x8014
abbrev FT_BANDCNT (n : Nat) : Nat := addrFt n 0x8028
abbrev FT_TRIMLIM (n : Nat) : Nat := addrFt n 0x802C
abbrev FT_CALRETIRE (n : Nat) : Nat := addrFt n 0x8030
abbrev FT_QALARM (n : Nat) : Nat := addrFt n 0x8034
abbrev CS_STGCFG0 (f c : Nat) : Nat := addrCs f c 0x000
abbrev CS_PLUCKLO (f c : Nat) : Nat := addrCs f c 0x020
abbrev CS_PLUCKHI (f c : Nat) : Nat := addrCs f c 0x024
abbrev CS_FOLDCNT (f c : Nat) : Nat := addrCs f c 0x028
abbrev CS_ZEROCNT (f c : Nat) : Nat := addrCs f c 0x02C
abbrev CS_CLIPCNT (f c : Nat) : Nat := addrCs f c 0x030
abbrev CS_HCLIPCNT (f c : Nat) : Nat := addrCs f c 0x034
abbrev CS_RECONVDROP (f c : Nat) : Nat := addrCs f c 0x038
abbrev CS_LOADSTALL (f c : Nat) : Nat := addrCs f c 0x03C
abbrev CS_DRAINWAIT (f c : Nat) : Nat := addrCs f c 0x040
abbrev CS_STEPCNT0 (f c : Nat) : Nat := addrCs f c 0x044
abbrev CS_QCFG0 (f c : Nat) : Nat := addrCs f c 0x060
abbrev CS_XOUTCNT (f c : Nat) : Nat := addrCs f c 0x070
abbrev CS_SLICEZERO (f c : Nat) : Nat := addrCs f c 0x074
abbrev CS_SLICECLAMP (f c : Nat) : Nat := addrCs f c 0x078
abbrev CS_NONFINITE (f c : Nat) : Nat := addrCs f c 0x07C
abbrev CS_FP8SAT (f c : Nat) : Nat := addrCs f c 0x080
abbrev CS_CAPOPOL0 (f c : Nat) : Nat := addrCs f c 0x100
abbrev CS_ADVLAST (f c : Nat) : Nat := addrCs f c 0x114
abbrev CS_WOUTCNT (f c : Nat) : Nat := addrCs f c 0x120
abbrev CS_AOUTCNT (f c : Nat) : Nat := addrCs f c 0x124
abbrev CS_COLRECOMP (f c : Nat) : Nat := addrCs f c 0x128
abbrev CS_GRPRECOMP (f c : Nat) : Nat := addrCs f c 0x12C
abbrev CS_UNSETTLED (f c : Nat) : Nat := addrCs f c 0x130
abbrev CS_QOVF (f c : Nat) : Nat := addrCs f c 0x134
abbrev CS_ENCORE (f c : Nat) : Nat := addrCs f c 0x138
abbrev CS_ENCOREPER (f c : Nat) : Nat := addrCs f c 0x13C
abbrev CS_CLIPOUTA (f c : Nat) : Nat := addrCs f c 0x140
abbrev CS_CLIPOUTW (f c : Nat) : Nat := addrCs f c 0x144
abbrev CS_CAPOSTALL (f c : Nat) : Nat := addrCs f c 0x148
abbrev CS_SAMPLECNT (f c : Nat) : Nat := addrCs f c 0x14C
abbrev CS_SAMPDROP (f c : Nat) : Nat := addrCs f c 0x150
abbrev CS_EXACTGRP (f c : Nat) : Nat := addrCs f c 0x154
abbrev CS_ADVCNT (f c : Nat) : Nat := addrCs f c 0x158
abbrev CS_TPCFG0 (f c : Nat) : Nat := addrCs f c 0x200
abbrev CS_KBLOW (f c : Nat) : Nat := addrCs f c 0x220
abbrev CS_KBSAT (f c : Nat) : Nat := addrCs f c 0x224
abbrev CS_TREESAT (f c : Nat) : Nat := addrCs f c 0x228
abbrev CS_TREESTALL (f c : Nat) : Nat := addrCs f c 0x22C
abbrev CS_BUFSTALL (f c : Nat) : Nat := addrCs f c 0x230
abbrev CS_SEALWAIT (f c : Nat) : Nat := addrCs f c 0x234
abbrev CS_DRAINCNT (f c : Nat) : Nat := addrCs f c 0x238
abbrev CS_HCCFG0 (f c : Nat) : Nat := addrCs f c 0x240
abbrev CS_HCMISS (f c : Nat) : Nat := addrCs f c 0x260
abbrev CS_HCFAULTH (f c : Nat) : Nat := addrCs f c 0x264
abbrev CS_HCFAULTD (f c : Nat) : Nat := addrCs f c 0x268
abbrev CS_HCBADCOL (f c : Nat) : Nat := addrCs f c 0x26C
abbrev CS_HCMULTI (f c : Nat) : Nat := addrCs f c 0x270
abbrev CS_HCNOFAULT (f c : Nat) : Nat := addrCs f c 0x274
abbrev CS_CELLFAULT (f c : Nat) : Nat := addrCs f c 0x278
abbrev CS_VOIDPLK (f c : Nat) : Nat := addrCs f c 0x27C
abbrev CS_REPAIRSTALL (f c : Nat) : Nat := addrCs f c 0x280
abbrev CS_LOADPAR (f c : Nat) : Nat := addrCs f c 0x284
abbrev CS_OUTPAR (f c : Nat) : Nat := addrCs f c 0x288
abbrev CS_SELFTEST (f c : Nat) : Nat := addrCs f c 0x28C
abbrev CS_TRANSIENT (f c : Nat) : Nat := addrCs f c 0x290
abbrev CS_RETIRE (f c : Nat) : Nat := addrCs f c 0x294
abbrev CS_COLRETIRE (f c : Nat) : Nat := addrCs f c 0x298
abbrev CS_ESCAPE (f c : Nat) : Nat := addrCs f c 0x29C
abbrev CS_COVERED (f c : Nat) : Nat := addrCs f c 0x2A0
abbrev CS_DRNCFG0 (f c : Nat) : Nat := addrCs f c 0x2E0
abbrev CS_FOLDDN (f c : Nat) : Nat := addrCs f c 0x2F0
abbrev CS_FOLDUP (f c : Nat) : Nat := addrCs f c 0x2F4
abbrev CS_TCLIP (f c t : Nat) : Nat := addrTile f c t 0x00C
abbrev CS_TFAULT (f c t : Nat) : Nat := addrTile f c t 0x010
abbrev CS_TUSE0 (f c t : Nat) : Nat := addrTile f c t 0x040
abbrev CS_TRET0 (f c t : Nat) : Nat := addrTile f c t 0x080
abbrev CS_TSCAN0 (f c t : Nat) : Nat := addrTile f c t 0x0C0

/-- The reset word of a register kept as a word: the Reset columns of the register tables (zero where they say 0). -/
def regReset (a : Nat) : Word :=
  if a = HS_ETHCFG then 0x00E3BEA0#32
  else if a = HS_THERMCFG then 0x3C#32
  else if a = HS_SNFILT then 0x1#32
  else if a = HS_PLIMIT then 0xC80#32
  else match locOf a with
    | some (.part _ 0xA0) => 0x00FFF000#32
    | some (.part _ 0x08) => 0xFFFFFFFF#32
    | some (.cs _ _ 0x114) => 0xFFFF0000#32
    | _ => 0#32

end Sys2Proof.Machine
end

