-- ==== Sys2Proof/Machine/State.lean ====
section
/-! DEFINITION. The state of the block, as plain data: every register, buffer, counter, mode and pin the spec gives
the Gledon 2524, the queue of waiting commands, the state right after reset, and the reasons a step can stop. -/

namespace Sys2Proof.Machine

/-- A message the part has sent and the host has not acknowledged (12 R486); `key` is the session key that tags it. -/
structure Sent where
  hdr : Hdr
  payload : List Byte
  key : List Byte
  first : DWord
  late : Bool
  deriving DecidableEq, Repr

/-- One association (12 R482-R490). `limit` is the CREDIT the part sends, `used` the CONSUMED of the host's
messages, `busy` the units of accepted messages not yet processed; `hostLimit` and `myUsed` are the same of the
part's own messages; `rto` and `rtoFrom` the retransmission time and the last resend. `queued` holds messages formed and not yet covered by the host's credit; `openDue`: the answer to OPEN waits for the
port's priority. -/
structure Assoc where
  host : BitVec 128
  port : Half
  dest : Nat
  lastSeq : Word
  mySeq : Word
  limit : Word
  used : Word
  busy : Nat
  hostLimit : Word
  myUsed : Word
  unacked : List Sent
  queued : List Sent
  rto : Nat
  rtoFrom : DWord
  accepted : Option DWord
  subscribe : Bool
  ece : Bool
  openDue : Bool
  lost : Bool
  closing : Bool
  deriving DecidableEq, Repr

/-- One management session (12 R504-R507), with its own copies of the selector registers and of every capture
(13 R525) and its key store buffer (15 R594). -/
structure Session where
  num : Word
  aid : Nat
  keeper : Bool
  part : Nat
  ident : Word
  khd : List Byte
  kdh : List Byte
  last : DWord
  sel : SMap Word
  cap : SMap Word
  keybuf : List Byte
  deriving DecidableEq, Repr

/-- A Strand message accepted and waiting for a wake, a reset's end or a step boundary (17 R638, 16 R615, 10 R394):
the association that carried it, the units it holds and when it was accepted. -/
structure Held where
  aid : Nat
  msg : Dgram
  units : Nat
  at_ : DWord
  deriving DecidableEq, Repr

/-- The Strand port's transport state (12); `lastAcc` holds, per partition, the time, CORE cycle and association of
the last accepted message (13 R539); `macPn` counts, per partition, the datagrams sent under the present key of its MACsec
transmit channel (R476). -/
structure Strand where
  assocs : SMap Assoc
  nextAid : Nat
  sessions : List Session
  held : List Held
  lastAcc : SMap (DWord × Nat × Nat)
  macPn : SMap Nat
  deriving DecidableEq, Repr

/-- The Ethernet port (12 R473-R478, R513): module presence, lane lock, FEC lock, link, and per flow-controlled
priority the free receive buffer, whether XOFF stands and whether transmission is paused. `qps` holds, per queue
pair, the last CNP sent and the DCQCN rate number. -/
structure Eth where
  module : Bool
  lanes : Byte
  fec : Bool
  up : Bool
  rxFreeRdma : Nat
  rxFreeStrand : Nat
  xoffRdma : Bool
  xoffStrand : Bool
  pausedRdma : Bool
  pausedStrand : Bool
  cnpAt : SMap DWord
  rate : SMap Word
  deriving DecidableEq, Repr

/-- What a hand-over of 13 R523 waits for. -/
inductive ResKind where
  | course | bridge | hbm | stream | adapter | pfx
  deriving DecidableEq, Repr

/-- A resource between two owners (13 R523): `bridge` matters for HBM units; the range is `base`, `count`. -/
structure HandOver where
  kind : ResKind
  bridge : Nat
  base : Nat
  count : Nat
  loser : Nat
  deriving DecidableEq, Repr

/-- The partition map (13 R516-R523): current and staged 1 KiB records keyed 4p + kind, the accepted commits that
wait for a barrier (the three records as validated), and HS_MAPSTAT. -/
structure PMap where
  cur : SMap (List Byte)
  stg : SMap (List Byte)
  waiting : SMap (List (List Byte))
  handovers : List HandOver
  result : Byte
  lastPart : Nat
  deriving DecidableEq, Repr

/-- A wait on a sync object (13 R529). -/
structure Wait where
  obj : Nat
  part : Nat
  aid : Nat
  handle : Word
  threshold : DWord
  cookie : DWord
  deriving DecidableEq, Repr

/-- The sync objects (13 R527-R530): values not 0, the waits in registration order, and the
time, CORE cycle and partition of each object's last update (R531). -/
structure Sync where
  val : SMap DWord
  waits : List Wait
  lastUpd : SMap (DWord × Nat × Nat)
  deriving DecidableEq, Repr

/-- A key store entry (15 R569); STATE 0 empty, 1 valid, 2 revoked. -/
structure KeyEntry where
  keyid : Word
  usage : Byte
  part : Byte
  state : Byte
  pub : List Byte
  deriving DecidableEq, Repr

/-- One copy of a two-copy flash region (15 R566): `ok` says that its CRC-32 holds. -/
structure Copy (α : Type) where
  gen : Nat
  ok : Bool
  val : α
  deriving DecidableEq, Repr

/-- A firmware or pattern image as the checks of 15 R578 see it. -/
structure FwImage where
  hdrOk : Bool
  kind : Byte
  commitSvn : Bool
  svn : Nat
  length : Nat
  load : Nat
  certOk : Bool
  root : Nat
  trailerOk : Bool
  sigOk : Bool
  digest : List Byte
  deriving DecidableEq, Repr

/-- Fuses (15 R567, R584; 07 R296; 19 R684, R685), and `roots`, the SHA-512 of each root key in the boot ROM (15 R567). -/
structure Fuses where
  revoked : BitVec 4
  svn : Nat
  lifecycle : BitVec 2
  rev : BitVec 4
  order : Nat
  roots : List (List Byte)
  ids : SMap DWord
  tcGain : SMap Byte
  tcOff : SMap Byte
  deriving DecidableEq, Repr

/-- The persistent-log entry of 15 R588: the ring record's 48 bytes and the boot count. `ok` is its CRC. -/
structure LogEntry where
  bytes : List Byte
  boot : Word
  ok : Bool
  deriving DecidableEq, Repr

/-- The module flash (15 R566): identity region, two copies of the key store and of the retirement map (keys
(16 f + c) 64 + t), the log, the crash summary, the firmware and pattern images (`none`: no valid header). -/
structure Flash where
  idOk : Bool
  serial : DWord
  mac : BitVec 48
  devCert : List Byte
  provCert : List Byte
  keysA : Copy (SMap KeyEntry)
  keysB : Copy (SMap KeyEntry)
  retA : Copy (List Nat)
  retB : Copy (List Nat)
  log : List LogEntry
  logHalf : Nat
  summary : Option (List Byte)
  fw : Option FwImage
  pat : Option FwImage
  deriving DecidableEq, Repr

/-- A RAM ring record (15 R587). -/
structure RingRec where
  seq : Word
  part : Byte
  flags : Byte
  time : DWord
  payload : List Byte
  deriving DecidableEq, Repr

/-- A firmware update (15 R579-R582): STATE 0 IDLE to 4 DONE; the chunks staged, newest first. -/
structure Update where
  state : Nat
  code : Byte
  chunks : Nat
  sess : Word
  total : Nat
  staged : List (Nat × List Byte)
  last : DWord
  image : Option FwImage
  deriving DecidableEq, Repr

/-- The Pegbox (15): working key store, key store write in progress (RESULT, KEY_CHANGE code and KEYID to report),
ring, persistent queue, boot facts, update. -/
structure Peg where
  keys : SMap KeyEntry
  keyBusy : Option (Byte × Word)
  keyResult : Byte
  ring : List RingRec
  ringSeq : Word
  logQ : List (List Byte)
  bootCount : Word
  mode : BitVec 2
  fwOk : Bool
  patOk : Bool
  root : Nat
  halt : Byte
  fwSvn : Nat
  fwMeas : List Byte
  claimTried : Bool
  update : Update
  idBad : Bool
  bootEvent : Bool
  deriving DecidableEq, Repr

/-- Phases of a device-scope reset (16 R602, R604, R613): waiting for a non-volatile write; asserted; released with
the straps sampled; booted (PLL locked, ROM run); calibrated; and none in progress. -/
inductive Phase where
  | idle | nvWait | asserted | released | booted | calibrated
  deriving DecidableEq, Repr

/-- Reset scopes as 16 R627 encodes them. -/
inductive Scope where
  | stage | partition | die | warm | cold | coldLoss
  deriving DecidableEq, Repr

/-- A reset of stage, partition or die scope in progress or waiting (16 R611, R615). `part` and `stage` name a stage
or partition reset, `die` a pair; `t0` is the oscillator time of its assertion. -/
structure SubReset where
  scope : Scope
  part : Nat
  stage : Nat
  die : Nat
  source : Nat
  t0 : Nat
  deriving DecidableEq, Repr

/-- What a crash dump slot holds (16 R625): its bytes; `ok` when complete. -/
structure Dump where
  ok : Bool
  bytes : List Byte
  deriving DecidableEq, Repr

/-- The reset controller (16). `cause`, `scope`, `mask` are those of the device reset in progress or the last one; `lines`
the source codes still asserted (1 until PWR_OK rises, 3 while RST_N is low); `t0` and `time0` the oscillator count and the
time counter at its assertion, `prevSvn` the SVN of the firmware that ran before it (R626); `history` the oscillator seconds of counted resets, newest first; `unstable` that of HS_STRAPS. -/
structure Rst where
  phase : Phase
  scope : Scope
  cause : Nat
  mask : Nat
  lines : List Nat
  t0 : Nat
  time0 : DWord
  willWithdraw : Bool
  subs : List SubReset
  waiting : List SubReset
  history : List Nat
  countedTotal : Nat
  withdrawn : Bool
  entries : Nat
  reinstates : Nat
  regCause : Word
  nv : Option NvWrite
  dump0 : Dump
  dump1 : Dump
  newest : Bool
  unstable : Bool
  prevSvn : Nat
  deriving DecidableEq, Repr

/-- Power and heat (17). STATE 0 Active, 1 Idle, 2 Hush, 3 Vigil; `target` the state being entered while a request
drains and `entering` once the drain has ended; `heldWake` a wake event met during entry (R641). `tstep`, `below`,
`ppeak`, `pmean`, `pbelow` time the steps of R649 and R650, `thrtFrom` the count of HS_THRTMS; `psamples` the last
100 power samples; `alert` the causes that hold ALERT_N low (1 thermal, 2 input, 3 trip, 4 overrun, 5 halt). -/
structure Pwr where
  supply : Bool
  state : Nat
  transit : Bool
  wake : Nat
  waking : Bool
  target : Option Nat
  drainFrom : DWord
  entryFrom : DWord
  wakeFrom : DWord
  heldWake : Nat
  result : Byte
  tlevel : Nat
  plevel : Nat
  grace : Option DWord
  warn : Bool
  tstep : DWord
  below : Option DWord
  ppeak : DWord
  pmean : DWord
  pbelow : Option DWord
  thrtFrom : DWord
  alert : List Nat
  psamples : List Nat
  inRange : Bool
  tripped : Bool
  overV : Bool
  vigilLast : DWord
  deriving DecidableEq, Repr

/-- Pins and test access (18): input levels, strap levels and their sampled values, pad hold, latches, PPS. `tap` is
the instruction; `boundary` the cells as (contact, level). -/
structure Pins where
  rstN : Bool
  trstN : Bool
  ppsIn : Bool
  bootSel : BitVec 2
  clkMode : BitVec 2
  bootSampled : BitVec 2
  clkSampled : BitVec 2
  padHold : Bool
  latched : Bool
  latchPps : Bool
  latchAlert : Bool
  pwrOk : Bool
  ppsOut : Bool
  ppsLast : Option DWord
  tap : Nat
  bypass : Bool
  boundary : SMap Bool
  extest : Bool
  clamp : Bool
  deriving DecidableEq, Repr

/-- A flit kept for replay: header and payload (01 R22, R25). -/
structure Flit where
  hdr : DWord
  payload : List Byte
  deriving DecidableEq, Repr

/-- A flit that its sender holds while the link is not up, with the channels, and virtual channels on them, that lie before it (01 R26). -/
structure HeldFlit where
  flit : Flit
  vc : Nat
  rest : List (Nat × Nat)
  deriving DecidableEq, Repr

/-- One channel of a link (01 R25, R26). Receiver side: `discard` the LSEQ whose replay is awaited, `fails` how many
times in a row that flit failed. Sender side: the next LSEQ, the last 1,024 flits sent, and what waits for the link: a replay asked for,
and the flits held. -/
structure Chan where
  discard : Option Nat
  fails : Nat
  next : Nat
  buf : List Flit
  replay : Option Nat
  held : List HeldFlit
  deriving DecidableEq, Repr

/-- One link (01 R26, R27, R57): STATE 0 DOWN, 1 TRAINING, 2 UP, 3 FAILED, and failed retrainings in a row. -/
structure Link where
  state : Nat
  failed : Nat
  deriving DecidableEq, Repr

/-- The Neck and Fingerboard links: channels and links by number (see Machine/Links.lean). -/
structure Links where
  chans : SMap Chan
  links : SMap Link
  deriving DecidableEq, Repr
/-! ### Fret dies (02, 04-07) -/

/-- A row segment of 64 weight slots (02 R64, R67, R68): sign cell in bit 4, magnitude cells in bits 3:0 of each slot;
the harmonic cell (sign in bit 10) and the parity bits. -/
structure Seg where
  slots : List Byte
  harm : BitVec 11
  p0 : Bool
  p1 : Bool
  deriving DecidableEq, Repr

/-- A weight-outlier record of a plane (03 R124, 04 R146). -/
structure WRec where
  row : Nat
  col : Nat
  oexp : Nat
  oval : Nat
  deriving DecidableEq, Repr

/-- A plane load on its way (08 R315): the block's address on its Bridge, its layer tag and format, and whether it was
resent once (06 R239), repairs the ACTIVE plane (06 R236), or has its end marker held behind a DRAIN. -/
structure PlaneLoad where
  addr : Nat
  codeOff : Nat
  layer : Nat
  fp4 : Bool
  scales : List Half
  recs : List WRec
  resent : Bool
  repair : Bool
  started : Bool
  endHeld : Bool
  deriving DecidableEq, Repr

/-- A cell plane (02 R92-R97): state code, format, layer tag, column scales and records while usable, the segments
written (8 r + g), the load, and the segments held behind DRAIN with their parity verdicts; `src` is the block's address in HBM. -/
structure Plane where
  st : Nat
  src : Nat
  fp4 : Bool
  tag : Nat
  scales : List Half
  recs : List WRec
  segs : SMap Seg
  load : Option PlaneLoad
  held : List (Nat × Bool)
  deriving DecidableEq, Repr

/-- A trim entry (04 R151, 07 R285). -/
structure Trim where
  gain : Int
  off : Int
  stale : Bool
  derived : Bool
  deriving DecidableEq, Repr

/-- The running sums of 07 R281; u is kept in units of 1/84 LSB, so every sum is dyadic. -/
structure FitSums where
  s0 : Dy
  su : Dy
  sq : Dy
  suu : Dy
  suq : Dy
  n : Nat
  deriving DecidableEq, Repr

/-- The tracker and the code distribution of one column (02 R88, 07 R294). -/
structure ColStat where
  min : Int
  max : Int
  mean : Dy
  sqr : Dy
  deriving DecidableEq, Repr

/-- An outlier of a slice: index, OEXP and OVAL (03 R134). -/
structure OutEnt where
  index : Nat
  oexp : Nat
  oval : Nat
  deriving DecidableEq, Repr

/-- A vector of a batch as the Fret dies and Bridges see it: stream-table index, token position, seed. -/
structure VecId where
  stream : Nat
  pos : Nat
  seed : DWord
  deriving DecidableEq, Repr

/-- An activation slice waiting at a tile (02 R72, R73; 03 R132, R133). -/
structure Slice where
  stream : Nat
  codes : List Nat
  scale : Nat
  outs : List OutEnt
  deriving DecidableEq, Repr

/-- The vector that a tile takes, as CS_TLASTV shows it once its last window has ended (02 R105). -/
structure VecNote where
  n : Nat
  folded : Bool
  step1 : Nat
  step2 : Nat
  clips : Nat
  deriving DecidableEq, Repr

/-- A fold decided and not yet plucked, or a pluck whose terms have not all left the Capo (02, 04, 06). `fold` is 0 for
an only pluck, 1 or 2 for a fold; `x` the input values driven, of which the rows in `back` are outliers written back (04 R172);
`bank` the samples that its hold bank keeps, by column, 512 + g for a harmonic column (02 R76); `codes` the converter codes of the
columns converted; `note` counts the clipped columns of its vector;
`bad` the columns unsettled or discarded for parity; `recon` the re-converts awaited and `trimmed` those accepted;
`colrec` and `grprec` the recomputes awaited; `exact` exact sums by column; `wait` the
groups not handed on, `open_` those handed on and not settled, `passed` those that passed and await retired columns;
`outcome` the settled groups (0 pass, 1 no fault, 2 harmonic, 3 data, 4 multi, 5 exact); `sent` the groups whose terms
have been formed and `left` those the Tailpiece has accepted. -/
structure Pluck where
  id : Nat
  src : Nat
  tile : Nat
  wtile : Nat
  planeB : Bool
  slot : Nat
  layer : Nat
  vec : VecId
  fold : Nat
  lastOf : Bool
  x : List Int
  scale : Nat
  outs : List OutEnt
  recs : List WRec
  back : List Nat
  step : Nat
  note : VecNote
  bank : SMap Int
  trims : SMap Trim
  qf : Nat
  qh : Nat
  converted : Bool
  codes : SMap Int
  bad : List Nat
  recon : List Nat
  trimmed : SMap Int
  colrec : List Nat
  grprec : List Nat
  exact : SMap Int
  wait : List Nat
  open_ : List Nat
  passed : List Nat
  outcome : SMap Nat
  sampled : Bool
  voided : Bool
  sent : List Nat
  left : List Nat
  deriving DecidableEq, Repr

/-- A term of 04 R155-R157: output column within the tile, MANT and EXP. -/
structure Term where
  col : Nat
  mant : Int
  exp : Int
  deriving DecidableEq, Repr

/-- The terms of one group on their way to the Tailpiece (04 R162); `last` closes the tile's part of the vector;
`tries` counts parity errors met (06 R241). -/
structure TermMsg where
  pid : Nat
  group : Nat
  slot : Nat
  wtile : Nat
  tile : Nat
  vec : VecId
  layer : Nat
  terms : List Term
  last : Bool
  tries : Nat
  deriving DecidableEq, Repr

/-- A physical tile (02, 06, 07). TSTATE 0 active, 1 observed, 2 retired, 3 unassigned spare. `home` is 1 + the working
tile it left service from. `tables` holds the entries of the Drone's four trim tables that were fitted and `sums` its fits
(512 columns and 8 harmonic columns per band, key 520 band + column); `base` the entries that full calibration fitted, by
column; `qSeq` the count of the die's band changes at the last publication; `bqf`, `bqh` the figures that its checks use since its last
pluck began (06 R228); `farWait` is set while a counted far-tier load waits (08 R321); `mseF`, `mseH` in (1/84 LSB)^2. -/
structure Tile where
  tstate : Nat
  home : Nat
  act : Bool
  pa : Plane
  pb : Plane
  use : BitVec 512
  ret : BitVec 512
  lastv : Word
  lastStep : Nat
  inq : List Slice
  farWait : Bool
  taken : Nat
  next : Option Pluck
  cols : SMap ColStat
  suspect : Bool
  inTest : Bool
  lastRes : Nat
  obsLeft : Nat
  obsFrom : DWord
  scanFrom : DWord
  lfsr : Word
  base : SMap (Int × Int)
  tables : SMap Trim
  sums : SMap FitSums
  qf : Nat
  qh : Nat
  bqf : Nat
  bqh : Nat
  qSeq : Nat
  mseF : Dy
  mseH : Dy
  nsamp : Nat
  qalarm : Option DWord
  deriving DecidableEq, Repr

/-- A pass of a stage (02 R94, 10 R400). -/
structure PassD where
  part : Nat
  model : Nat
  stage : Nat
  layer : Nat
  epoch : Word
  batch : Nat
  vecs : List VecId
  deriving DecidableEq, Repr

/-- A layer tag the Capo tracks (04 R174, R175). -/
structure AdvTag where
  layer : Nat
  count : Nat
  ovf : Nat
  excess : Nat
  peak : Nat
  deriving DecidableEq, Repr

/-- A vector slot of an output buffer (05 R211): leaves by 64 slice + leaf, tree results by slice, operands by
2 slice + n - 1, each by column. -/
structure VSlot where
  vec : VecId
  layer : Nat
  batch : Nat
  leaves : SMap (SMap Nat)
  results : SMap (SMap Nat)
  ops : SMap (SMap Nat)
  flags : Nat
  deriving DecidableEq, Repr

/-- An output buffer (05 R215): 0 FREE, 1 FILL, 2 SEAL, 3 SEALED, 4 DRAIN; `order` ranks the moment it became FREE or
SEALED. -/
structure Buf where
  st : Nat
  slots : List VSlot
  order : Nat
  deriving DecidableEq, Repr

/-- A K-block register set of one vector (05 R192-R195): the registers by column, the working tiles that have delivered
all. -/
structure KbReg where
  slot : Nat
  vec : VecId
  layer : Nat
  oslice : Nat
  leaf : Nat
  vals : SMap Int
  done : List Nat
  narrowed : Bool
  deriving DecidableEq, Repr

/-- A stage slot of a course at work: its partition, the passes formed and not begun, the pass in progress, windows of
the pass and of the advisory tracker, extra Encore periods left, fold-adaptation counts, the output buffers, and how many vectors
of the pass in progress and those after it have been assigned a buffer slot (05 R214). -/
structure Slot where
  part : Nat
  descs : List PassD
  cur : Option PassD
  taken : Nat
  passStart : DWord
  wins : Nat
  ovf : Nat
  excess : Nat
  peak : Nat
  adv : List AdvTag
  advLast : SMap DWord
  encore : Nat
  repair : List Nat
  fplucks : Nat
  fmarks : Nat
  flow : Nat
  bufA : Buf
  bufB : Buf
  assigned : Nat
  deriving DecidableEq, Repr

/-- Error feedback of one output slice position (03 R139). -/
structure EfSet where
  valid : Bool
  stream : Nat
  pos : Nat
  exp : Nat
  rho : List Int
  deriving DecidableEq, Repr

/-- A Drone sample waiting for its exact values (04 R177, R178). -/
structure Sample where
  pluck : Pluck
  band : Nat
  deriving DecidableEq, Repr

/-- A self-test wanted or running (06 R249, R253, R266): `keeper` 0 from the suspect flow, 1 Keeper test, 2 Keeper
reinstatement; `periodic` in an observation. -/
structure TestReq where
  tile : Nat
  keeper : Nat
  periodic : Bool
  running : Bool
  deriving DecidableEq, Repr

/-- A vector that the tiles of a course have begun to take, in pass order (05 R197): the leaves, 64 slice + leaf, that have left for
other root courses; `done` once its registers are free. -/
structure Handed where
  slot : Nat
  vec : VecId
  layer : Nat
  sent : List Nat
  done : Bool
  deriving DecidableEq, Repr

/-- A narrowed leaf that waits for those of the vectors before it (05 R197): its values by column. -/
structure Leaf where
  slot : Nat
  vec : VecId
  layer : Nat
  oslice : Nat
  leaf : Nat
  vals : List Nat
  deriving DecidableEq, Repr

/-- A course (01 R47; 02-07). `handed` lists the vectors begun and `leafq` the leaves that wait to leave. `tmap` names the physical tile of a working tile (0x3F: covered); `assigned` the tile that
a plane load goes to instead while a switch waits; `cov` the slices of covered working tiles; `backlog` the items pending in the Capo. -/
structure Course where
  tmap : SMap Nat
  slots : SMap Slot
  plucks : List Pluck
  capoOut : List TermMsg
  kbs : List KbReg
  handed : List Handed
  leafq : List Leaf
  ef : SMap EfSet
  samples : List Sample
  tests : List TestReq
  assigned : SMap Nat
  cov : SMap (List Slice)
  covTaken : SMap Nat
  orders : Nat
  backlog : Nat
  deriving DecidableEq, Repr

/-- A die's Drone and bands (07): for Fret n key n, for Bridge n key 16 + n. CAL 0 none, 1 full, 2 quick. The tables of
bands other than `calBand` derive from its fits and the temperature `calT` once `derived`; `bandSeq` counts band changes
since the last calibration. -/
structure Die where
  band : Nat
  calT : Int
  calBand : Nat
  derived : Bool
  bandSeq : Nat
  hot : Bool
  cal : Nat
  dblref : Bool
  deriving DecidableEq, Repr

/-- A Keeper tile command's results (06 R266). -/
structure TileCmd where
  done : Bool
  kat : Nat
  scan : Nat
  deriving DecidableEq, Repr

/-- The Fret dies: tiles by (16 f + c) 64 + t, courses by 16 f + c, the flits on the course
rings by die, dies, tile commands by die. -/
structure Fret where
  tiles : SMap Tile
  courses : SMap Course
  rings : SMap (List Flit)
  dies : SMap Die
  cmds : SMap TileCmd
  deriving DecidableEq, Repr

/-! ### Weights, Tuning images and streams (08-11) -/

/-- A load window (08 R305-R314). STATE 1 WAITING, 2 OPEN, 3 COMMITTING. `adapter` names the slot of an adapter
window; `place` holds the HBM address of each shard by Bridge; `written` the units written whole and `partialEnd` the
end of a partial unit's write, by (2,048 b + j) 1,024 + unit; `reply` the association and message of a LOAD_COMMIT. -/
structure Window where
  num : Nat
  part : Nat
  model : Nat
  adapter : Option Nat
  rank : Nat
  state : Nat
  epoch : Word
  layout : Word
  retireAfter : Nat
  drain : Bool
  counts : List Nat
  place : List (List Nat)
  written : SMap Bool
  partialEnd : SMap Nat
  last : DWord
  reply : Option (Nat × Dgram)
  deriving DecidableEq, Repr

/-- A live epoch (08 R323): where its shards lie, its block index (tile place and layer tag to HBM address), and the
far-tier shards. `retiredBy` is the DRAIN_FIRST window that retired it. -/
structure Epoch where
  part : Nat
  model : Nat
  num : Word
  layout : Word
  retiring : Bool
  retireBy : Option DWord
  retiredBy : Option Nat
  place : List (List Nat)
  index : SMap Nat
  farShards : Nat
  farVa : DWord
  deriving DecidableEq, Repr

/-- A generation of an adapter slot (08 R334). -/
structure AdpGen where
  slot : Nat
  gen : Nat
  part : Nat
  model : Nat
  layout : Word
  rank : Nat
  retiring : Bool
  place : List (List Nat)
  deriving DecidableEq, Repr

/-- A far-tier layer being fetched or landed (08 R320-R322): `half` of the landing area that holds it, and its blocks by
tile place as HBM addresses. -/
structure FarLayer where
  part : Nat
  model : Nat
  epoch : Word
  layer : Nat
  started : DWord
  landed : Bool
  half : Nat
  index : SMap Nat
  left : List Nat
  deriving DecidableEq, Repr

structure Loads where
  windows : List Window
  epochs : List Epoch
  gens : List AdpGen
  adpLast : SMap Nat
  far : List FarLayer
  deriving DecidableEq, Repr

/-- A Tuning load in progress (11 R459): its bytes, when it began or entered BARRIER; STATE 2 VERIFYING, 3 BARRIER. -/
structure TuneLoad where
  bytes : List Byte
  state : Nat
  from_ : DWord
  deriving DecidableEq, Repr

/-- A partition's Tuning state (11): the staging area, the image in force ([] for none) and its measurement, the load,
whether the partition is suspended, the last result, and whether the mask area has been written. -/
structure Tune where
  staging : SMap Byte
  image : List Byte
  meas : List Byte
  load : Option TuneLoad
  suspended : Bool
  code : Byte
  sect : Byte
  maskLive : Bool
  deriving DecidableEq, Repr

/-- Sampling and stop parameters (10 R412). -/
structure Sampling where
  temp : Word
  topK : Nat
  topP : Word
  minP : Word
  repPen : Word
  freqPen : Word
  presPen : Word
  penPrompt : Bool
  bias : List (Nat × Word)
  stopTok : List Nat
  stopSeq : List (List Nat)
  mask : Nat
  deriving DecidableEq, Repr

/-- A draft token with the draft model's final distribution, as candidates in order (10 R407). -/
structure DraftTok where
  tok : Nat
  q : List (Nat × Word)
  deriving DecidableEq, Repr

/-- A step or chunk of a stream in flight (10 R392, R402): its batch, its first position, its length. -/
structure StepRec where
  batch : Nat
  pos0 : Nat
  count : Nat
  prefill : Bool
  deriving DecidableEq, Repr

/-- A token record on its way to the Strand engine, and the batch whose pass produced it; none when another member of the consort sent it. -/
structure OutRec where
  batch : Option Nat
  bytes : List Byte
  deriving DecidableEq, Repr

/-- A stream (10 R388-R395): the entry of R390, the host that reaches it (12 R488), and what the Headstock and the home
Bridge keep for it. `toks` maps a position to its token and whether the stream generated it; `rows` a position to its
input row; `dataBuf` and `maskBuf` bytes not yet whole; `hist` the generated tokens of the turn, newest first;
`start` the NEXTPOS of its admission; `flags` the record flags of R419 that the next record takes, `pflags` those of positions whose tokens are still to come; `recs` the records not confirmed (R420). `stop` is the model's own: the
end reason that the coming step boundary applies; `outq` holds records on their way to the Strand engine (12 R497). -/
structure Stream where
  handle : Word
  state : Nat
  part : Nat
  prio : Nat
  model : Nat
  keep : Bool
  more : Bool
  hostp : Bool
  schedp : Bool
  home : Nat
  epoch : Word
  adapter : Nat
  adpgen : Nat
  nextpos : Nat
  avail : Nat
  turnLeft : Nat
  draftMax : Nat
  draft : Nat
  turn : Bool
  moving : Bool
  heldKv : Bool
  heldTok : Bool
  atRisk : Bool
  rejrun : Nat
  endr : Nat
  seed : DWord
  limit : DWord
  target : Word
  emitted : Nat
  admitT : Word
  host : BitVec 128
  port : Half
  maxlen : Nat
  mode : Nat
  prefixLen : Nat
  start : Nat
  rowsFmt : Option Nat
  samp : Sampling
  toks : SMap (Nat × Bool)
  rows : SMap (List Byte)
  dataBuf : List Byte
  maskBuf : List Byte
  hist : List Nat
  flags : Nat
  pflags : SMap Nat
  recs : Nat
  turnBegan : DWord
  turnEmitted : Bool
  stepEnd : Option DWord
  stepGap : Nat
  stepToks : Nat
  heldFrom : Option DWord
  steps : List StepRec
  drafts : List DraftTok
  draftDone : Bool
  rolled : Option Nat
  lastBatch : Nat
  park : Option (Nat × Nat)
  unpark : Bool
  finalAcked : Bool
  stop : Nat
  outq : List OutRec
  deriving DecidableEq, Repr

/-- A prefix handle (10 R428, 09 R366): its Bridge, bindings, length, mode length, frames by page of the region (whole
frames and the copy of a partial one), its tokens. -/
structure Prefix where
  part : Nat
  model : Nat
  bridge : Nat
  epoch : Word
  adapter : Nat
  adpgen : Nat
  len : Nat
  prefixLen : Nat
  frames : SMap Nat
  draftFrames : SMap Nat
  toks : SMap (Nat × Bool)
  deriving DecidableEq, Repr

/-- A batch in flight (10 R400-R403): its streams' steps are the StepRecs that name it; `begun` once the first stage
has begun its first pass. -/
structure Batch where
  id : Nat
  model : Nat
  epoch : Word
  vecs : List VecId
  begun : Bool
  deriving DecidableEq, Repr

/-- A partition's scheduler: batches in flight, the epoch of the last batches of a model and how many in a row (R403),
times of entries freed (R429), since when no stream has been at risk (R423), and the last resume. -/
structure Sched where
  batches : List Batch
  nextId : Nat
  runEpoch : SMap (Nat × Nat)
  frees : List DWord
  calmFrom : DWord
  resumed : DWord
  deriving DecidableEq, Repr

/-- A leaf of a KV page table (09 R353): LOC (2 + p for the far memory of partition p), RO and the frame's address. -/
structure Pte where
  loc : Nat
  ro : Bool
  addr : Nat
  deriving DecidableEq, Repr

/-- A KV region with its descriptor (09 R348-R350). -/
structure Region where
  part : Nat
  base : Nat
  rsize : Nat
  maxlen : Nat
  len : Nat
  mode : Nat
  model : Nat
  prefixLen : Nat
  rows : Nat
  shared : Nat
  deriving DecidableEq, Repr

/-- A table edit accepted and pending (09 R358-R360): the leaves it changes by page key (none: unmapped); `arg` is the
new length of a TRUNCATE. -/
structure Edit where
  op : Nat
  stream : Nat
  region : Nat
  arg : Nat
  changes : List (Nat × Option Pte)
  deriving DecidableEq, Repr

/-- A generation that has not ended (09 R361, R362): the root tables by partition, its walks in progress, the frames,
table pages and ranges it retires. -/
structure KvGen where
  num : Word
  roots : SMap Nat
  walks : Nat
  retire : List Nat
  tabs : List Nat
  ranges : List (Nat × Nat × Nat)
  deriving DecidableEq, Repr

/-- A staging buffer in use (09 R369, R370): 1 OPEN, 2 FLUSHING. Bytes by offset in the run; `bad` its uncorrectable
64-bit words, by word of the run (R373). -/
structure StgBuf where
  stream : Nat
  layer : Nat
  first : Nat
  st : Nat
  bytes : SMap Byte
  bad : List Nat
  deriving DecidableEq, Repr

/-- An attention step at work (09 R374, R375): the stream, its layer and pass, the first and the number of its query
positions, the generation and the region descriptor taken, KEND; `gone` when its stream ended or rolled back and its output
is discarded. -/
structure Walk where
  stream : Nat
  layer : Nat
  batch : Nat
  pos0 : Nat
  count : Nat
  gen : Word
  region : Region
  kend : Nat
  queries : SMap (List Byte)
  gone : Bool
  deriving DecidableEq, Repr

/-- Key, value and query pieces of a step that have arrived (09 R372, R374): `appended` as 4096 pos + 1024 kind + head,
`direct` the first positions of the runs on the direct path, queries by 1024 pos + head. -/
structure KvStep where
  stream : Nat
  layer : Nat
  batch : Nat
  pos0 : Nat
  count : Nat
  appended : List Nat
  direct : List Nat
  queries : SMap (List Byte)
  deriving DecidableEq, Repr

/-- A COPY or MOVE whose data transfer is on its way (09 R358, 12 R425). -/
structure Transfer where
  op : Nat
  stream : Nat
  region : Nat
  page : Nat
  src : Nat
  loc : Nat
  deriving DecidableEq, Repr

/-- The KV side of one Bridge (09): the generations that have not ended, oldest first (the last is current, C), pending
edits and when the first was accepted, table pages in use or on a retire list with their levels, frame reference counts by (loc, address), regions by 2 stream + draft, staging
buffers, steps and walks, transfers, and the translation cache by set, most recent first. -/
structure KvBridge where
  gens : List KvGen
  edits : List Edit
  editFrom : DWord
  tables : SMap Nat
  frames : SMap Nat
  regions : SMap Region
  bufs : List StgBuf
  kvsteps : List KvStep
  walks : List Walk
  transfers : List Transfer
  cache : SMap (List Nat)
  deriving DecidableEq, Repr

/-! ### Consorts (14) -/

/-- A Strum held by the master from its request, or by a member from its arrival, until T (R551, R552): the members that
acknowledged it, whether it is COMMITTED, and whether a member missed it. -/
structure Strum where
  action : Nat
  arg : Nat
  obj : Nat
  at_ : DWord
  acks : List Nat
  committed : Bool
  missed : Bool
  deriving DecidableEq, Repr

/-- A PTP measurement under way (R549): times of Sync sent and received and of Delay_Req sent, in 0.25 ns. -/
structure PtpMeas where
  t1 : Int
  t2 : Int
  t3 : Int
  deriving DecidableEq, Repr

/-- The consort (14 R546-R562): current and staged record, HS_CNSSTAT's STATE (0 ALONE, 1 JOINING, 2 FORMED, 3 STOPPED),
BUSY, ALIGNED and RESULT, the members that have joined and those lost, since when the alignment has held or failed, the last
offset, whether the gate is open, the Strums, when the master was last heard, time was last slewed and Sync last sent, the
measured path delay, and whether the one step at join has been taken (R549). -/
structure Cns where
  cur : List Byte
  stg : List Byte
  state : Nat
  busy : Bool
  aligned : Bool
  result : Byte
  joined : List Nat
  lost : List Nat
  alignFrom : DWord
  offset : Word
  gate : Bool
  strums : List Strum
  last : Nat
  heard : DWord
  slewed : DWord
  synced : DWord
  meas : Option PtpMeas
  delay : Int
  stepped : Bool
  deriving DecidableEq, Repr

/-- What the part sends to the outside in one step: Strand messages, PFC and congestion frames, RoCEv2 answers and
requests, answers to ARP, neighbour discovery and echo, PTP messages, consort messages and TDO bits. -/
inductive Tx where
  | msg (host : BitVec 128) (port : Half) (dest : Nat) (hdr : Hdr) (payload tag : List Byte)
  | pfc (prio : Nat) (xoff : Bool)
  | cnp (qp : Nat)
  | rdmaAck (qp : Nat)
  | rdmaNakAccess (qp : Nat)
  | rdmaNakInvalid (qp : Nat)
  | rdmaRead (qp : Nat) (rkey : Word) (va : DWord) (len : Nat)
  | rdmaWrite (qp : Nat) (va : DWord) (data : List Byte)
  | arpReply (ip : Word)
  | naReply (ip : BitVec 128)
  | echoReply (dst : BitVec 128) (data : List Byte)
  | ptp (domain kind : Nat) (time : DWord)
  | consort (member kind : Nat) (data : List Byte)
  | tdo (bits : List Bool)
  | flit (chan : Nat) (hdr : DWord) (payload : List Byte) (crc : BitVec 40)
  | replayRequest (chan lseq : Nat)
  deriving DecidableEq, Repr

/-- The block's own state, everything but the queue of waiting commands. `time` is the global time counter (R689),
`timeRun` whether it runs, `osc` the on-module oscillator's count since power loss (R597, R621), `free` the model's
own counter of free values drawn, `regs` the management registers kept as words, `tx` what the last command sent. -/
structure Dev where
  time : DWord
  timeRun : Bool
  osc : Nat
  free : Nat
  regs : SMap Word
  fuses : Fuses
  flash : Flash
  strand : Strand
  eth : Eth
  map : PMap
  sync : Sync
  peg : Peg
  rst : Rst
  pwr : Pwr
  pins : Pins
  links : Links
  fret : Fret
  mem : SMap Byte
  poison : SMap Bool
  loads : Loads
  tunes : SMap Tune
  streams : SMap Stream
  incarnation : SMap Nat
  prefixes : SMap Prefix
  scheds : SMap Sched
  kv : SMap KvBridge
  cns : Cns
  tx : List Tx
  deriving DecidableEq, Repr

/-- The whole machine: the block and its queue of waiting commands, first in, first out. -/
structure State where
  dev : Dev
  pending : List Instr
  deriving DecidableEq, Repr

/-! ### The state right after reset: power-on reset asserted (16 R597, R603, R617; 17 R653) -/

/-- The flash and the fuses as this model ships them: a claimable part with valid images, no key and nothing retired
(DESIGN CHOICE, notes/assumptions/1.md). -/
def shippedImage (kind : Byte) : FwImage :=
  { hdrOk := true, kind := kind, commitSvn := false, svn := 0, length := 832, load := 0, certOk := true, root := 0, trailerOk := true,
    sigOk := true, digest := List.replicate 64 0x00#8 }

def shippedFlash : Flash :=
  { idOk := true, serial := 0#64, mac := 0#48, devCert := List.replicate 284 0x00#8, provCert := List.replicate 284 0x00#8,
    keysA := { gen := 0, ok := true, val := [] }, keysB := { gen := 0, ok := false, val := [] },
    retA := { gen := 0, ok := true, val := [] }, retB := { gen := 0, ok := false, val := [] },
    log := [], logHalf := 0, summary := none, fw := some (shippedImage 0#8), pat := some (shippedImage 1#8) }

def shippedFuses : Fuses :=
  { revoked := 0#4, svn := 0, lifecycle := 1#2, rev := 0#4, order := 1, roots := List.replicate 4 (List.replicate 64 0#8), ids := [], tcGain := [], tcOff := [] }

def resetPegState : Peg :=
  { keys := [], keyBusy := none, keyResult := 0xFF#8, ring := [], ringSeq := 0#32, logQ := [], bootCount := 0#32, mode := 0#2, fwOk := false,
    patOk := false, root := 0, halt := 0#8, fwSvn := 0, fwMeas := [], claimTried := false,
    update := { state := 0, code := 0xFF#8, chunks := 0, sess := 0#32, total := 0, staged := [], last := 0#64, image := none },
    idBad := false, bootEvent := false }

/-- The reset controller with a power-on reset in progress: code 1, cold with power loss. -/
def resetRst : Rst :=
  { phase := .asserted, scope := .coldLoss, cause := 1, mask := 1, lines := [1], t0 := 0, time0 := 0#64, willWithdraw := false, subs := [],
    waiting := [], history := [], countedTotal := 0, withdrawn := false, entries := 0, reinstates := 0, regCause := 0#32, nv := none,
    dump0 := { ok := false, bytes := [] }, dump1 := { ok := false, bytes := [] }, newest := false, unstable := false, prevSvn := 0 }

def resetPwrState : Pwr :=
  { supply := true, state := 0, transit := false, wake := 0, waking := false, target := none, drainFrom := 0#64, entryFrom := 0#64,
    wakeFrom := 0#64, heldWake := 0, result := 0xFF#8, tlevel := 0, plevel := 0, grace := none, warn := false, tstep := 0#64, below := none,
    ppeak := 0#64, pmean := 0#64, pbelow := none, thrtFrom := 0#64, alert := [], psamples := [], inRange := true, tripped := false,
    overV := false, vigilLast := 0#64 }

/-- Pads held (R603); the levels at the inputs are those of open pins (DESIGN CHOICE, notes/assumptions/1.md). -/
def resetPinsState : Pins :=
  { rstN := true, trstN := false, ppsIn := false, bootSel := 0#2, clkMode := 0#2, bootSampled := 0#2, clkSampled := 0#2, padHold := true,
    latched := false, latchPps := false, latchAlert := false, pwrOk := false, ppsOut := false, ppsLast := none, tap := 0, bypass := false,
    boundary := [], extest := false, clamp := false }

def resetEthState : Eth :=
  { module := false, lanes := 0x00#8, fec := false, up := false, rxFreeRdma := 4194304, rxFreeStrand := 4194304, xoffRdma := false,
    xoffStrand := false, pausedRdma := false, pausedStrand := false, cnpAt := [], rate := [] }

def resetCns : Cns :=
  { cur := List.replicate 1024 0x00#8, stg := List.replicate 1024 0x00#8, state := 0, busy := false, aligned := false, result := 0xFF#8,
    joined := [], lost := [], alignFrom := 0#64, offset := 0#32, gate := false, strums := [], last := 0, heard := 0#64, slewed := 0#64,
    synced := 0#64, meas := none, delay := 0, stepped := false }

/-- The block right after reset. A map that lists nothing reads as its default everywhere: a register as its reset value
(Machine/RegMap.lean), a tile as a fresh one (Machine/FretCore.lean), and so on. -/
def resetDev : Dev :=
  { time := 0#64, timeRun := false, osc := 0, free := 0, regs := [], fuses := shippedFuses, flash := shippedFlash,
    strand := { assocs := [], nextAid := 0, sessions := [], held := [], lastAcc := [], macPn := [] }, eth := resetEthState,
    map := { cur := [], stg := [], waiting := [], handovers := [], result := 0xFF#8, lastPart := 0 },
    sync := { val := [], waits := [], lastUpd := [] }, peg := resetPegState, rst := resetRst, pwr := resetPwrState, pins := resetPinsState,
    links := { chans := [], links := [] }, fret := { tiles := [], courses := [], rings := [], dies := [], cmds := [] }, mem := [], poison := [],
    loads := { windows := [], epochs := [], gens := [], adpLast := [], far := [] }, tunes := [], streams := [],
    incarnation := [], prefixes := [], scheds := [], kv := [], cns := resetCns, tx := [] }

/-- Right after reset, with no command waiting. -/
def State.reset : State := { dev := resetDev, pending := [] }

/-- Why a step stops with a fault: no command of the part does, so there is no constructor. -/
inductive Fault : Type
  deriving DecidableEq, Repr

/-- Why a step refuses a command. -/
inductive Refusal where
  /-- Raised by Dispatch for a row that has no meaning yet. Safe. -/
  | notModelled (mnemonic : String)
  deriving DecidableEq, Repr

end Sys2Proof.Machine
end

