-- ==== Sys2Proof/Machine/Ops.lean ====
section
/-! DEFINITION. The named operations over the state: sparse maps, byte strings, register words and counters, the
free-value counter, time, events and the ring, and the sending of Strand messages. -/

namespace Sys2Proof.Machine

/-! ### Sparse maps -/

def mget? {α : Type} (m : SMap α) (k : Nat) : Option α := m.lookup k

/-- Put `v` at key `k`, keeping the keys strictly rising. -/
def mput {α : Type} : SMap α → Nat → α → SMap α
  | [], k, v => [(k, v)]
  | (j, w) :: r, k, v => if k < j then (k, v) :: (j, w) :: r else if k = j then (k, v) :: r else (j, w) :: mput r k v

/-- Remove a key. -/
def mdel {α : Type} (m : SMap α) (k : Nat) : SMap α := m.filter fun e => e.1 != k

def mgetD {α : Type} (m : SMap α) (k : Nat) (dflt : α) : α := (mget? m k).getD dflt

/-- Put `v`, or remove the key when `v` is what an absent key reads as. -/
def mputD {α : Type} [DecidableEq α] (m : SMap α) (k : Nat) (v dflt : α) : SMap α :=
  if v = dflt then mdel m k else mput m k v

def mmod {α : Type} (m : SMap α) (k : Nat) (f : α → α) : SMap α :=
  match mget? m k with
  | some v => mput m k (f v)
  | none => m

def mfilter {α : Type} (m : SMap α) (p : Nat → α → Bool) : SMap α := m.filter fun e => p e.1 e.2

def mmap {α : Type} (m : SMap α) (f : α → α) : SMap α := m.map fun e => (e.1, f e.2)

/-- The keys rise strictly: the canonical form of a sparse map. -/
def SMapWf {α : Type} : SMap α → Bool
  | [] => true
  | [_] => true
  | (j, _) :: (k, w) :: r => decide (j < k) && SMapWf ((k, w) :: r)

/-! ### Byte strings (little-endian, 12 R479) -/

/-- `n` bytes of `v`, least significant first. -/
def leBytes : Nat → Nat → List Byte
  | 0, _ => []
  | n + 1, v => BitVec.ofNat 8 v :: leBytes n (v / 256)

def leNat : List Byte → Nat
  | [] => 0
  | b :: r => b.toNat + 256 * leNat r

def u8 (l : List Byte) (o : Nat) : Nat := (l.getD o 0#8).toNat
def u16 (l : List Byte) (o : Nat) : Nat := leNat [l.getD o 0#8, l.getD (o + 1) 0#8]
def u32 (l : List Byte) (o : Nat) : Nat := leNat ((l.drop o).take 4)
def u64 (l : List Byte) (o : Nat) : Nat := leNat ((l.drop o).take 8)
def bytesAt (l : List Byte) (o n : Nat) : List Byte := (l.drop o).take n
def allZero (l : List Byte) : Bool := l.all (· == 0#8)
def padTo (n : Nat) (l : List Byte) : List Byte := l ++ List.replicate (n - l.length) 0#8
def pad4 (n : Nat) : Nat := (n + 3) / 4 * 4
/-- Two's-complement value of the low `w` bits of `v`. -/
def sext (w v : Nat) : Int := (BitVec.ofNat w v).toInt
/-- The low `w` bits of `v` in two's complement. -/
def enc (w : Nat) (v : Int) : Nat := (BitVec.ofInt w v).toNat
/-- Bits [lo + w - 1 : lo] of `v`. -/
def bits (v lo w : Nat) : Nat := v / 2 ^ lo % 2 ^ w
def bit (v k : Nat) : Bool := bits v k 1 = 1
def b2n (b : Bool) : Nat := if b then 1 else 0

/-! ### Registers kept as words -/

def regGet (a : Nat) (d : Dev) : Word := mgetD d.regs a (regReset a)

/-- Write a word, keeping the list in its canonical form: no entry equal to the reset word. -/
def regPut (a : Nat) (v : Word) (d : Dev) : Dev :=
  { d with regs := mputD d.regs a v (regReset a) }

def wordField (w : Word) (lo n : Nat) : Nat := bits w.toNat lo n

/-- `w` with bits [lo + n - 1 : lo] replaced by `v`. -/
def setWordField (w : Word) (lo n v : Nat) : Word :=
  BitVec.ofNat 32 (w.toNat - bits w.toNat lo n * 2 ^ lo + v % 2 ^ n * 2 ^ lo)

def regField (a lo n : Nat) (d : Dev) : Nat := wordField (regGet a d) lo n
def regSetField (a lo n v : Nat) (d : Dev) : Dev := regPut a (setWordField (regGet a d) lo n v) d

/-- Add to a counter field; it saturates at its maximum (R16). -/
def addField (a lo n k : Nat) (d : Dev) : Dev :=
  regSetField a lo n (min (regField a lo n d + k) (2 ^ n - 1)) d

/-- Count `k` in a whole-register counter. -/
def addCtr (a k : Nat) (d : Dev) : Dev :=
  regPut a (BitVec.ofNat 32 (min ((regGet a d).toNat + k) 0xFFFFFFFF)) d

/-- Count one in a whole-register counter (saturating, R16). -/
def bump (a : Nat) (d : Dev) : Dev := addCtr a 1 d

/-- Count `k` in a counter that wraps at 2^32. -/
def addWrap (a k : Nat) (d : Dev) : Dev := regPut a (regGet a d + BitVec.ofNat 32 k) d

/-- Add one to a 64-bit count held in a LO and a HI register, wrapping at 2^64. -/
def add64 (lo hi k : Nat) (d : Dev) : Dev :=
  let v := ((regGet lo d).toNat + (regGet hi d).toNat * 2 ^ 32 + k) % 2 ^ 64
  regPut hi (BitVec.ofNat 32 (v / 2 ^ 32)) (regPut lo (BitVec.ofNat 32 v) d)

/-- A timing-dependent choice of partition `p` (13 R539): PT_CHOICE advances, and PT_CHOICER with it when the choice
can change results. -/
def choice (p : Nat) (results : Bool) (d : Dev) : Dev :=
  let d := add64 (PT_CHOICELO p) (PT_CHOICEHI p) 1 d
  if results then add64 (PT_CHOICERLO p) (PT_CHOICERHI p) 1 d else d

/-! ### Time, free values -/

def us (n : Nat) : Nat := 100 * n
def ms (n : Nat) : Nat := 100000 * n
def sec (n : Nat) : Nat := 100000000 * n

/-- Counts of 10 ns since `t` (modulo 2^64, R689). -/
def since (t : DWord) (d : Dev) : Nat := (d.time - t).toNat

def timeBytes (d : Dev) : List Byte := leBytes 8 d.time.toNat

/-- Draw a free value: the counter advances, so no two draws are known to be equal or different. -/
def draw (d : Dev) : Nat × Dev := (d.free, { d with free := d.free + 1 })

def send (t : Tx) (d : Dev) : Dev := { d with tx := d.tx ++ [t] }

/-! ### Running a meaning -/

/-- Run a command's effect on the block: what the previous command sent is gone, the queue is untouched. -/
def lift (f : Dev → Dev) (s : State) : Host.Outcome State Fault Refusal :=
  .next { s with dev := f { s.dev with tx := [] } }

/-- An effect that takes place when its condition holds; otherwise nothing happens. -/
def when_ (c : Bool) (f : Dev → Dev) (d : Dev) : Dev := if c then f d else d

/-- Fold a state change over a list. -/
def forEach {α : Type} (l : List α) (f : α → Dev → Dev) (d : Dev) : Dev := l.foldl (fun d x => f x d) d

end Sys2Proof.Machine
end

