-- ==== Sys2Proof/Machine/Crypto.lean ====
section
/-! DEFINITION. SHA-512 and HMAC-SHA-512, named by 12 R504, R505, 11 R455 and 15 R568-R585 and taken from the
published standard (PRESUMED: FIPS 180-4 and FIPS 198-1, whose text the spec does not repeat), and CRC-32. -/

namespace Sys2Proof.Machine

def sha512K0 : List DWord :=
  [0x428a2f98d728ae22, 0x7137449123ef65cd, 0xb5c0fbcfec4d3b2f, 0xe9b5dba58189dbbc,
   0x3956c25bf348b538, 0x59f111f1b605d019, 0x923f82a4af194f9b, 0xab1c5ed5da6d8118]
def sha512K1 : List DWord :=
  [0xd807aa98a3030242, 0x12835b0145706fbe, 0x243185be4ee4b28c, 0x550c7dc3d5ffb4e2,
   0x72be5d74f27b896f, 0x80deb1fe3b1696b1, 0x9bdc06a725c71235, 0xc19bf174cf692694]
def sha512K2 : List DWord :=
  [0xe49b69c19ef14ad2, 0xefbe4786384f25e3, 0x0fc19dc68b8cd5b5, 0x240ca1cc77ac9c65,
   0x2de92c6f592b0275, 0x4a7484aa6ea6e483, 0x5cb0a9dcbd41fbd4, 0x76f988da831153b5]
def sha512K3 : List DWord :=
  [0x983e5152ee66dfab, 0xa831c66d2db43210, 0xb00327c898fb213f, 0xbf597fc7beef0ee4,
   0xc6e00bf33da88fc2, 0xd5a79147930aa725, 0x06ca6351e003826f, 0x142929670a0e6e70]
def sha512K4 : List DWord :=
  [0x27b70a8546d22ffc, 0x2e1b21385c26c926, 0x4d2c6dfc5ac42aed, 0x53380d139d95b3df,
   0x650a73548baf63de, 0x766a0abb3c77b2a8, 0x81c2c92e47edaee6, 0x92722c851482353b]
def sha512K5 : List DWord :=
  [0xa2bfe8a14cf10364, 0xa81a664bbc423001, 0xc24b8b70d0f89791, 0xc76c51a30654be30,
   0xd192e819d6ef5218, 0xd69906245565a910, 0xf40e35855771202a, 0x106aa07032bbd1b8]
def sha512K6 : List DWord :=
  [0x19a4c116b8d2d0c8, 0x1e376c085141ab53, 0x2748774cdf8eeb99, 0x34b0bcb5e19b48a8,
   0x391c0cb3c5c95a63, 0x4ed8aa4ae3418acb, 0x5b9cca4f7763e373, 0x682e6ff3d6b2b8a3]
def sha512K7 : List DWord :=
  [0x748f82ee5defb2fc, 0x78a5636f43172f60, 0x84c87814a1f0ab72, 0x8cc702081a6439ec,
   0x90befffa23631e28, 0xa4506cebde82bde9, 0xbef9a3f7b2c67915, 0xc67178f2e372532b]
def sha512K8 : List DWord :=
  [0xca273eceea26619c, 0xd186b8c721c0c207, 0xeada7dd6cde0eb1e, 0xf57d4f7fee6ed178,
   0x06f067aa72176fba, 0x0a637dc5a2c898a6, 0x113f9804bef90dae, 0x1b710b35131c471b]
def sha512K9 : List DWord :=
  [0x28db77f523047d84, 0x32caab7b40c72493, 0x3c9ebe0a15c9bebc, 0x431d67c49c100d4c,
   0x4cc5d4becb3e42b6, 0x597f299cfc657e2a, 0x5fcb6fab3ad6faec, 0x6c44198c4a475817]

def sha512K : List DWord :=
  sha512K0 ++ sha512K1 ++ sha512K2 ++ sha512K3 ++ sha512K4 ++ sha512K5 ++ sha512K6 ++ sha512K7 ++ sha512K8 ++ sha512K9

def sha512H0 : List DWord :=
  [0x6a09e667f3bcc908, 0xbb67ae8584caa73b, 0x3c6ef372fe94f82b, 0xa54ff53a5f1d36f1,
   0x510e527fade682d1, 0x9b05688c2b3e6c1f, 0x1f83d9abfb41bd6b, 0x5be0cd19137e2179]

def rotr64 (x : DWord) (n : Nat) : DWord := x.rotateRight n

def bigBytes (n v : Nat) : List Byte := (leBytes n v).reverse

/-- The padded message: 0x80, zeros, then the bit length in 16 big-endian bytes. -/
def sha512Pad (m : List Byte) : List Byte :=
  let z := (239 - m.length % 128) % 128
  m ++ [0x80#8] ++ List.replicate z 0#8 ++ bigBytes 16 (8 * m.length)

def bigWords : Nat → List Byte → List DWord
  | 0, _ => []
  | n + 1, l => BitVec.ofNat 64 (leNat ((l.take 8).reverse)) :: bigWords n (l.drop 8)

/-- The message schedule, newest word first: sixteen words extended to eighty. -/
def sha512Sched : Nat → List DWord → List DWord
  | 0, w => w
  | n + 1, w =>
    let a := w.getD 1 0#64
    let b := w.getD 14 0#64
    let s1 := rotr64 a 19 ^^^ rotr64 a 61 ^^^ (a >>> 6)
    let s0 := rotr64 b 1 ^^^ rotr64 b 8 ^^^ (b >>> 7)
    sha512Sched n ((s1 + w.getD 6 0#64 + s0 + w.getD 15 0#64) :: w)

structure Sha512Vars where
  a : DWord
  b : DWord
  c : DWord
  d : DWord
  e : DWord
  f : DWord
  g : DWord
  h : DWord
  deriving DecidableEq, Repr

def sha512Round (s : Sha512Vars) (kw : DWord × DWord) : Sha512Vars :=
  let t1 := s.h + (rotr64 s.e 14 ^^^ rotr64 s.e 18 ^^^ rotr64 s.e 41)
    + ((s.e &&& s.f) ^^^ (~~~ s.e &&& s.g)) + kw.1 + kw.2
  let t2 := (rotr64 s.a 28 ^^^ rotr64 s.a 34 ^^^ rotr64 s.a 39)
    + ((s.a &&& s.b) ^^^ (s.a &&& s.c) ^^^ (s.b &&& s.c))
  { a := t1 + t2, b := s.a, c := s.b, d := s.c, e := s.d + t1, f := s.e, g := s.f, h := s.g }

def sha512Block (hs : List DWord) (blk : List Byte) : List DWord :=
  let w := (sha512Sched 64 (bigWords 16 blk).reverse).reverse
  let v0 : Sha512Vars := ⟨hs.getD 0 0, hs.getD 1 0, hs.getD 2 0, hs.getD 3 0, hs.getD 4 0, hs.getD 5 0,
    hs.getD 6 0, hs.getD 7 0⟩
  let v := (sha512K.zip w).foldl sha512Round v0
  List.zipWith (· + ·) hs [v.a, v.b, v.c, v.d, v.e, v.f, v.g, v.h]

def sha512Blocks : Nat → List DWord → List Byte → List DWord
  | 0, hs, _ => hs
  | n + 1, hs, m => sha512Blocks n (sha512Block hs (m.take 128)) (m.drop 128)

/-- SHA-512 of a byte string: 64 bytes. -/
def sha512 (m : List Byte) : List Byte :=
  let p := sha512Pad m
  (sha512Blocks (p.length / 128) sha512H0 p).flatMap fun w => bigBytes 8 w.toNat

/-- HMAC-SHA-512. -/
def hmac512 (key msg : List Byte) : List Byte :=
  let k0 := if key.length > 128 then sha512 key else key
  let k := k0 ++ List.replicate (128 - k0.length) 0#8
  sha512 (k.map (· ^^^ 0x5c#8) ++ sha512 (k.map (· ^^^ 0x36#8) ++ msg))

def crc32Bit (r : Word) : Word := if r &&& 1#32 = 1#32 then (r >>> 1) ^^^ 0xEDB88320#32 else r >>> 1

def crc32Byte (r : Word) (b : Byte) : Word :=
  (List.range 8).foldl (fun c _ => crc32Bit c) (r ^^^ b.setWidth 32)

/-- CRC-32 (15 R566, R588, 16 R626), taken as the IEEE 802.3 polynomial, reflected (PRESUMED). -/
def crc32 (m : List Byte) : Word := ~~~ (m.foldl crc32Byte 0xFFFFFFFF#32)

end Sys2Proof.Machine
end

