-- ==== Sys2Proof/Machine/Flags.lean ====
section
/-! DEFINITION. Flag bits and codes: the FLAGS of the Strand header (12 R479), the status codes (12 R492), and the
comparison of sequence numbers and credits (12 R483). -/

namespace Sys2Proof.Machine

abbrev fREPLY : Byte := 0x01#8
abbrev fOPEN : Byte := 0x02#8
abbrev fCLOSE : Byte := 0x04#8
abbrev fREJECT : Byte := 0x08#8
abbrev fAUTH : Byte := 0x10#8
abbrev fRETX : Byte := 0x20#8
abbrev fECE : Byte := 0x40#8
abbrev fSUBSCRIBE : Byte := 0x80#8

def hasFlag (h : Hdr) (f : Byte) : Bool := h.flags &&& f != 0#8

abbrev stOK : Nat := 0x0000
abbrev stBUSY : Nat := 0x0001
abbrev stNO_MODEL : Nat := 0x0002
abbrev stDRAINING : Nat := 0x0003
abbrev stNO_ADAPTER : Nat := 0x0004
abbrev stNO_PREFIX : Nat := 0x0005
abbrev stPREFIX_STALE : Nat := 0x0006
abbrev stPREFIX_FULL : Nat := 0x0007
abbrev stBAD_PARAM : Nat := 0x0008
abbrev stMASK_INVALID : Nat := 0x0009
abbrev stKV_RANGE : Nat := 0x000A
abbrev stNO_SPACE : Nat := 0x000B
abbrev stNO_STREAM : Nat := 0x000C
abbrev stSTREAM_STATE : Nat := 0x000D
abbrev stBAD_EDIT : Nat := 0x000E
abbrev stLAYOUT_MISMATCH : Nat := 0x0010
abbrev stWINDOW_BUSY : Nat := 0x0011
abbrev stEPOCH_BUSY : Nat := 0x0012
abbrev stEPOCH_ORDER : Nat := 0x0013
abbrev stNO_WINDOW : Nat := 0x0014
abbrev stSHARD_MISSING : Nat := 0x0015
abbrev stIMAGE_FORMAT : Nat := 0x0016
abbrev stNONFINITE_INPUT : Nat := 0x0017
abbrev stADAPTER_BUSY : Nat := 0x0018
abbrev stWITHDRAWN : Nat := 0x0019
abbrev stNO_SYNC : Nat := 0x0020
abbrev stSYNC_FULL : Nat := 0x0021
abbrev stBAD_ADDRESS : Nat := 0x0030
abbrev stREAD_ONLY : Nat := 0x0031
abbrev stNOT_KEEPER : Nat := 0x0032
abbrev stNOT_OWNER : Nat := 0x0033
abbrev stLOAD_BUSY : Nat := 0x0034
abbrev stAUTH_FAIL : Nat := 0x0035
abbrev stNO_SESSION : Nat := 0x0036
abbrev stMGMT_BUSY : Nat := 0x0037
abbrev stBAD_MESSAGE : Nat := 0x0038

/-- a > b of 12 R483: a - b is positive in 32-bit two's complement. -/
def seqGt (a b : Word) : Bool := decide (0 < (a - b).toInt)
def seqGe (a b : Word) : Bool := !seqGt b a

end Sys2Proof.Machine
end

