-- ==== Sys2Proof/Machine/Operands.lean ====
section
/-! DEFINITION. The forms operands take: the Strand header as bytes and back, the classes of message types
(12 R479, R480), and message costs (12 R489). -/

namespace Sys2Proof.Machine

/-- The 32 bytes of a header (12 R479). -/
def hdrBytes (h : Hdr) : List Byte :=
  [h.version, h.ttype, h.part, h.flags] ++ leBytes 4 h.seq.toNat ++ leBytes 4 h.ack.toNat
    ++ leBytes 2 h.length.toNat ++ leBytes 2 h.rsv0.toNat ++ leBytes 4 h.stream.toNat ++ leBytes 4 h.credit.toNat
    ++ leBytes 4 h.session.toNat ++ leBytes 4 h.rsv1.toNat

/-- The header that 32 bytes spell. -/
def hdrOfBytes (l : List Byte) : Hdr :=
  { version := l.getD 0 0#8, ttype := l.getD 1 0#8, part := l.getD 2 0#8, flags := l.getD 3 0#8,
    seq := BitVec.ofNat 32 (u32 l 4), ack := BitVec.ofNat 32 (u32 l 8), length := BitVec.ofNat 16 (u16 l 12),
    rsv0 := BitVec.ofNat 16 (u16 l 14), stream := BitVec.ofNat 32 (u32 l 16), credit := BitVec.ofNat 32 (u32 l 20),
    session := BitVec.ofNat 32 (u32 l 24), rsv1 := BitVec.ofNat 32 (u32 l 28) }

/-- Types 0x01-0x09, 0x20-0x24, 0x28 and 0x29: work requests (12 R480, 16 R622). -/
def isWork (t : Nat) : Bool := (1 ≤ t && t ≤ 9) || (0x20 ≤ t && t ≤ 0x24) || t = 0x28 || t = 0x29

/-- Management requests (12 R480). -/
def isMgmt (t : Nat) : Bool := t = 0x30 || t = 0x31 || t = 0x33 || t = 0x34 || t = 0x35

/-- Types that need a die, and wake the part from Hush (17 R638). -/
def isDieWork (t : Nat) : Bool := (1 ≤ t && t ≤ 9) || (0x20 ≤ t && t ≤ 0x24)

/-- Credit-bearing types of either direction; replies to them bear credit too (12 R480). -/
def bearsCredit (t : Nat) : Bool := isWork t || t = 0x10 || t = 0x11 || t = 0x12

/-- The units of a message of `len` payload bytes (12 R489). -/
def msgCost (t len : Nat) : Nat := if bearsCredit t then (32 + len + 255) / 256 else 0

/-- The 16 bytes that begin every reply to a work request (12 R491). -/
def replyHead (st idx : Nat) (refseq : Word) (hint : Nat) : List Byte :=
  leBytes 2 st ++ leBytes 2 idx ++ leBytes 4 refseq.toNat ++ leBytes 8 hint

/-- The address side of a datagram: partition number, or 255 for a device address. -/
def destOf (m : Dgram) : Nat := if m.dest < 32 then m.dest else 255

/-- The datagram with the TYPE its row names. -/
def asType (t : Byte) (m : Dgram) : Dgram := { m with hdr := { m.hdr with ttype := t } }

/-- The datagram with some header flags set and others cleared, as its row names. -/
def asFlags (on off : Byte) (m : Dgram) : Dgram :=
  { m with hdr := { m.hdr with flags := (m.hdr.flags &&& ~~~off) ||| on } }

end Sys2Proof.Machine
end

