-- ==== Sys2Proof/Machine/Ecdsa.lean ====
section
/-! DEFINITION. ECDSA over P-521 (11 R455, 12 R504, 15 R568, R572, R577) and the shared secret of 12 R505, from the published standard
(PRESUMED: FIPS 186, SEC 1; the spec names the curve and gives no text of either; log 155). -/

namespace Sys2Proof.Machine

/-- The field prime, the constant b of y^2 = x^3 - 3x + b, the order and the generator of P-521. -/
def p521 : Nat := 2 ^ 521 - 1
def p521b : Nat :=
  0x0051953EB9618E1C9A1F929A21A0B68540EEA2DA725B99B315F3B8B489918EF109E156193951EC7E937B1652C0BD3BB1BF073573DF883D2C34F1EF451FD46B503F00
def p521n : Nat :=
  0x01FFFFFFFFFFFFFFFFFFFFFFFFFFFFFFFFFFFFFFFFFFFFFFFFFFFFFFFFFFFFFFFFFA51868783BF2F966B7FCC0148F709A5D03BB5C9B8899C47AEBB6FB71E91386409
def p521x : Nat :=
  0x00C6858E06B70404E9CD9E3ECB662395B4429C648139053FB521F828AF606B4D3DBAA14B5E77EFE75928FE1DC127A2FFA8DE3348B3C1856A429BF97E7E31C2E5BD66
def p521y : Nat :=
  0x011839296A789A3BC0045C8A5FB42C7D1BD998F54449579B446817AFBD17273E662C97EE72995EF42640C550B9013FAD0761353C7086A272C24088BE94769FD16650

/-- A point with x = X / Z^2 and y = Y / Z^3; Z = 0 is the point at infinity. -/
structure EcPt where
  x : Nat
  y : Nat
  z : Nat
  deriving DecidableEq, Repr

def ecZero : EcPt := ⟨1, 1, 0⟩
def ecGen : EcPt := ⟨p521x, p521y, 1⟩

def subP (a b : Nat) : Nat := (a + p521 - b % p521) % p521

/-- `r * a ^ e` modulo `m`, over the low `k` bits of `e` from the top; `r` starts at 1. -/
def powMod (m e a : Nat) : Nat → Nat → Nat
  | 0, r => r
  | k + 1, r => powMod m e a k (if e.testBit k then r * r % m * a % m else r * r % m)

/-- The inverse modulo a prime of 521 bits. -/
def invMod (m a : Nat) : Nat := powMod m (m - 2) a 521 1

def ecDouble (q : EcPt) : EcPt :=
  let zz := q.z * q.z % p521
  let yy := q.y * q.y % p521
  let s := 4 * q.x * yy % p521
  let m := 3 * (subP q.x zz * (q.x + zz)) % p521
  let x := subP (m * m) (2 * s)
  ⟨x, subP (m * subP s x) (8 * yy * yy), 2 * q.y * q.z % p521⟩

def ecAdd (q r : EcPt) : EcPt :=
  if q.z = 0 then r
  else if r.z = 0 then q
  else
    let zq := q.z * q.z % p521
    let zr := r.z * r.z % p521
    let u := q.x * zr % p521
    let s := q.y * zr * r.z % p521
    let h := subP (r.x * zq) u
    let w := subP (r.y * zq * q.z) s
    if h = 0 then (if w = 0 then ecDouble q else ecZero)
    else
      let hh := h * h % p521
      let v := u * hh % p521
      let x := subP (w * w) (hh * h + 2 * v)
      ⟨x, subP (w * subP v x) (s * hh * h), q.z * r.z * h % p521⟩

/-- `a g + b q` over the low `k` bits of both, from the top; `gq` is g + q. -/
def ecDual (a b : Nat) (g q gq : EcPt) : Nat → EcPt → EcPt
  | 0, t => t
  | k + 1, t =>
    let t := ecDouble t
    ecDual a b g q gq k (match a.testBit k, b.testBit k with
      | true, true => ecAdd t gq
      | true, false => ecAdd t g
      | false, true => ecAdd t q
      | false, false => t)

def ecSum (a b : Nat) (g q : EcPt) : EcPt := ecDual a b g q (ecAdd g q) 521 ecZero

/-- The affine coordinates of a point that is not at infinity. -/
def ecAffine (q : EcPt) : Nat × Nat :=
  let i := invMod p521 q.z
  let ii := i * i % p521
  (q.x * ii % p521, q.y * (ii * i % p521) % p521)

def bigNat (l : List Byte) : Nat := leNat l.reverse
def ecX (pub : List Byte) : Nat := bigNat (bytesAt pub 1 66)
def ecY (pub : List Byte) : Nat := bigNat (bytesAt pub 67 66)
def ecPoint (pub : List Byte) : EcPt := ⟨ecX pub, ecY pub, 1⟩

/-- The 133 bytes of a point: 0x04, X, Y, big-endian (15 R568). -/
def ecBytes (c : Nat × Nat) : List Byte := 0x04#8 :: (bigBytes 66 c.1 ++ bigBytes 66 c.2)

/-- 133 bytes are an uncompressed point of P-521. -/
def onP521 (pub : List Byte) : Bool :=
  decide (pub.length = 133) && u8 pub 0 = 4 && decide (ecX pub < p521) && decide (ecY pub < p521)
    && decide ((ecY pub * ecY pub + 3 * ecX pub) % p521 = (ecX pub * ecX pub * ecX pub + p521b) % p521)

def sigRange (r s : Nat) : Bool := r != 0 && s != 0 && decide (r < p521n) && decide (s < p521n)

/-- SIG_R and SIG_S (66 bytes each, big-endian) are the signature of a message by the key `pub`. -/
def ecdsaOk (pub msg sig : List Byte) : Bool :=
  let r := bigNat (sig.take 66)
  let s := bigNat ((sig.drop 66).take 66)
  if !sigRange r s || !onP521 pub then false
  else
    let w := invMod p521n s
    let t := ecSum (bigNat (sha512 msg) * w % p521n) (r * w % p521n) ecGen (ecPoint pub)
    let zz := t.z * t.z % p521
    t.z != 0 && (t.x == r * zz % p521 || (decide (r + p521n < p521) && t.x == (r + p521n) * zz % p521))

/-- The keys under which a signature of a message verifies, as points (SEC 1, 4.1.6): for each point R with the x of the
signature, (s R - e G) / r. -/
def ecdsaKeys (msg sig : List Byte) : List (List Byte) :=
  let r := bigNat (sig.take 66)
  let s := bigNat ((sig.drop 66).take 66)
  if !sigRange r s then []
  else
    let w := invMod p521n r
    let e := bigNat (sha512 msg)
    ([r, r + p521n].filter fun x => decide (x < p521)).flatMap fun x =>
      let yy := (x * x * x + (p521 - 3) * x + p521b) % p521
      let y := powMod p521 ((p521 + 1) / 4) yy 521 1
      if y * y % p521 != yy then []
      else [y, p521 - y].filterMap fun y =>
        let t := ecSum ((p521n - e % p521n) * w % p521n) (s * w % p521n) ecGen ⟨x, y, 1⟩
        if t.z = 0 then none else some (ecBytes (ecAffine t))

/-- A signature verifies under the key whose SHA-512 is `hash` (15 R567: the boot ROM holds the root keys' digests only). -/
def hashedKeyOk (hash msg sig : List Byte) : Bool := (ecdsaKeys msg sig).any fun k => sha512 k == hash

/-- The point of a private key, and X of the point it shares with another's (12 R505). -/
def ecPublic (k : Nat) : List Byte := ecBytes (ecAffine (ecSum (k % p521n) 0 ecGen ecGen))
def ecShared (k : Nat) (pub : List Byte) : List Byte := bigBytes 66 (ecAffine (ecSum (k % p521n) 0 (ecPoint pub) (ecPoint pub))).1

/-- The bytes that a key signs in SESSION_OPEN and CLAIM: the header with SESSION 0 and RETX 0, and the payload up to the signature
(12 R504, 15 R572). -/
def signedBytes (h : Hdr) (payload : List Byte) (n : Nat) : List Byte :=
  hdrBytes { h with session := 0#32, flags := h.flags &&& ~~~fRETX } ++ payload.take n

end Sys2Proof.Machine
end

