-- ==== Sys2Proof/Machine/Parts.lean ====
section
/-! DEFINITION. The partition map as it is read (13 R516-R519): the fields of a partition's RESOURCE, NET and GRANTS
records, and who owns what. -/

namespace Sys2Proof.Machine

def zeroRec : List Byte := List.replicate 1024 0#8

/-- The current record of kind 0 RESOURCE, 1 NET, 2 GRANTS of partition `p`; all zeros when never written. -/
def mapCur (p kind : Nat) (d : Dev) : List Byte := mgetD d.map.cur (4 * p + kind) zeroRec
def mapStg (p kind : Nat) (d : Dev) : List Byte := mgetD d.map.stg (4 * p + kind) zeroRec

/-- Fields of a RESOURCE record (13 R517). -/
def resEnabled (r : List Byte) : Bool := bit (u8 r 0) 0
def resWeight (r : List Byte) : Nat := u8 r 1
def resPool (r : List Byte) : Nat := u8 r 2
def resBridge (r : List Byte) (n : Nat) : Bool := bit (u16 r 4) n
def resCourse (r : List Byte) (n c : Nat) : Bool := bit (u8 r (8 + 2 * n + c / 8)) (c % 8)
def resStreamBase (r : List Byte) : Nat := u32 r 0x20
def resStreamCount (r : List Byte) : Nat := u32 r 0x24
def resSyncBase (r : List Byte) : Nat := u16 r 0x28
def resSyncCount (r : List Byte) : Nat := u16 r 0x2A
def resAdpBase (r : List Byte) : Nat := u16 r 0x2C
def resAdpCount (r : List Byte) : Nat := u16 r 0x2E
def resPfxBase (r : List Byte) : Nat := u32 r 0x30
def resPfxCount (r : List Byte) : Nat := u32 r 0x34
def resQpBase (r : List Byte) : Nat := u16 r 0x38
def resQpCount (r : List Byte) : Nat := u16 r 0x3A
def resHbmBase (r : List Byte) (b : Nat) : Nat := u32 r (0x40 + 8 * b)
def resHbmSize (r : List Byte) (b : Nat) : Nat := u32 r (0x44 + 8 * b)

def inRange (base count i : Nat) : Bool := decide (base ≤ i) && decide (i < base + count)

/-- CLAIM mode enables no partition, whatever the map holds (15 R573). -/
def enabled (p : Nat) (d : Dev) : Bool := d.peg.mode != 2#2 && decide (p < 32) && resEnabled (mapCur p 0 d)

/-- The record of an enabled partition; a partition not enabled owns nothing (13 R517). -/
def resOf (p : Nat) (d : Dev) : List Byte := if enabled p d then mapCur p 0 d else zeroRec

/-- A resource in hand-over is owned by neither partition (13 R523). -/
def inHandOver (k : ResKind) (br i : Nat) (d : Dev) : Bool :=
  d.map.handovers.any fun h => h.kind == k && (k != .hbm || h.bridge == br) && inRange h.base h.count i

def ownsCourse (p n c : Nat) (d : Dev) : Bool := resCourse (resOf p d) n c && !inHandOver .course 0 (16 * n + c) d
def ownsBridge (p n : Nat) (d : Dev) : Bool := resBridge (resOf p d) n && !inHandOver .bridge 0 n d
def ownsFret (p n : Nat) (d : Dev) : Bool := (List.range 16).any fun c => ownsCourse p n c d
def ownsStream (p i : Nat) (d : Dev) : Bool :=
  inRange (resStreamBase (resOf p d)) (resStreamCount (resOf p d)) i && !inHandOver .stream 0 i d
def ownsSync (p i : Nat) (d : Dev) : Bool := inRange (resSyncBase (resOf p d)) (resSyncCount (resOf p d)) i
def ownsAdapter (p i : Nat) (d : Dev) : Bool :=
  inRange (resAdpBase (resOf p d)) (resAdpCount (resOf p d)) i && !inHandOver .adapter 0 i d
def ownsPrefix (p i : Nat) (d : Dev) : Bool :=
  inRange (resPfxBase (resOf p d)) (resPfxCount (resOf p d)) i && !inHandOver .pfx 0 i d
def ownsQp (p i : Nat) (d : Dev) : Bool := inRange (resQpBase (resOf p d)) (resQpCount (resOf p d)) i

/-- The partition, if any, whose range holds an item. -/
def ownerBy (own : Nat → Bool) : Option Nat := (List.range 32).find? own

def adapterOwner (i : Nat) (d : Dev) : Option Nat := ownerBy fun p => ownsAdapter p i d
def courseOwner (n c : Nat) (d : Dev) : Option Nat := ownerBy fun p => ownsCourse p n c d
def syncOwner (i : Nat) (d : Dev) : Option Nat := ownerBy fun p => ownsSync p i d

/-- Ingress pool in units of 256 B (12 R489, 13 R517); the device addresses' pool is not given: 8 MiB (DESIGN CHOICE,
log 20). -/
def poolUnits (dest : Nat) (d : Dev) : Nat := if dest < 32 then 128 * resPool (mapCur dest 0 d) else 32768

/-- A source address lies in some HOST entry of the partition's NET record (13 R518). -/
def boundSource (p : Nat) (src : BitVec 128) (d : Dev) : Bool :=
  let r := mapCur p 1 d
  (List.range 8).any fun h =>
    let e := bytesAt r (0x40 + 20 * h) 20
    let n := u8 e 16
    let addr := leNat ((e.take 16).reverse)
    decide (0 < n) && decide (n ≤ 128) && decide (addr / 2 ^ (128 - n) = src.toNat / 2 ^ (128 - n))

/-- Byte `o` of a NET record belongs to KEY, SALT or SSCI of a secure channel (13 R518), which read as 0 and which measurements
take as 0. -/
def secretByte (o : Nat) : Bool :=
  decide (0xE0 ≤ o) && decide (o < 0xE0 + 576)
    && (decide (32 ≤ (o - 0xE0) % 64) || (decide (12 ≤ (o - 0xE0) % 64) && decide ((o - 0xE0) % 64 < 28)))

def hideKeys (kind : Nat) (r : List Byte) : List Byte :=
  if kind = 1 then r.zipIdx.map fun e => if secretByte e.2 then 0#8 else e.1 else r

/-- Entry `k` of a GRANTS record (13 R519). -/
def grantEntry (p k : Nat) (d : Dev) : Nat := u32 (mapCur p 2 d) (4 * k)

end Sys2Proof.Machine
end

