-- ==== Sys2Proof/Machine/Send.lean ====
section
/-! DEFINITION. What the part sends over Strand: tags, sequence numbers, credit and retransmission state
(12 R483-R490, R505), events and the RAM ring (12 R499, 15 R587, R588). -/

namespace Sys2Proof.Machine

/-- TAG of 12 R505: the first 32 bytes of the HMAC over the header with RETX 0 and the payload. -/
def macTag (key : List Byte) (h : Hdr) (payload : List Byte) : List Byte :=
  (hmac512 key (hdrBytes { h with flags := h.flags &&& ~~~fRETX } ++ payload)).take 32

def sessionOf (num : Word) (d : Dev) : Option Session := d.strand.sessions.find? fun s => s.num == num

/-- The tag of an outgoing management answer, with the session's key towards the host. -/
def outTag (key : List Byte) (h : Hdr) (payload : List Byte) : List Byte := if hasFlag h fAUTH then macTag key h payload else []

def putAssoc (aid : Nat) (a : Assoc) (d : Dev) : Dev :=
  { d with strand := { d.strand with assocs := mput d.strand.assocs aid a } }

def modAssoc (aid : Nat) (f : Assoc → Assoc) (d : Dev) : Dev :=
  { d with strand := { d.strand with assocs := mmod d.strand.assocs aid f } }

def assocAt (aid : Nat) (d : Dev) : Option Assoc := mget? d.strand.assocs aid

def findAssoc (host : BitVec 128) (port : Half) (dest : Nat) (d : Dev) : Option (Nat × Assoc) :=
  d.strand.assocs.find? fun e => e.2.host == host && e.2.port == port && e.2.dest == dest

def partByte (dest : Nat) : Byte := BitVec.ofNat 8 dest

/-- A message not yet numbered. -/
def mkSent (ttype : Byte) (flags : Byte) (dest : Nat) (stream session : Word) (payload : List Byte) (d : Dev) : Sent :=
  { hdr := { version := 0x01#8, ttype := ttype, part := partByte dest, flags := flags, seq := 0#32, ack := 0#32,
             length := BitVec.ofNat 16 payload.length, rsv0 := 0#16, stream := stream, credit := 0#32,
             session := session, rsv1 := 0#32 },
    payload := payload, key := [], first := d.time, late := false }

def sentCost (m : Sent) : Nat := msgCost m.hdr.ttype.toNat m.payload.length

/-- The port sends Strand datagrams: the link is up and its priority is not paused (12 R477). -/
def strandPaused (d : Dev) : Bool := d.eth.pausedStrand && bit (regGet HS_ETHCFG d).toNat 22

/-- A partition's transmit channel uses GCM-AES-256, whose packet numbers end (R476): MACSEC set and XPN clear in its NET record. -/
def macCounted (p : Nat) (d : Dev) : Bool := decide (p < 32) && bits (u16 (mapCur p 1 d) 2) 2 2 == 1

/-- The packet numbers of a partition's transmit key are used up (R476; log 123). -/
def macSpent (p : Nat) (d : Dev) : Bool := macCounted p d && decide (2 ^ 32 - 1 ≤ mgetD d.strand.macPn p 0)

/-- A datagram takes the next packet number of its partition's key. -/
def countPn (p : Nat) (d : Dev) : Dev :=
  if macCounted p d then { d with strand := { d.strand with macPn := mput d.strand.macPn p (mgetD d.strand.macPn p 0 + 1) } } else d

/-- The frame leaves only while the link is up, and under a key with packet numbers left; a datagram that does not is lost
(18 R667, R476). -/
def putOnWire (a : Assoc) (h : Hdr) (payload key : List Byte) (d : Dev) : Dev :=
  if d.eth.up && !macSpent a.dest d then
    send (.msg a.host a.port a.dest h payload (outTag key h payload)) (countPn a.dest d)
  else d

/-- Number and send a message on an association: next SEQ, current ACK and CREDIT, pending ECE (R478, R483, R485,
R490); it is kept until acknowledged (R486). -/
def transmit (aid : Nat) (m : Sent) (d : Dev) : Dev :=
  match assocAt aid d with
  | none => d
  | some a =>
    let h := { m.hdr with seq := a.mySeq + 1#32, ack := a.lastSeq, credit := a.limit,
                          flags := if a.ece then m.hdr.flags ||| fECE else m.hdr.flags }
    let a' := { a with mySeq := a.mySeq + 1#32, myUsed := a.myUsed + BitVec.ofNat 32 (sentCost m),
                       unacked := a.unacked ++ [{ m with hdr := h, first := d.time }], ece := false, accepted := none }
    putOnWire a h m.payload m.key (putAssoc aid a' d)

/-- R486, R490: the host's credit covers the message, and fewer than 4,096 are unacknowledged. -/
def maySend (a : Assoc) (m : Sent) (d : Dev) : Bool :=
  !a.lost && !a.openDue && decide (a.unacked.length < 4096) && !strandPaused d
    && (sentCost m = 0 || seqGe a.hostLimit (a.myUsed + BitVec.ofNat 32 (sentCost m)))

/-- Send a header-only message: it takes no sequence number (R483). While the priority is paused (R477) it waits: the answer to an
OPEN for XON, an acknowledgement for its timer. -/
def sendHeaderOnly (aid : Nat) (flags : Byte) (d : Dev) : Dev :=
  match assocAt aid d with
  | none => d
  | some a =>
    let opens := flags &&& fOPEN != 0#8
    if a.lost then d
    else if strandPaused d then
      putAssoc aid { a with openDue := a.openDue || opens, accepted := if a.accepted.isSome then a.accepted else some d.time } d
    else
      let h := { (mkSent 0x00#8 flags a.dest 0#32 0#32 [] d).hdr with
                 seq := a.mySeq, ack := a.lastSeq, credit := a.limit,
                 flags := if a.ece then flags ||| fECE else flags }
      putOnWire a h [] [] (putAssoc aid { a with ece := false, accepted := none, openDue := a.openDue && !opens } d)

/-- Send queued messages in order while the host's credit covers them. -/
def flushN : Nat → Nat → Dev → Dev
  | 0, _, d => d
  | n + 1, aid, d =>
    match assocAt aid d with
    | none => d
    | some a =>
      match a.queued with
      | [] => d
      | m :: r =>
        if maySend a m d then flushN n aid (transmit aid m (putAssoc aid { a with queued := r } d)) else d

def flushAssoc (aid : Nat) (d : Dev) : Dev :=
  match assocAt aid d with
  | none => d
  | some a => flushN a.queued.length aid (if a.openDue then sendHeaderOnly aid fOPEN d else d)

/-- Queue a message on an association and send what may be sent. A message that bears no credit waits only for the
port and the limit of unacknowledged messages. -/
def queueMsg (aid : Nat) (m : Sent) (d : Dev) : Dev :=
  match assocAt aid d with
  | none => d
  | some a =>
    if sentCost m = 0 && maySend a m d then transmit aid m d
    else flushAssoc aid (putAssoc aid { a with queued := a.queued ++ [m] } d)

/-- Send a header-only message to a host that has no association (a REJECT, R482). -/
def sendReject (m : Dgram) (d : Dev) : Dev :=
  let h := { (mkSent 0x00#8 (fOPEN ||| fREJECT) (destOf m) 0#32 0#32 [] d).hdr with ack := m.hdr.seq }
  if d.eth.up && !macSpent (destOf m) d then send (.msg m.src m.sport (destOf m) h [] []) (countPn (destOf m) d) else d

/-- Reply to a work request: the same TYPE with REPLY set, 12 R491's bytes, then the reply's own fields. -/
def sendReply (aid : Nat) (m : Dgram) (st idx hint : Nat) (extra : List Byte) (d : Dev) : Dev :=
  queueMsg aid (mkSent m.hdr.ttype fREPLY (destOf m) m.hdr.stream 0#32 (replyHead st idx m.hdr.seq hint ++ extra) d) d

/-- An open association that receives a partition's events (R482, R499). -/
def receivesEvents (p : Nat) (a : Assoc) : Bool := a.dest == p && a.subscribe && !a.lost

/-- Enter a record into the RAM ring: 4,096 records, the oldest overwritten (15 R587). -/
def ringPut (part flags : Byte) (payload : List Byte) (d : Dev) : Dev :=
  let seq := d.peg.ringSeq + 1#32
  let r : RingRec := { seq := seq, part := part, flags := flags, time := d.time, payload := payload }
  let ring := d.peg.ring ++ [r]
  { d with peg := { d.peg with ringSeq := seq, ring := ring.drop (ring.length - 4096) } }

/-- The 48 bytes of a ring record (15 R587). -/
def ringBytes (r : RingRec) : List Byte :=
  leBytes 4 r.seq.toNat ++ [r.part, BitVec.ofNat 8 r.payload.length, r.flags, 0#8] ++ leBytes 8 r.time.toNat
    ++ padTo 32 r.payload

/-- Queue the newest ring record for the persistent log; a full queue of 16 drops it (15 R588). -/
def logQueue (d : Dev) : Dev :=
  match d.peg.ring.getLast? with
  | none => d
  | some r =>
    if d.peg.logQ.length < 16 then { d with peg := { d.peg with logQ := d.peg.logQ ++ [ringBytes r] } }
    else bump PG_LOGDROP d

/-- Raise an event of partition `p` (255: device): the ring holds it, marked SENT when some association receives it,
the log too when PERSIST, and each receiving association is sent it (12 R499, 15 R587, R588). -/
def raiseEventTo (dest : Nat) (payload : List Byte) (persist : Bool) (d : Dev) : Dev :=
  let recv := d.strand.assocs.filter fun e => receivesEvents dest e.2
  let flags := BitVec.ofNat 8 (b2n persist + 2 * b2n (!recv.isEmpty))
  let d := ringPut (partByte dest) flags payload d
  let d := if persist then logQueue d else d
  let pay := padTo (pad4 payload.length) payload
  forEach recv (fun e => queueMsg e.1 (mkSent 0x12#8 0#8 dest 0#32 0#32 pay d)) d

/-- An event whose second-to-third byte names the partition (255: the device). -/
def raiseEvent (p : Nat) (ty : Nat) (rest : List Byte) (persist : Bool) (d : Dev) : Dev :=
  raiseEventTo p (leBytes 2 ty ++ [partByte p] ++ rest) persist d

end Sys2Proof.Machine
end

