-- ==== Sys2Proof/Machine/Sync.lean ====
section
/-! DEFINITION. Sync objects (13 R527-R531): handles, signals, waits and their notifications. -/

namespace Sys2Proof.Machine

/-- The object a handle names for partition `p` with the right `bitNo` (16 SIGNAL, 17 WAIT) of a grant entry
(13 R527, R519); none where it is refused with NO_SYNC. -/
def syncHandle (p : Nat) (h : Nat) (bitNo : Nat) (d : Dev) : Option Nat :=
  if bit h 31 then
    let g := grantEntry p (bits h 0 5) d
    if bits h 5 26 = 0 && bit g 31 && bit g bitNo then some (bits g 0 14) else none
  else if bits h 14 17 = 0 && ownsSync p (bits h 0 14) d then some (bits h 0 14)
  else none

def syncVal (o : Nat) (d : Dev) : DWord := mgetD d.sync.val o 0#64

/-- Send the notification of a met wait on the association that registered it (13 R529, 12 R503). -/
def notifyWait (w : Wait) (v : DWord) (d : Dev) : Dev :=
  let pay := leBytes 4 w.handle.toNat ++ leBytes 4 0 ++ leBytes 8 v.toNat ++ leBytes 8 w.cookie.toNat
  queueMsg w.aid (mkSent 0x29#8 0#8 w.part 0#32 0#32 pay d) (bump (PT_SYNCNOTE w.part) d)

/-- Set an object's value and meet, in registration order, every wait at or below it (13 R528, R529). -/
def syncSet (o : Nat) (v : DWord) (d : Dev) : Dev :=
  let met := d.sync.waits.filter fun w => w.obj == o && decide (w.threshold.toNat ≤ v.toNat)
  let rest := d.sync.waits.filter fun w => !(w.obj == o && decide (w.threshold.toNat ≤ v.toNat))
  let d := { d with sync := { d.sync with val := mputD d.sync.val o v 0#64, waits := rest } }
  forEach met (fun w => notifyWait w v) d

/-- 13 R531: an update in the CORE cycle of another partition's update of the same object advances the choice counter
of both. -/
def syncOrder (o p cycle : Nat) (d : Dev) : Dev :=
  let d := match mget? d.sync.lastUpd o with
    | some (t, c, q) => if t = d.time ∧ c = cycle ∧ q ≠ p then choice p true (choice q true d) else d
    | none => d
  { d with sync := { d.sync with lastUpd := mput d.sync.lastUpd o (d.time, cycle, p) } }

/-- A SYNC_SIGNAL of partition `p` on its object: OP 0 adds, OP 1 sets (13 R528). -/
def syncSignal (p o op : Nat) (v : DWord) (cycle : Nat) (d : Dev) : Dev :=
  let d := bump (PT_SYNCSIG p) (syncOrder o p cycle d)
  syncSet o (if op = 0 then syncVal o d + v else v) d

/-- Drop a partition's waits on an object, or an association's waits, without notification (13 R523, R529). -/
def dropWaits (f : Wait → Bool) (d : Dev) : Dev :=
  { d with sync := { d.sync with waits := d.sync.waits.filter fun w => !f w } }

/-- A host SYNC_SIGNAL (12 R503, 13 R527, R528). -/
def doSyncSignal (p aid : Nat) (m : Dgram) (d : Dev) : Dev :=
  if m.payload.length ≠ 16 || !allZero (bytesAt m.payload 5 3) then sendReply aid m stBAD_MESSAGE 0 0 [] d
  else if 1 < u8 m.payload 4 then sendReply aid m stBAD_PARAM 0 0 [] d
  else match syncHandle p (u32 m.payload 0) 16 d with
    | none => sendReply aid m stNO_SYNC 0 0 [] d
    | some o =>
      syncSignal p o (u8 m.payload 4) (BitVec.ofNat 64 (u64 m.payload 8)) m.cycle (sendReply aid m stOK 0 0 [] d)

/-- A host SYNC_WAIT_NOTIFY (13 R527, R529, R530). -/
def doSyncWait (p aid : Nat) (m : Dgram) (d : Dev) : Dev :=
  if m.payload.length ≠ 24 || !allZero (bytesAt m.payload 4 4) then sendReply aid m stBAD_MESSAGE 0 0 [] d
  else match syncHandle p (u32 m.payload 0) 17 d with
    | none => sendReply aid m stNO_SYNC 0 0 [] d
    | some o =>
      if 8192 ≤ d.sync.waits.length || 512 ≤ (d.sync.waits.filter fun w => w.part == p).length then
        sendReply aid m stSYNC_FULL 0 0 [] d
      else
        let w : Wait := { obj := o, part := p, aid := aid, handle := BitVec.ofNat 32 (u32 m.payload 0),
                          threshold := BitVec.ofNat 64 (u64 m.payload 8),
                          cookie := BitVec.ofNat 64 (u64 m.payload 16) }
        let d := sendReply aid m stOK 0 0 [] d
        if w.threshold.toNat ≤ (syncVal o d).toNat then notifyWait w (syncVal o d) d
        else { d with sync := { d.sync with waits := d.sync.waits ++ [w] } }

end Sys2Proof.Machine
end

