-- ==== Sys2Proof/Machine/MapCheck.lean ====
section
/-! DEFINITION. The checks of a map commit (13 R521) and what a commit takes from a partition (13 R523). -/

namespace Sys2Proof.Machine

def rangesMeet (b c b' c' : Nat) : Bool := decide (0 < c) && decide (0 < c') && decide (b < b' + c') && decide (b' < b + c)

/-- The parts of a range that another range does not cover. -/
def rangeDiff (b c b' c' : Nat) : List (Nat × Nat) :=
  if rangesMeet b c b' c' then
    (if b < b' then [(b, b' - b)] else []) ++ (if b' + c' < b + c then [(b' + c', b + c - (b' + c'))] else [])
  else if c = 0 then [] else [(b, c)]

def netSci (r : List Byte) (i : Nat) : Option (List Byte) :=
  let sc := bytesAt r (0xE0 + 64 * i) 64
  if bit (u8 sc 9) 0 then some (sc.take 8) else none

/-- Two NET records share an IPv4 or IPv6 address or an SCI (13 R521 check 0x01). -/
def netMeet (a b : List Byte) : Bool :=
  (bit (u16 a 2) 0 && bit (u16 b 2) 0 && u32 a 4 == u32 b 4)
    || (bit (u16 a 2) 1 && bit (u16 b 2) 1 && bytesAt a 0x10 16 == bytesAt b 0x10 16)
    || (List.range 9).any fun i => (List.range 9).any fun j =>
        match netSci a i, netSci b j with
        | some x, some y => x == y
        | _, _ => false

/-- Two enabled RESOURCE records own something in common; Bridges may be shared (13 R517, R521). -/
def resMeet (a b : List Byte) : Bool :=
  (List.range 24).any (fun k => u8 a (8 + k) &&& u8 b (8 + k) != 0)
    || rangesMeet (resStreamBase a) (resStreamCount a) (resStreamBase b) (resStreamCount b)
    || rangesMeet (resSyncBase a) (resSyncCount a) (resSyncBase b) (resSyncCount b)
    || rangesMeet (resAdpBase a) (resAdpCount a) (resAdpBase b) (resAdpCount b)
    || rangesMeet (resPfxBase a) (resPfxCount a) (resPfxBase b) (resPfxCount b)
    || rangesMeet (resQpBase a) (resQpCount a) (resQpBase b) (resQpCount b)
    || (List.range 12).any fun n => rangesMeet (resHbmBase a n) (resHbmSize a n) (resHbmBase b n) (resHbmSize b n)

def mapOverlap (p : Nat) (d : Dev) : Bool :=
  let r := mapStg p 0 d
  resEnabled r && (List.range 32).any fun q =>
    q != p && resEnabled (mapCur q 0 d) && (resMeet r (mapCur q 0 d) || netMeet (mapStg p 1 d) (mapCur q 1 d))

/-- Units of 2 MiB that partitions may hold on a Bridge: both stacks, less the reserved region on Bridge 0
(01 R39, 16 R624). -/
def hbmUnits (b : Nat) (d : Dev) : Nat :=
  (if d.fuses.order = 2 then 36864 else 65536) - (if b = 0 then 768 else 0)

def resLimitBad (r : List Byte) (d : Dev) : Bool :=
  decide (1 < u8 r 0) || (resEnabled r &&
    (decide (resWeight r < 1) || decide (resPool r < 8) || decide (4096 ≤ u16 r 4)
      || (resStreamCount r != 0 && decide (262144 < resStreamBase r + resStreamCount r))
      || (resSyncCount r != 0 && decide (16384 < resSyncBase r + resSyncCount r))
      || (resAdpCount r != 0 && decide (4096 < resAdpBase r + resAdpCount r))
      || (resPfxCount r != 0 && decide (65536 < resPfxBase r + resPfxCount r))
      || (resQpCount r != 0 && decide (4096 < resQpBase r + resQpCount r))
      || (List.range 12).any fun b =>
          resHbmSize r b != 0 && decide (hbmUnits b d < resHbmBase r b + resHbmSize r b)))

def netLimitBad (r : List Byte) : Bool :=
  bits (u16 r 0) 12 3 != 0 || bits (u16 r 2) 4 12 != 0 || decide (4096 < u16 r 0x30)
    || (List.range 8).any (fun h => decide (128 < u8 r (0x40 + 20 * h + 16)))
    || (List.range 9).any fun i => decide (3 < u8 r (0xE0 + 64 * i + 8)) || decide (1 < u8 r (0xE0 + 64 * i + 9))

def grantLimitBad (r : List Byte) : Bool :=
  (List.range 32).any fun k => bits (u32 r (4 * k)) 18 13 != 0 || bits (u32 r (4 * k)) 14 2 != 0

def mapLimit (p : Nat) (d : Dev) : Bool :=
  resLimitBad (mapStg p 0 d) d || netLimitBad (mapStg p 1 d) || grantLimitBad (mapStg p 2 d)

/-- A grant names an object in the partition's own range, or one that no partition owns (check 0x03). -/
def mapGrantBad (p : Nat) (d : Dev) : Bool :=
  let r := mapStg p 0 d
  (List.range 32).any fun k =>
    let g := u32 (mapStg p 2 d) (4 * k)
    let o := bits g 0 14
    bit g 31 && ((resEnabled r && inRange (resSyncBase r) (resSyncCount r) o)
      || !((List.range 32).any fun q => q != p && resEnabled (mapCur q 0 d)
            && inRange (resSyncBase (mapCur q 0 d)) (resSyncCount (mapCur q 0 d)) o))

/-- A hand-over concerns a partition that loses or is to receive the resource. -/
def handOverOf (p : Nat) (r : List Byte) (h : HandOver) : Bool :=
  h.loser == p || (resEnabled r && match h.kind with
    | .course => resCourse r (h.base / 16) (h.base % 16)
    | .bridge => resBridge r h.base
    | .hbm => rangesMeet (resHbmBase r h.bridge) (resHbmSize r h.bridge) h.base h.count
    | .stream => rangesMeet (resStreamBase r) (resStreamCount r) h.base h.count
    | .adapter => rangesMeet (resAdpBase r) (resAdpCount r) h.base h.count
    | .pfx => rangesMeet (resPfxBase r) (resPfxCount r) h.base h.count)

/-- The result of validating the staged records of `p`: 0 accepted, else the first failing check of 13 R521. -/
def mapValidate (p : Nat) (d : Dev) : Nat :=
  if mapOverlap p d then 1
  else if mapLimit p d then 2
  else if mapGrantBad p d then 3
  else if d.map.handovers.any (handOverOf p (mapCur p 0 d)) then 4
  else 0

/-- What a change of the RESOURCE record takes from partition `p` and hands over (13 R523). -/
def mapLosses (p : Nat) (old new_ : List Byte) : List HandOver :=
  let o := if resEnabled old then old else zeroRec
  let n := if resEnabled new_ then new_ else zeroRec
  let mk := fun (k : ResKind) (br : Nat) (l : List (Nat × Nat)) =>
    l.map fun e => ({ kind := k, bridge := br, base := e.1, count := e.2, loser := p } : HandOver)
  let courses := (List.range 192).filter fun k => resCourse o (k / 16) (k % 16) && !resCourse n (k / 16) (k % 16)
  let bridges := (List.range 12).filter fun b => resBridge o b && !resBridge n b
  mk .course 0 (courses.map fun k => (k, 1)) ++ mk .bridge 0 (bridges.map fun b => (b, 1))
    ++ (List.range 12).flatMap (fun b =>
        mk .hbm b (rangeDiff (resHbmBase o b) (resHbmSize o b) (resHbmBase n b) (resHbmSize n b)))
    ++ mk .stream 0 (rangeDiff (resStreamBase o) (resStreamCount o) (resStreamBase n) (resStreamCount n))
    ++ mk .adapter 0 (rangeDiff (resAdpBase o) (resAdpCount o) (resAdpBase n) (resAdpCount n))
    ++ mk .pfx 0 (rangeDiff (resPfxBase o) (resPfxCount o) (resPfxBase n) (resPfxCount n))

/-- The sync objects that a change of the record takes: their values become 0 and their waits are discarded. -/
def mapSyncLoss (old new_ : List Byte) (d : Dev) : Dev :=
  let o := if resEnabled old then old else zeroRec
  let n := if resEnabled new_ then new_ else zeroRec
  let lost := fun i => inRange (resSyncBase o) (resSyncCount o) i && !inRange (resSyncBase n) (resSyncCount n) i
  let d := dropWaits (fun w => lost w.obj) d
  { d with sync := { d.sync with val := mfilter d.sync.val fun i _ => !lost i } }

end Sys2Proof.Machine
end

