-- ==== Sys2Proof/Machine/Keys.lean ====
section
/-! DEFINITION. The key store (15 R567-R572, R594): reading, enrolling and revoking keys, and their flash copies. -/

namespace Sys2Proof.Machine

def emptyKey : KeyEntry := { keyid := 0#32, usage := 0#8, part := 0#8, state := 0#8, pub := List.replicate 133 0#8 }

/-- The 144 bytes of a key store entry (15 R569). -/
def keyBytes (k : KeyEntry) : List Byte :=
  leBytes 4 k.keyid.toNat ++ [k.usage, k.part, k.state, 0#8] ++ padTo 133 k.pub ++ [0#8, 0#8, 0#8]

def keyOfBytes (l : List Byte) : KeyEntry :=
  { keyid := BitVec.ofNat 32 (u32 l 0), usage := l.getD 4 0#8, part := l.getD 5 0#8, state := l.getD 6 0#8,
    pub := bytesAt l 8 133 }

def keyAt (keys : SMap KeyEntry) (i : Nat) : KeyEntry := mgetD keys i emptyKey

/-- The key measurement: SHA-512 over the 64 entries in index order (15 R569). -/
def keyMeasure (keys : SMap KeyEntry) : List Byte := sha512 ((List.range 64).flatMap fun i => keyBytes (keyAt keys i))

def keyUsed (d : Dev) : Nat := (d.peg.keys.filter fun e => e.2.state != 0#8).length

/-- The valid key that an identifier names, if its USAGE and PARTITION are those wanted. -/
def validKey (id : Word) (usage : Byte) (d : Dev) : Option KeyEntry :=
  (d.peg.keys.find? fun e => e.2.keyid == id && e.2.state == 1#8 && e.2.usage == usage).map (·.2)

/-- A valid Keeper key is enrolled (15 R571). -/
def claimed (d : Dev) : Bool := d.peg.keys.any fun e => e.2.usage == 1#8 && e.2.state == 1#8

def usageBad (k : KeyEntry) : Bool :=
  !(k.usage == 1#8 || k.usage == 2#8 || k.usage == 3#8)
    || (k.usage == 2#8 && decide (32 ≤ k.part.toNat)) || (k.usage != 2#8 && k.part != 0xFF#8)
    || k.keyid == 0#32 || k.keyid == 0xFFFFFFFF#32

def keyResult (r : Nat) (d : Dev) : Dev := { d with peg := { d.peg with keyResult := BitVec.ofNat 8 r } }

/-- A change of the key store is accepted: its flash write begins (15 R570, R594 BUSY). -/
def keyAccepted (code : Byte) (id : Word) (keys : SMap KeyEntry) (d : Dev) : Dev :=
  { d with peg := { d.peg with keys := keys, keyBusy := some (code, id), keyResult := 0x00#8 },
           rst := { d.rst with nv := some .pageProgram } }

/-- Close sessions: their keys and copies are gone (12 R507). -/
def closeSessions (f : Session → Bool) (d : Dev) : Dev :=
  { d with strand := { d.strand with sessions := d.strand.sessions.filter fun s => !f s } }

def modSession (num : Word) (f : Session → Session) (d : Dev) : Dev :=
  { d with strand := { d.strand with sessions := d.strand.sessions.map fun s => if s.num = num then f s else s } }

/-- PG_KEYCTL OP 0x1: entry INDEX into the session's buffer (15 R594). -/
def keyRead (s : Session) (d : Dev) : Dev :=
  let i := (mgetD s.sel PG_KEYSEL 0#32).toNat % 64
  keyResult 0 (modSession s.num (fun s => { s with keybuf := keyBytes (keyAt d.peg.keys i) }) d)

/-- PG_KEYCTL OP 0x2: enrol the buffered key, or refuse it with the first applicable RESULT (15 R570). -/
def keyEnroll (s : Session) (d : Dev) : Dev :=
  let k := { keyOfBytes s.keybuf with state := 1#8 }
  if d.peg.keys.any fun e => e.2.state != 0#8 && e.2.keyid == k.keyid then keyResult 1 d
  else match (List.range 64).find? fun i => (keyAt d.peg.keys i).state == 0#8 with
    | none => keyResult 2 d
    | some i =>
      if usageBad k || !onP521 k.pub then keyResult 3 d
      else keyAccepted 0x1#8 k.keyid (mput d.peg.keys i k) d

/-- PG_KEYCTL OP 0x3: revoke the buffered KEYID; every session opened with a revoked management key closes at once
(15 R570). -/
def keyRevoke (s : Session) (d : Dev) : Dev :=
  let id := (keyOfBytes s.keybuf).keyid
  match d.peg.keys.find? fun e => e.2.keyid == id && e.2.state == 1#8 with
  | none => keyResult 5 d
  | some (i, k) =>
    if k.usage == 1#8 && (d.peg.keys.filter fun e => e.2.usage == 1#8 && e.2.state == 1#8).length ≤ 1 then keyResult 4 d
    else
      keyAccepted 0x2#8 id (mput d.peg.keys i { k with state := 2#8 })
        (if k.usage == 3#8 then d else closeSessions (fun t => t.ident == id) d)

/-- A write of PG_KEYCTL by a session: OP is ignored while BUSY is 1 (15 R594). -/
def keyCtl (s : Session) (op : Nat) (d : Dev) : Dev :=
  if d.peg.keyBusy.isSome then d
  else if op = 1 then keyRead s d
  else if op = 2 then keyEnroll s d
  else if op = 3 then keyRevoke s d
  else d

/-- Write a new value over the copy not in force, with generation plus 1 (15 R566). -/
def twoCopyPut {α : Type} (a b : Copy α) (v : α) : Copy α × Copy α :=
  if a.ok && (!b.ok || decide (b.gen ≤ a.gen)) then (a, { gen := a.gen + 1, ok := true, val := v })
  else ({ gen := b.gen + 1, ok := true, val := v }, b)

/-- The valid copy with the higher generation. -/
def twoCopyGet {α : Type} (a b : Copy α) (dflt : α) : α :=
  if a.ok && (!b.ok || decide (b.gen ≤ a.gen)) then a.val else if b.ok then b.val else dflt

/-- A firmware event (15 R589), written with PERSIST. -/
def fwEvent (ty : Nat) (code : Byte) (arg : Nat) (digest : List Byte) (d : Dev) : Dev :=
  raiseEvent 255 ty ([code] ++ leBytes 4 arg ++ padTo 8 (digest.take 8) ++ timeBytes d) true d

/-- The flash write of a key store change ends: the other copy holds it, BUSY clears, KEY_CHANGE is sent (R570). -/
def keyStoreWritten (d : Dev) : Dev :=
  match d.peg.keyBusy with
  | none => d
  | some (code, id) =>
    let cp := twoCopyPut d.flash.keysA d.flash.keysB d.peg.keys
    let d := { d with flash := { d.flash with keysA := cp.1, keysB := cp.2 },
                      peg := { d.peg with keyBusy := none },
                      rst := { d.rst with nv := none } }
    fwEvent 0x00C2 code id.toNat (keyMeasure d.peg.keys) d

end Sys2Proof.Machine
end

