-- ==== Sys2Proof/Machine/Update.lean ====
section
/-! DEFINITION. Firmware and pattern images and updates in service (15 R577-R583). -/

namespace Sys2Proof.Machine

/-- The CODE of the first failing check of 15 R578, 0 when the image is valid. `kind` is the kind wanted. -/
def imageCode (im : FwImage) (fuseSvn : Nat) (revoked : BitVec 4) : Nat :=
  let big := if im.kind = 0#8 then 393216 else 67108864
  if !im.hdrOk then 1
  else if im.length < 832 || big < im.length || (im.kind = 0#8 && 524288 < im.load + (im.length - 688)) then 5
  else if !im.certOk || 4 ≤ im.root || bit revoked.toNat im.root then 2
  else if !im.trailerOk || !im.sigOk then 3
  else if im.svn < fuseSvn then 4
  else 0

/-- An image read from its bytes (15 R577, R578): CERT under the root slot that ISSUER names, whose key's digest the boot ROM holds,
and the trailer's signature under CERT's key. -/
def parseImage (roots : List (List Byte)) (l : List Byte) : FwImage :=
  let len := u32 l 0x0C
  let kind := l.getD 6 0#8
  { hdrOk := u32 l 0 = 0x47460001 && u16 l 4 = 1 && decide (kind.toNat ≤ 1) && decide (u8 l 7 ≤ 1)
      && allZero (bytesAt l 0x20 224) && allZero (bytesAt l 0x21C 4),
    kind := kind, commitSvn := bit (u8 l 7) 0, svn := u32 l 8, length := len, load := u32 l 0x10,
    certOk := hashedKeyOk (roots.getD (u32 l 0x108) []) (bytesAt l 0x100 0x98) (bytesAt l 0x198 132) && u32 l 0x100 = 0x47430001 && u32 l 0x10C = 1 && allZero (bytesAt l 0x195 3),
    root := u32 l 0x108,
    trailerOk := u32 l (len - 144) = 0x474600FF && u32 l (len - 140) = 132,
    sigOk := ecdsaOk (bytesAt l 0x110 133) (l.take (len - 144)) (bytesAt l (len - 136) 132), digest := sha512 (l.take (len - 144)) }

/-- The byte staged at an offset: a later chunk replaces the bytes it covers (15 R579). -/
def stagedByte (chunks : List (Nat × List Byte)) (o : Nat) : Option Byte :=
  match chunks.find? fun c => decide (c.1 ≤ o) && decide (o < c.1 + c.2.length) with
  | some c => some (c.2.getD (o - c.1) 0#8)
  | none => none

/-- Every byte below `total` is staged: walk from chunk to chunk, as many times as there are chunks. -/
def stagedTo : Nat → List (Nat × List Byte) → Nat → Nat
  | 0, _, pos => pos
  | n + 1, chunks, pos =>
    stagedTo n chunks (chunks.foldl (fun e c => if c.1 ≤ pos && e < c.1 + c.2.length then c.1 + c.2.length else e) pos)

def allStaged (chunks : List (Nat × List Byte)) (total : Nat) : Bool :=
  decide (total ≤ stagedTo chunks.length chunks 0)

def stagedBytes (chunks : List (Nat × List Byte)) (total : Nat) : List Byte :=
  (List.range total).map fun o => (stagedByte chunks o).getD 0#8

def updState (n : Nat) (d : Dev) : Dev := { d with peg := { d.peg with update := { d.peg.update with state := n } } }

/-- An update ends with a CODE: PG_UPDSTAT, PG_UPDFAIL and the FW_UPDATE event (15 R580, R589, R593). -/
def updEnd (code : Nat) (d : Dev) : Dev :=
  let u := d.peg.update
  let svn := match u.image with | some im => im.svn | none => 0
  let dig := match u.image with | some im => im.digest | none => []
  let d := { d with peg := { d.peg with update := { u with state := 4, code := BitVec.ofNat 8 code, staged := [] } } }
  let d := if code = 0 then d else bump PG_UPDFAIL d
  fwEvent 0x00C1 (BitVec.ofNat 8 code) svn dig d

/-- R581: ABORT, the end of the owning session and 600 s without a chunk end an update in RECEIVING or VERIFYING. -/
def updAbort (d : Dev) : Dev :=
  if d.peg.update.state = 1 || d.peg.update.state = 2 then updEnd 8 d else d

/-- The ROM's network boot: no firmware runs yet (R583). -/
def inRom (d : Dev) : Bool := d.peg.mode == 1#2 && !d.peg.fwOk

/-- An update whose session has closed ends; one of the ROM has no session. -/
def settleUpdate (d : Dev) : Dev :=
  if inRom d || d.strand.sessions.any fun s => s.num == d.peg.update.sess then d else updAbort d

/-- Stage one well-formed chunk; LAST starts verification once every byte is there, or ends with INCOMPLETE. -/
def updStage (sess : Word) (off total : Nat) (data : List Byte) (isLast : Bool) (d : Dev) : Dev :=
  let u := d.peg.update
  let u := if u.state = 1 then u
    else { u with state := 1, chunks := 0, sess := sess, total := total, staged := [], image := none }
  let u := { u with chunks := min (u.chunks + 1) 0xFFFF, staged := (off, data) :: u.staged, last := d.time }
  let d := { d with peg := { d.peg with update := u } }
  if !isLast then d
  else if allStaged u.staged u.total then updState 2 d
  else updEnd 6 d

/-- The answer to an UPDATE_CHUNK of session `sess` (0 in network boot): none when it is staged, else the code of the
MGMT_NACK (12 R508, 15 R579, R581). -/
def chunkRefusal (sess : Word) (p : List Byte) (d : Dev) : Option Nat :=
  let u := d.peg.update
  let nb := u16 p 8
  if p.length ≠ 12 + pad4 nb || 8112 < nb || 1 < u16 p 10 || !allZero (p.drop (12 + nb)) then some stBAD_MESSAGE
  else if u.state = 2 || u.state = 3 then some stMGMT_BUSY
  else if u.state = 1 && u.sess != sess then some stMGMT_BUSY
  else if u32 p 0 % 4 ≠ 0 || (u.state = 1 && u32 p 4 != u.total) || u32 p 4 < u32 p 0 + nb then some stBAD_MESSAGE
  else none

def chunkStage (sess : Word) (p : List Byte) (d : Dev) : Dev :=
  updStage sess (u32 p 0) (u32 p 4) (bytesAt p 12 (u16 p 8)) (bit (u16 p 10) 0) d

/-- Verification ends (15 R580): a failing image ends the update with its CODE; a valid one starts programming, and
the erase of the first sector removes the old image's header. -/
def updVerified (d : Dev) : Dev :=
  let u := d.peg.update
  if u.state ≠ 2 then d
  else
    let im := parseImage d.fuses.roots (stagedBytes u.staged u.total)
    let rom := inRom d
    let code := if im.length = u.total && !(rom && im.kind != 0#8) then imageCode im d.fuses.svn d.fuses.revoked else 1
    let d := { d with peg := { d.peg with update := { u with image := some im } } }
    if code ≠ 0 then updEnd code d
    else
      { updState 3 d with
        flash := if im.kind = 0#8 then { d.flash with fw := none } else { d.flash with pat := none },
        rst := { d.rst with nv := some .erase } }

/-- Programming and read-back end (15 R580 steps 3 to 6): the region holds the image, and COMMIT_SVN advances the
fused counter; a mismatch leaves the region invalid. -/
def updProgrammed (readBackOk : Bool) (d : Dev) : Dev :=
  let u := d.peg.update
  match u.image with
  | none => d
  | some im =>
    if u.state ≠ 3 then d
    else
      let d := { d with rst := { d.rst with nv := none } }
      if !readBackOk then updEnd 7 d
      else
        let d := { d with
          flash := if im.kind = 0#8 then { d.flash with fw := some im } else { d.flash with pat := some im },
          fuses := if im.commitSvn && decide (d.fuses.svn < im.svn) then { d.fuses with svn := im.svn } else d.fuses,
          peg := if im.kind = 0#8 then d.peg else { d.peg with patOk := true } }
        updEnd 0 d

def updIdleTimeout (d : Dev) : Dev :=
  if (d.peg.update.state = 1 || d.peg.update.state = 2) && decide (sec 600 ≤ since d.peg.update.last d) then updAbort d else d

end Sys2Proof.Machine
end

