-- ==== Sys2Proof/Machine/Eth.lean ====
section
/-! DEFINITION. The Ethernet port (12 R473-R478, R513; 18 R666, R667): link, transceiver, flow control, congestion
notification, dropped frames, ARP, neighbour discovery and echo. -/

namespace Sys2Proof.Machine

def pfcEn (d : Dev) : Bool := bit (regGet HS_ETHCFG d).toNat 22
def ecnEn (d : Dev) : Bool := bit (regGet HS_ETHCFG d).toNat 23
def prioStrand (d : Dev) : Nat := regField HS_ETHCFG 19 3 d
def prioRdma (d : Dev) : Nat := regField HS_ETHCFG 16 3 d

/-- A frame is dropped and counted (R474, R476); `corr` and `unc` are the FEC codewords corrected and uncorrectable
met with it (R515). -/
def frameDrop (corr unc : Nat) (d : Dev) : Dev :=
  if d.eth.up then bump HS_RXDROP (addCtr HS_FECUNC unc (addCtr HS_FECCORR corr d)) else d

/-- The port's Ethernet address (15 R566, 19 R686): from the identity region, or made from the identity word. -/
def macAddr (d : Dev) : BitVec 48 :=
  if d.peg.idBad then BitVec.ofNat 48 (0x02 * 2 ^ 40 + (mgetD d.fuses.ids 0 0#64).toNat % 2 ^ 40) else d.flash.mac

/-- The device link-local address: fe80::/64 and the EUI-64 of the Ethernet address (12 R475). -/
def linkLocal (d : Dev) : BitVec 128 :=
  let m := (macAddr d).toNat
  let hi := m / 2 ^ 24
  BitVec.ofNat 128 (0xFE80 * 2 ^ 112 + ((hi ^^^ 0x020000) * 2 ^ 40 + 0xFFFE * 2 ^ 24 + m % 2 ^ 24))

def mapped4 (ip : Word) : BitVec 128 := BitVec.ofNat 128 (0xFFFF * 2 ^ 32 + ip.toNat)

/-- An IPv4 address of an enabled partition (13 R518; fields taken in the record's byte order). -/
def isOwnIp4 (ip : Word) (d : Dev) : Bool :=
  (List.range 32).any fun p => enabled p d && bit (u16 (mapCur p 1 d) 2) 0 && u32 (mapCur p 1 d) 4 == ip.toNat

def isOwnIp6 (ip : BitVec 128) (d : Dev) : Bool :=
  ip == linkLocal d || (List.range 32).any fun p =>
    enabled p d && bit (u16 (mapCur p 1 d) 2) 1 && leNat ((bytesAt (mapCur p 1 d) 0x10 16).reverse) == ip.toNat

def isOwnIp (ip : BitVec 128) (d : Dev) : Bool :=
  isOwnIp6 ip d || (ip.toNat / 2 ^ 32 == 0xFFFF && isOwnIp4 (BitVec.ofNat 32 ip.toNat) d)

/-- Answer a request for one of the part's own addresses; any other is other traffic, dropped and counted (R474). -/
def answerOwn (own : Bool) (t : Tx) (d : Dev) : Dev :=
  if !d.eth.up then d else if own then send t d else bump HS_RXDROP d

def arpRequest (ip : Word) (d : Dev) : Dev := answerOwn (isOwnIp4 ip d) (.arpReply ip) d
def neighborSolicit (ip : BitVec 128) (d : Dev) : Dev := answerOwn (isOwnIp6 ip d) (.naReply ip) d
def icmpEcho (dst : BitVec 128) (data : List Byte) (d : Dev) : Dev := answerOwn (isOwnIp dst d) (.echoReply dst data) d

/-- R477: the free receive buffer of a flow-controlled priority falls to `low` and rises again to `high` bytes. XOFF
is sent below 512 KiB, XON above 1 MiB once XOFF stands; each PFC frame is counted. -/
def pfcBuffer (strand : Bool) (low high : Nat) (d : Dev) : Dev :=
  if !d.eth.up then d
  else
    let prio := if strand then prioStrand d else prioRdma d
    let xoff := if strand then d.eth.xoffStrand else d.eth.xoffRdma
    let goOff := pfcEn d && !xoff && decide (low < 524288)
    let d := if goOff then send (.pfc prio true) (bump HS_PFCTX d) else d
    let xoff := xoff || goOff
    let goOn := xoff && decide (1048576 < high)
    let d := if goOn then send (.pfc prio false) (bump HS_PFCTX d) else d
    let x := xoff && !goOn
    if strand then { d with eth := { d.eth with rxFreeStrand := high, xoffStrand := x } }
    else { d with eth := { d.eth with rxFreeRdma := high, xoffRdma := x } }

/-- Send what an ended pause or a new credit allows, on every association. -/
def flushAll (d : Dev) : Dev := forEach d.strand.assocs (fun e => flushAssoc e.1) d

/-- A received PFC frame for a priority: XOFF stops and XON resumes transmission at it (R477). -/
def pfcRx (xoff : Bool) (prio : Nat) (d : Dev) : Dev :=
  if !d.eth.up then d
  else
    let d := bump HS_PFCRX d
    if !pfcEn d then d
    else
      let e := d.eth
      let e := if prio = prioRdma d then { e with pausedRdma := xoff } else e
      let e := if prio = prioStrand d then { e with pausedStrand := xoff } else e
      if xoff then { d with eth := e } else flushAll { d with eth := e }

/-- A received congestion notification lowers the queue pair's rate by DCQCN; the new rate is a free value (R473). -/
def cnpRx (qp : Nat) (d : Dev) : Dev :=
  if !d.eth.up then d
  else
    let (n, d) := draw d
    { d with eth := { d.eth with rate := mput d.eth.rate qp (Config.dcqcnRate n) } }

/-- R478: a CE-marked RoCEv2 packet is answered with a CNP, at most one per queue pair per 50 us. -/
def ceOnRdma (ce : Bool) (qp : Nat) (d : Dev) : Dev :=
  if ce && ecnEn d && (match mget? d.eth.cnpAt qp with | some t => decide (us 50 ≤ since t d) | none => true) then
    bump HS_CNPTX (send (.cnp qp) { d with eth := { d.eth with cnpAt := mput d.eth.cnpAt qp d.time } })
  else d

/-- RDMA_FIREWALL_REFUSE: a packet to a queue pair or key that the claimed partition does not own (13 R526). -/
def rdmaFirewallRefuse (p qp : Nat) (d : Dev) : Dev :=
  if !d.eth.up then d
  else send (.rdmaNakAccess qp) (bump (if enabled p d then PT_FWRDMA p else HS_RXDROP) d)

/-- Link training runs once the Ethernet port is out of reset and not asleep (16 R613 step 3, 17 R637). -/
def portAwake (d : Dev) : Bool :=
  d.pwr.supply && !d.pwr.tripped && d.peg.halt == 0#8 && !(d.pwr.state = 3 && !d.pwr.waking)
    && (d.rst.phase == .booted || d.rst.phase == .calibrated || d.rst.phase == .idle)

/-- The BOOT event of the last boot, sent once the port is up (15 R574, R576, R589). -/
def bootEventDue (d : Dev) : Dev :=
  if d.peg.bootEvent && d.eth.up then
    fwEvent 0x00C0 (if d.peg.patOk then 0x00#8 else 0x10#8) d.peg.fwSvn d.peg.fwMeas
      { d with peg := { d.peg with bootEvent := false } }
  else d

def ethLinkUp (d : Dev) : Dev :=
  if d.eth.module && portAwake d then
    bootEventDue { d with eth := { d.eth with lanes := 0xFF#8, fec := true, up := true } }
  else d

def linkGone (lanes : Byte) (fec : Bool) (d : Dev) : Dev :=
  { d with eth := { d.eth with lanes := lanes, fec := fec, up := false } }

/-- The link loses PCS alignment or FEC lock; streams keep running (12 R513, 18 R667). -/
def ethLinkDown (lanes : Byte) (fec : Bool) (d : Dev) : Dev := if d.eth.up then linkGone lanes fec d else d

def transceiverInsert (d : Dev) : Dev := { d with eth := { d.eth with module := true } }
def transceiverRemove (d : Dev) : Dev := linkGone 0x00#8 false { d with eth := { d.eth with module := false } }

end Sys2Proof.Machine
end

