-- ==== Sys2Proof/Machine/Thermal.lean ====
section
/-! DEFINITION. Sensors, throttling and power limits (15 R590; 17 R646-R655, R658). -/

namespace Sys2Proof.Machine

/-- In Hush or Vigil, or waking from there (17 R634, R641). -/
def asleep (d : Dev) : Bool := decide (2 ≤ d.pwr.state)

/-- Die codes of 17 R655: 0x00-0x0B Fret, 0x10-0x1B Bridge, 0x20 Headstock. -/
def snBase (die : Nat) : Nat :=
  if die < 12 then addrFt die 0x8900 else if 16 ≤ die ∧ die < 28 then addrBr (die - 16) 0x900 else 0x900

/-- The register of a die's sensor 0 to 7, or 8 and 9 for the stacks of a Bridge (15 R590). -/
def snAddr (die k : Nat) : Nat := snBase die + 4 * k

def dieCodes : List Nat := List.range 12 ++ (List.range 12).map (16 + ·) ++ [32]

/-- Every sensor of the part as (die, sensor): eight per die, and two stacks per Bridge. -/
def allSensors : List (Nat × Nat) :=
  dieCodes.flatMap fun x => (List.range (if 16 ≤ x ∧ x < 28 then 10 else 8)).map fun k => (x, k)

def snValid (die k : Nat) (d : Dev) : Bool := bit (regGet (snAddr die k) d).toNat 31
/-- The last reading, 1/64 degree, two's complement. -/
def snTemp (die k : Nat) (d : Dev) : Int := sext 16 (regField (snAddr die k) 0 16 d)

/-- The sensor of the highest valid reading (ties: the first in die order), if any reading is valid. -/
def hottest (d : Dev) : Option (Nat × Nat) :=
  (allSensors.filter fun e => snValid e.1 e.2 d).foldl (fun b e => match b with
    | none => some e
    | some x => if snTemp x.1 x.2 d < snTemp e.1 e.2 d then some e else b) none

def tmax (d : Dev) : Int := match hottest d with | some e => snTemp e.1 e.2 d | none => 0

/-- The highest reading of one die's sensors (07 R269); for a Bridge, its stacks too when `hbms`. -/
def dieMax (die : Nat) (hbms : Bool) (d : Dev) : Option Int :=
  ((List.range (if hbms then 10 else 8)).filter fun k => snValid die k d).foldl (fun b k => match b with
    | none => some (snTemp die k d)
    | some x => some (max x (snTemp die k d))) none

def level (d : Dev) : Nat := max d.pwr.tlevel d.pwr.plevel

def addAlert (c : Nat) (d : Dev) : Dev :=
  { d with pwr := { d.pwr with alert := if d.pwr.alert.contains c then d.pwr.alert else c :: d.pwr.alert } }
def dropAlert (c : Nat) (d : Dev) : Dev :=
  { d with pwr := { d.pwr with alert := d.pwr.alert.filter fun x => x != c } }

/-- A power or thermal event (17 R655). -/
def pwrEvent (p ty cause arg : Nat) (persist : Bool) (d : Dev) : Dev :=
  let h := (hottest d).getD (0, 0)
  raiseEvent p ty (leBytes 1 d.pwr.state ++ leBytes 1 (level d) ++ leBytes 1 cause ++ leBytes 1 h.1 ++ leBytes 1 h.2
    ++ leBytes 2 (enc 16 (tmax d)) ++ leBytes 2 (regField 0x948 0 16 d) ++ leBytes 2 (regField 0x940 0 16 d)
    ++ leBytes 2 0 ++ leBytes 8 arg ++ timeBytes d) persist d

/-- HS_THRTMS counts the whole milliseconds spent above L0 since the last account (R648). -/
def accountThrottle (d : Dev) : Dev :=
  if level d = 0 then { d with pwr := { d.pwr with thrtFrom := d.time } }
  else
    let n := since d.pwr.thrtFrom d / ms 1
    addCtr HS_THRTMS n { d with pwr := { d.pwr with thrtFrom := d.pwr.thrtFrom + BitVec.ofNat 64 (n * ms 1) } }

/-- R649 items 1 and 4, R655: THERMAL_WARN to every enabled partition and to the device, ALERT_N and the grace. -/
def thermalWarn (d : Dev) : Dev :=
  let d := bump HS_THRTWARN (addAlert 1 { d with pwr := { d.pwr with warn := true, grace := some d.time } })
  let d := forEach ((List.range 32).filter fun p => enabled p d) (fun p => pwrEvent p 0x80 0 0 false) d
  pwrEvent 255 0x80 0 0 false d

def thermalClear (d : Dev) : Dev :=
  pwrEvent 255 0x82 0 0 false (dropAlert 1 { d with pwr := { d.pwr with warn := false } })

/-- TLEVEL takes a new value and THERMAL_THROTTLE is sent (R649). -/
def setTlevel (n : Nat) (d : Dev) : Dev :=
  let d := accountThrottle d
  pwrEvent 255 0x81 0 0 false { d with pwr := { d.pwr with tlevel := n } }

/-- What a new reading decides: the start of a warning, and since when readings have stayed below 93 degrees. -/
def thermalCheck (d : Dev) : Dev :=
  let hot := decide (6080 ≤ tmax d)
  let d := { d with pwr := { d.pwr with
    below := if 5952 ≤ tmax d then none else match d.pwr.below with | some t => some t | none => some d.time } }
  if hot && d.pwr.tlevel = 0 && d.pwr.grace.isNone then thermalWarn d else d

/-- FAST of a die (R646): set by a reading at or above 90 degrees, kept until all are below 88. -/
def fastUpdate (die : Nat) (d : Dev) : Dev :=
  match dieMax die false d with
  | none => d
  | some t =>
    let f := if 5760 ≤ t then true else if t < 5632 then false else bit (regGet (snAddr die 0) d).toNat 30
    forEach (List.range 8) (fun k d =>
      if snValid die k d then regSetField (snAddr die k) 30 1 (b2n f) d else d) d

/-- The sequencer writes one result: VALID, VALUE (R590). -/
def snWrite (die k : Nat) (v : Half) (d : Dev) : Dev :=
  regSetField (snAddr die k) 31 1 1 (regSetField (snAddr die k) 0 16 v.toNat d)

def graceEnd (d : Dev) : Dev :=
  match d.pwr.grace with
  | none => d
  | some t =>
    if since t d < ms 5 then d
    else
      let d := { d with pwr := { d.pwr with grace := none, tstep := d.time } }
      if 6080 ≤ tmax d then setTlevel 1 d else thermalClear d

/-- R649 items 3 and 4: each 1 ms at or above 95 degrees raises TLEVEL; each 10 ms below 93 lowers it. `held` counts
rail and clock requests held by R643. -/
def tlevelStep (held : Nat) (d : Dev) : Dev :=
  let d := addCtr HS_VFHOLD held d
  let p := d.pwr
  if p.tlevel = 0 then d
  else if 6080 ≤ tmax d then
    if ms 1 ≤ since p.tstep d && p.tlevel < 7 then
      setTlevel (p.tlevel + 1) { d with pwr := { p with tstep := d.time } }
    else d
  else match p.below with
    | none => d
    | some t =>
      if since t d < ms 10 then d
      else
        let d := setTlevel (p.tlevel - 1) { d with pwr := { p with below := some d.time, tstep := d.time } }
        if d.pwr.tlevel = 0 then thermalClear d else d

/-- The power limit in force over `n` samples in W: LIMIT, or 64 A times SN_VIN when lower (R650); in 1/100 W. -/
def effLimit (d : Dev) : Nat := min (100 * regField HS_PLIMIT 0 12 d) (64 * regField 0x940 0 16 d)

def setPlevel (n : Nat) (d : Dev) : Dev :=
  let was := d.pwr.plevel
  let d := accountThrottle d
  let d := { d with pwr := { d.pwr with plevel := n } }
  if was = 0 && n ≠ 0 then pwrEvent 255 0x84 1 0 false (bump HS_PWRLIM d) else d

/-- R650: at once on a sample above 3,600 W (once per 100 us), by one per 1 ms on a high 10 ms mean, and down after
each 10 ms below 95 % of the limit. -/
def plevelStep (held : Nat) (d : Dev) : Dev :=
  let d := addCtr HS_VFHOLD held d
  let p := d.pwr
  let n := p.psamples.length
  let total := p.psamples.foldl (· + ·) 0
  let up := fun (q : Pwr) => setPlevel (min (p.plevel + 1) 7) { d with pwr := q }
  if 3600 < p.psamples.headD 0 && us 100 ≤ since p.ppeak d then up { p with ppeak := d.time }
  else if n = 100 && effLimit d * n < 100 * total && ms 1 ≤ since p.pmean d then up { p with pmean := d.time }
  else match p.pbelow with
    | some t =>
      if 0 < p.plevel && ms 10 ≤ since t d then
        setPlevel (p.plevel - 1) { d with pwr := { p with pbelow := some d.time } }
      else d
    | none => d

/-- R646, R650, R654: stack temperatures, input voltage, current and power every 100 us. `hbms` lists (Bridge,
stack, reading). -/
def powerSample (hbms : List (Nat × Nat × Half)) (vin iin pin : Half) (d : Dev) : Dev :=
  let d := forEach hbms (fun e => snWrite (16 + e.1 % 12) (8 + e.2.1 % 2) e.2.2) d
  let d := regSetField 0x940 31 1 1 (regSetField 0x940 0 16 vin.toNat d)
  let d := regSetField 0x944 31 1 1 (regSetField 0x944 0 16 iin.toNat d)
  let d := regSetField 0x948 31 1 1 (regSetField 0x948 0 16 pin.toNat d)
  let samples := (pin.toNat :: d.pwr.psamples).take 100
  let d := { d with pwr := { d.pwr with psamples := samples } }
  let low := decide (10000 * samples.foldl (· + ·) 0 < 95 * effLimit d * samples.length)
  let d := { d with pwr := { d.pwr with
    pbelow := if low then (match d.pwr.pbelow with | some t => some t | none => some d.time) else none } }
  let out := decide (4400 < vin.toNat) && (decide (vin.toNat < 5000) || decide (5800 < vin.toNat))
  let d := if out && d.pwr.inRange then
      pwrEvent 255 0x85 2 0 false (addAlert 2 (bump HS_INRANGE { d with pwr := { d.pwr with inRange := false } }))
    else if !out && !d.pwr.inRange then dropAlert 2 { d with pwr := { d.pwr with inRange := true } }
    else d
  thermalCheck d

end Sys2Proof.Machine
end

