-- ==== Sys2Proof/Machine/Pins.lean ====
section
/-! DEFINITION. Straps, test access and the pulse-per-second pins (18 R672-R678). -/

namespace Sys2Proof.Machine

/-- TAP instructions (18 R677): 0 Test-Logic-Reset's IDCODE or idle, 1 IDCODE, 2 BYPASS, 3 SAMPLE/PRELOAD, 4 EXTEST,
5 CLAMP. -/
def setTap (n : Nat) (d : Dev) : Dev := { d with pins := { d.pins with tap := n } }

/-- The TAP leaves Test-Logic-Reset only with TRST_N high, and needs power. -/
def tapUsable (d : Dev) : Bool := d.pwr.supply && !d.pwr.tripped && d.pins.trstN

/-- TRST_N low holds the TAP in Test-Logic-Reset; `level` is the level TRST_N then takes. -/
def tapReset (level : Bool) (d : Dev) : Dev :=
  { d with pins := { d.pins with trstN := level, tap := 0, extest := false, clamp := false } }

/-- IDCODE: revision in [31:28], 0x2524 in [27:12], JEP106 code in [11:1], 1 in [0], least significant bit first. -/
def idcode (d : Dev) : Nat :=
  d.fuses.rev.toNat * 2 ^ 28 + 0x2524 * 2 ^ 12 + Config.jep106.toNat * 2 + 1

def jtagIdcode (d : Dev) : Dev :=
  if tapUsable d then send (.tdo ((List.range 32).map fun k => bit (idcode d) k)) (setTap 1 d) else d

/-- Shift `tdi` through the one-bit bypass register, which captures 0 (IEEE 1149.1, PRESUMED). -/
def bypassShift (tdi : List Bool) (d : Dev) : Dev :=
  send (.tdo ((false :: tdi).take tdi.length))
    { d with pins := { d.pins with bypass := tdi.getLastD false } }

def jtagBypass (tdi : List Bool) (d : Dev) : Dev :=
  if tapUsable d then bypassShift tdi (setTap 2 { d with pins := { d.pins with extest := false, clamp := false } })
  else d

/-- The levels the boundary cells of the module's input pins capture, in contact order S3, S5-S8, S13, S19. -/
def pinLevels (d : Dev) : List (Nat × Bool) :=
  [(3, d.pins.rstN), (5, d.pins.bootSel.getLsbD 0), (6, d.pins.bootSel.getLsbD 1), (7, d.pins.clkMode.getLsbD 0),
   (8, d.pins.clkMode.getLsbD 1), (13, d.pins.ppsIn), (19, d.pins.trstN)]

/-- The boundary register after new values for some cells. -/
def loadCells (l : List (Nat × Bool)) (d : Dev) : SMap Bool := l.foldl (fun b x => mput b x.1 x.2) d.pins.boundary

/-- SAMPLE captures the pins and PRELOAD loads the cells (contact, level). -/
def jtagSample (preload : List (Nat × Bool)) (d : Dev) : Dev :=
  if !tapUsable d then d
  else
    let d := send (.tdo ((pinLevels d).map (·.2))) (setTap 3 d)
    { d with pins := { d.pins with extest := false, clamp := false, boundary := loadCells preload d } }

/-- EXTEST and CLAMP take effect only while RST_N is low; at any other time they act as BYPASS. -/
def jtagExtest (cells : List (Nat × Bool)) (tdi : List Bool) (d : Dev) : Dev :=
  if !tapUsable d then d
  else if d.pins.rstN then bypassShift tdi (setTap 4 d)
  else setTap 4 { d with pins := { d.pins with extest := true, clamp := false, boundary := loadCells cells d } }

def jtagClamp (tdi : List Bool) (d : Dev) : Dev :=
  if !tapUsable d then d
  else if d.pins.rstN then bypassShift tdi (setTap 5 d)
  else bypassShift tdi (setTap 5 { d with pins := { d.pins with clamp := true, extest := false } })

/-- PPS_OUT rises where the counter is a multiple of 100,000,000, unless pads are held or latched (R676, R644); it
stays high for 1 us, whose end the next command finds (`ppsFall`). -/
def ppsOut (d : Dev) : Dev :=
  if d.time.toNat % 100000000 = 0 && d.timeRun && !d.pins.padHold && !d.pins.latched && d.pwr.supply then
    { d with pins := { d.pins with ppsOut := true } }
  else d

/-- PPS_OUT is low again 1 us after its rise: any command later than that finds it low. -/
def ppsFall (d : Dev) : Dev :=
  if d.pins.ppsOut && decide (us 1 ≤ d.time.toNat % 100000000) then
    { d with pins := { d.pins with ppsOut := false } }
  else d

end Sys2Proof.Machine
end

