-- ==== Sys2Proof/Machine/Links.lean ====
section
/-! DEFINITION. Neck and Fingerboard links (01 R20-R36, R57-R60): the flit header, the CRC, replay and retraining,
the partition check of the Bridge, and the fixed routes. -/

namespace Sys2Proof.Machine

/-! ### Numbers

Row 1 is south of row 0 (DESIGN CHOICE, notes/assumptions/148.md). A channel is named by its receiver: 0-11 the Fret side of Neck n, 16-27 the Bridge side of Neck n, 32 + 4n + k port k
of Bridge n, 96 + 4c + k port k of Headstock stop c, which has a north and a south port only; ports 0 east, 1 west, 2 north, 3 south. A link is named by one
of its two channels: the Fret side of a Neck, the east or the south port of a Fingerboard link. -/

def neckFret (n : Nat) : Nat := n
def neckBridge (n : Nat) : Nat := 16 + n
def fbPort (n k : Nat) : Nat := 32 + 4 * n + k

/-- The node at a row and column of the torus: 0-11 Bridges, 12-15 Headstock stops (01 R31). -/
def nodeAt (row col : Nat) : Nat := 4 * (row % 4) + col % 4
def rowOf (n : Nat) : Nat := n / 4
def colOf (n : Nat) : Nat := n % 4

/-- The channel into port `k` of a node. -/
def chanOf (node k : Nat) : Nat := if node < 12 then fbPort node k else 96 + 4 * (node - 12) + k

/-- The node whose port a Fingerboard channel enters. -/
def nodeOfChan (ch : Nat) : Nat := if ch < 96 then (ch - 32) / 4 else 12 + (ch - 96) / 4

/-- The link a channel belongs to. -/
def linkOf (ch : Nat) : Nat :=
  if ch < 16 then ch
  else if ch < 32 then ch - 16
  else
    let node := nodeOfChan ch
    let k := (ch - 32) % 4
    if k = 0 || k = 3 then ch
    else if k = 1 then chanOf (nodeAt (rowOf node) (colOf node + 3)) 0
    else chanOf (nodeAt (rowOf node + 3) (colOf node)) 3

/-- The pairs that the failure of a link resets: its Bridges' (01 R27, R60). -/
def linkPairs (link : Nat) : List Nat :=
  if link < 16 then [link]
  else
    let node := nodeOfChan link
    let other := if (link - 32) % 4 = 0 then nodeAt (rowOf node) (colOf node + 1) else nodeAt (rowOf node + 1) (colOf node)
    [node, other].filter (· < 12)

def zeroChan : Chan := { discard := none, fails := 0, next := 0, buf := [], replay := none, held := [] }
def downLink : Link := { state := 0, failed := 0 }
def chanAt (ch : Nat) (d : Dev) : Chan := mgetD d.links.chans ch zeroChan
def linkAt (l : Nat) (d : Dev) : Link := mgetD d.links.links l downLink
def putChan (ch : Nat) (c : Chan) (d : Dev) : Dev :=
  { d with links := { d.links with chans := mputD d.links.chans ch c zeroChan } }
def putLink (l : Nat) (k : Link) (d : Dev) : Dev :=
  { d with links := { d.links with links := mputD d.links.links l k downLink } }

/-! ### The flit (01 R24, R29) -/

def fDst (h : DWord) : Nat := bits h.toNat 60 4
def fPart (h : DWord) : Nat := bits h.toNat 51 5
def fEndpoint (h : DWord) : Nat := bits h.toNat 43 5
def fLseq (h : DWord) : Nat := bits h.toNat 0 12

/-- A header built from its fields; VC starts at 0 (R36). -/
def mkFlitHdr (dst src part cls endpoint scale stream : Nat) : DWord :=
  BitVec.ofNat 64 (dst % 16 * 2 ^ 60 + src % 16 * 2 ^ 56 + part % 32 * 2 ^ 51 + cls % 4 * 2 ^ 49
    + endpoint % 32 * 2 ^ 43 + scale % 256 * 2 ^ 35 + stream % 2 ^ 18 * 2 ^ 17)

def crc40Bit (r : BitVec 40) (b : Bool) : BitVec 40 :=
  if r.getLsbD 39 != b then (r <<< 1) ^^^ 0x0004820009#40 else r <<< 1

/-- CRC-40 over header and payload, most significant bit of the header first, then each payload byte from its most
significant bit (R24; the order within the flit is DEDUCED from R29's bit numbering, log 24). -/
def crc40 (h : DWord) (payload : List Byte) : BitVec 40 :=
  let r := (List.range 64).foldl (fun r k => crc40Bit r (h.getLsbD (63 - k))) (BitVec.allOnes 40)
  payload.foldl (fun r b => (List.range 8).foldl (fun r k => crc40Bit r (b.getLsbD (7 - k))) r) r

/-- The two channels of a link. -/
def linkChans (l : Nat) : List Nat :=
  if l < 16 then [neckFret l, neckBridge l]
  else
    let n := nodeOfChan l
    if (l - 32) % 4 = 0 then [l, chanOf (nodeAt (rowOf n) (colOf n + 1)) 1] else [l, chanOf (nodeAt (rowOf n + 1) (colOf n)) 2]

/-- Send a flit on a channel: the link's sender writes LSEQ and keeps the flit for replay (R25, R29). -/
def sendFlit (ch : Nat) (h : DWord) (payload : List Byte) (d : Dev) : Dev :=
  let c := chanAt ch d
  let h := BitVec.ofNat 64 (h.toNat - fLseq h + c.next)
  let buf := c.buf ++ [{ hdr := h, payload := payload }]
  send (.flit ch h payload (crc40 h payload))
    (putChan ch { c with next := (c.next + 1) % 4096, buf := buf.drop (buf.length - 1024) } d)

/-- Count a replay requested by a channel's receiver (R58, R59). -/
def countReplay (ch : Nat) (d : Dev) : Dev :=
  if ch < 12 then addField (BR_NECKRETRY ch) 16 16 1 d
  else if 16 ≤ ch ∧ ch < 28 then addField (BR_NECKRETRY (ch - 16)) 0 16 1 d
  else if 32 ≤ ch ∧ ch < 80 then addField (BR_FBRETRY ((ch - 32) / 4)) (8 * ((ch - 32) % 4)) 8 1 d
  else d

/-- A retraining of a link begins: both channels are held; a Neck link counts it (R26, R57). -/
def startRetrain (l : Nat) (d : Dev) : Dev :=
  let d := putLink l { linkAt l d with state := 1 } d
  if l < 12 then addField (BR_NECKSTAT l) 16 8 1 d else d

/-- A flit whose CRC fails is discarded, with every later one until its replay, and a replay is requested naming it
(R25); sixteen failures of one flit in a row retrain the link (R26). A flit whose CRC holds is not this event; `replayed`: the replay
awaited has arrived intact since. -/
def flitCrcFail (ch : Nat) (h : DWord) (payload : List Byte) (crc : BitVec 40) (replayed : Bool) (d : Dev) : Dev :=
  let c := if replayed then { chanAt ch d with discard := none, fails := 0 } else chanAt ch d
  if crc40 h payload = crc || (linkAt (linkOf ch) d).state != 2 then d
  else match c.discard with
    | some q =>
      if q ≠ fLseq h then d
      else
        let n := c.fails + 1
        let d := send (.replayRequest ch q) (countReplay ch (putChan ch { c with fails := n } d))
        if n = 16 then startRetrain (linkOf ch) (putChan ch { c with fails := 0 } d) else d
    | none =>
      let q := fLseq h
      send (.replayRequest ch q)
        (countReplay ch (putChan ch { c with discard := some q, fails := 1 } d))

/-- A header with its virtual channel (R36). -/
def setVc (vc : Nat) (h : DWord) : DWord := BitVec.ofNat 64 (h.toNat - bits h.toNat 48 1 * 2 ^ 48 + vc % 2 * 2 ^ 48)

/-- Nothing keeps a channel's sender: its link is up and nothing waits there before (R26). -/
def chanFree (ch : Nat) (d : Dev) : Bool :=
  (linkAt (linkOf ch) d).state == 2 && (chanAt ch d).held.isEmpty && (chanAt ch d).replay.isNone

/-- A flit goes its way over the channels of its route, each with the virtual channel it uses there; where the link is not up its sender
holds it, behind those that wait there (R26, R34-R36). -/
def relay : List (Nat × Nat) → DWord → List Byte → Dev → Dev
  | [], _, _, d => d
  | (ch, vc) :: r, h, payload, d =>
    if chanFree ch d then relay r h payload (sendFlit ch (setVc vc h) payload d)
    else
      let c := chanAt ch d
      putChan ch { c with held := c.held ++ [{ flit := { hdr := h, payload := payload }, vc := vc, rest := r }] } d

/-- Replay from a flit in the original order. -/
def replayFrom (ch lseq : Nat) (d : Dev) : Dev :=
  forEach ((chanAt ch d).buf.dropWhile fun f => fLseq f.hdr != lseq)
    (fun f => send (.flit ch f.hdr f.payload (crc40 f.hdr f.payload))) d

/-- A sender receives a replay request: it resends from the named flit, in the original order (R25); a retraining holds it (R26). -/
def replayRequestRx (ch lseq : Nat) (d : Dev) : Dev :=
  if (linkAt (linkOf ch) d).state = 2 then replayFrom ch lseq d
  else putChan ch { chanAt ch d with replay := some lseq } d

/-- What waited for a channel goes: the replay asked for, then the flits held, in their order. -/
def flushChan (ch : Nat) (d : Dev) : Dev :=
  let c := chanAt ch d
  let d := putChan ch { c with replay := none, held := [] } d
  let d := match c.replay with | some q => replayFrom ch q d | none => d
  forEach c.held (fun x d => relay ((ch, x.vc) :: x.rest) x.flit.hdr x.flit.payload d) d

/-- A link is up: both its channels take up what waited. -/
def linkUp (l : Nat) (d : Dev) : Dev := forEach (linkChans l) flushChan (putLink l { state := 2, failed := 0 } d)

/-- The state of a link after a retraining that ended; none when the third in a row failed (R26, R27). -/
def retrained (l : Nat) (ok : Bool) (d : Dev) : Dev :=
  let k := linkAt l d
  if ok then linkUp l d
  else if k.failed + 1 < 3 then startRetrain l (putLink l { k with failed := k.failed + 1 } d)
  else putLink l { state := 3, failed := 3 } d

/-- R30, 13 R526: a Bridge discards a flit whose partition owns neither the course nor the unit it names, and counts
it for the partition it claims, or in HS_RXDROP when that partition is not enabled. -/
def flitAllowed (b : Nat) (h : DWord) (d : Dev) : Bool :=
  let e := fEndpoint h
  if e = 0 then ownsBridge (fPart h) b d
  else if e ≤ 16 then ownsCourse (fPart h) b (e - 1) d
  else false

def firewallFlit (b : Nat) (h : DWord) (d : Dev) : Dev :=
  if flitAllowed b h d then d
  else if enabled (fPart h) d then bump (PT_FWFLIT (fPart h)) d
  else bump HS_RXDROP d

/-! ### Routes (01 R34-R36) -/

/-- Steps of one ring of four from `a` to `b`: +1 or -1 each; two hops go in the increasing direction. -/
def ringSteps (a b : Nat) : List Int :=
  match (b + 4 - a % 4) % 4 with
  | 0 => []
  | 1 => [1]
  | 2 => [1, 1]
  | _ => [-1]

/-- A hop of a route: the node entered and the virtual channel used on the link into it. -/
structure Hop where
  node : Nat
  vc : Nat
  deriving DecidableEq, Repr

/-- Walk a ring: VC 0 until a wrap link is crossed, VC 1 on that ring from then on (R36). -/
def walkRing (at_ : Nat → Nat) : Nat → Nat → List Int → List Hop
  | _, _, [] => []
  | pos, vc, s :: r =>
    let nxt := ((pos : Int) + s) % 4
    let n := nxt.toNat
    let wrap := (pos = 3 && n = 0) || (pos = 0 && n = 3)
    let vc' := if wrap then 1 else vc
    { node := at_ n, vc := vc' } :: walkRing at_ n vc' r

/-- The route between two nodes: Bridge to Bridge along the row ring and then the column ring; to and from the
Headstock along the column ring alone, from or to the stop of the Bridge's column (R34, R35). -/
def route (src dst : Nat) : List Hop :=
  if src < 12 && dst < 12 then
    let row := walkRing (fun c => nodeAt (rowOf src) c) (colOf src) 0 (ringSteps (colOf src) (colOf dst))
    let col := walkRing (fun r => nodeAt r (colOf dst)) (rowOf src) 0 (ringSteps (rowOf src) (rowOf dst))
    row ++ col
  else if src < 12 then
    walkRing (fun r => nodeAt r (colOf src)) (rowOf src) 0 (ringSteps (rowOf src) 3)
  else
    walkRing (fun r => nodeAt r (colOf dst)) 3 0 (ringSteps 3 (rowOf dst))

/-- The channel into a neighbouring node, from `src`; a row's number rises towards the south (DESIGN CHOICE,
notes/assumptions/148.md). -/
def hopChan (src nxt : Nat) : Nat :=
  let k := if rowOf src = rowOf nxt then (if (colOf src + 1) % 4 = colOf nxt then 1 else 0)
    else if (rowOf src + 1) % 4 = rowOf nxt then 2 else 3
  chanOf nxt k

/-- The channels of a route from a node, with the virtual channel used on each. -/
def hopChans : Nat → List Hop → List (Nat × Nat)
  | _, [] => []
  | src, x :: r => (hopChan src x.node, x.vc) :: hopChans x.node r

/-! ### Where flits go (01 R20, R30, R34-R38, R40) -/

/-- The channels from a Fingerboard node to where a header names: over the Fingerboard, and to a course over the Neck of its Bridge, which
forwards no flit that R30 discards. -/
def nodePath (src : Nat) (h : DWord) (d : Dev) : List (Nat × Nat) :=
  (if fDst h = src then [] else hopChans src (route src (fDst h)))
    ++ (if fDst h < 12 && fEndpoint h != 0 && flitAllowed (fDst h) h d then [(neckFret (fDst h), 0)] else [])

/-- A flit that crosses the Fingerboard is counted for its partition, in units of 64 B of payload (13 PT_FBBYTES). -/
def countFb (p src : Nat) (h : DWord) (d : Dev) : Dev := if fDst h = src then d else addWrap (PT_FBBYTES p) 4 d

/-- A unit of a node sends a flit. -/
def nodeInject (p src : Nat) (h : DWord) (payload : List Byte) (d : Dev) : Dev :=
  relay (nodePath src h d) h payload (countFb p src h d)

/-- A course of Fret die `b` sends a flit: over the course ring to a course of the same die (R37), and to everything else through the
Neck and its Bridge (R20, R38). -/
def fretInject (p b : Nat) (h : DWord) (payload : List Byte) (d : Dev) : Dev :=
  if fDst h = b && fEndpoint h != 0 then
    { d with fret := { d.fret with rings := mputD d.fret.rings b (mgetD d.fret.rings b [] ++ [{ hdr := h, payload := payload }]) [] } }
  else relay ((neckBridge b, 0) :: nodePath b h d) h payload (countFb p b h d)

/-- The first flit on the ring of a die for a course with this payload has arrived. -/
def ringTake (b c : Nat) (payload : List Byte) (d : Dev) : Dev :=
  let l := mgetD d.fret.rings b []
  let hit := fun (f : Flit) => fEndpoint f.hdr == c + 1 && f.payload == payload
  if l.any hit then { d with fret := { d.fret with rings := mputD d.fret.rings b (l.eraseP hit) [] } } else d

/-- The flits of a partition leave the rings with its batches (16 R607). -/
def ringDrop (p : Nat) (d : Dev) : Dev :=
  let keep := fun (l : List Flit) => l.filter fun f => fPart f.hdr != p
  { d with fret := { d.fret with rings := d.fret.rings.foldl (fun m e => mputD m e.1 (keep e.2) []) [] } }

/-- Bytes as flit payloads. -/
def flitPayloads (l : List Byte) : List (List Byte) :=
  (List.range ((l.length + 255) / 256)).map fun k => padTo 256 ((l.drop (256 * k)).take 256)

/-- Bulk data from HBM to a course of the paired die (R20, R38). How it is packed into flits is not stated (DESIGN CHOICE,
notes/assumptions/149.md). -/
def neckBulk (p b c : Nat) (l : List Byte) (d : Dev) : Dev :=
  forEach (flitPayloads l) (fun pay d => nodeInject p b (mkFlitHdr b b p 3 (c + 1) 0 0) pay d) d

/-- Bulk data from a node to the units of a Bridge: HBM of another Bridge, and what the Headstock writes there (R35, R40). -/
def bridgeBulk (p src b cls : Nat) (l : List Byte) (d : Dev) : Dev :=
  forEach (flitPayloads l) (fun pay d => nodeInject p src (mkFlitHdr b src p cls 0 0 0) pay d) d

/-- The Headstock stop of a Bridge's column (R35). -/
def fbStop (b : Nat) : Nat := 12 + b % 4

end Sys2Proof.Machine
end

