-- ==== Sys2Proof/Machine/Num.lean ====
section
/-! DEFINITION. Numbers: exact dyadic values, and the formats of 03 R112-R117 with rounding to nearest, ties to even. -/

namespace Sys2Proof.Machine

def dyZero : Dy := ⟨0, 0⟩
def dyInt (n : Int) : Dy := ⟨n, 0⟩

/-- The integer that `x` is in units of 2^e, for e at most x.e. -/
def dyAt (x : Dy) (e : Int) : Int := x.m * 2 ^ (x.e - e).toNat

def dyAdd (x y : Dy) : Dy :=
  if x.m = 0 then y else if y.m = 0 then x
  else let e := min x.e y.e; ⟨dyAt x e + dyAt y e, e⟩

def dyNeg (x : Dy) : Dy := ⟨-x.m, x.e⟩
def dySub (x y : Dy) : Dy := dyAdd x (dyNeg y)
def dyMul (x y : Dy) : Dy := ⟨x.m * y.m, x.e + y.e⟩
def dyScale (x : Dy) (k : Int) : Dy := ⟨x.m, x.e + k⟩
def dyAbs (x : Dy) : Dy := ⟨x.m.natAbs, x.e⟩
def dyLt (x y : Dy) : Bool := decide ((dySub x y).m < 0)
def dyLe (x y : Dy) : Bool := !dyLt y x
def dyEq (x y : Dy) : Bool := decide ((dySub x y).m = 0)
def dySum (l : List Dy) : Dy := l.foldl dyAdd dyZero

/-- floor (log2 |x|), for x not 0. -/
def dyLog2 (x : Dy) : Int := (Nat.log2 x.m.natAbs : Int) + x.e

/-- n / 2^k to the nearest integer, ties to even. -/
def rhe (n : Int) (k : Nat) : Int :=
  let q := n / 2 ^ k
  let r := 2 * (n % 2 ^ k)
  if r < 2 ^ k then q else if 2 ^ k < r then q + 1 else if q % 2 = 0 then q else q + 1

/-- n / d (d > 0) to the nearest integer, ties away from zero. -/
def rhaDiv (n d : Int) : Int :=
  if 0 ≤ n then (2 * n + d) / (2 * d) else -((2 * (-n) + d) / (2 * d))

/-- n / d (d > 0) to the nearest integer, ties to even. -/
def rheDiv (n d : Int) : Int :=
  let q := n / d
  let r := 2 * (n % d)
  if r < d then q else if d < r then q + 1 else if q % 2 = 0 then q else q + 1

/-- `x` as a multiple of 2^q, to nearest, ties to even. -/
def dyRound (q : Int) (x : Dy) : Dy := if q ≤ x.e then x else ⟨rhe x.m (q - x.e).toNat, q⟩

/-- A binary format: exponent and mantissa bits, bias, and its largest finite value. -/
structure Fmt where
  eb : Nat
  mb : Nat
  bias : Int
  maxv : Dy
  deriving DecidableEq, Repr

def fF32 : Fmt := ⟨8, 23, 127, ⟨2 ^ 24 - 1, 104⟩⟩
def fBF16 : Fmt := ⟨8, 7, 127, ⟨2 ^ 8 - 1, 120⟩⟩
def fF16 : Fmt := ⟨5, 10, 15, ⟨2 ^ 11 - 1, 5⟩⟩
def fE4M3 : Fmt := ⟨4, 3, 7, ⟨7, 6⟩⟩
def fE5M2 : Fmt := ⟨5, 2, 15, ⟨7, 13⟩⟩

def fmtQmin (f : Fmt) : Int := 1 - f.bias - f.mb

/-- Rounding with an unbounded exponent range (03 R142). -/
def fpRoundU (f : Fmt) (x : Dy) : Dy := if x.m = 0 then x else dyRound (max (dyLog2 x - f.mb) (fmtQmin f)) x

/-- The rounded value, limited to the largest finite one; the flag says that it was limited. -/
def fpRound (f : Fmt) (x : Dy) : Dy × Bool :=
  let r := fpRoundU f x
  if dyLt f.maxv (dyAbs r) then (if r.m < 0 then dyNeg f.maxv else f.maxv, true) else (r, false)

/-- The bit pattern of a value the format holds exactly; `neg` gives the sign of a zero. -/
def fpEnc (f : Fmt) (neg : Bool) (x : Dy) : Nat :=
  let s := if x.m < 0 || (x.m = 0 && neg) then 2 ^ (f.eb + f.mb) else 0
  if x.m = 0 then s
  else
    let l := dyLog2 x
    let a := dyAbs x
    if l < 1 - f.bias then s + (dyAt a (min a.e (fmtQmin f)) / 2 ^ (fmtQmin f - min a.e (fmtQmin f)).toNat).toNat
    else
      let q := l - f.mb
      let n := (dyAt a (min a.e q) / 2 ^ (q - min a.e q).toNat).toNat
      s + (l + f.bias).toNat * 2 ^ f.mb + (n - 2 ^ f.mb)

/-- The pattern of a value rounded into the format, limited to the largest finite one. -/
def fpOf (f : Fmt) (x : Dy) : Nat := fpEnc f (decide (x.m < 0)) (fpRound f x).1

/-- The value of a finite pattern. -/
def fpVal (f : Fmt) (w : Nat) : Dy :=
  let s : Int := if bit w (f.eb + f.mb) then -1 else 1
  let e := bits w f.mb f.eb
  let m := bits w 0 f.mb
  if e = 0 then ⟨s * m, fmtQmin f⟩ else ⟨s * (m + 2 ^ f.mb : Nat), e - f.bias - f.mb⟩

/-- Infinity or NaN (03 R116, R119): E4M3 has only the NaN 0x7F. -/
def fpNonFinite (f : Fmt) (w : Nat) : Bool :=
  if f.eb = 4 then bits w 0 7 = 0x7F else bits w f.mb f.eb = 2 ^ f.eb - 1

def fpDec (f : Fmt) (w : Nat) : Option Dy := if fpNonFinite f w then none else some (fpVal f w)

/-- FP32 sum and product, rounded to nearest even, limited to the largest finite value. -/
def f32Add (x y : Dy) : Dy := (fpRound fF32 (dyAdd x y)).1
def f32Mul (x y : Dy) : Dy := (fpRound fF32 (dyMul x y)).1

/-- Round n / d to FP32 (d not 0): the quotient to 30 significant bits and a sticky bit, then rounding. -/
def f32Div (x y : Dy) : Dy :=
  if x.m = 0 then dyZero
  else
    let k := (Nat.log2 y.m.natAbs + 200)
    let n := x.m.natAbs * 2 ^ k
    let q := n / y.m.natAbs
    let s : Int := if (x.m < 0) == (y.m < 0) then 1 else -1
    let sticky := if n % y.m.natAbs = 0 then 0 else 1
    (fpRound fF32 ⟨s * (2 * q + sticky : Nat), x.e - y.e - k - 1⟩).1

/-- E8M0 (03 R113); none for the NaN 0xFF. -/
def e8m0 (b : Nat) : Option Dy := if b = 255 then none else some ⟨1, (b : Int) - 127⟩

/-- Magnitudes of FP4 E2M1 codes, doubled (03 R115). -/
def fp4Mag (c : Nat) : Nat := [0, 1, 2, 3, 4, 6, 8, 12].getD (c % 8) 0

/-- The integer value of a 4-bit code (03 R114, R115); `fp4` selects the format. -/
def codeVal (fp4 : Bool) (c : Nat) : Int :=
  if fp4 then (if 8 ≤ c % 16 then -(fp4Mag c : Int) else fp4Mag c) else sext 4 c

/-- An element of a host-supplied row slice (03 R117, R118; 12 R494): row format 0 MXFP4, 1 MXINT8, 2 E4M3, 3 E5M2. An MX
element beyond the largest finite FP32 value keeps its exact value (DESIGN CHOICE, notes/assumptions/156.md). -/
def rowElem (fmt : Nat) (l : List Byte) (i : Nat) : Option Dy :=
  if fmt = 0 then
    let c := if i % 2 = 0 then u8 l (16 + i / 2) % 16 else u8 l (16 + i / 2) / 16
    (e8m0 (u8 l (i / 32))).map fun s => dyMul ⟨codeVal true c, -1⟩ s
  else if fmt = 1 then (e8m0 (u8 l (i / 32))).map fun s => dyMul ⟨sext 8 (u8 l (16 + i)), -6⟩ s
  else if fmt = 2 then fpDec fE4M3 (u8 l i)
  else fpDec fE5M2 (u8 l i)

/-- Bytes of one row slice of 512 elements. -/
def rowSliceBytes (fmt : Nat) : Nat := if fmt = 0 then 272 else if fmt = 1 then 528 else 512

end Sys2Proof.Machine
end

