-- ==== Sys2Proof/Machine/Condition.lean ====
section
/-! DEFINITION. The conditioner (03 R128-R140): 512 wide values into one G4 slice, its outliers and its residuals. -/

namespace Sys2Proof.Machine

/-- Insert in ascending order. -/
def dyInsert (x : Dy) : List Dy → List Dy
  | [] => [x]
  | y :: r => if dyLt y x then y :: dyInsert x r else x :: y :: r

def dySort (l : List Dy) : List Dy := l.foldr dyInsert []

/-- A conditioned slice: codes and SCALE, outliers, what R136 and R137 say of it, and the residuals of R140. -/
structure Cond where
  codes : List Nat
  scale : Nat
  outs : List OutEnt
  zero : Bool
  clamped : Bool
  resid : List Int
  deriving DecidableEq, Repr

/-- INT4: nearest integer, ties to even, limited to -7..+7; as a 4-bit code. -/
def quantInt4 (x : Dy) : Nat :=
  let n := (dyRound 0 x)
  let v := if 0 ≤ n.e then n.m * 2 ^ n.e.toNat else n.m
  enc 4 (max (-7) (min 7 v))

/-- FP4: the nearest magnitude of R115, a tie to the even code, limited to 12; zero is always code 0x0 (R131). -/
def quantFp4 (x : Dy) : Nat :=
  let a := dyAbs x
  let best := (List.range 8).foldl (fun b c =>
    let db := dyAbs (dySub a (dyInt (fp4Mag b)))
    let dc := dyAbs (dySub a (dyInt (fp4Mag c)))
    if dyLt dc db || (dyEq dc db && c % 2 = 0) then c else b) 0
  if best = 0 then 0 else if x.m < 0 then best + 8 else best

/-- The least integer e with M <= Q 2^e, for M > 0. -/
def leastExp (m : Dy) (q : Nat) : Int :=
  let e0 := dyLog2 m - (Nat.log2 q : Int) - 1
  if dyLe m ⟨q, e0⟩ then e0 else if dyLe m ⟨q, e0 + 1⟩ then e0 + 1 else e0 + 2

/-- The outlier entry of a value (R134). -/
def outEntry (i : Nat) (y : Dy) : OutEnt :=
  let oe := max 0 (dyLog2 y - 7 + 127)
  { index := i, oexp := oe.toNat, oval := fpOf fE4M3 (dyScale y (127 - oe)) }

/-- R130 on 512 finite values with their feedback terms R(i). -/
def conditionFin (fp4 : Bool) (outMult : Nat) (v r : List Dy) : Cond :=
  let q := if fp4 then 12 else 7
  let y := List.zipWith f32Add v r
  let p := (dySort (y.map dyAbs)).getD 495 dyZero
  let isOut := fun (a : Dy) => outMult != 0 && dyLt (dyMul ⟨(outMult : Int) + 1, -1⟩ p) (dyAbs a)
  let z := y.map fun a => if isOut a then dyZero else a
  let outs := (y.zipIdx.filter fun a => isOut a.1).map fun a => outEntry a.2 a.1
  let m := z.foldl (fun b a => if dyLt b (dyAbs a) then dyAbs a else b) dyZero
  if m.m = 0 then
    { codes := z.map fun _ => 0, scale := 0, outs := outs, zero := true, clamped := false, resid := z.map fun _ => 0 }
  else
    let e0 := leastExp m q
    let e := min 127 (max (-127) e0)
    let codes := z.map fun a => if fp4 then quantFp4 (dyScale a (-e)) else quantInt4 (dyScale a (-e))
    let clamped := e0 < -127 || 127 < e0
    let resid := List.zipWith (fun a c =>
      let w := dyRound 0 (dyScale (dySub a ⟨codeVal fp4 c, e⟩) (5 - e))
      let n := if 0 ≤ w.e then w.m * 2 ^ w.e.toNat else w.m
      max (-127) (min 127 n)) z codes
    { codes := codes, scale := (e + 127).toNat, outs := outs, zero := false, clamped := clamped,
      resid := if clamped then z.map fun _ => 0 else resid }

/-- R130: none when some input is non-finite (R120). -/
def condition (fp4 : Bool) (outMult : Nat) (v : List (Option Dy)) (r : List Dy) : Option Cond :=
  if v.any (·.isNone) then none else some (conditionFin fp4 outMult (v.map fun x => x.getD dyZero) r)

/-- The 256 payload bytes of a slice flit: code i in bits [4i + 3 : 4i] (R132). -/
def slicePayload (codes : List Nat) : List Byte :=
  (List.range 256).map fun j => BitVec.ofNat 8 (codes.getD (2 * j) 0 % 16 + 16 * (codes.getD (2 * j + 1) 0 % 16))

def sliceCodes (payload : List Byte) : List Nat :=
  (List.range 512).map fun i => if i % 2 = 0 then u8 payload (i / 2) % 16 else u8 payload (i / 2) / 16

/-- The payload of an outlier flit: 64 entries of 32 bits (R133, R134). -/
def outPayload (outs : List OutEnt) : List Byte :=
  padTo 256 (outs.flatMap fun o => leBytes 4 (2 ^ 31 + o.index % 512 * 2 ^ 22 + o.oexp % 256 * 2 ^ 8 + o.oval % 256))

def outEntries (payload : List Byte) : List OutEnt :=
  ((List.range 64).map fun k => u32 payload (4 * k)).filter (fun w => bit w 31) |>.map fun w =>
    { index := bits w 22 9, oexp := bits w 8 8, oval := bits w 0 8 }

/-- The exact value of an outlier entry (R135). -/
def outVal (o : OutEnt) : Dy := dyScale (fpVal fE4M3 o.oval) ((o.oexp : Int) - 127)

/-- A wide output rounded to FP8 E4M3, FP8 E5M2 or BF16 (OUT_FMT 1, 2, 3; R142): pattern, and whether it was limited. -/
def wideOut (outFmt : Nat) (x : Dy) : Nat × Bool :=
  let f := if outFmt = 1 then fE4M3 else if outFmt = 2 then fE5M2 else fBF16
  (fpOf f x, (fpRound f x).2)

end Sys2Proof.Machine
end

