-- ==== Sys2Proof/Machine/Hbm.lean ====
section
/-! DEFINITION. HBM: bytes, poison, ECC verdicts (06 R242-R245), and the 32-byte error record (06 R259). An address is
linear over the two stacks of a Bridge; the stacks interleave in units of 4 KiB (08 R303). -/

namespace Sys2Proof.Machine

/-- An error record (06 R259): sent as an event of the partition, and logged when `persist`. -/
def errRecord (ty part die course ptile wtile group layer stage result stream colmask : Nat) (persist : Bool)
    (d : Dev) : Dev :=
  raiseEvent part ty (leBytes 1 die ++ leBytes 1 course ++ leBytes 1 ptile ++ leBytes 1 wtile ++ leBytes 1 group
    ++ leBytes 2 layer ++ leBytes 1 stage ++ leBytes 1 result ++ leBytes 4 stream ++ leBytes 8 colmask
    ++ timeBytes d) persist d

def hbmKey (b a : Nat) : Nat := (b % 12) * 2 ^ 37 + a % 2 ^ 37

/-- Bytes of both stacks: 128 GiB (GLD2524-LC1) or 72 GiB (LC2). -/
def hbmSize (d : Dev) : Nat := if d.fuses.order = 2 then 72 * 2 ^ 30 else 128 * 2 ^ 30

/-- A byte nothing has written reads 0 (DESIGN CHOICE, log 30). -/
def hbmByte (b a : Nat) (d : Dev) : Byte := mgetD d.mem (hbmKey b a) 0#8

def hbmBytes (b a n : Nat) (d : Dev) : List Byte := (List.range n).map fun i => hbmByte b (a + i) d

def hbmStack (a : Nat) : Nat := a / 4096 % 2
def hbmInStack (a : Nat) : Nat := a / 8192 * 4096 + a % 4096

/-- The poisoned 64-bit words of a range (R244). -/
def poisonIn (b a n : Nat) (d : Dev) : List Nat :=
  (d.poison.filter fun e => decide (hbmKey b (a / 8 * 8) ≤ e.1 * 8) && decide (e.1 * 8 < hbmKey b a + n)).map (·.1)

def hbmPoisoned (b a n : Nat) (d : Dev) : Bool := !(poisonIn b a n d).isEmpty

/-- Reads of words already poisoned are counted (R243). -/
def hbmRead (b a n : Nat) (d : Dev) : Dev :=
  let k := (poisonIn b a n d).length
  if k = 0 then d else addCtr (BR_POISONRD b) k d

/-- Bytes of a partition that an HBM controller grants count in PT_HBMBYTES, in units of 64 B, which wraps (13 R533, R545; log 31). -/
def hbmCount (p n : Nat) (d : Dev) : Dev := addWrap (PT_HBMBYTES p) ((n + 63) / 64) d

def setByte (b a : Nat) (v : Byte) (d : Dev) : Dev := { d with mem := mputD d.mem (hbmKey b a) v 0#8 }

/-- A run of bytes put at `lo` in a memory: what lies outside the run is as before, and a zero byte is not listed. -/
def memPut (m : SMap Byte) (lo : Nat) (bytes : List Byte) : SMap Byte :=
  (m.filter fun e => decide (e.1 < lo))
    ++ ((bytes.zipIdx lo).filter fun e => e.1 != 0#8).map (fun e => (e.2, e.1))
    ++ (m.filter fun e => decide (lo + bytes.length ≤ e.1))

/-- Write bytes: whole words lose their poison, a word written in part keeps it (R244). -/
def hbmWrite (b a : Nat) (bytes : List Byte) (d : Dev) : Dev :=
  let lo := hbmKey b a
  let hi := lo + bytes.length
  { d with mem := memPut d.mem lo bytes,
           poison := d.poison.filter fun e => !(decide (lo ≤ e.1 * 8) && decide (e.1 * 8 + 8 ≤ hi)) }

/-- A copy of a range carries its poisoned words (R244; log 121). -/
def carryPoison (srcB src b a n : Nat) (d : Dev) : Dev :=
  let lo := hbmKey srcB src
  let ws := d.poison.filter fun e => decide (lo ≤ e.1 * 8) && decide (e.1 * 8 < lo + n)
  { d with poison := ws.foldl (fun m e => mput m (hbmKey b a / 8 + (e.1 - lo / 8)) true) d.poison }

/-- Zero a range (09 R355, 10 R412): entries go, and so does poison. -/
def hbmZero (b a n : Nat) (d : Dev) : Dev :=
  let lo := hbmKey b a
  { d with mem := d.mem.filter (fun e => !(decide (lo ≤ e.1) && decide (e.1 < lo + n))),
           poison := d.poison.filter fun e => !(decide (lo ≤ e.1 * 8) && decide (e.1 * 8 + 8 ≤ lo + n)) }

/-- The partition whose HBM region holds an address, 255 when none. -/
def hbmOwner (b a : Nat) (d : Dev) : Nat :=
  ((ownerBy fun p => inRange (resHbmBase (resOf p d) b) (resHbmSize (resOf p d) b) (a / 2 ^ 21))).getD 255

/-- A word is marked as poisoned (R244). -/
def poisonWord (b a : Nat) (d : Dev) : Dev := { d with poison := mput d.poison (hbmKey b a / 8) true }

/-- What the controller does with a word in which `n` bit errors are found (R243): one or two are corrected and counted;
more poison the word, count it, and write an HBM_UE record. -/
def hbmVerdict (b a n : Nat) (d : Dev) : Dev :=
  if n = 0 then d
  else if n ≤ 2 then bump (if hbmStack a = 0 then BR_HBMCE0 b else BR_HBMCE0 b + 4) d
  else
    let d := bump (if hbmStack a = 0 then BR_HBMUE0 b else BR_HBMUE0 b + 4) (poisonWord b a d)
    errRecord 0x0069 (hbmOwner b a d) b (hbmStack a) 0xFF 0xFF 0xFF 0xFFFF 0xFF 0x30 0x3FFFF (hbmInStack a / 8 * 8) true d

/-- A read of one word with `n` bit errors: one that was poisoned before counts in BR_POISONRD, unless it is uncorrectable now (R243). -/
def hbmErr (b a n : Nat) (d : Dev) : Dev :=
  hbmVerdict b a n (if (mget? d.poison (hbmKey b a / 8)).isSome && decide (n < 3) then bump (BR_POISONRD b) d else d)

/-- Verdicts of a block that fall into `n` bytes from offset `lo`, by offset from there. -/
def errsIn (lo n : Nat) (errs : List (Nat × Nat)) : List (Nat × Nat) :=
  (errs.filter fun e => decide (lo ≤ e.1) && decide (e.1 < lo + n)).map fun e => (e.1 - lo, e.2)

/-- A read of `n` bytes with the verdicts of its words in which errors are found, as (offset, number of errors) (R243). -/
def hbmReadEcc (b a n : Nat) (errs : List (Nat × Nat)) (d : Dev) : Dev :=
  let bad := (errs.filter fun e => decide (3 ≤ e.2)).map fun e => hbmKey b (a + e.1) / 8
  let k := ((poisonIn b a n d).filter fun w => !bad.contains w).length
  forEach (errsIn 0 n errs) (fun e => hbmVerdict b (a + e.1) e.2) (if k = 0 then d else addCtr (BR_POISONRD b) k d)

/-- HBM_PATROL_SCRUB: the daily patrol reads a word of a stack (R245). -/
def patrolScrub (b stack addr n : Nat) (d : Dev) : Dev :=
  let a := addr / 4096 * 8192 + stack % 2 * 4096 + addr % 4096
  if a < hbmSize d then hbmErr b a n d else d

end Sys2Proof.Machine
end

