-- ==== Sys2Proof/Machine/Image.lean ====
section
/-! DEFINITION. A Tuning image as bytes (11 R438-R454): its sections, its records and their fields, and what the image
in force of a partition says of models, stages, courses, tiles and areas. -/

namespace Sys2Proof.Machine

/-! ### Sections -/

/-- A section: its type, record size, count and records (R440). -/
structure Sec where
  ty : Nat
  rsize : Nat
  count : Nat
  recs : List (List Byte)
  deriving DecidableEq, Repr

def chunks (n : Nat) : Nat → List Byte → List (List Byte)
  | 0, _ => []
  | k + 1, l => l.take n :: chunks n k (l.drop n)

/-- The sections that follow the header, one after another; `n` of them. -/
def secsFrom : Nat → List Byte → List Sec
  | 0, _ => []
  | k + 1, l =>
    let rs := u16 l 2
    let ct := u32 l 4
    let body := l.drop 8
    if body.length < rs * ct then [{ ty := u16 l 0, rsize := rs, count := ct, recs := [] }]
    else { ty := u16 l 0, rsize := rs, count := ct, recs := chunks rs ct body } :: secsFrom k (body.drop (rs * ct))

def imgNsect (img : List Byte) : Nat := u16 img 0x0A
def imgLength (img : List Byte) : Nat := u32 img 0x0C
def imgSerial (img : List Byte) : DWord := BitVec.ofNat 64 (u64 img 0x10)
def imgPower (img : List Byte) : Nat := u16 img 0x28
def imgExactAll (img : List Byte) : Bool := bit (u16 img 6) 0

def imgSecs (img : List Byte) : List Sec := secsFrom (imgNsect img) (img.drop 64)

/-- The records of one section type, in order. -/
def secRecs (img : List Byte) (ty : Nat) : List (List Byte) :=
  match (imgSecs img).find? fun s => s.ty == ty with
  | some s => s.recs
  | none => []

def modelRecs (img : List Byte) := secRecs img 2
def stageRecs (img : List Byte) := secRecs img 3
def courseRecs (img : List Byte) := secRecs img 4
def tileRecs (img : List Byte) := secRecs img 5
def maskRecs (img : List Byte) := secRecs img 6
def sliceRecs (img : List Byte) := secRecs img 7
def layerRecs (img : List Byte) := secRecs img 8
def routeRecs (img : List Byte) := secRecs img 9
def kvRecs (img : List Byte) := secRecs img 10
def windowRecs (img : List Byte) := secRecs img 11
def memRecs (img : List Byte) := secRecs img 12
def serveRec (img : List Byte) : List Byte := (secRecs img 1).headD []

def chunkMax (img : List Byte) : Nat := u32 (serveRec img) 0
def batchMax (img : List Byte) : Nat := u32 (serveRec img) 4
def farTmo (img : List Byte) : Nat := u32 (serveRec img) 8
def stageTmo (img : List Byte) : Nat := let t := u16 (serveRec img) 12; if t = 0 then 50 else t

/-! ### Records by key -/

def modelRec (img : List Byte) (m : Nat) : Option (List Byte) := (modelRecs img).find? fun r => u8 r 0 == m
def stageRec (img : List Byte) (s : Nat) : Option (List Byte) := (stageRecs img).find? fun r => u8 r 0 == s
def kvRec (img : List Byte) (m : Nat) : Option (List Byte) := (kvRecs img).find? fun r => u8 r 0 == m

def isTarget (r : List Byte) : Bool := u8 r 1 == 0
def mLayout (r : List Byte) : Word := BitVec.ofNat 32 (u32 r 4)
def mVocab (r : List Byte) : Nat := u32 r 8
def mEntry (r : List Byte) : Nat := u8 r 3
def mPick (r : List Byte) : Nat := u8 r 12

def sKind (r : List Byte) : Nat := u8 r 1
def sModel (r : List Byte) : Nat := u8 r 2
def sFlag (r : List Byte) (k : Nat) : Bool := bit (u8 r 3) k
def sIn (r : List Byte) : Nat := u16 r 0x0A
def sOut (r : List Byte) : Nat := u16 r 0x0C
def sBridges (r : List Byte) : Nat := u16 r 0x10

/-- The layer entries of a stage, in pass order. -/
def stageLayers (img : List Byte) (s : Nat) : List (List Byte) := (layerRecs img).filter fun r => u8 r 0 == s
def lTag (r : List Byte) : Nat := u16 r 2 % 2 ^ 15
def lFar (r : List Byte) : Bool := bit (u8 r 1) 0

/-- The tag a pass of an epoch names: bit 15 is bit 0 of the epoch (08 R304, 11 R450). -/
def tagOf (tag : Nat) (epoch : Word) : Nat := tag % 2 ^ 15 + 2 ^ 15 * (epoch.toNat % 2)

/-! ### The image in force -/

def emptyTune : Tune :=
  { staging := [], image := [], meas := [], load := none, suspended := false, code := 0xFF#8, sect := 0xFF#8,
    maskLive := false }

def tuneAt (p : Nat) (d : Dev) : Tune := mgetD d.tunes p emptyTune
def putTune (p : Nat) (t : Tune) (d : Dev) : Dev := { d with tunes := mputD d.tunes p t emptyTune }
def modTune (p : Nat) (f : Tune → Tune) (d : Dev) : Dev := putTune p (f (tuneAt p d)) d
def imgOf (p : Nat) (d : Dev) : List Byte := (tuneAt p d).image
def inForce (p : Nat) (d : Dev) : Bool := !(imgOf p d).isEmpty

/-- The record of the course's slot that holds a stage, of the partition that owns the course. -/
def courseRecOf (img : List Byte) (f c slot : Nat) : Option (List Byte) :=
  (courseRecs img).find? fun r => u8 r 0 == f && u8 r 1 == c && u8 r 2 == slot

def slotOfStage (img : List Byte) (f c stage : Nat) : Option Nat :=
  ((courseRecs img).find? fun r => u8 r 0 == f && u8 r 1 == c && u8 r 3 == stage).map fun r => u8 r 2

def tileRec (img : List Byte) (f c w : Nat) : Option (List Byte) :=
  (tileRecs img).find? fun r => u8 r 0 == f && u8 r 1 == c && u8 r 2 == w

def tStage (r : List Byte) : Nat := u8 r 3
def tOslice (r : List Byte) : Nat := u16 r 4
def tIslice (r : List Byte) : Nat := u16 r 6
def tKblock (r : List Byte) : Nat := u8 r 8
def tMask (r : List Byte) : Nat := u16 r 10

/-- The working tiles of a stage in a course, ascending. -/
def stageTiles (img : List Byte) (f c stage : Nat) : List Nat :=
  (List.range 32).filter fun w => match tileRec img f c w with | some r => tStage r == stage | none => false

/-- The working tiles of one K-block. -/
def kbTiles (img : List Byte) (f c stage oslice leaf : Nat) : List Nat :=
  (List.range 32).filter fun w => match tileRec img f c w with
    | some r => tStage r == stage && tOslice r == oslice && tKblock r == leaf
    | none => false

def maskOfBytes (l : List Byte) : BitVec 512 := BitVec.ofNat 512 (leNat (l.take 64))

/-- The use mask of a working tile (R447, R448). -/
def useMask (img : List Byte) (r : List Byte) : BitVec 512 :=
  if tMask r = 0xFFFF then BitVec.allOnes 512 else maskOfBytes ((maskRecs img).getD (tMask r) [])

def sliceRec (img : List Byte) (stage oslice : Nat) : Option (List Byte) :=
  (sliceRecs img).find? fun r => u8 r 0 == stage && u16 r 2 == oslice
def slNk (r : List Byte) : Nat := u8 r 4
def slEfpos (r : List Byte) : Nat := u8 r 5

/-- Output slices of a stage rooted in a course, ascending (R449). -/
def rootedSlices (img : List Byte) (f c stage : Nat) : List (List Byte) :=
  (sliceRecs img).filter fun r => u8 r 0 == stage && u8 r 1 == 16 * f + c

/-- An area of the memory map (R453): absolute base on its Bridge and size. -/
def areaRec (img : List Byte) (area b : Nat) : Option (List Byte) :=
  (memRecs img).find? fun r => u8 r 0 == area && u8 r 1 == b
def areaBase (p b : Nat) (r : List Byte) (d : Dev) : Nat := resHbmBase (mapCur p 0 d) b * 2 ^ 21 + u64 r 8
def areaSize (r : List Byte) : Nat := u64 r 0x10

/-- The MASK area: its Bridge and absolute base (R412, R453). -/
def maskArea (p : Nat) (d : Dev) : Option (Nat × Nat) :=
  ((memRecs (imgOf p d)).find? fun r => u8 r 0 == 7).map fun r => (u8 r 1, areaBase p (u8 r 1) r d)

/-! ### KV layout of a model (09 R343-R348, 11 R452) -/

def kvB2 (r : List Byte) : Nat := if u8 r 1 = 0 then 2 else 1
def kvHeads (r : List Byte) : Nat := u8 r 2
def kvDim (r : List Byte) : Nat := 64 * 2 ^ u8 r 3
def kvGroup (r : List Byte) : Nat := u8 r 4
def kvLayers (r : List Byte) : Nat := u8 r 5 + 1
def kvPage (r : List Byte) : Nat := if u8 r 6 = 0 then 2 ^ 16 else 2 ^ 21
def kvMaxlen (r : List Byte) : Nat := u32 r 8
def kvScale (r : List Byte) : Nat := u32 r 0x0C
def kvBridges (r : List Byte) : Nat := u16 r 0x10

/-- PSTRIDE (09 R347): 2 H D b + 2 H rounded up to 8 B; b is 1 or 1/2. -/
def kvStride (r : List Byte) : Nat := (kvHeads r * kvDim r * kvB2 r + 2 * kvHeads r + 7) / 8 * 8
/-- E of 09 R348. -/
def kvEpp (r : List Byte) : Nat := kvPage r / kvStride r
/-- Es of 09 R369. -/
def kvEs (r : List Byte) : Nat := 16384 / kvStride r

def kvWin (img : List Byte) (m l : Nat) : Nat :=
  match (windowRecs img).find? fun r => u8 r 0 == m && u16 r 2 == l with
  | some r => u32 r 4
  | none => 0

/-- Bytes of the bitmap of BITMAP mode (09 R378), before rounding. -/
def bitmapBytes (maxlen : Nat) : Nat := let b := (maxlen + 63) / 64; (b * (b + 1) / 2 + 7) / 8

def roundUp (n k : Nat) : Nat := (n + k - 1) / k * k

/-- MASKSZ, LSTRIDE and RSIZE of 09 R348. -/
def kvMaskSz (r : List Byte) (mode maxlen : Nat) : Nat := if mode = 2 then roundUp (bitmapBytes maxlen) (kvPage r) else 0
def kvLstride (r : List Byte) (maxlen : Nat) : Nat := (maxlen + kvEpp r - 1) / kvEpp r * kvPage r
def kvRsize (r : List Byte) (mode maxlen : Nat) : Nat :=
  roundUp (kvMaskSz r mode maxlen + kvLayers r * kvLstride r maxlen) (2 ^ 21)

/-- The virtual address of position `p` of layer `l`, from the region's base (R348). -/
def kvOffset (r : List Byte) (mode maxlen l p : Nat) : Nat :=
  kvMaskSz r mode maxlen + l * kvLstride r maxlen + p / kvEpp r * kvPage r + p % kvEpp r * kvStride r

end Sys2Proof.Machine
end

