-- ==== Sys2Proof/Machine/KvTable.lean ====
section
/-! DEFINITION. The 4-level tables of a KV space (09 R352-R354), which lie in the TABLE area of a Bridge's HBM: entries,
the walk with its checks, the leaves of a tree, and the copies of table pages that a publication writes (09 R360). A page is
keyed by 2^32 partition + 64 KiB page number. -/

namespace Sys2Proof.Machine

def pageKey (part va : Nat) : Nat := part * 2 ^ 32 + va / 2 ^ 16

/-- Entries of a table of a level, its bytes, and what an entry of it spans (R352). -/
def tblEntries (lv : Nat) : Nat := if lv = 4 then 32 else 512
def tblSize (lv : Nat) : Nat := 8 * tblEntries lv
def tblSpan (lv : Nat) : Nat := if lv = 4 then 2 ^ 16 else 2 ^ (48 - 9 * lv)
def tblIndex (lv va : Nat) : Nat := va / tblSpan lv % tblEntries lv

/-- The level whose leaves map pages of this size. -/
def leafLevel (page : Nat) : Nat := if page = 2 ^ 21 then 3 else 4

/-- Words of R353. -/
def ptrWord (a : Nat) : Nat := 2 ^ 63 + a / 256 % 2 ^ 44 * 256
def leafWord (e : Pte) : Nat := 2 ^ 63 + 2 ^ 62 + min e.loc 2 * 2 ^ 60 + b2n e.ro * 2 ^ 59 + e.addr / 256 % 2 ^ 44 * 256
def entryAddr (w : Nat) : Nat := bits w 8 44 * 256

def tblWord (b a i : Nat) (d : Dev) : Nat := leNat (hbmBytes b (a + 8 * i) 8 d)

/-- A location as the model keeps it: 0 and 1 as R353 gives them, 2 + p for the far memory of partition p. -/
def locCode (p loc : Nat) : Nat := if loc = 2 then 2 + p else loc

/-- A walk from a table with `n` levels left to read, in a space of pages of `page` bytes: the HBM address, none on a fault
(R354). A pointer where no level follows is one too (DEDUCED). -/
def walkTbl (b page va : Nat) (write : Bool) (d : Dev) : Nat → Nat → Option Nat
  | 0, _ => none
  | n + 1, a =>
    let lv := 4 - n
    let w := tblWord b a (tblIndex lv va) d
    if !bit w 63 || bits w 52 7 != 0 || bits w 0 8 != 0 then none
    else if !bit w 62 then walkTbl b page va write d n (entryAddr w)
    else if (lv = 4 || (lv = 3 && page = 2 ^ 21)) && bits w 60 2 = 0 && !(write && bit w 59) then some (entryAddr w + va % tblSpan lv)
    else none

/-- The HBM address of a virtual address under a root; none on a translation fault. -/
def xlate (b : Nat) (root : Option Nat) (lay : List Byte) (va : Nat) (write : Bool) (d : Dev) : Option Nat :=
  root.bind (walkTbl b (kvPage lay) va write d 4)

/-- The entries of a table page that are not all zero, by index. -/
def tblUsed (b lv a : Nat) (d : Dev) : SMap Nat :=
  let lo := hbmKey b a
  (((d.mem.filter fun e => decide (lo ≤ e.1) && decide (e.1 < lo + tblSize lv)).map fun e => (e.1 - lo) / 8).eraseDups).map
    fun i => (i, tblWord b a i d)

/-- The leaves below a table with `n` levels left, in ascending order. -/
def tblLeaves (b p : Nat) (d : Dev) : Nat → Nat → Nat → SMap Pte
  | 0, _, _ => []
  | n + 1, va, a =>
    (tblUsed b (4 - n) a d).flatMap fun e =>
      let v := va + e.1 * tblSpan (4 - n)
      if !bit e.2 63 then []
      else if bit e.2 62 then [(pageKey p v, { loc := locCode p (bits e.2 60 2), ro := bit e.2 59, addr := entryAddr e.2 })]
      else tblLeaves b p d n v (entryAddr e.2)

def rootLeaves (b p : Nat) (root : Option Nat) (d : Dev) : SMap Pte := root.elim [] fun a => tblLeaves b p d 4 0 a

/-! ### Publication (R360) -/

/-- A publication under way: table pages in use with their levels, those it has made with their entries, and those it supersedes. -/
structure Pub where
  tabs : SMap Nat
  fresh : SMap (SMap Nat)
  gone : List Nat
  deriving DecidableEq, Repr

/-- The lowest free place for a table page of a level in a partition's TABLE area. -/
def freeTable (b p lv : Nat) (tabs : SMap Nat) (d : Dev) : Option Nat :=
  match areaRec (imgOf p d) 5 b with
  | none => none
  | some r =>
    let lo := areaBase p b r d
    let n := tblSize lv
    let fits := fun (a : Nat) => decide (lo ≤ a) && decide (a + n ≤ lo + areaSize r)
      && tabs.all fun t => decide (a + n ≤ t.1) || decide (t.1 + tblSize t.2 ≤ a)
    ((roundUp lo n :: tabs.map fun t => roundUp (t.1 + tblSize t.2) n).filter fits).foldl (fun m a => match m with
      | none => some a
      | some x => some (min x a)) none

/-- The page `a` of a level with new entries: written in place when this publication made it, else a copy; without entries it goes. -/
def storeTable (b p lv : Nat) (a : Option Nat) (t : SMap Nat) (q : Pub) (d : Dev) : Option (Option Nat × Pub) :=
  let mine := a.any fun x => (mget? q.fresh x).isSome
  let left : Pub := match a with
    | none => q
    | some x => if mine then { q with tabs := mdel q.tabs x, fresh := mdel q.fresh x } else { q with gone := x :: q.gone }
  match a, mine, t.isEmpty with
  | _, _, true => some (none, left)
  | some x, true, false => some (some x, { q with fresh := mput q.fresh x t })
  | _, _, false => (freeTable b p lv q.tabs d).map fun x => (some x, { left with tabs := mput left.tabs x lv, fresh := mput left.fresh x t })

def tableOf (b lv : Nat) (a : Option Nat) (q : Pub) (d : Dev) : SMap Nat :=
  match a with
  | none => []
  | some x => match mget? q.fresh x with
    | some t => t
    | none => tblUsed b lv x d

/-- Set the leaf word of a virtual address (0: unmapped) below the table `a`, with `n` levels down to that of the leaf `last`;
none when the TABLE area is full. -/
def putLeaf (b p last va leaf : Nat) (d : Dev) : Nat → Option Nat → Pub → Option (Option Nat × Pub)
  | 0, a, q => some (a, q)
  | n + 1, a, q =>
    let lv := last - n
    let i := tblIndex lv va
    let t := tableOf b lv a q d
    let below : Option (Nat × Pub) :=
      if n = 0 then some (leaf, q)
      else (putLeaf b p last va leaf d n ((mget? t i).map entryAddr) q).map fun z => (z.1.elim 0 ptrWord, z.2)
    below.bind fun z => storeTable b p lv a (if z.1 = 0 then mdel t i else mput t i z.1) z.2 d

/-- The roots after the leaf changes of a publication, and the table pages it writes. -/
def pubChanges (b : Nat) (page : Nat → Nat) (d : Dev) : List (Nat × Option Pte) → SMap Nat → Pub → Option (SMap Nat × Pub)
  | [], roots, q => some (roots, q)
  | c :: r, roots, q =>
    let p := c.1 / 2 ^ 32
    let last := leafLevel (page p)
    (putLeaf b p last (c.1 % 2 ^ 32 * 2 ^ 16) (c.2.elim 0 leafWord) d last (mget? roots p) q).bind fun z =>
      pubChanges b page d r (match z.1 with | some a => mput roots p a | none => mdel roots p) z.2

/-- The bytes of the table pages that a publication made. -/
def writeTables (b : Nat) (q : Pub) (d : Dev) : Dev :=
  forEach q.fresh (fun t d =>
    forEach t.2 (fun e d => hbmWrite b (t.1 + 8 * e.1) (leBytes 8 e.2) d) (hbmZero b t.1 (tblSize (mgetD q.tabs t.1 1)) d)) d

end Sys2Proof.Machine
end

