-- ==== Sys2Proof/Machine/KvCore.lean ====
section
/-! DEFINITION. The KV side of a Bridge (09 R348-R368): regions, frames, pending edits and generations. -/

namespace Sys2Proof.Machine

def firstGen : KvGen := { num := 0#32, roots := [], walks := 0, retire := [], tabs := [], ranges := [] }

def emptyKv : KvBridge :=
  { gens := [firstGen], edits := [], editFrom := 0#64, tables := [], frames := [], regions := [], bufs := [], kvsteps := [], walks := [],
    transfers := [], cache := [] }

def kvAt (b : Nat) (d : Dev) : KvBridge := mgetD d.kv b emptyKv
def putKv (b : Nat) (k : KvBridge) (d : Dev) : Dev := { d with kv := mputD d.kv b k emptyKv }
def modKv (b : Nat) (f : KvBridge → KvBridge) (d : Dev) : Dev := putKv b (f (kvAt b d)) d

def curGen (k : KvBridge) : KvGen := (k.gens.getLast?).getD firstGen

/-- The map with a list of leaf changes applied. -/
def applyChanges (m : SMap Pte) (l : List (Nat × Option Pte)) : SMap Pte :=
  l.foldl (fun m c => match c.2 with | some e => mput m c.1 e | none => mdel m c.1) m

def genRoot (p : Nat) (g : KvGen) : Option Nat := mget? g.roots p

/-- The pages of a partition's KV space on a Bridge, in the current generation with every pending edit applied. -/
def effPages (p b : Nat) (d : Dev) : SMap Pte :=
  let k := kvAt b d
  (k.edits.foldl (fun m e => applyChanges m e.changes) (rootLeaves b p (genRoot p (curGen k)) d)).filter fun e => e.1 / 2 ^ 32 == p

/-- The generations that are live: current, or held by a walk (R361). -/
def liveGens (k : KvBridge) : List KvGen := (k.gens.dropLast.filter fun g => g.walks != 0) ++ k.gens.getLast?.toList

def regKey (idx : Nat) (draft : Bool) : Nat := 2 * idx + b2n draft

/-- The model whose KV record lays out a region: the target's, or its draft's (10 R406). -/
def regRec (p model : Nat) (draft : Bool) (d : Dev) : Option (List Byte) :=
  let img := imgOf p d
  if draft then (modelRec img model).bind fun r => kvRec img (u8 r 2) else kvRec img model

def regRecOf (r : Region) (d : Dev) : List Byte := (kvRec (imgOf r.part d) r.model).getD []

/-- The mapped pages of a region, as (key, leaf). -/
def regPages (r : Region) (m : SMap Pte) : SMap Pte :=
  m.filter fun e => decide (pageKey r.part r.base ≤ e.1) && decide (e.1 < pageKey r.part (r.base + r.rsize))

/-! ### Frames (R355) -/

/-- A frame by location and address; an entry names 52 bits of address (R353). -/
def frameKey (loc addr : Nat) : Nat := loc * 2 ^ 64 + addr % 2 ^ 52

/-- The area of a location: 0x3 KV_HOT, 0x4 KV_COLD on the Bridge, 0x8 FAR (R353, 11 R453). -/
def locArea (p b loc : Nat) (d : Dev) : Option (Nat × Nat) :=
  let img := imgOf p d
  if 2 ≤ loc then ((memRecs img).find? fun r => u8 r 0 == 8).map fun r => (u64 r 8, areaSize r)
  else (areaRec img (3 + loc) b).map fun r => (areaBase p b r d, areaSize r)

/-- A frame is in use: referenced, or on a retire list; a partition's far frames are shared by every Bridge. -/
def frameUsed (b loc addr : Nat) (d : Dev) : Bool :=
  let used := fun (k : KvBridge) =>
    (mget? k.frames (frameKey loc addr)).isSome || k.gens.any fun g => g.retire.contains (frameKey loc addr)
  if 2 ≤ loc then d.kv.any fun e => used e.2 else used (kvAt b d)

def usedIn (b loc base size : Nat) (d : Dev) : Nat :=
  let inA := fun (f : Nat) => f / 2 ^ 64 == loc && decide ((f % 2 ^ 64 + 2 ^ 52 - base % 2 ^ 52) % 2 ^ 52 < size)
  let count := fun (k : KvBridge) => (k.frames.filter fun e => inA e.1).length
    + ((k.gens.flatMap fun g => g.retire).filter fun f => inA f && (mget? k.frames f).isNone).length
  if 2 ≤ loc then (d.kv.map fun e => count e.2).foldl (· + ·) 0 else count (kvAt b d)

def pageOf (p : Nat) (d : Dev) : Nat := match (kvRecs (imgOf p d)).head? with | some r => kvPage r | none => 2 ^ 16

/-- Table pages in [lo, hi) of a Bridge's HBM, retire lists included. -/
def tablesIn (b lo hi : Nat) (d : Dev) : Bool := (kvAt b d).tables.any fun t => decide (lo < t.1 + tblSize t.2) && decide (t.1 < hi)

/-- Free frames of a location, retire lists not counted (R384). -/
def freeFrames (p b loc : Nat) (d : Dev) : Nat :=
  match locArea p b loc d with
  | none => 0
  | some (base, size) => size / pageOf p d - usedIn b loc base size d

def findFrame (b loc page : Nat) (d : Dev) : Nat → Nat → Option Nat
  | 0, _ => none
  | n + 1, addr => if frameUsed b loc addr d then findFrame b loc page d n (addr + page) else some addr

/-- The lowest free frame. -/
def freeFrame (p b loc : Nat) (d : Dev) : Option Nat :=
  match locArea p b loc d with
  | none => none
  | some (base, size) => findFrame b loc (pageOf p d) d (size / pageOf p d) base

def refFrame (b loc addr : Nat) (d : Dev) : Dev :=
  modKv b (fun k => { k with frames := mput k.frames (frameKey loc addr) (mgetD k.frames (frameKey loc addr) 0 + 1) }) d

/-- One reference less; a frame that loses its last one goes on the retire list of the current generation (R362). -/
def unrefFrame (b f : Nat) (d : Dev) : Dev :=
  modKv b (fun k =>
    let n := mgetD k.frames f 0
    if 1 < n then { k with frames := mput k.frames f (n - 1) }
    else { k with frames := mdel k.frames f,
                  gens := k.gens.zipIdx.map fun g =>
                    if g.2 + 1 = k.gens.length then { g.1 with retire := g.1.retire ++ [f] } else g.1 }) d

/-! ### Edits (R358-R362) -/

/-- Accept an edit as pending for generation C + 1. -/
def acceptEdit (b : Nat) (e : Edit) (d : Dev) : Dev :=
  modKv b (fun k => { k with edits := k.edits ++ [e], editFrom := if k.edits.isEmpty then d.time else k.editFrom }) d

/-- MAP: a zeroed free frame becomes the page's (R355, R358); nothing when no frame is free. -/
def mapPage (p b idx rk key : Nat) (d : Dev) : Dev :=
  match freeFrame p b 0 d with
  | none => d
  | some a =>
    acceptEdit b { op := 1, stream := idx, region := rk, arg := 0, changes := [(key, some { loc := 0, ro := false, addr := a })] }
      (refFrame b 0 a (hbmZero b a (pageOf p d) d))

/-- Discard or keep staging buffers (R370). -/
def dropBufs (b : Nat) (f : StgBuf → Bool) (d : Dev) : Dev :=
  modKv b (fun k => { k with bufs := k.bufs.filter fun s => !f s }) d

/-- RELEASE of one region of a stream (R367): every page unmapped, the region freed at publication; staging and the
transfers of its pages that have not ended are discarded. -/
def releaseRegion (b idx rk : Nat) (d : Dev) : Dev :=
  let k := kvAt b d
  match mget? k.regions rk with
  | none => d
  | some r =>
    if k.edits.any (fun e => e.op == 7 && e.region == rk) then d
    else
      acceptEdit b { op := 7, stream := idx, region := rk, arg := 0, changes := (regPages r (effPages r.part b d)).map fun e => (e.1, none) }
        (dropBufs b (fun s => s.stream == idx) (modKv b (fun k => { k with transfers := k.transfers.filter fun t => t.region != rk }) d))

/-- A page's entry leaves the translation cache (R357). The set of a page is its key modulo 4,096 (DESIGN CHOICE,
notes/assumptions/28.md). -/
def cacheDrop (key : Nat) (k : KvBridge) : KvBridge :=
  { k with cache := mputD k.cache (key % 4096) ((mgetD k.cache (key % 4096) []).filter fun x => x != key) [] }

/-- Look a page up: a hit moves it to the front; a miss fills when `fill` (R356, R357). -/
def cacheLook (b key : Nat) (fill : Bool) (d : Dev) : Dev :=
  let k := kvAt b d
  let ways := mgetD k.cache (key % 4096) []
  let hit := ways.contains key
  let d := bump (if hit then BR_TCHIT b else BR_TCMISS b) d
  if hit || fill then
    putKv b { k with cache := mputD k.cache (key % 4096) ((key :: ways.filter fun x => x != key).take 8) [] } d
  else d

/-- The frames that leaf changes, taken in order, replace. -/
def goneFrames : List (Nat × Option Pte) → SMap Pte → List Nat
  | [], _ => []
  | c :: r, m => (((mget? m c.1).map fun e => frameKey e.loc e.addr).toList) ++ goneFrames r (applyChanges m [c])

/-- The leaves of every partition under a generation. -/
def genLeaves (b : Nat) (g : KvGen) (d : Dev) : SMap Pte := g.roots.flatMap fun e => rootLeaves b e.1 (some e.2) d

/-- Publish up to 1,024 pending edits (R360-R362): the changed entries go into copies of the table pages on their paths, the
changed pages leave the cache, replaced frames lose a reference and retire with the superseded generation, as do the table
pages and ranges released, and C advances. It waits while 16 other generations are held, or while the TABLE area has no
room for the copies (DESIGN CHOICE, notes/assumptions/152.md). Answers the edits published. -/
def publishEdits (b : Nat) (d : Dev) : List Edit × Dev :=
  let k := kvAt b d
  let es := k.edits.take 1024
  let old := curGen k
  let changes := es.flatMap fun e => e.changes
  if es.isEmpty || 16 ≤ (k.gens.filter fun g => g.walks != 0).length then ([], d)
  else match pubChanges b (fun p => pageOf p d) d changes old.roots { tabs := k.tables, fresh := [], gone := [] } with
    | none => ([], d)
    | some (roots, pub) =>
      let d := writeTables b pub (forEach (goneFrames changes (genLeaves b old d)) (fun f => unrefFrame b f) d)
      let ranges := es.filterMap fun e => if e.op = 7 then (mget? k.regions e.region).map fun r => (r.part, r.base, r.rsize) else none
      let k := kvAt b d
      let k := changes.foldl (fun k c => cacheDrop c.1 k) k
      let gens := k.gens.zipIdx.map fun g =>
        if g.2 + 1 = k.gens.length then { g.1 with ranges := g.1.ranges ++ ranges, tabs := g.1.tabs ++ pub.gone } else g.1
      let next : KvGen := { num := old.num + 1#32, roots := roots, walks := 0, retire := [], tabs := [], ranges := [] }
      let regs := es.foldl (fun m e => if e.op = 7 then mdel m e.region else m) k.regions
      (es, addCtr (BR_EDITS b) es.length
        (putKv b { k with gens := gens ++ [next], edits := k.edits.drop 1024, editFrom := d.time, regions := regs, tables := pub.tabs } d))

/-- GENERATION_END (R361, R362): the oldest generation, neither current nor held, ends; its retire list and ranges return to
the free list. -/
def generationEnd (b : Nat) (d : Dev) : Dev :=
  modKv b (fun k => match k.gens with
    | g :: h :: r => if g.walks = 0 then { k with gens := h :: r, tables := g.tabs.foldl mdel k.tables } else k
    | _ => k) d

/-! ### Region ranges (R349) -/

/-- The virtual ranges in use in a partition's KV space on a Bridge. -/
def vaRanges (p b : Nat) (d : Dev) : List (Nat × Nat) :=
  let k := kvAt b d
  (k.regions.filter fun e => e.2.part == p).map (fun e => (e.2.base, e.2.rsize))
    ++ (k.gens.flatMap fun g => g.ranges).filterMap fun r => if r.1 = p then some r.2 else none

/-- The lowest 2 MiB-aligned free range of `n` bytes in the 48-bit space. -/
def freeRange (p b n : Nat) (d : Dev) : Option Nat :=
  let used := vaRanges p b d
  let ok := fun (a : Nat) => decide (a + n ≤ 2 ^ 48) && used.all fun r => decide (a + n ≤ r.1) || decide (r.1 + r.2 ≤ a)
  ((0 :: used.map fun r => roundUp (r.1 + r.2) (2 ^ 21)).filter ok).foldl (fun m a => match m with
    | none => some a
    | some x => some (min x a)) none

/-- Take a region for a model's layout; `none` when no range is free. -/
def takeRegion (p b rk model mode maxlen prefixLen : Nat) (r : List Byte) (d : Dev) : Option Dev :=
  (freeRange p b (kvRsize r mode maxlen) d).map fun base =>
    let reg : Region :=
      { part := p, base := base, rsize := kvRsize r mode maxlen, maxlen := maxlen, len := 0, mode := mode, model := model,
        prefixLen := prefixLen, rows := 0, shared := 0 }
    modKv b (fun k => { k with regions := mput k.regions rk reg }) d

def regionAt (b rk : Nat) (d : Dev) : Option Region := mget? (kvAt b d).regions rk
def modRegion (b rk : Nat) (f : Region → Region) (d : Dev) : Dev :=
  modKv b (fun k => { k with regions := mmod k.regions rk f }) d

/-- The page keys that positions `pos0` .. `pos0 + n - 1` of every layer need. -/
def pagesFor (r : Region) (lay : List Byte) (pos0 n : Nat) : List Nat :=
  if n = 0 then []
  else (List.range (kvLayers lay)).flatMap fun l =>
    let p0 := pos0 / kvEpp lay
    let p1 := (pos0 + n - 1) / kvEpp lay
    (List.range (p1 + 1 - p0)).map fun j =>
      pageKey r.part (r.base + kvOffset lay r.mode r.maxlen l ((p0 + j) * kvEpp lay))

/-- The pages among them that no entry maps yet. -/
def pagesMissing (b : Nat) (r : Region) (lay : List Byte) (pos0 n : Nat) (d : Dev) : List Nat :=
  let m := effPages r.part b d
  (pagesFor r lay pos0 n).filter fun k => (mget? m k).isNone

end Sys2Proof.Machine
end

