-- ==== Sys2Proof/Machine/FretCore.lean ====
section
/-! DEFINITION. Tiles, planes and courses as state: what they are before anything happened to them, how they are read
and changed, which tile serves which working tile, and what clearing a stage's work leaves (01 R47; 02 R62-R98; 16 R611). -/

namespace Sys2Proof.Machine

def emptyPlane : Plane :=
  { st := 0, src := 0, fp4 := false, tag := 0xFFFF, scales := [], recs := [], segs := [], load := none, held := [] }

def zeroNote : VecNote := { n := 0, folded := false, step1 := 0, step2 := 0, clips := 0 }

/-- What full calibration seeds a tile's sampling register with (07 R280). -/
def lfsrSeed (t : Nat) : Word := BitVec.ofNat 32 (1 + 0x01010101 * t)

/-- A tile after a reset with nothing in the retirement map (02 R103). -/
def freshTile (t : Nat) : Tile :=
  { tstate := if t = 32 then 3 else 0, home := 0, act := false, pa := emptyPlane, pb := emptyPlane, use := 0#512, ret := 0#512,
    lastv := 0#32, lastStep := 0, inq := [], farWait := false, taken := 0, next := none, cols := [], suspect := false,
    inTest := false, lastRes := 3, obsLeft := 0, obsFrom := 0#64, scanFrom := 0#64, lfsr := lfsrSeed t, base := [], tables := [],
    sums := [], qf := 0, qh := 0, bqf := 0, bqh := 0, qSeq := 0, mseF := ⟨0, 0⟩, mseH := ⟨0, 0⟩, nsamp := 0, qalarm := none }

/-- A pluck of nothing: what every pluck is made from. -/
def blankPluck : Pluck :=
  { id := 0, src := 0, tile := 0, wtile := 0, planeB := false, slot := 0, layer := 0, vec := ⟨0, 0, 0#64⟩, fold := 0, lastOf := true, x := [],
    scale := 0, outs := [], recs := [], back := [], step := 0, note := zeroNote, bank := [], trims := [], qf := 0, qh := 0,
    converted := false, codes := [], bad := [], recon := [], trimmed := [], colrec := [], grprec := [], exact := [], wait := [],
    open_ := [], passed := [], outcome := [], sampled := false, voided := false, sent := [], left := [] }

def emptyBuf : Buf := { st := 0, slots := [], order := 0 }

def emptySlot : Slot :=
  { part := 0, descs := [], cur := none, taken := 0, passStart := 0#64, wins := 0, ovf := 0, excess := 0, peak := 0, adv := [],
    advLast := [], encore := 0, repair := [], fplucks := 0, fmarks := 0, flow := 0, bufA := emptyBuf, bufB := emptyBuf,
    assigned := 0 }

def emptyCourse : Course :=
  { tmap := [], slots := [], plucks := [], capoOut := [], kbs := [], handed := [], leafq := [], ef := [], samples := [], tests := [], assigned := [],
    cov := [], covTaken := [], orders := 0, backlog := 0 }

def freshDie : Die := { band := 0, calT := 0, calBand := 0, derived := false, bandSeq := 0, hot := false, cal := 0, dblref := false }
def freshCmd : TileCmd := { done := false, kat := 3, scan := 3 }

def courseKey (f c : Nat) : Nat := 16 * f + c
def tileKey (f c t : Nat) : Nat := (16 * f + c) * 64 + t

def tileAt (f c t : Nat) (d : Dev) : Tile := mgetD d.fret.tiles (tileKey f c t) (freshTile t)
def putTile (f c t : Nat) (x : Tile) (d : Dev) : Dev :=
  { d with fret := { d.fret with tiles := mputD d.fret.tiles (tileKey f c t) x (freshTile t) } }
def modTile (f c t : Nat) (g : Tile → Tile) (d : Dev) : Dev := putTile f c t (g (tileAt f c t d)) d

def courseAt (f c : Nat) (d : Dev) : Course := mgetD d.fret.courses (courseKey f c) emptyCourse
def putCourse (f c : Nat) (x : Course) (d : Dev) : Dev :=
  { d with fret := { d.fret with courses := mputD d.fret.courses (courseKey f c) x emptyCourse } }
def modCourse (f c : Nat) (g : Course → Course) (d : Dev) : Dev := putCourse f c (g (courseAt f c d)) d

def dieAt (x : Nat) (d : Dev) : Die := mgetD d.fret.dies x freshDie
def modDie (x : Nat) (g : Die → Die) (d : Dev) : Dev :=
  { d with fret := { d.fret with dies := mputD d.fret.dies x (g (dieAt x d)) freshDie } }

/-- Calibration of a die starts, full (1) or quick (2): until its commit CAL shows it and the figures it covers are STALE (07 R274, R275,
R285-R287, R295). -/
def calStart (f kind : Nat) (d : Dev) : Dev := modDie f (fun x => { x with cal := kind }) d

def slotAt (f c s : Nat) (d : Dev) : Slot := mgetD (courseAt f c d).slots s emptySlot
def putSlot (f c s : Nat) (x : Slot) (d : Dev) : Dev :=
  modCourse f c (fun k => { k with slots := mputD k.slots s x emptySlot }) d
def modSlot (f c s : Nat) (g : Slot → Slot) (d : Dev) : Dev := putSlot f c s (g (slotAt f c s d)) d

/-- A plane of a tile: A, or B when `b`. -/
def planeOf (x : Tile) (b : Bool) : Plane := if b then x.pb else x.pa
def setPlane (b : Bool) (p : Plane) (x : Tile) : Tile := if b then { x with pb := p } else { x with pa := p }
def modPlane (f c t : Nat) (b : Bool) (g : Plane → Plane) (d : Dev) : Dev :=
  modTile f c t (fun x => setPlane b (g (planeOf x b)) x) d

/-- Scan mask (R84): the use mask without the retired columns. -/
def scanMask (x : Tile) : BitVec 512 := x.use &&& ~~~x.ret
def usedCol (x : Tile) (c : Nat) : Bool := x.use.getLsbD c
def scanCol (x : Tile) (c : Nat) : Bool := (scanMask x).getLsbD c

/-- The physical tile that serves a working tile; 0x3F when covered (06 R263). -/
def physOf (f c w : Nat) (d : Dev) : Nat := mgetD (courseAt f c d).tmap w w
def wtileOf (f c t : Nat) (d : Dev) : Option Nat := (List.range 32).find? fun w => physOf f c w d == t
def setTmap (f c w t : Nat) (d : Dev) : Dev := modCourse f c (fun k => { k with tmap := mputD k.tmap w t w }) d

/-- Settings of a stage slot, read from its registers (02 R102, 04 R187, 05 R221, 06 R261, 07 R292, 03 R144). -/
def stgCfg (f c s : Nat) (d : Dev) : Nat := (regGet (CS_STGCFG0 f c + 4 * s) d).toNat
def stgValid (f c s : Nat) (d : Dev) : Bool := bit (stgCfg f c s d) 31
def stgStage (f c s : Nat) (d : Dev) : Nat := bits (stgCfg f c s d) 16 8
def stgDly (f c s : Nat) (d : Dev) : Nat := bits (stgCfg f c s d) 10 3
def stgExact (f c s : Nat) (d : Dev) : Bool := bit (stgCfg f c s d) 6
def stgResident (f c s : Nat) (d : Dev) : Bool := bit (stgCfg f c s d) 5
def stgFold (f c s : Nat) (d : Dev) : Nat := bits (stgCfg f c s d) 2 2
def qCfg (f c s : Nat) (d : Dev) : Nat := (regGet (CS_QCFG0 f c + 4 * s) d).toNat
def tpCfg (f c s : Nat) (d : Dev) : Nat := (regGet (CS_TPCFG0 f c + 4 * s) d).toNat
def hcK (f c s : Nat) (d : Dev) : Nat := 4 + regField (CS_HCCFG0 f c + 4 * s) 0 3 d
def drnCfg (f c s : Nat) (d : Dev) : Nat := (regGet (CS_DRNCFG0 f c + 4 * s) d).toNat
def capoClip (f c s : Nat) (d : Dev) : Bool := bit (regGet (CS_CAPOPOL0 f c + 4 * s) d).toNat 0
def capoAdv (f c s : Nat) (d : Dev) : Bool := bit (regGet (CS_CAPOPOL0 f c + 4 * s) d).toNat 8

/-- P of R74 for an effective delay, in SEQ cycles. -/
def pluckPeriod (dly : Nat) : Nat := max 16 (14 + dly)

/-- The image under which a course works: that of the partition that owns it. -/
def coursePart (f c : Nat) (d : Dev) : Nat := (courseOwner f c d).getD 255
def courseImg (f c : Nat) (d : Dev) : List Byte := imgOf (coursePart f c d) d

/-- Physical tiles of a stage slot: those that serve its working tiles, and those assigned to take over. -/
def slotTiles (f c s : Nat) (d : Dev) : List Nat :=
  let ws := stageTiles (courseImg f c d) f c (stgStage f c s d)
  let asg := (courseAt f c d).assigned
  (ws.map fun w => physOf f c w d).filter (fun t => t < 33) ++ ws.filterMap fun w => mget? asg w

/-- The layer a plane holds or is to hold. -/
def planeLayer (p : Plane) : Option Nat :=
  match p.load with
  | some l => some l.layer
  | none => if 1 ≤ p.st ∧ p.st ≤ 3 then some p.tag else none

/-- Does a physical tile work for slot `s`? -/
def inSlot (f c s t : Nat) (d : Dev) : Bool := (slotTiles f c s d).contains t

/-- With no work of any stage left, nothing is pending in the Capo's lanes (04 R179, R188). -/
def settleBacklog (k : Course) : Course :=
  { k with backlog := if k.plucks.isEmpty && k.capoOut.isEmpty && k.samples.isEmpty then 0 else k.backlog }

/-- Course items of one slot are discarded (16 R607 item 2, R611): plucks, terms, K-block sets, samples, queued slices,
the pass and those to come, and the buffers' contents (05 R215). -/
def clearSlotWork (f c s : Nat) (d : Dev) : Dev :=
  let ts := slotTiles f c s d
  let d := modCourse f c (fun k => { k with
    plucks := k.plucks.filter (fun p => p.slot != s), capoOut := k.capoOut.filter (fun m => m.slot != s),
    kbs := k.kbs.filter (fun x => x.slot != s), handed := k.handed.filter (fun x => x.slot != s),
    leafq := k.leafq.filter (fun x => x.slot != s), samples := k.samples.filter (fun x => x.pluck.slot != s) }) d
  let d := modCourse f c settleBacklog d
  let d := forEach ts (fun t d => modTile f c t (fun x => { x with inq := [], farWait := false, taken := 0, next := none }) d) d
  let ws := stageTiles (courseImg f c d) f c (stgStage f c s d)
  let d := modCourse f c (fun k => { k with
    cov := k.cov.filter (fun e => !ws.contains e.1), covTaken := k.covTaken.filter (fun e => !ws.contains e.1) }) d
  modSlot f c s (fun x => { x with descs := [], cur := none, taken := 0, wins := 0, ovf := 0, excess := 0, peak := 0,
                                   encore := 0, repair := [], assigned := 0, bufA := emptyBuf, bufB := emptyBuf }) d

/-- Error-feedback tags of a slot's output slices become invalid (03 R141). -/
def clearEf (f c s : Nat) (d : Dev) : Dev :=
  let ps := (rootedSlices (courseImg f c d) f c (stgStage f c s d)).map slEfpos
  modCourse f c (fun k => { k with ef := k.ef.filter fun e => !ps.contains e.1 }) d

/-- Both planes of a slot's tiles become EMPTY and their record stores free (02 R93, 04 R148). -/
def emptySlotPlanes (f c s : Nat) (d : Dev) : Dev :=
  forEach (slotTiles f c s d) (fun t d => modTile f c t (fun x => { x with pa := emptyPlane, pb := emptyPlane }) d) d

/-- What a stage reset does in one course (16 R611). -/
def resetSlot (f c s : Nat) (d : Dev) : Dev := clearEf f c s (clearSlotWork f c s (emptySlotPlanes f c s d))

/-- The places (Fret, course, slot) of a stage of a partition's image. -/
def stagePlaces (img : List Byte) (stage : Nat) : List (Nat × Nat × Nat) :=
  ((courseRecs img).filter fun r => u8 r 3 == stage).map fun r => (u8 r 0, u8 r 1, u8 r 2)
def allPlaces (img : List Byte) : List (Nat × Nat × Nat) := (courseRecs img).map fun r => (u8 r 0, u8 r 1, u8 r 2)

end Sys2Proof.Machine
end

