-- ==== Sys2Proof/Machine/StreamCore.lean ====
section
/-! DEFINITION. Streams as the Headstock keeps them (10 R388-R395): the 64-byte entry, STREAM_STATUS, the end of a
stream and what it releases, epochs and adapter generations by reference (08 R323-R334), and entries freed. -/

namespace Sys2Proof.Machine

/-! ### The table -/

def streamAt (i : Nat) (d : Dev) : Option Stream := mget? d.streams i
def modStream (i : Nat) (f : Stream → Stream) (d : Dev) : Dev := { d with streams := mmod d.streams i f }

/-- Live: neither FREE, DONE nor FAILED. -/
def streamLive (s : Stream) : Bool := decide (1 ≤ s.state) && decide (s.state ≤ 5)
def vecLive (v : VecId) (d : Dev) : Bool := match streamAt v.stream d with | some s => streamLive s | none => false

/-- The stream a handle names for partition `p` (R389). -/
def handleStream (p : Nat) (h : Word) (d : Dev) : Option (Nat × Stream) :=
  let i := bits h.toNat 0 18
  match streamAt i d with
  | some s => if s.handle = h ∧ s.part = p then some (i, s) else none
  | none => none

/-- The 64 bytes of an entry (R390). -/
def entryBytes (i : Nat) (s : Stream) : List Byte :=
  leBytes 4 s.handle.toNat ++ leBytes 1 s.state ++ leBytes 1 s.part ++ leBytes 1 (16 * s.prio + s.model)
    ++ leBytes 1 (128 * b2n s.keep + 64 * b2n s.more + 32 * b2n s.hostp + 16 * b2n s.schedp + s.home)
    ++ leBytes 4 s.epoch.toNat ++ leBytes 2 s.adapter ++ leBytes 2 s.adpgen ++ leBytes 4 s.nextpos ++ leBytes 4 s.avail
    ++ leBytes 4 s.turnLeft ++ leBytes 1 (16 * s.draftMax + s.draft)
    ++ leBytes 1 (128 * b2n s.turn + 64 * b2n s.moving + 32 * b2n s.heldKv + 16 * b2n s.heldTok + 8 * b2n s.atRisk + s.rejrun)
    ++ leBytes 1 s.endr ++ [0#8] ++ leBytes 8 s.seed.toNat ++ leBytes 8 s.limit.toNat ++ leBytes 4 s.target.toNat
    ++ leBytes 4 i ++ leBytes 4 s.emitted ++ leBytes 4 s.admitT.toNat

/-- Send a message of a stream on the association of its host (12 R488); without one it waits for the host's next. -/
def streamMsg (s : Stream) (ty : Byte) (pay : List Byte) (d : Dev) : Dev :=
  match findAssoc s.host s.port s.part d with
  | some (aid, _) => queueMsg aid (mkSent ty 0#8 s.part s.handle 0#32 pay d) d
  | none => d

/-- STREAM_STATUS: the entry and the time (12 R498). -/
def sendStatus (i : Nat) (d : Dev) : Dev :=
  match streamAt i d with
  | some s => streamMsg s 0x11#8 (entryBytes i s ++ timeBytes d) d
  | none => d

/-! ### The scheduler's own record -/

def emptySched : Sched := { batches := [], nextId := 0, runEpoch := [], frees := [], calmFrom := 0#64, resumed := 0#64 }
def schedAt (p : Nat) (d : Dev) : Sched := mgetD d.scheds p emptySched
def modSched (p : Nat) (f : Sched → Sched) (d : Dev) : Dev :=
  { d with scheds := mputD d.scheds p (f (schedAt p d)) emptySched }

/-- AT_RISK or SCHEDP changes send a status (R395). -/
def setAtRisk (i : Nat) (v : Bool) (d : Dev) : Dev :=
  match streamAt i d with
  | some s =>
    if s.atRisk = v then d
    else
      let d := if v then d else modSched s.part (fun x => { x with calmFrom := d.time }) d
      sendStatus i (modStream i (fun s => { s with atRisk := v }) d)
  | none => d

/-! ### Epochs and adapters by reference (08 R323, R324, R334) -/

def holdsRef (s : Stream) : Bool := streamLive s || !s.steps.isEmpty

def epochRefs (e : Epoch) (d : Dev) : Nat :=
  (d.streams.filter fun x => x.2.part == e.part && x.2.model == e.model && x.2.epoch == e.num && holdsRef x.2).length
    + (d.prefixes.filter fun x => x.2.part == e.part && x.2.model == e.model && x.2.epoch == e.num).length

def genRefs (g : AdpGen) (d : Dev) : Nat :=
  (d.streams.filter fun x => x.2.adapter == g.slot && x.2.adpgen == g.gen && x.2.part == g.part && holdsRef x.2).length
    + (d.prefixes.filter fun x => x.2.adapter == g.slot && x.2.adpgen == g.gen && x.2.part == g.part).length

def curEpoch (p m : Nat) (d : Dev) : Option Epoch :=
  d.loads.epochs.find? fun e => e.part == p && e.model == m && !e.retiring
def oldEpoch (p m : Nat) (d : Dev) : Option Epoch :=
  d.loads.epochs.find? fun e => e.part == p && e.model == m && e.retiring
def epochAt (p m : Nat) (n : Word) (d : Dev) : Option Epoch :=
  d.loads.epochs.find? fun e => e.part == p && e.model == m && e.num == n
def curGenOf (slot : Nat) (d : Dev) : Option AdpGen := d.loads.gens.find? fun g => g.slot == slot && !g.retiring
def oldGenOf (slot : Nat) (d : Dev) : Option AdpGen := d.loads.gens.find? fun g => g.slot == slot && g.retiring

/-- Shard places of 64 MiB in an area: base, size, and those in use. -/
def shardPlaces (base size : Nat) : Nat := if base ≤ base + size then size / 2 ^ 26 else 0

def usedPlaces (b : Nat) (d : Dev) : List Nat :=
  (d.loads.windows.flatMap fun w => w.place.getD b []) ++ (d.loads.epochs.flatMap fun e => e.place.getD b [])
    ++ d.loads.gens.flatMap fun g => g.place.getD b []

/-- Find `n` free shard places from `a` upward, trying at most `fuel`. -/
def takePlaces (used : List Nat) : Nat → Nat → Nat → List Nat
  | 0, _, _ => []
  | _ + 1, 0, _ => []
  | fuel + 1, n + 1, a =>
    if used.contains a then takePlaces used fuel (n + 1) (a + 2 ^ 26) else a :: takePlaces used fuel n (a + 2 ^ 26)

/-- Places for the shards of Bridge `b` in an area of the partition's image; `none` when they do not fit. -/
def placeShards (p area b n : Nat) (d : Dev) : Option (List Nat) :=
  if n = 0 then some []
  else match areaRec (imgOf p d) area b with
    | none => none
    | some r =>
      let l := takePlaces (usedPlaces b d) (shardPlaces (areaBase p b r d) (areaSize r)) n (areaBase p b r d)
      if l.length = n then some l else none

/-- All 12 Bridges' shards, or none when some Bridge cannot hold its count. -/
def placeAll (p area : Nat) (counts : List Nat) (d : Dev) : Option (List (List Nat)) :=
  (List.range 12).foldr (fun b acc => match placeShards p area b (counts.getD b 0) d, acc with
    | some l, some r => some (l :: r)
    | _, _ => none) (some [])

/-- The event of R500. -/
def windowEvent (p ty model window cause epoch handle : Nat) (d : Dev) : Dev :=
  raiseEvent p ty (leBytes 1 model ++ leBytes 2 window ++ leBytes 1 cause ++ [0#8] ++ leBytes 4 epoch ++ leBytes 4 handle
    ++ timeBytes d) false d

/-- LOAD_WINDOW_OPEN (R329): a WAITING window whose retired epoch is FREED takes its space and becomes OPEN. -/
def openWaiting (d : Dev) : Dev :=
  forEach (d.loads.windows.filter fun w => w.state == 1) (fun w d =>
    if (oldEpoch w.part w.model d).isSome then d
    else match placeAll w.part 1 w.counts d with
      | none => d
      | some pl =>
        windowEvent w.part 0x0044 w.model w.num 0 w.epoch.toNat 0xFFFFFFFF
          { d with loads := { d.loads with windows := d.loads.windows.map fun x =>
              if x.num = w.num then { x with state := 2, place := pl, last := d.time } else x } }) d

/-- RETIRING epochs and generations that nothing references are FREED (R323, R334); waiting windows may open. -/
def settleRefs (d : Dev) : Dev :=
  let d := { d with loads := { d.loads with
    epochs := d.loads.epochs.filter (fun e => !(e.retiring && epochRefs e d == 0)),
    gens := d.loads.gens.filter fun g => !(g.retiring && genRefs g d == 0) } }
  openWaiting d

/-! ### The end of a stream -/

/-- A stream's step pieces go; its walks in progress run on, holding their generation, and their output is discarded
(R361, R364's example). -/
def dropWalks (b i : Nat) (d : Dev) : Dev :=
  modKv b (fun k => { k with walks := k.walks.map (fun w => if w.stream = i then { w with gone := true } else w),
                             kvsteps := k.kvsteps.filter (fun x => x.stream != i) }) d

/-- Edits that map pages of a stream are pending at its home Bridge (09 R363, R365). -/
def mapsDue (i : Nat) (d : Dev) : Bool :=
  (streamAt i d).any fun s => (kvAt s.home d).edits.any fun e => e.stream == i && (e.op == 1 || e.op == 3 || e.op == 4)

/-- COPYs of pages of a stream are on their way (09 R366). -/
def copiesDue (i : Nat) (d : Dev) : Bool :=
  (streamAt i d).any fun s => (kvAt s.home d).transfers.any fun t => t.op == 4 && t.stream == i

/-- RELEASE of both regions (09 R367). -/
def releaseStream (i : Nat) (d : Dev) : Dev :=
  match streamAt i d with
  | none => d
  | some s => releaseRegion s.home i (regKey i true) (releaseRegion s.home i (regKey i false) d)

/-- A stream holds no region any more. -/
def regionsGone (i home : Nat) (d : Dev) : Bool :=
  (regionAt home (regKey i false) d).isNone && (regionAt home (regKey i true) d).isNone

/-- DONE or FAILED, with the final status acknowledged, its vectors gone and RELEASE published: FREE (R391). -/
def tryFree (i : Nat) (d : Dev) : Dev :=
  match streamAt i d with
  | none => d
  | some s =>
    if (s.state = 6 || s.state = 7) && s.finalAcked && s.outq.isEmpty && s.steps.isEmpty && regionsGone i s.home d then
      modSched s.part (fun x => { x with frees := d.time :: x.frees.filter fun t => since t d ≤ sec 1 }) { d with streams := mdel d.streams i }
    else d

/-- A stream ends with a reason of R395: DONE below 0x10, FAILED from there; its status is sent; without vectors in
flight, or when cancelled, its regions are released (09 R367). -/
def endStream (i reason : Nat) (d : Dev) : Dev :=
  match streamAt i d with
  | none => d
  | some s =>
    if !streamLive s then d
    else
      let d := modStream i (fun s => { s with state := if reason < 0x10 then 6 else 7, endr := reason, turn := false,
                                              moving := false, heldKv := false, heldTok := false, park := none,
                                              unpark := false, stop := 0, atRisk := false, draftDone := false, drafts := [] }) d
      let d := if s.atRisk then modSched s.part (fun x => { x with calmFrom := d.time }) d else d
      let d := sendStatus i d
      let d := dropWalks s.home i (dropBufs s.home (fun x => x.stream == i) d)
      let d := if s.steps.isEmpty || reason = 0x06 then releaseStream i d else d
      tryFree i (settleRefs d)

/-- A stream's vectors of a batch leave every pass; an ended stream then releases what it holds. -/
def leaveBatch (i batch : Nat) (d : Dev) : Dev :=
  let d := modStream i (fun s => { s with steps := s.steps.filter fun x => x.batch != batch }) d
  match streamAt i d with
  | none => d
  | some s =>
    if !streamLive s && s.steps.isEmpty then tryFree i (settleRefs (releaseStream i d)) else d

/-- Committed length LEN of a stream (09 R351); a stream without a region keeps NEXTPOS. -/
def streamLen (i : Nat) (s : Stream) (d : Dev) : Nat :=
  match regionAt s.home (regKey i false) d with
  | some r => r.len
  | none => s.nextpos

/-- A reset of stage, partition or die scope in progress covers a partition (16 R611). -/
def subCovers (x : SubReset) (p : Nat) (d : Dev) : Bool :=
  match x.scope with
  | .stage => x.part == p
  | .partition => x.part == p
  | .die => ownsFret p x.die d || ownsBridge p x.die d
  | _ => true

end Sys2Proof.Machine
end

