-- ==== Sys2Proof/Machine/StageFault.lean ====
section
/-! DEFINITION. Stage faults and what discarding a partition's batches leaves (16 R605-R608, R611). -/

namespace Sys2Proof.Machine

abbrev fcLOAD_INCOMPLETE : Nat := 1
abbrev fcLAYER_MISMATCH : Nat := 2
abbrev fcIMAGE_FORMAT : Nat := 3
abbrev fcWEIGHT_POISON : Nat := 4
abbrev fcLOAD_PARITY : Nat := 5
abbrev fcFAR_TIMEOUT : Nat := 6
abbrev fcSTAGE_TIMEOUT : Nat := 7
abbrev fcDATA_PARITY : Nat := 8

def lasting (cause : Nat) : Bool := cause = 2 || cause = 3 || cause = 4

/-- The 32-byte payload of reset, hang and withdrawal events (R627). -/
def rstEvent (p ty scope source cause stage die course stream arg : Nat) (persist : Bool) (d : Dev) : Dev :=
  raiseEvent p ty (leBytes 1 scope ++ leBytes 1 source ++ leBytes 1 cause ++ leBytes 1 stage ++ leBytes 1 die
    ++ leBytes 1 course ++ [0#8, 0#8, 0#8] ++ leBytes 4 stream ++ leBytes 8 arg ++ timeBytes d) persist d

/-- A stream returns to its last step boundary (R608); a second time at the same NEXTPOS it fails instead, uncounted. -/
def rollback (i : Nat) (d : Dev) : Dev :=
  match streamAt i d with
  | none => d
  | some s =>
    if !streamLive s then d
    else
      let first := (s.steps.map fun x => x.pos0).foldl min s.nextpos
      let pos := if (regionAt s.home (regKey i false) d).isSome then streamLen i s d else first
      let d := dropWalks s.home i (dropBufs s.home (fun x => x.stream == i) d)
      let again := s.rolled == some pos
      let d := modStream i (fun s => { s with nextpos := pos, steps := [], rolled := some pos }) d
      if again then endStream i 0x18 d else bump (PT_ROLLBACK s.part) d

/-- The passes of a slot that discarded batches leave behind, without vectors: those whose layer the tiles have loaded ahead, so that
these planes swap in and drain (02 R93 gives a READY plane no other way on; R607: the vectors leave the passes). -/
def emptyPasses (f c s : Nat) (d : Dev) : List PassD :=
  let ahead := fun (q : PassD) (y : Plane) => y.st != 3 && planeLayer y == some q.layer
  ((slotAt f c s d).descs.filter fun q => (slotTiles f c s d).any fun t => ahead q (tileAt f c t d).pa || ahead q (tileAt f c t d).pb).map
    fun q => { q with vecs := [] }

/-- Every batch of a partition in flight is discarded (R607 item 2): course work of every stage of the partition goes. -/
def discardBatches (p : Nat) (d : Dev) : Dev :=
  let d := forEach (allPlaces (imgOf p d)) (fun x d =>
    let keep := emptyPasses x.1 x.2.1 x.2.2 d
    modSlot x.1 x.2.1 x.2.2 (fun y => { y with descs := keep }) (clearSlotWork x.1 x.2.1 x.2.2 d)) d
  modSched p (fun s => { s with batches := [] }) (ringDrop p d)

/-- Streams of a partition with vectors in flight. -/
def inFlight (p : Nat) (d : Dev) : List Nat :=
  (d.streams.filter fun e => e.2.part == p && !e.2.steps.isEmpty).map (·.1)

/-- An ended stream whose vectors are gone lets go of what it holds. -/
def dropSteps (i : Nat) (d : Dev) : Dev :=
  let d := modStream i (fun s => { s with steps := [] }) d
  match streamAt i d with
  | some s => if streamLive s then d else tryFree i (releaseStream i d)
  | none => d

/-- Discard the batches and sort the streams: those that `failing` names end with `reason`, the others roll back. -/
def discardAndSort (p : Nat) (failing : Nat → Bool) (reason : Nat) (d : Dev) : Dev :=
  let ss := inFlight p d
  let d := discardBatches p d
  settleRefs (forEach ss (fun i d =>
    match streamAt i d with
    | none => d
    | some s =>
      if !streamLive s then dropSteps i d
      else if failing i then endStream i reason (modStream i (fun s => { s with steps := [] }) d)
      else rollback i d) d)

/-- What a stage reset does to a stage, wherever it has tiles (R611). -/
def resetStage (p stage : Nat) (d : Dev) : Dev :=
  forEach (stagePlaces (imgOf p d) stage) (fun x d => resetSlot x.1 x.2.1 x.2.2 d) d

/-- A reset of stage, partition or die scope begins: batch formation of the partitions it covers stops until it ends. -/
def addSub (x : SubReset) (d : Dev) : Dev := { d with rst := { d.rst with subs := d.rst.subs ++ [x] } }

/-- The lowest-numbered course of a stage whose pass has not ended (R606). -/
def faultCourse (p stage f c : Nat) (d : Dev) : Nat × Nat :=
  match ((stagePlaces (imgOf p d) stage).filter fun x => (slotAt x.1 x.2.1 x.2.2 d).cur.isSome).foldl (fun m x =>
      match m with
      | none => some (x.1, x.2.1)
      | some y => if 16 * x.1 + x.2.1 < 16 * y.1 + y.2 then some (x.1, x.2.1) else m) none with
  | some y => y
  | none => (f, c)

/-- Vectors of a pass of a slot that have not left the stage, oldest first. -/
def vecsInSlot (x : Slot) : List VecId :=
  match x.cur with
  | none => (x.descs.head?.map fun q => q.vecs).getD []
  | some q => (x.bufA.slots.map fun v => v.vec) ++ (x.bufB.slots.map fun v => v.vec) ++ q.vecs.drop x.taken

/-- A stage fault (R605-R607) met in Fret course (f, c), or on a Bridge when `bridge`. `batch` met it; `failed` names a
stream that DATA_PARITY fails. -/
def stageFault (p stage cause f c : Nat) (bridge : Bool) (batch : Option Nat) (failed : Option Nat) (d : Dev) : Dev :=
  let fc := if bridge then (f, c) else faultCourse p stage f c d
  let slot := (slotOfStage (imgOf p d) fc.1 fc.2 stage).getD 0
  let stream := if bridge then none else (vecsInSlot (slotAt fc.1 fc.2 slot d)).head?.map fun v => v.stream
  let die := if bridge then f else fc.1
  let ctx0 := cause * 2 ^ 24 + stage % 256 * 2 ^ 16 + die % 16 * 2 ^ 12 + b2n bridge * 2 ^ 11 + (if bridge then 0 else fc.2 % 16 * 2 ^ 7)
  let ctx1 := match stream with | some i => 2 ^ 31 + i % 2 ^ 18 | none => 0
  let d := regPut (PT_FAULTCTX0 p) (BitVec.ofNat 32 ctx0) (regPut (PT_FAULTCTX1 p) (BitVec.ofNat 32 ctx1) d)
  let d := regPut (PT_FAULTCTX2 p) (BitVec.ofNat 32 d.time.toNat) (regPut (PT_FAULTCTX3 p) (BitVec.ofNat 32 (d.time.toNat / 2 ^ 32)) d)
  let d := rstEvent p 0x00A1 1 0 cause stage (if bridge then 16 + f else fc.1) (if bridge then 0xFF else fc.2)
    (stream.getD 0x3FFFF) 0 false (bump (PT_STGFAULT p) d)
  let fails : Nat → Bool := fun i =>
    if cause = fcDATA_PARITY then failed == some i
    else lasting cause && match batch, streamAt i d with
      | some b, some s => s.steps.any fun x => x.batch == b
      | _, _ => false
  let d := discardAndSort p fails (if cause = fcDATA_PARITY then 0x11 else 0x18) d
  addSub { scope := .stage, part := p, stage := stage, die := 0, source := 0, t0 := d.osc } (resetStage p stage d)

/-- A stage fault met by the stage of a course's slot. -/
def slotFault (cause f c s : Nat) (failed : Option Nat) (d : Dev) : Dev :=
  let x := slotAt f c s d
  let batch := match x.cur with | some q => some q.batch | none => x.descs.head?.map fun q => q.batch
  stageFault (coursePart f c d) (stgStage f c s d) cause f c false batch failed d

end Sys2Proof.Machine
end

