-- ==== Sys2Proof/Machine/Planes.lean ====
section
/-! DEFINITION. Plane loads (02 R66-R69, R92, R93, R97; 03 R123-R127; 06 R238, R239; 08 R315, R318, R321). -/

namespace Sys2Proof.Machine

/-- The working tile a physical tile serves, or is to serve once a waiting switch is made (06 R249, R250). -/
def servedW (f c t : Nat) (d : Dev) : Option Nat :=
  match (courseAt f c d).assigned.find? fun e => e.2 == t with
  | some e => some e.1
  | none => wtileOf f c t d

def isAssigned (f c t : Nat) (d : Dev) : Bool := (courseAt f c d).assigned.any fun e => e.2 == t

/-- The stage slot a physical tile works in. -/
def slotOfTile (f c t : Nat) (d : Dev) : Option Nat :=
  match servedW f c t d with
  | none => none
  | some w => match tileRec (courseImg f c d) f c w with
    | none => none
    | some r => slotOfStage (courseImg f c d) f c (tStage r)

/-- The tile's TSTATE and last result as a record's RESULT byte. -/
def resultByte (f c t res : Nat) (d : Dev) : Nat := (tileAt f c t d).tstate % 4 * 64 + res % 4 * 16

/-- An error record of a tile. -/
def tileRecord (ty f c t group layer res stream colmask : Nat) (persist : Bool) (d : Dev) : Dev :=
  let s := slotOfTile f c t d
  errRecord ty (coursePart f c d) f c t ((servedW f c t d).getD 0xFF) group layer
    (match s with | some s => stgStage f c s d | none => 0xFF) (resultByte f c t res d) stream colmask persist d

/-- The passes of a slot, the one in progress first. -/
def slotPasses (f c s : Nat) (d : Dev) : List PassD :=
  let x := slotAt f c s d
  (match x.cur with | some q => [q] | none => []) ++ x.descs

def activeB (x : Tile) : Option Bool := if x.pa.st = 3 then some false else if x.pb.st = 3 then some true else none

/-- A plane that a new load may go to: EMPTY, or in DRAIN with no load waiting. -/
def planeFree (p : Plane) : Bool := (p.st = 0 || p.st = 4) && p.load.isNone

/-- The plane a load goes to: the non-ACTIVE one; A first while none is ACTIVE. -/
def loadTarget (x : Tile) : Option Bool :=
  if x.pa.st != 3 && planeFree x.pa then some false else if x.pb.st != 3 && planeFree x.pb then some true else none

/-- The key of a tile's block in an epoch's index. -/
def blockKey (f c w tag : Nat) : Nat := ((16 * f + c) * 32 + w) * 65536 + tag

/-- Is the layer of a tag of a stage far-tier? -/
def layerFar (img : List Byte) (stage tag : Nat) : Bool :=
  (stageLayers img stage).any fun r => lTag r == tag % 2 ^ 15 && lFar r

def farAt (p m : Nat) (e : Word) (tag : Nat) (d : Dev) : Option FarLayer :=
  d.loads.far.find? fun x => x.part == p && x.model == m && x.epoch == e && x.layer == tag && x.landed

/-- Where the block of a pass lies in the HBM of Bridge `f`: in its epoch's shards, or in the landing area. -/
def blockAddr (f c w : Nat) (q : PassD) (d : Dev) : Option Nat :=
  if layerFar (imgOf q.part d) q.stage q.layer then
    (farAt q.part q.model q.epoch q.layer d).bind fun x => mget? x.index (blockKey f c w q.layer)
  else (epochAt q.part q.model q.epoch d).bind fun e => mget? e.index (blockKey f c w q.layer)

/-- The records of a block's outlier area (R124). -/
def blockRecs (rs : List Byte) (n : Nat) : List WRec :=
  (List.range n).map fun i =>
    let v := u64 rs (8 * i)
    { row := bits v 0 9, col := bits v 32 9, oexp := bits v 56 8, oval := bits v 48 8 }

/-- A record's own form (R124, R126). -/
def recBad (v : Nat) : Bool :=
  bits v 9 23 != 0 || bits v 41 7 != 0 || bits v 56 8 == 0xFF || fpNonFinite fE4M3 (bits v 48 8)

def recsRising : List WRec → Bool
  | a :: b :: r => decide (512 * a.row + a.col < 512 * b.row + b.col) && recsRising (b :: r)
  | _ => true

/-- R126: the block at an address is malformed. -/
def blockBad (b a : Nat) (d : Dev) : Bool :=
  let h := hbmBytes b a 0x440 d
  let n := u16 h 0x0A
  u32 h 0 != 0x47340001 || u16 h 4 != 1 || decide (1 < u8 h 8) || u16 h 6 == 0xFFFF || decide (8192 < n)
    || u32 h 0x10 != 0x440 + 64 * ((n + 7) / 8) || u32 h 0x14 != u32 h 0x10 + 131072
    || (List.range 512).any (fun c => fpNonFinite fF16 (u16 h (0x40 + 2 * c)))
    || (let rs := hbmBytes b (a + 0x440) (8 * n) d
        (List.range n).any (fun i => recBad (u64 rs (8 * i))) || !recsRising (blockRecs rs n))

/-- The load that a block's header announces. -/
def loadOf (b a : Nat) (repair : Bool) (d : Dev) : PlaneLoad :=
  let h := hbmBytes b a 0x440 d
  { addr := a, codeOff := u32 h 0x10, layer := u16 h 6, fp4 := u8 h 8 = 1,
    scales := (List.range 512).map fun c => BitVec.ofNat 16 (u16 h (0x40 + 2 * c)),
    recs := blockRecs (hbmBytes b (a + 0x440) (8 * u16 h 0x0A) d) (u16 h 0x0A), resent := false, repair := repair,
    started := false, endHeld := false }

/-- Start the load of the block at `a` into a plane: poison and malformed blocks fault the stage (R126, 06 R238). `errs` gives the ECC
verdicts of its words by offset (06 R243). -/
def startLoad (f c t s : Nat) (b : Bool) (a : Nat) (repair : Bool) (errs : List (Nat × Nat)) (d : Dev) : Dev :=
  let n := 0x440 + 8 * u16 (hbmBytes f a 0x40 d) 0x0A
  let d := hbmReadEcc f a n errs d
  if hbmPoisoned f a n d then slotFault fcWEIGHT_POISON f c s none d
  else if blockBad f a d then slotFault fcIMAGE_FORMAT f c s none d
  else
    let d := neckBulk (coursePart f c d) f c ((hbmBytes f a n d).drop 0x40) d
    modPlane f c t b (fun p => { p with load := some (loadOf f a repair d) })
      (hbmCount (coursePart f c d) (u32 (hbmBytes f a 0x40 d) 0x14) d)

/-- A self-test of a tile waits for its turn. -/
def wantsTest (f c t : Nat) (d : Dev) : Bool := (courseAt f c d).tests.any fun q => q.tile == t && !q.running

/-- The pass whose layer a tile still lacks (R315): the first formed whose layer no plane holds or awaits, and its place among the
passes formed. -/
def wantedPass (f c t s : Nat) (d : Dev) : Option (Nat × PassD) :=
  let x := tileAt f c t d
  let has := fun (l : Nat) => planeLayer x.pa == some l || planeLayer x.pb == some l
  ((slotPasses f c s d).zipIdx.find? fun e => !has e.1.layer).map fun e => (e.2, e.1)

/-- The planes of the tile that serves a working tile: those with a block, the ACTIVE one first. -/
def serverPlanes (f c w : Nat) (d : Dev) : List Plane :=
  let p := physOf f c w d
  if p < 33 then
    let x := tileAt f c p d
    ([x.pa, x.pb].filter fun y => y.st = 3) ++ [x.pa, x.pb].filter fun y => y.st = 2
  else []

/-- The block that a tile about to take over loads because its predecessor holds it: for a tile that returns to service, and for the
server of a resident stage (06 R249 steps 2 and 6). -/
def heldBlock (f c t w s : Nat) (d : Dev) : Option Nat :=
  let x := tileAt f c t d
  if isAssigned f c t d && (x.home == w + 1 || stgResident f c s d) then
    ((serverPlanes f c w d).find? fun y => planeLayer x.pa != some y.tag && planeLayer x.pb != some y.tag).map (·.src)
  else none

/-- The next load of a tile that is to leave service for a test goes to the tile that takes over (06 R249 step 2). -/
def leaving (f c t w : Nat) (d : Dev) : Bool :=
  (mget? (courseAt f c d).assigned w).isSome && !isAssigned f c t d && ((tileAt f c t d).suspect || wantsTest f c t d)

/-- The load that a tile waits for: its place in the order of R315, and the block at an address or that of a pass. No tile under test is
loaded (02 R70). -/
def loadWant (f c t : Nat) (d : Dev) : Option (Nat × (Nat ⊕ PassD)) :=
  match servedW f c t d, slotOfTile f c t d with
  | some w, some s =>
    if (tileAt f c t d).inTest || leaving f c t w d || (loadTarget (tileAt f c t d)).isNone then none
    else match heldBlock f c t w s d with
      | some a => some (0, .inl a)
      | none => (wantedPass f c t s d).map fun e => (e.1, .inr e.2)
  | _, _ => none

/-- An earlier load on the Bridge waits to start (R315): by pass boundary, then course, then tile. A pass boundary is told by the number of
passes formed before it in its stage (DESIGN CHOICE, notes/assumptions/140.md). -/
def earlierLoad (f c t k : Nat) (d : Dev) : Bool :=
  (List.range 16).any fun c' => ((List.range 4).flatMap fun s => if stgValid f c' s d then slotTiles f c' s d else []).any fun t' =>
    match loadWant f c' t' d with
    | some (j, _) => decide (j < k) || (j == k && decide (64 * c' + t' < 64 * c + t))
    | none => false

/-- READY planes of a tile that is to take over go when neither its predecessor nor a pass formed has their layer any more. -/
def dropStale (f c t s w : Nat) (d : Dev) : Dev :=
  let wanted := fun (l : Nat) => (serverPlanes f c w d).any (fun y => y.tag == l) || (slotPasses f c s d).any fun q => q.layer == l
  let keep := fun (y : Plane) => if y.st = 2 && !wanted y.tag then emptyPlane else y
  if isAssigned f c t d then modTile f c t (fun x => { x with pa := keep x.pa, pb := keep x.pb }) d else d

/-- The load of a far-tier layer's block has started: the next layer but one waits for every one of them (R320). -/
def farStarted (f c w : Nat) (q : PassD) (d : Dev) : Dev :=
  { d with loads := { d.loads with far := d.loads.far.map fun y =>
      if y.part = q.part ∧ y.model = q.model ∧ y.epoch = q.epoch ∧ y.layer = q.layer then
        { y with left := y.left.filter (· != blockKey f c w q.layer) } else y } }

/-- The load of a pass's block starts. A far-tier layer that has not landed is waited for, counted once (R321). A reload of
a resident stage counts in BR_EPOCHSW only while two epochs of its model are live (R318). -/
def passLoad (f c t s w : Nat) (b : Bool) (q : PassD) (errs : List (Nat × Nat)) (d : Dev) : Dev :=
  if layerFar (imgOf q.part d) q.stage q.layer && (farAt q.part q.model q.epoch q.layer d).isNone then
    if (tileAt f c t d).farWait then d else bump (BR_FARWAIT f) (modTile f c t (fun x => { x with farWait := true }) d)
  else
    let live := d.loads.epochs.filter fun e => e.part = q.part && e.model = q.model
    let d := if stgResident f c s d && (activeB (tileAt f c t d)).isSome && decide (2 ≤ live.length) then bump (BR_EPOCHSW f) d else d
    let d := modTile f c t (fun x => { x with farWait := false }) d
    match blockAddr f c w q d with
    | none => slotFault fcIMAGE_FORMAT f c s none d
    | some a => startLoad f c t s b a false errs (farStarted f c w q d)

/-- PLANE_LOAD_START: the Bridge starts the next load of a tile (R315). A repair reloads the same block at once (06 R236). -/
def planeLoadStart (f c t : Nat) (errs : List (Nat × Nat)) (d : Dev) : Dev :=
  match servedW f c t d, slotOfTile f c t d with
  | some w, some s =>
    match [false, true].find? fun b => (planeOf (tileAt f c t d) b).st = 0 && (planeOf (tileAt f c t d) b).load.isNone
        && (slotAt f c s d).repair.contains (2 * t + b2n b) with
    | some b => startLoad f c t s b (planeOf (tileAt f c t d) b).src true errs d
    | none =>
      let d := dropStale f c t s w d
      match loadTarget (tileAt f c t d), loadWant f c t d with
      | some b, some (k, z) =>
        if earlierLoad f c t k d then d
        else match z with
          | .inl a => startLoad f c t s b a false errs d
          | .inr q => passLoad f c t s w b q errs d
      | _, _ => d
  | _, _ => d

/-- Number of set bits among the five cells of the slots of one parity class (R67). -/
def cellParity (slots : List Byte) (odd : Bool) : Bool :=
  (slots.zipIdx.filter fun e => (e.2 % 2 == 1) == odd).foldl
    (fun p e => (List.range 5).foldl (fun p k => p != bit e.1.toNat k) p) false

/-- W of a slot (R64). -/
def slotVal (s : Byte) : Int := let m : Int := bits s.toNat 0 4; if bit s.toNat 4 then -m else m

/-- The slot that a code becomes (R66). -/
def slotOf (fp4 : Bool) (code : Nat) : Byte :=
  let v := codeVal fp4 code
  BitVec.ofNat 8 ((if v < 0 then 16 else 0) + v.natAbs)

/-- The sum of a segment's enabled columns (R68). -/
def segSum (x : Tile) (g : Nat) (slots : List Byte) : Int :=
  (slots.zipIdx.filter fun e => scanCol x (64 * g + e.2)).foldl (fun a e => a + slotVal e.1) 0

def harmOf (v : Int) : BitVec 11 := BitVec.ofNat 11 ((if v < 0 then 1024 else 0) + v.natAbs)
def harmVal (h : BitVec 11) : Int := let m : Int := bits h.toNat 0 10; if bit h.toNat 10 then -m else m

/-- The segment that 32 bytes of codes become (R66-R69, R123). -/
def mkSeg (x : Tile) (g : Nat) (fp4 : Bool) (codes : List Byte) : Seg :=
  let slots := (List.range 64).map fun k =>
    slotOf fp4 (if k % 2 = 0 then u8 codes (k / 2) % 16 else u8 codes (k / 2) / 16)
  { slots := slots, harm := harmOf (segSum x g slots), p0 := cellParity slots false, p1 := cellParity slots true }

/-- The load logic meets one row segment of a plane not in DRAIN (R93, 06 R239). A second parity error in a load writes a record and faults
the stage; the first is resent and writes none (R259 lists the type, no rule says which of them: DESIGN CHOICE, notes/assumptions/141.md). -/
def landSegment (f c t s : Nat) (b : Bool) (k : Nat) (parityOk : Bool) (d : Dev) : Dev :=
  let x := tileAt f c t d
  let p := planeOf x b
  match p.load with
  | none => d
  | some l =>
    if !parityOk then
      let d := bump (CS_LOADPAR f c) d
      let gone : Plane := { emptyPlane with src := p.src }
      if l.resent then
        slotFault fcLOAD_PARITY f c s none (tileRecord 0x0067 f c t (k % 8) l.layer 3 0x3FFFF 0 false (modPlane f c t b (fun _ => gone) d))
      else modPlane f c t b (fun _ => { gone with load := some { l with resent := true, started := false } }) d
    else if hbmPoisoned f (l.addr + l.codeOff + 32 * k) 32 d then
      slotFault fcWEIGHT_POISON f c s none (modPlane f c t b (fun _ => emptyPlane) d)
    else
      let seg := mkSeg x (k % 8) l.fp4 (hbmBytes f (l.addr + l.codeOff + 32 * k) 32 d)
      modPlane f c t b (fun p => { p with st := 1, load := some { l with started := true },
                                          segs := mput (if l.started then p.segs else []) k seg }) d

/-- The end marker of a plane not in DRAIN (R93). -/
def landEnd (f c t s : Nat) (b : Bool) (d : Dev) : Dev :=
  let p := planeOf (tileAt f c t d) b
  match p.load with
  | none => d
  | some l =>
    if p.st = 1 && p.segs.length = 4096 then
      modPlane f c t b (fun p => { p with st := 2, src := l.addr, fp4 := l.fp4, tag := l.layer, scales := l.scales, recs := l.recs,
                                          load := none, held := [] }) d
    else slotFault fcLOAD_INCOMPLETE f c s none (modPlane f c t b (fun _ => emptyPlane) d)

/-- ROW_SEGMENT_ARRIVAL: row `row`, group `g`, with the verdict of its byte parity and the ECC verdicts of its four words by offset (06 R243);
a plane in DRAIN holds it (R97). A row's 256 bytes of codes cross the Neck in one flit, with its first segment (DESIGN CHOICE,
notes/assumptions/149.md). -/
def rowSegmentArrival (f c t row g : Nat) (b parityOk : Bool) (errs : List (Nat × Nat)) (d : Dev) : Dev :=
  let p := planeOf (tileAt f c t d) b
  match slotOfTile f c t d, p.load with
  | some s, some l =>
    let k := 8 * (row % 512) + g % 8
    let d := hbmReadEcc f (l.addr + l.codeOff + 32 * k) 32 errs d
    let d := if k % 8 = 0 then neckBulk (coursePart f c d) f c (hbmBytes f (l.addr + l.codeOff + 32 * k) 256 d) d else d
    if p.st = 4 then modPlane f c t b (fun p => { p with held := p.held ++ [(k, parityOk)] }) d
    else landSegment f c t s b k parityOk d
  | _, _ => d

/-- LOAD_END_MARKER. -/
def loadEndMarker (f c t : Nat) (b : Bool) (d : Dev) : Dev :=
  let p := planeOf (tileAt f c t d) b
  match slotOfTile f c t d, p.load with
  | some s, some l =>
    let d := neckBulk (coursePart f c d) f c (leBytes 2 l.layer ++ [BitVec.ofNat 8 (b2n l.fp4)]) d
    if p.st = 4 then modPlane f c t b (fun p => { p with load := some { l with endHeld := true } }) d
    else landEnd f c t s b d
  | _, _ => d

/-- A pluck refers to the plane it was made on until its last term has left for the Tailpiece, and with it the pluck (R97, 04 R163). -/
def planeRefs (f c t : Nat) (b : Bool) (d : Dev) : Bool := (courseAt f c d).plucks.any fun p => p.tile == t && p.planeB == b

/-- Samples taken on a plane that a load waits for are abandoned (04 R178). -/
def dropSamples (f c : Nat) (gone : Sample → Bool) (d : Dev) : Dev :=
  let n := ((courseAt f c d).samples.filter gone).length
  let d := modCourse f c (fun k => { k with samples := k.samples.filter fun x => !gone x }) d
  if n = 0 then d else forEach (List.range n) (fun _ => choice (coursePart f c d) false) (addCtr (CS_SAMPDROP f c) n d)

/-- PLANE_DRAINED: the reference count of a DRAIN plane reaches zero (R93, R97). `waited` counts the SEQ cycles in which
row segments were held. What was held of a load that a parity error has stopped goes (06 R239). -/
def planeDrained (f c t : Nat) (b : Bool) (waited : Nat) (d : Dev) : Dev :=
  let p := planeOf (tileAt f c t d) b
  if p.st != 4 || planeRefs f c t b d then d
  else
    let mine := fun (x : Sample) => x.pluck.tile == t && x.pluck.planeB == b
    if p.load.isNone && (courseAt f c d).samples.any mine then d
    else
      let d := dropSamples f c mine d
      match p.load, slotOfTile f c t d with
      | some l, some s =>
        let d := addCtr (CS_DRAINWAIT f c) waited d
        let start : Plane := { emptyPlane with load := some { l with endHeld := false } }
        let d := modPlane f c t b (fun _ => { start with st := 1, load := some { l with started := true, endHeld := false } }) d
        let same := fun (d : Dev) => (planeOf (tileAt f c t d) b).load.map (·.resent) == some l.resent
        let d := forEach p.held (fun h d => if same d then landSegment f c t s b h.1 h.2 d else d) d
        if l.endHeld && same d then landEnd f c t s b d else d
      | _, _ => modPlane f c t b (fun _ => emptyPlane) d

end Sys2Proof.Machine
end

