-- ==== Sys2Proof/Machine/Capo.lean ====
section
/-! DEFINITION. What the Capo computes (04 R151-R165): trimmed values, exact values from the cells, terms; and the
bands of the group check (06 R227). -/

namespace Sys2Proof.Machine

/-- Twice the data LSB of a gain step (02 R77). -/
def lsb2 (step : Nat) : Int := [4, 6, 7, 8].getD step 8
/-- Twice the LSB of a column: 512 to 519 are the harmonic columns. -/
def lsb2Of (step col : Nat) : Int := if col < 512 then lsb2 step else 16 * lsb2 step

def stepOf (m : Nat) : Nat := if m ≤ 64 then 0 else if m ≤ 128 then 1 else if m ≤ 192 then 2 else 3

/-- R78: the code that an ideal converter gives for v, and a deviation from it. -/
def codeOf (step col : Nat) (v dev : Int) : Int := max (-256) (min 255 (rhaDiv (2 * v) (lsb2Of step col) + dev))

def clippedCode (q : Int) : Bool := q = -256 || q = 255

def zeroTrim : Trim := { gain := 0, off := 0, stale := false, derived := false }

/-- Coefficients of a die (07 R296): 1/16 GAIN and OFF counts per degree. -/
def tcGain (f : Nat) (d : Dev) : Int := (mgetD d.fuses.tcGain f 0#8).toNat
def tcOff (f : Nat) (d : Dev) : Int := (mgetD d.fuses.tcOff f 0#8).toNat

def bandMid (b : Nat) : Int := [35, 57, 80, 97].getD b 97

/-- An entry of a tile's trim table for a band (07 R276, R281, R285): the fitted one; else, once full calibration has
run, its own band's fit or the value derived from it; else the reset value. -/
def trimEntry (f : Nat) (x : Tile) (band col : Nat) (d : Dev) : Trim :=
  match mget? x.tables (520 * band + col) with
  | some e => e
  | none =>
    let y := dieAt f d
    let g := mgetD x.base col (0, 0)
    if !y.derived then zeroTrim
    else if band = y.calBand then { gain := g.1, off := g.2, stale := false, derived := false }
    else
      { gain := max (-2048) (min 2047 (g.1 + rheDiv (tcGain f d * (bandMid band - y.calT)) 16)),
        off := max (-512) (min 511 (g.2 + rheDiv (tcOff f d * (bandMid band - y.calT)) 16)), stale := true, derived := true }

/-- R152. -/
def trimmed (e : Trim) (step col : Nat) (q : Int) : Int :=
  rheDiv ((64 * q - e.off) * lsb2Of step col * (16384 + e.gain)) 32768

/-- A segment of a plane; a segment never written reads as zeros. -/
def segAt (p : Plane) (k : Nat) : Seg :=
  mgetD p.segs k { slots := List.replicate 64 0#8, harm := 0#11, p0 := false, p1 := false }

def cellW (p : Plane) (r c : Nat) : Int := slotVal ((segAt p (8 * r + c / 64)).slots.getD (c % 64) 0#8)
def cellH (p : Plane) (r g : Nat) : Int := harmVal (segAt p (8 * r + g)).harm

/-- Rows of a fold that are driven, with their values. -/
def activeRows (x : List Int) : List (Nat × Int) := (x.zipIdx.filter fun e => e.1 != 0).map fun e => (e.2, e.1)

/-- The exact column sum of a fold: a data column, or 512 + g for a harmonic column (R155, 06 R225). -/
def exactSum (p : Plane) (x : List Int) (col : Nat) : Int :=
  (activeRows x).foldl (fun a e => a + (if col < 512 then cellW p e.1 col else cellH p e.1 (col - 512)) * e.2) 0

/-- The read port reads only a plane in state ACTIVE or DRAIN (02 R71, R149). -/
def portReads (p : Plane) : Bool := p.st = 3 || p.st = 4

/-- An exact column sum through the read port; no data from a plane in another state. -/
def portSum (p : Plane) (x : List Int) (col : Nat) : Option Int := if portReads p then some (exactSum p x col) else none

/-- The enabled columns of a group, ascending. -/
def groupCols (m : BitVec 512) (g : Nat) : List Nat := ((List.range 64).map (64 * g + ·)).filter fun c => m.getLsbD c
/-- Groups with at least one enabled column. -/
def liveGroups (m : BitVec 512) : List Nat := (List.range 8).filter fun g => !(groupCols m g).isEmpty

/-! ### Terms -/

/-- Significand and exponent of an FP16 scale. -/
def sigFp16 (w : Nat) : Int × Int :=
  let e := bits w 10 5
  let m : Int := bits w 0 10
  let s : Int := if bit w 15 then -1 else 1
  if e = 0 then (s * m, -24) else (s * (1024 + m), e - 25)

/-- Signed significand and exponent of an E4M3 value. -/
def sigE4m3 (w : Nat) : Int × Int :=
  let e := bits w 3 4
  let m : Int := bits w 0 3
  let s : Int := if bit w 7 then -1 else 1
  if e = 0 then (s * m, -9) else (s * (8 + m), e - 10)

/-- Terms of equal column and EXP are added; a term of value zero is not sent (R156, R157). -/
def mergeTerms : List Term → List Term
  | [] => []
  | t :: r =>
    match (mergeTerms r).find? fun u => u.col == t.col && u.exp == t.exp with
    | some u => (mergeTerms r).map fun w => if w.col = u.col ∧ w.exp = u.exp then { w with mant := w.mant + t.mant } else w
    | none => t :: mergeTerms r

/-- What terms are formed from: the weights W[r, c], the column scales, and the records of a plane or of a fetched block. -/
structure Cells where
  w : Nat → Nat → Int
  scale : Nat → Nat
  recs : List WRec

def planeCells (p : Plane) : Cells :=
  { w := fun r c => cellW p r c, scale := fun c => (p.scales.getD c 0#16).toNat, recs := p.recs }

/-- The correction terms of R156 for some columns. `first` is set for fold 1 or the only pluck. -/
def corrections (k : Cells) (x : List Int) (scale : Nat) (outs : List OutEnt) (recs : List WRec) (first : Bool)
    (cols : List Nat) : List Term :=
  let sc : Int := scale - 127
  let wout := (recs.filter fun r => cols.contains r.col && x.getD r.row 0 != 0).map fun r =>
    let d := sigE4m3 r.oval
    ({ col := r.col, mant := d.1 * x.getD r.row 0, exp := d.2 + r.oexp - 127 + sc } : Term)
  let aout := if !first then [] else outs.flatMap fun o =>
    let so := sigE4m3 o.oval
    let oe : Int := so.2 + o.oexp - 127
    (cols.map fun c =>
      let ss := sigFp16 (k.scale c)
      ({ col := c, mant := so.1 * k.w o.index c * ss.1, exp := oe + ss.2 } : Term))
      ++ (k.recs.filter fun r => r.row == o.index && cols.contains r.col).map fun r =>
        let d := sigE4m3 r.oval
        { col := r.col, mant := d.1 * so.1, exp := d.2 + r.oexp - 127 + oe }
  (mergeTerms (wout ++ aout)).filter fun t => t.mant != 0

/-- R155: the exact main term, and the analogue one. -/
def mainExact (k : Cells) (scale c : Nat) (v : Int) : Term :=
  let s := sigFp16 (k.scale c)
  { col := c, mant := v * s.1, exp := s.2 + scale - 127 }
def mainTrim (k : Cells) (scale c : Nat) (t : Int) : Term :=
  let s := sigFp16 (k.scale c)
  { col := c, mant := t * s.1, exp := s.2 + scale - 127 - 6 }

/-! ### Bands (06 R227) -/

/-- The integer square root, bit by bit. -/
def isqrt (n : Nat) : Nat :=
  (List.range 48).foldl (fun r k => let b := 2 ^ (47 - k); if (r + b) * (r + b) ≤ n then r + b else r) 0
def ceilSqrt (n : Nat) : Nat := let r := isqrt n; if r * r = n then r else r + 1
def ceilDiv (n k : Nat) : Nat := (n + k - 1) / k

def bandG (k e qf qh : Nat) : Nat :=
  8 * e + 128 + ceilSqrt (ceilDiv (256 * k * k * (e * qf * qf + 256 * qh * qh)) 1000000)
def bandC (k qf : Nat) : Nat := 8 + ceilDiv (16 * k * qf) 1000
def bandH (k qh : Nat) : Nat := 128 + ceilDiv (256 * k * qh) 1000

/-! ### Plucks of a course -/

/-- Change a pluck and the copy a sample keeps of it. -/
def modPluck (f c id : Nat) (g : Pluck → Pluck) (d : Dev) : Dev :=
  modCourse f c (fun k => { k with
    plucks := k.plucks.map (fun p => if p.id = id then g p else p),
    samples := k.samples.map fun s => if s.pluck.id = id then { s with pluck := g s.pluck } else s }) d

def pluckAt (f c id : Nat) (d : Dev) : Option Pluck := (courseAt f c d).plucks.find? fun p => p.id == id

/-- A pluck whose groups' terms have all been accepted is gone (04 R163, 06 R235). -/
def retirePluck (f c id : Nat) (d : Dev) : Dev :=
  match pluckAt f c id d with
  | none => d
  | some p =>
    let m := scanMask (tileAt f c p.tile d) ||| (tileAt f c p.tile d).use
    if p.converted && (liveGroups m).all fun g => p.left.contains g then
      modCourse f c (fun k => { k with plucks := k.plucks.filter fun q => q.id != id }) d
    else d

def hasUsed (x : Tile) (g : Nat) : Bool := !(groupCols x.use g).isEmpty
def usedGroups (x : Tile) : List Nat := liveGroups x.use

/-- Two plucks of one vector at one tile. -/
def sameVec (p q : Pluck) : Bool := q.tile == p.tile && q.vec == p.vec && q.layer == p.layer

/-- With the groups `done` of a pluck sent, its tile has sent all groups of every pluck of the vector (05 R194). -/
def closesVec (k : Course) (x : Tile) (p : Pluck) (done : List Nat) : Bool :=
  (usedGroups x).all (fun g => done.contains g) && !(x.next.any fun q => sameVec p q)
    && k.plucks.all fun q => q.id == p.id || !sameVec p q || (usedGroups x).all fun g => q.sent.contains g

/-- Queue the terms of one group (R162 step 6). -/
def sendTerms (f c : Nat) (p : Pluck) (g : Nat) (terms : List Term) (d : Dev) : Dev :=
  let x := tileAt f c p.tile d
  let done := g :: p.sent
  let isLast := closesVec (courseAt f c d) x p done
  let m : TermMsg := { pid := p.id, group := g, slot := p.slot, wtile := p.wtile, tile := p.tile, vec := p.vec, layer := p.layer,
                       terms := terms, last := isLast, tries := 0 }
  modCourse f c (fun k => { k with capoOut := k.capoOut ++ [m] }) (modPluck f c p.id (fun p => { p with sent := done }) d)

/-- The main terms of a group (R155, R158): exact values where the pluck holds them, else re-converts, else the scheduled
conversion, trimmed. -/
def mainTerms (k : Cells) (p : Pluck) (cols : List Nat) : List Term :=
  cols.map fun c =>
    match mget? p.exact c with
    | some v => mainExact k p.scale c v
    | none =>
      match mget? p.trimmed c with
      | some t => mainTrim k p.scale c t
      | none => mainTrim k p.scale c (trimmed (mgetD p.trims c zeroTrim) p.step c (mgetD p.codes c 0))

/-- A group is settled: its terms are formed and sent. -/
def settleGroup (f c : Nat) (p : Pluck) (g outcome : Nat) (d : Dev) : Dev :=
  let x := tileAt f c p.tile d
  let pl := planeOf x p.planeB
  let cols := groupCols x.use g
  let terms := mainTerms (planeCells pl) p cols ++ corrections (planeCells pl) p.x p.scale p.outs p.recs (p.fold != 2) cols
  let d := modPluck f c p.id (fun p => { p with outcome := mput p.outcome g outcome, open_ := p.open_.filter (· != g),
                                                passed := p.passed.filter (· != g) }) d
  sendTerms f c p g terms d

/-- The entries of the recompute queue and those that wait for room in it. -/
def rcqLength (k : Course) : Nat := (k.plucks.map fun p => p.colrec.length + p.grprec.length).foldl (· + ·) 0

/-- The `i`th recompute of a pluck is among the 512 entries of the queue (R146). One that finds no room waits where it was issued until
an entry leaves; entries go in by pluck (DESIGN CHOICE, notes/assumptions/139.md). -/
def inQueue (k : Course) (p : Pluck) (i : Nat) : Bool := decide (rcqLength { k with plucks := k.plucks.takeWhile (·.id != p.id) } + i < 512)

/-- Lane work, in items, is added to what is pending; done work leaves it (R179, R188). -/
def addBacklog (f c n : Nat) (d : Dev) : Dev := modCourse f c (fun k => { k with backlog := k.backlog + n }) d
def subBacklog (f c n : Nat) (d : Dev) : Dev := modCourse f c (fun k => { k with backlog := k.backlog - n }) d

/-- The column reads of a column recompute: one for each 64-row block with a driven row (R164). -/
def colReads (x : List Int) : Nat := ((activeRows x).map fun e => e.1 / 64).eraseDups.length

/-! ### Suspects and records (06 R233, R246, R259) -/

def countErr (f c t : Nat) (d : Dev) : Dev := addField (CS_TFAULT f c t) 8 8 1 d

/-- A record about a tile that serves no working tile any more, and the working tile `w?` it served or was to serve. -/
def wtileRecord (ty f c t : Nat) (w? : Option Nat) (persist : Bool) (d : Dev) : Dev :=
  let stage := match w? with
    | some w => (match tileRec (courseImg f c d) f c w with | some r => tStage r | none => 0xFF)
    | none => 0xFF
  errRecord ty (coursePart f c d) f c t (w?.getD 0xFF) 0xFF 0xFFFF stage (resultByte f c t 3 d) 0x3FFFF 0 persist d

def retKey (f c t : Nat) : Nat := (16 * f + c) * 64 + t

/-- The retirement map in force (15 R566), and a write of it. -/
def retMap (d : Dev) : List Nat := twoCopyGet d.flash.retA d.flash.retB []
def putRetMap (l : List Nat) (d : Dev) : Dev :=
  let cp := twoCopyPut d.flash.retA d.flash.retB l
  { d with flash := { d.flash with retA := cp.1, retB := cp.2 } }

/-- Physical tiles of a course that are not retired (06 R251). -/
def serviceable (f c : Nat) (d : Dev) : Nat := ((List.range 33).filter fun t => (tileAt f c t d).tstate != 2).length
def freeSpare (f c : Nat) (d : Dev) : Option Nat :=
  (List.range 33).find? fun t => (tileAt f c t d).tstate == 3 && !(tileAt f c t d).inTest

/-- The working tiles a course's running image uses. -/
def courseTiles (f c : Nat) (d : Dev) : List Nat :=
  (List.range 32).filter fun w => (tileRec (courseImg f c d) f c w).isSome

/-- A physical tile becomes the server of a working tile. -/
def assignTile (f c w t : Nat) (d : Dev) : Dev :=
  let d := modCourse f c (fun k => { k with assigned := mput k.assigned w t }) d
  let use := match tileRec (courseImg f c d) f c w with | some r => useMask (courseImg f c d) r | none => 0#512
  modTile f c t (fun x => { x with tstate := if x.tstate = 3 then 0 else x.tstate, use := use }) d

/-- A working tile is covered from now on (06 R250): what waited at its tile waits for fetched recompute instead. -/
def coverTile (f c w : Nat) (d : Dev) : Dev :=
  let t := physOf f c w d
  let x := tileAt f c t d
  let d := if t < 33 then modTile f c t (fun x => { x with inq := [], taken := 0, next := none, home := w + 1 }) d else d
  let d := if t < 33 then modCourse f c (fun k => { k with cov := mput k.cov w (mgetD k.cov w [] ++ x.inq),
                                                           covTaken := mput k.covTaken w x.taken }) d else d
  setTmap f c w 0x3F d

/-- Groups of a pluck whose terms have not been accepted by the Tailpiece. -/
def groupsHeld (x : Tile) (p : Pluck) : List Nat := (usedGroups x).filter fun g => !p.left.contains g

/-- Plucks are voided (06 R234): nothing is taken from their cells any more, terms formed and not accepted go, and the
groups not accepted wait for the fetched recompute. Their samples are still converted in their windows, and what those give is
tracked and counted (02 R84, R88-R90). Answers how many. -/
def voidPlucks (f c : Nat) (which : Pluck → Bool) (d : Dev) : Nat × Dev :=
  let hit := (courseAt f c d).plucks.filter fun p => which p && !p.voided && !(groupsHeld (tileAt f c p.tile d) p).isEmpty
  let ids := hit.map fun p => p.id
  let d := modCourse f c (fun k => { k with capoOut := k.capoOut.filter fun m => m.group = 0xFF || !ids.contains m.pid }) d
  (ids.length, forEach hit (fun p d => modPluck f c p.id (fun p =>
    { p with voided := true, colrec := [], grprec := [], open_ := [], passed := [],
             sent := p.left, wait := groupsHeld (tileAt f c p.tile d) p }) d) d)

/-- A tile is retired (06 R248): the map and the log keep it, its planes become EMPTY, its plucks under way are
recomputed from HBM, and its working tile is covered until a spare, if there is one, takes over (R249-R251). No plane of it is
repaired any more. -/
def retireTile (f c t : Nat) (d : Dev) : Dev :=
  let w? := wtileOf f c t d
  let h? := match servedW f c t d with
    | some w => some w
    | none => if (tileAt f c t d).home = 0 then none else some ((tileAt f c t d).home - 1)
  let d := (voidPlucks f c (fun p => p.tile == t) d).2
  let d := match w? with
    | some w => if (courseTiles f c d).contains w then coverTile f c w d else d
    | none => d
  let d := modTile f c t (fun x => { x with tstate := 2, suspect := false, inTest := false, obsLeft := 0, pa := emptyPlane,
                                            pb := emptyPlane, inq := [] }) d
  let d := forEach (List.range 4) (fun s d => modSlot f c s (fun y => { y with repair := y.repair.filter fun r => r / 2 != t }) d) d
  let d := modCourse f c (fun k => { k with tests := k.tests.filter fun y => y.tile != t || y.keeper != 0 }) d
  let d := bump (CS_RETIRE f c) d
  let d := putRetMap (if (retMap d).contains (retKey f c t) then retMap d else retKey f c t :: retMap d) d
  let d := wtileRecord 0x0065 f c t h? true d
  let d := modCourse f c (fun k => { k with assigned := k.assigned.filter fun e => e.2 != t }) d
  match h? with
  | none => d
  | some w =>
    if (mget? (courseAt f c d).assigned w).isSome || !(courseTiles f c d).contains w || physOf f c w d < 33 then d
    else match freeSpare f c d with
      | some sp => assignTile f c w sp d
      | none => wtileRecord 0x0066 f c t (some w) false d

/-- A tile is marked suspect (R233, R246, R249): an active tile becomes observed and the flow of a self-test starts; one
in observation that was classified before is retired; one whose test is awaited starts no further flow. -/
def markSuspect (f c t : Nat) (d : Dev) : Dev :=
  let x := tileAt f c t d
  let d := countErr f c t d
  if x.suspect then d
  else if x.tstate = 1 then retireTile f c t d
  else if x.tstate = 0 then
    let d := modTile f c t (fun x => { x with tstate := 1, suspect := true }) d
    let req : TestReq := { tile := t, keeper := 0, periodic := false, running := false }
    let d := modCourse f c (fun k => { k with tests := k.tests ++ [req] }) d
    match wtileOf f c t d, freeSpare f c d with
    | some w, some sp => assignTile f c w sp d
    | _, _ => d
  else d

end Sys2Proof.Machine
end

