-- ==== Sys2Proof/Machine/Plucks.lean ====
section
/-! DEFINITION. Passes and plucks (02 R72-R96; 04 R166-R173, R177, R178; 05 R214-R217; 06 R249, R250; 07 R280). -/

namespace Sys2Proof.Machine

/-- The Fret die works: the part is out of reset and not in Hush or Vigil, and the die is not in a reset of its own. -/
def dieAlive (f : Nat) (d : Dev) : Bool :=
  d.rst.phase == .idle && decide (d.pwr.state < 2) && d.pwr.supply
    && !d.rst.subs.any fun x => x.scope == .die && x.die == f

/-- Timing margin of a band (07 R269). -/
def bandMargin (b : Nat) : Nat := if b = 3 then 2 else if b = 2 then 1 else 0

/-! ### Output buffers (05 R211-R218) -/

/-- Does the stage slot root an output slice here? -/
def isRoot (f c s : Nat) (d : Dev) : Bool := bit (tpCfg f c s d) 10
def slotsPerBuf (f c s : Nat) (d : Dev) : Nat := bits (tpCfg f c s d) 12 5
def single (f c s : Nat) (d : Dev) : Bool := bit (tpCfg f c s d) 11

def bufOf (x : Slot) (b : Bool) : Buf := if b then x.bufB else x.bufA
def setBuf (b : Bool) (u : Buf) (x : Slot) : Slot := if b then { x with bufB := u } else { x with bufA := u }
def modBuf (f c s : Nat) (b : Bool) (g : Buf → Buf) (d : Dev) : Dev :=
  modSlot f c s (fun x => setBuf b (g (bufOf x b)) x) d

/-- The buffer the next slot is taken in (R214, R217, R218): the one in FILL, else the one that became FREE first. -/
def fillBuf (f c s : Nat) (d : Dev) : Option Bool :=
  let x := slotAt f c s d
  if x.bufA.st = 1 then some false
  else if x.bufB.st = 1 then some true
  else if single f c s d then (if x.bufA.st = 0 then some false else none)
  else if x.bufA.st = 0 && (x.bufB.st != 0 || x.bufA.order ≤ x.bufB.order) then some false
  else if x.bufB.st = 0 then some true
  else none

/-- The vectors of the passes of a slot in pass order: the pass in progress first, then those formed and not begun. -/
def passOrder (x : Slot) : List (PassD × VecId) :=
  ((match x.cur with | some q => [q] | none => []) ++ x.descs).flatMap fun q => q.vecs.map fun v => (q, v)

/-- The place of a vector of a pass in that order. -/
def passIndex (x : Slot) (q : PassD) (v : VecId) : Nat :=
  (passOrder x).findIdx fun e => e.1.batch == q.batch && e.1.layer == q.layer && e.2 == v

/-- The next vector in pass order takes its slot (R214, R215), or is passed over when its stream has ended; the last slot of the
buffer or of the pass is a drain request. With no buffer in FILL or FREE nothing changes (R217). -/
def assignNext (f c s : Nat) (d : Dev) : Dev :=
  let x := slotAt f c s d
  match (passOrder x).drop x.assigned with
  | [] => d
  | (q, v) :: _ =>
    let up := modSlot f c s (fun x => { x with assigned := x.assigned + 1 })
    if !vecLive v d then up d
    else match fillBuf f c s d with
      | none => d
      | some b =>
        let u : VSlot := { vec := v, layer := q.layer, batch := q.batch, leaves := [], results := [], ops := [], flags := 0 }
        let lastOf := ((q.vecs.filter fun w => vecLive w d).getLast?) == some v
        let d := up (modBuf f c s b (fun y => { y with st := 1, slots := y.slots ++ [u] }) d)
        let full := (bufOf (slotAt f c s d) b).slots.length = slotsPerBuf f c s d
        if full || lastOf then modBuf f c s b (fun y => { y with st := 2 }) d else d

/-- A vector is assigned its slot, and every vector before it in pass order that has none (R214). -/
def assignVec (f c s : Nat) (q : PassD) (v : VecId) (d : Dev) : Dev :=
  let x := slotAt f c s d
  if !isRoot f c s d then d
  else forEach (List.range (passIndex x q v + 1 - x.assigned)) (fun _ d => assignNext f c s d) d

/-- A vector that needs a slot finds no buffer in FILL or FREE (R217). -/
def bufHeld (f c s : Nat) (q : PassD) (v : VecId) (d : Dev) : Bool :=
  isRoot f c s d && decide ((slotAt f c s d).assigned ≤ passIndex (slotAt f c s d) q v) && (fillBuf f c s d).isNone

/-- The first vector of a group finds no buffer (R217). -/
def groupHeld (f c s : Nat) (q : PassD) (vs : List VecId) (d : Dev) : Bool :=
  match vs.head? with
  | some v => bufHeld f c s q v d
  | none => false

/-- The tiles of a course begin with a vector (R197). -/
def handOver (f c s layer : Nat) (v : VecId) (d : Dev) : Dev :=
  modCourse f c (fun k =>
    if k.handed.any fun h => h.slot == s && h.vec == v && h.layer == layer then k
    else { k with handed := k.handed ++ [{ slot := s, vec := v, layer := layer, sent := [], done := false }] }) d

/-- A group of vectors is handed over: slots one after another, while there are any (R214, 04 R181). -/
def assignGroup (f c s : Nat) (q : PassD) (vs : List VecId) (d : Dev) : Dev :=
  forEach vs (fun v d => assignVec f c s q v (handOver f c s q.layer v d)) d

/-! ### A pass begins (02 R94-R96, 06 R249) -/

/-- A self-test of the course may have its turn (06 R253): none runs in the course, fewer than four on the die. -/
def turnFree (f c : Nat) (d : Dev) : Bool :=
  !((courseAt f c d).tests.any fun q => q.running)
    && decide (((List.range 16).filter fun k => (courseAt f k d).tests.any fun q => q.running).length < 4)

/-- A plane of a tile that leaves service: EMPTY, once nothing refers to it any more (R97). -/
def leftPlane (refs : Bool) (p : Plane) : Plane := if refs then { p with st := 4, load := none, held := [] } else emptyPlane

/-- A tile leaves service: both planes EMPTY (R249 step 3), those that its last plucks refer to after their DRAIN (R97). -/
def leaveService (f c t : Nat) (d : Dev) : Dev :=
  modTile f c t (fun x => { x with pa := leftPlane (planeRefs f c t false d) x.pa, pb := leftPlane (planeRefs f c t true d) x.pb,
                                   inq := [], taken := 0, next := none,
                                   home := match wtileOf f c t d with | some w => w + 1 | none => x.home }) d

/-- The plane of a tile that is READY for a layer, or ACTIVE with it. -/
def readyPlane (x : Tile) (layer : Nat) : Option Bool :=
  if 2 ≤ x.pa.st && x.pa.st ≤ 3 && x.pa.tag = layer then some false
  else if 2 ≤ x.pb.st && x.pb.st ≤ 3 && x.pb.tag = layer then some true else none

/-- The server that a returning tile replaces becomes a spare (R246); one that leaves for a test keeps its state and comes back. -/
def freeServer (f c p : Nat) (d : Dev) : Dev :=
  if (tileAt f c p d).tstate = 0 && !wantsTest f c p d then modTile f c p (fun x => { x with tstate := 3, home := 0 }) d else d

/-- Switch or cover one working tile at a pass boundary (R249 steps 3, 4 and 6). A tile under test does not take over. -/
def switchTile (f c w layer : Nat) (d : Dev) : Dev :=
  let k := courseAt f c d
  let p := physOf f c w d
  match mget? k.assigned w with
  | some t =>
    if (readyPlane (tileAt f c t d) layer).isNone || (tileAt f c t d).inTest || (p < 33 && wantsTest f c p d && !turnFree f c d) then d
    else
      let q := if p < 33 then (tileAt f c p d).inq else mgetD k.cov w []
      let d := if p < 33 then freeServer f c p (leaveService f c p d) else d
      let d := modTile f c t (fun x => { x with inq := q, taken := 0, home := 0 }) d
      setTmap f c w t (modCourse f c (fun k => { k with assigned := mdel k.assigned w, cov := mdel k.cov w,
                                                        covTaken := mdel k.covTaken w }) d)
  | none =>
    if p < 33 && wantsTest f c p d && turnFree f c d then leaveService f c p (coverTile f c w d) else d

/-- What R94 finds at a tile: the pass can start, must wait, or meets another layer. The rule's last row and R95 leave open what a
tile does whose planes hold and await other layers while none of them is READY: it waits (DESIGN CHOICE, notes/assumptions/135.md). -/
inductive PlaneFind where
  | ok | wait | mismatch
  deriving DecidableEq, Repr

def planeFind (x : Tile) (layer : Nat) : PlaneFind :=
  if (readyPlane x layer).isSome then .ok
  else if planeLayer x.pa == some layer || planeLayer x.pb == some layer then .wait
  else if x.pa.st = 2 || x.pb.st = 2 then .mismatch
  else .wait

/-- Swap a tile to the plane of a layer (R93). -/
def swapTile (f c t layer : Nat) (d : Dev) : Dev :=
  match readyPlane (tileAt f c t d) layer with
  | none => d
  | some b =>
    modTile f c t (fun x =>
      let x := { x with taken := 0, act := b }
      if (planeOf x b).st = 3 then x
      else
        let o := planeOf x (!b)
        let x := setPlane (!b) (if o.st = 3 then { o with st := 4 } else o) x
        setPlane b { planeOf x b with st := 3 } x) d

/-- The physical tiles that serve a slot's working tiles now. -/
def servers (f c s : Nat) (d : Dev) : List Nat :=
  ((stageTiles (courseImg f c d) f c (stgStage f c s d)).map fun w => physOf f c w d).filter (· < 33)

/-- PASS_START: the next pass of a stage slot begins once every tile meets R94 and the pages of its streams' steps are published (09 R365). `stall` counts the SEQ cycles in which
its first pluck waited for a plane (R96). -/
def passStart (f c s stall : Nat) (d : Dev) : Dev :=
  let x := slotAt f c s d
  match x.cur, x.descs with
  | none, q :: rest =>
    if !dieAlive f d || !stgValid f c s d || q.vecs.any (fun v => vecLive v d && mapsDue v.stream d) then d
    else
      let ws := stageTiles (courseImg f c d) f c (stgStage f c s d)
      let d := forEach ws (fun w d => switchTile f c w q.layer d) d
      let finds := (servers f c s d).map fun t => planeFind (tileAt f c t d) q.layer
      if finds.contains .mismatch then slotFault fcLAYER_MISMATCH f c s none d
      else if finds.contains .wait then d
      else
        let d := forEach (servers f c s d) (fun t d => swapTile f c t q.layer d) d
        let d := addCtr (CS_LOADSTALL f c) stall d
        let dly := min 7 (bits (stgCfg f c s d) 7 3 + bandMargin (dieAt f d).band)
        let d := regSetField (CS_STGCFG0 f c + 4 * s) 10 3 dly d
        let d := modCourse f c (fun k => { k with covTaken := k.covTaken.filter fun e => !ws.contains e.1 }) d
        let d := modSlot f c s (fun x => { x with cur := some q, descs := rest, taken := 0, passStart := d.time, wins := 0, ovf := 0,
                                                  excess := 0, peak := 0 }) d
        modSched q.part (fun k => { k with batches := k.batches.map fun b =>
          if b.id = q.batch then { b with begun := true } else b }) d
  | _, _ => d

/-! ### Slices (R72) -/

/-- SLICE_ARRIVAL: an activation slice and its outlier entries reach a working tile. -/
def sliceArrival (f c w stream scale : Nat) (payload : List Byte) (outl : List Byte) (d : Dev) : Dev :=
  if !dieAlive f d || (tileRec (courseImg f c d) f c w).isNone then d
  else
    let d := ringTake f c outl (ringTake f c payload d)
    let sl : Slice := { stream := stream, codes := sliceCodes payload, scale := scale, outs := outEntries outl }
    let t := physOf f c w d
    if t < 33 then modTile f c t (fun x => { x with inq := x.inq ++ [sl] }) d
    else modCourse f c (fun k => { k with cov := mput k.cov w (mgetD k.cov w [] ++ [sl]) }) d

/-- The first queued slice of a stream, and the queue without it. -/
def takeSlice (stream : Nat) : List Slice → Option (Slice × List Slice)
  | [] => none
  | s :: r => if s.stream = stream then some (s, r) else (takeSlice stream r).map fun e => (e.1, s :: e.2)

/-- The next vector of a pass: index and identity; vectors of ended streams are passed over. -/
def nextVec (q : PassD) (taken : Nat) (d : Dev) : Option (Nat × VecId) :=
  (((q.vecs.zipIdx).drop taken).find? fun e => vecLive e.1 d).map fun e => (e.2, e.1)

/-! ### Conversion (R78, R83-R90, 04 R160, 06 R240) -/

def emptyStat : ColStat := { min := 255, max := -256, mean := ⟨0, 0⟩, sqr := ⟨0, 0⟩ }

/-- R88 and R294: trackers and the code distribution of one usable conversion. -/
def trackCol (freeze : Bool) (q : Int) (s : ColStat) : ColStat :=
  let avg := fun (m v : Dy) => dyAdd m (dyScale (dySub v m) (-16))
  { min := if freeze then s.min else min s.min q, max := if freeze then s.max else max s.max q,
    mean := avg s.mean (dyInt q), sqr := avg s.sqr (dyInt (q * q)) }

/-- Columns converted in a pluck: the enabled columns, and harmonic columns of live groups (R84). -/
def convCols (x : Tile) : List Nat :=
  ((List.range 512).filter fun c => scanCol x c) ++ (liveGroups (scanMask x)).map fun g => 512 + g

def slotPeriod (f c s : Nat) (d : Dev) : Nat := pluckPeriod (stgDly f c s d)
def liveSlots (f c : Nat) (d : Dev) : List Nat := (List.range 4).filter fun s => stgValid f c s d

/-- The pluck period of a course (04 R147). Where its stages have different periods by R74 it is the longest (DESIGN CHOICE,
notes/assumptions/136.md). -/
def coursePeriod (f c : Nat) (d : Dev) : Nat := ((liveSlots f c d).map fun s => slotPeriod f c s d).foldl max 16

/-- The slot of a column on its converter (R83, R84), how many columns that converter has, and the grant of a re-convert
asked for right after the column's own slot (R87, 04 R160), in the window of a period of `period` SEQ cycles. -/
def reconvGranted (x : Tile) (col period : Nat) : Bool :=
  let mine := (List.range 8).map (fun g => 64 * g + col % 64) |>.filter fun c => scanCol x c
  mine.getLast? == some col && decide (mine.length + 1 < period / 2)

/-- Clipped columns of a pluck count for its vector (R105). -/
def addClips (f c : Nat) (p : Pluck) (n : Nat) (d : Dev) : Dev :=
  let up := fun (q : Pluck) => if sameVec p q then { q with note := { q.note with clips := min 255 (q.note.clips + n) } } else q
  modTile f c p.tile (fun x => { x with next := x.next.map up }) (modCourse f c (fun k => { k with plucks := k.plucks.map up }) d)

/-- CS_TLASTV of a vector (R105). -/
def noteWord (v : VecNote) : Word :=
  BitVec.ofNat 32 (v.n * 2 ^ 20 + b2n v.folded * 2 ^ 19 + v.step1 * 2 ^ 17 + v.step2 * 2 ^ 15 + v.clips)

/-- The window of a vector's last pluck ends with the last re-convert awaited: CS_TLASTV shows the vector (R105). -/
def windowEnds (f c id : Nat) (d : Dev) : Dev :=
  match pluckAt f c id d with
  | none => d
  | some p =>
    if p.lastOf && p.converted && p.recon.isEmpty then modTile f c p.tile (fun x => { x with lastv := noteWord p.note }) d else d

/-- Convert one pluck from the samples of its hold bank, in the window of the pluck period that follows it. The Capo asks for no
re-convert of a pluck that is voided (06 R234). -/
def convertPluck (f c : Nat) (evs : List ConvEv) (p : Pluck) (d : Dev) : Dev :=
  let x := tileAt f c p.tile d
  let freeze := bit (regGet (FT_PLUCKCFG f) d).toNat 0
  let ev := fun (col : Nat) => evs.find? fun e => e.tile == p.tile && e.col == col
  let res := (convCols x).map fun col =>
    let e := ev col
    (col, codeOf p.step col (mgetD p.bank col 0) ((e.map (·.dev)).getD 0), (e.map (·.unsettled)).getD false,
      (e.map (·.badParity)).getD false)
  let good := res.filter fun r => !r.2.2.1 && !r.2.2.2
  let bad := res.filter fun r => r.2.2.1 || r.2.2.2
  let clips := (good.filter fun r => decide (r.1 < 512) && clippedCode r.2.1).length
  let hclips := (good.filter fun r => decide (512 ≤ r.1) && clippedCode r.2.1).length
  let asked := if p.voided then [] else (bad.filter fun r => decide (r.1 < 512)).map (·.1)
  let granted := asked.filter fun col => reconvGranted x col (coursePeriod f c d)
  let dropped := asked.filter fun col => !reconvGranted x col (coursePeriod f c d)
  let cols := good.foldl (fun m r => mput m r.1 (trackCol freeze r.2.1 (mgetD m r.1 emptyStat))) x.cols
  let d := addCtr (CS_CLIPCNT f c) clips (addCtr (CS_TCLIP f c p.tile) clips (addCtr (CS_HCLIPCNT f c) hclips d))
  let d := addCtr (CS_UNSETTLED f c) (bad.filter fun r => r.2.2.1).length d
  let d := addCtr (CS_OUTPAR f c) (bad.filter fun r => r.2.2.2).length d
  let d := addCtr (CS_RECONVDROP f c) dropped.length d
  let d := forEach dropped (fun _ => choice (coursePart f c d) true) d
  let d := modTile f c p.tile (fun x => { x with cols := cols }) d
  let d := modSlot f c p.slot (fun y => { y with fmarks := y.fmarks + clips }) d
  let d := modPluck f c p.id (fun p => { p with
    converted := true, codes := good.foldl (fun m r => mput m r.1 r.2.1) p.codes, bad := bad.map (·.1),
    recon := granted, colrec := p.colrec ++ dropped }) d
  let d := windowEnds f c p.id (addClips f c p clips (addBacklog f c (dropped.length * colReads p.x) d))
  if p.voided then retirePluck f c p.id d else d

def convertAll (f c : Nat) (evs : List ConvEv) (d : Dev) : Dev :=
  forEach ((courseAt f c d).plucks.filter fun p => !p.converted) (fun p => convertPluck f c evs p) d

/-! ### Cell upsets -/

def upsetSeg (u : Upset) (s : Seg) : Seg :=
  if u.slot < 64 then
    { s with slots := s.slots.zipIdx.map fun e => if e.2 = u.slot then e.1 ^^^ BitVec.ofNat 8 (2 ^ (u.bit % 5)) else e.1 }
  else { s with harm := s.harm ^^^ BitVec.ofNat 11 (2 ^ (u.bit % 11)) }

def applyUpset (f c : Nat) (u : Upset) (d : Dev) : Dev :=
  modPlane f c u.tile u.planeB (fun p => { p with segs := mmod p.segs u.seg (upsetSeg u) }) d

/-! ### A pluck period -/

/-- Something a tile is to do in this period: fold 2 of a vector, or a vector taken. -/
structure Take where
  tile : Nat
  wtile : Nat
  slot : Nat
  pass : PassD
  idx : Nat
  vec : VecId
  slice : Slice
  fold2 : Option Pluck
  deriving DecidableEq, Repr

/-- The active rows of fold 1 or of the only pluck (R79). -/
def foldOne (x : List Int) (limit : Nat) : Bool × List Int × List Int :=
  let n := (x.filter (· != 0)).length
  if n ≤ limit then (false, x, x.map fun _ => 0)
  else
    let n1 := (n + 1) / 2
    let ranks := x.foldl (fun (a : List (Int × Nat) × Nat) v => if v = 0 then ((v, 0) :: a.1, a.2) else ((v, a.2 + 1) :: a.1, a.2 + 1)) ([], 0)
    let l := ranks.1.reverse
    (true, l.map (fun e => if e.1 != 0 && e.2 ≤ n1 then e.1 else 0), l.map fun e => if e.1 != 0 && n1 < e.2 then e.1 else 0)

def foldLimit (f c s : Nat) (d : Dev) : Nat := 64 * (stgFold f c s d + 1)

def sliceX (fp4 : Bool) (s : Slice) : List Int := s.codes.map (codeVal fp4)

/-- The outlier items of one tile in a window (04 R167, R168): per AOUT outlier the take it belongs to and the number of groups with a
used column, then the WOUT records of the rows that the period drives. -/
structure Demand where
  slot : Nat
  tile : Nat
  aout : List (Nat × OutEnt × Nat)
  wout : List WRec
  deriving DecidableEq, Repr

/-- Insert by row, ascending (R169). -/
def outInsert (o : Nat × OutEnt) : List (Nat × OutEnt) → List (Nat × OutEnt)
  | [] => [o]
  | p :: r => if o.2.index ≤ p.2.index then o :: p :: r else p :: outInsert o r

def takeFp4 (f c : Nat) (k : Take) (d : Dev) : Bool := bit (qCfg f c k.slot d) 0
def countNonzero (x : List Int) : Nat := (x.filter (· != 0)).length

/-- A take whose slice drives no row (R82). -/
def zeroTake (f c : Nat) (d : Dev) (k : Take) : Bool := k.fold2.isNone && countNonzero (sliceX (takeFp4 f c k d) k.slice) = 0

/-- The WOUT records of a take: those of the rows it drives; the second fold leaves out the rows of outliers written back (R172). -/
def takeRecs (f c : Nat) (k : Take) (d : Dev) : List WRec :=
  let x := tileAt f c k.tile d
  match k.fold2 with
  | some p => (planeOf x p.planeB).recs.filter fun r => p.x.getD r.row 0 != 0 && !p.back.contains r.row
  | none =>
    let fx := foldOne (sliceX (takeFp4 f c k d) k.slice) (foldLimit f c k.slot d)
    (planeOf x x.act).recs.filter fun r => fx.2.1.getD r.row 0 != 0

/-- The items of a tile's takes: vectors that drive no row, and the one whose pluck starts in the window. -/
def demandOf (f c : Nat) (ks : List Take) (d : Dev) : Demand :=
  let tile := (ks.head?.map (·.tile)).getD 0
  let ng := (usedGroups (tileAt f c tile d)).length
  let outs := ks.zipIdx.flatMap fun e => if e.1.fold2.isSome then [] else e.1.slice.outs.map fun o => (e.2, o)
  { slot := (ks.head?.map (·.slot)).getD 0, tile := tile, aout := (outs.foldr outInsert []).map fun o => (o.1, o.2, ng),
    wout := ks.flatMap fun k => takeRecs f c k d }

def demandCount (m : Demand) : Nat := (m.aout.map (·.2.2)).foldl (· + ·) 0 + m.wout.length

/-- R170: the stage slot that owns item 2,049 of the window. -/
def overflowSlot : Nat → List Demand → Option Nat
  | _, [] => none
  | n, m :: r => if 2048 < n + demandCount m then some m.slot else overflowSlot (n + demandCount m) r

/-- What a tile may use in the window: outliers, written-back outliers, each with its take; records, and how many did not fit. -/
structure Grant where
  outs : List (Nat × OutEnt)
  back : List (Nat × OutEnt)
  recs : List WRec
  cut : Nat
  deriving DecidableEq, Repr

def grantAll (m : Demand) : Grant := { outs := m.aout.map fun o => (o.1, o.2.1), back := [], recs := m.wout, cut := 0 }

/-- Admission under Clip (R172): what fits in the room, in order; and the room left. -/
def admitOne (room : Nat) (m : Demand) : Nat × Grant :=
  let a := m.aout.foldl (fun (s : Nat × List (Nat × OutEnt) × List (Nat × OutEnt)) o =>
    if o.2.2 ≤ s.1 then (s.1 - o.2.2, s.2.1 ++ [(o.1, o.2.1)], s.2.2) else (s.1, s.2.1, s.2.2 ++ [(o.1, o.2.1)])) (room, [], [])
  let w := m.wout.take a.1
  (a.1 - w.length, { outs := a.2.1, back := a.2.2, recs := w, cut := m.wout.length - w.length })

def admitAll : Nat → List Demand → List Grant
  | _, [] => []
  | room, m :: r => let a := admitOne room m; a.2 :: admitAll a.1 r

/-- The window's overflow decision (R170-R172), once for all takes of a pluck period, and what each tile is granted. A window counts for
every stage with a take in it, and an overflow for the stage that owns item 2,049 (R174 names neither: DESIGN CHOICE,
notes/assumptions/137.md). -/
def windowDecide (f c : Nat) (ms : List Demand) (d : Dev) : List Grant × Dev :=
  let total := (ms.map demandCount).foldl (· + ·) 0
  let slots := (List.range 4).filter fun s => ms.any fun m => m.slot == s
  let d := forEach slots (fun s => modSlot f c s fun y => { y with wins := y.wins + 1 }) d
  match overflowSlot 0 ms with
  | none => (ms.map grantAll, addBacklog f c total d)
  | some s =>
    let x := total - 2048
    let d := bump (CS_QOVF f c) d
    let d := modSlot f c s (fun y => { y with ovf := y.ovf + 1, excess := y.excess + x, peak := max y.peak total }) d
    if capoClip f c s d then (admitAll 2048 ms, addBacklog f c 2048 d)
    else
      let n := (x + 2047) / 2048
      let d := modSlot f c s (fun y => { y with encore := y.encore + n }) (addBacklog f c total d)
      (ms.map grantAll, choice (coursePart f c d) false (addCtr (CS_ENCOREPER f c) n (bump (CS_ENCORE f c) d)))

/-- The Galois LFSR of 07 R280, polynomial x^32 + x^22 + x^2 + x + 1, shifting right. -/
def lfsrNext (w : Word) : Word := if w &&& 1#32 = 1#32 then (w >>> 1) ^^^ 0x80200003#32 else w >>> 1

/-- Start one pluck of a tile: its hold bank takes the samples (R75, R76). Only plucks of stages are made by commands, so those of
self-tests and calibrations are in no count (DESIGN CHOICE, notes/assumptions/138.md). -/
def startPluck (f c : Nat) (p : Pluck) (d : Dev) : Dev :=
  let x := tileAt f c p.tile d
  let pl := planeOf x p.planeB
  let w := lfsrNext x.lfsr
  let sel := w.toNat % 2 ^ (bits (drnCfg f c p.slot d) 0 4) = 0
  let full := decide (4 ≤ (courseAt f c d).samples.length)
  let id := (courseAt f c d).orders
  let band := (dieAt f d).band
  let p := { p with
    id := id, sampled := sel && !full, bank := (convCols x).foldl (fun m col => mput m col (exactSum pl p.x col)) [],
    trims := (convCols x).foldl (fun m col => mput m col (trimEntry f x band col d)) [], qf := x.qf, qh := x.qh,
    wait := liveGroups (scanMask x) ++ (usedGroups x).filter fun g => !(liveGroups (scanMask x)).contains g }
  let smp : Sample := { pluck := p, band := band }
  let d := modTile f c p.tile (fun x => { x with lfsr := w, lastStep := p.step, bqf := x.qf, bqh := x.qh }) d
  let d := modCourse f c (fun k => { k with orders := k.orders + 1, plucks := k.plucks ++ [p],
                                            samples := if p.sampled then k.samples ++ [smp] else k.samples }) d
  let d := if sel && full then choice (coursePart f c d) false (bump (CS_SAMPDROP f c) d) else d
  let d := modSlot f c p.slot (fun y => { y with fplucks := y.fplucks + 1 }) d
  bump (CS_STEPCNT0 f c + 4 * p.step) (add64 (CS_PLUCKLO f c) (CS_PLUCKHI f c) 1 d)

/-- The input values of a slice after its outliers that found no room are written back (04 R172). -/
def writtenBack (fp4 : Bool) (back : List OutEnt) (x : List Int) : List Int :=
  let top : Int := if fp4 then 12 else 7
  x.zipIdx.map fun e => match back.find? fun o => o.index == e.2 with
    | some o => if bit o.oval 7 then -top else top
    | none => e.1

/-- Rows that were zero when the window was counted and hold an outlier written back (04 R172). -/
def backRows (back : List OutEnt) (x : List Int) : List Nat := (back.map (·.index)).filter fun r => x.getD r 0 == 0

/-- Carry out the `i`th take of a tile with what the window granted the tile. Where write-backs move rows between the folds (R172), a
record of a row that the window did not count for fold 1 makes its term there without an item (DESIGN CHOICE, notes/assumptions/137.md). -/
def doTake (f c : Nat) (k : Take) (i : Nat) (g : Grant) (d : Dev) : Dev :=
  let x := tileAt f c k.tile d
  match k.fold2 with
  | some p => startPluck f c { p with recs := g.recs } (addCtr (CS_WOUTCNT f c) g.recs.length (addCtr (CS_CLIPOUTW f c) g.cut d))
  | none =>
    let pl := planeOf x x.act
    let outs := (g.outs.filter fun o => o.1 = i).map (·.2)
    let back := (g.back.filter fun o => o.1 = i).map (·.2)
    let x0 := sliceX (takeFp4 f c k d) k.slice
    let x1 := writtenBack (takeFp4 f c k d) back x0
    let rows := backRows back x0
    let cutw := (pl.recs.filter fun r => rows.contains r.row).length
    let was := foldOne x0 (foldLimit f c k.slot d)
    let fx := foldOne x1 (foldLimit f c k.slot d)
    let recs := pl.recs.filter fun r => fx.2.1.getD r.row 0 != 0 && !rows.contains r.row
      && (was.2.1.getD r.row 0 == 0 || g.recs.contains r)
    let n := countNonzero x1
    let n1 := countNonzero fx.2.1
    let n2 := countNonzero fx.2.2
    let cut := if countNonzero x0 = 0 then 0 else g.cut
    let d := addCtr (CS_CLIPOUTA f c) back.length (addCtr (CS_CLIPOUTW f c) (cut + cutw) d)
    let d := addCtr (CS_AOUTCNT f c) outs.length (addCtr (CS_WOUTCNT f c) recs.length d)
    let note : VecNote := { n := n, folded := fx.1, step1 := if n = 0 then 0 else stepOf n1, step2 := if fx.1 then stepOf n2 else 0, clips := 0 }
    let base : Pluck :=
      { blankPluck with
        src := pl.src, tile := k.tile, wtile := k.wtile, planeB := x.act, slot := k.slot, layer := k.pass.layer, vec := k.vec,
        fold := if fx.1 then 1 else 0, lastOf := !fx.1, x := fx.2.1, scale := k.slice.scale, outs := outs, recs := recs, back := rows,
        step := stepOf n1, note := note }
    if n = 0 then
      let terms := corrections (planeCells pl) x1 k.slice.scale outs [] true ((List.range 512).filter fun q => usedCol x q)
      let m : TermMsg := { pid := 0, group := 0xFF, slot := k.slot, wtile := k.wtile, tile := k.tile, vec := k.vec, layer := k.pass.layer,
                           terms := terms, last := true, tries := 0 }
      let d := modTile f c k.tile (fun x => { x with lastv := 0#32 }) d
      bump (CS_ZEROCNT f c) (modCourse f c (fun y => { y with capoOut := y.capoOut ++ [m] }) d)
    else
      let d := if fx.1 then bump (CS_FOLDCNT f c) d else d
      let second : Pluck := { base with fold := 2, lastOf := true, x := fx.2.2, outs := [], step := stepOf n2 }
      let d := if fx.1 then modTile f c k.tile (fun x => { x with next := some second }) d else d
      startPluck f c base d

/-- What a tile would take now. -/
def takeOf (f c s t : Nat) (d : Dev) : Option Take :=
  let x := tileAt f c t d
  match (slotAt f c s d).cur, wtileOf f c t d with
  | some q, some w =>
    match x.next with
    | some p => some { tile := t, wtile := w, slot := s, pass := q, idx := 0, vec := p.vec,
                       slice := { stream := p.vec.stream, codes := [], scale := p.scale, outs := [] }, fold2 := some p }
    | none =>
      match nextVec q x.taken d with
      | none => none
      | some (i, v) => (takeSlice v.stream x.inq).bind fun e =>
          if bufHeld f c s q v d then none
          else some { tile := t, wtile := w, slot := s, pass := q, idx := i, vec := v, slice := e.1, fold2 := none }
  | _, _ => none

/-- Stage slots that are held in this period, with what they count: an encore, a repair, no buffer. -/
def slotHeld (f c s : Nat) (d : Dev) : Bool := decide (0 < (slotAt f c s d).encore) || !(slotAt f c s d).repair.isEmpty

/-- A next vector whose slice waits in a queue needs a buffer slot and finds none. -/
def vecNoBuf (f c s : Nat) (q : PassD) (taken : Nat) (inq : List Slice) (d : Dev) : Bool :=
  match nextVec q taken d with
  | some (_, v) => (takeSlice v.stream inq).isSome && bufHeld f c s q v d
  | none => false

/-- A vector of a slot needs a buffer slot and finds none, at a physical tile or a covered working tile (R217). -/
def slotNoBuf (f c s : Nat) (d : Dev) : Bool :=
  match (slotAt f c s d).cur with
  | none => false
  | some q =>
    (servers f c s d).any (fun t => (tileAt f c t d).next.isNone && vecNoBuf f c s q (tileAt f c t d).taken (tileAt f c t d).inq d)
      || ((stageTiles (courseImg f c d) f c (stgStage f c s d)).filter fun w => physOf f c w d == 0x3F).any fun w =>
          vecNoBuf f c s q (mgetD (courseAt f c d).covTaken w 0) (mgetD (courseAt f c d).cov w []) d

/-- The recompute queue is full (04 R166). -/
def queueFull (f c : Nat) (d : Dev) : Bool := decide (512 ≤ rcqLength (courseAt f c d))

/-- Register sets of vectors whose streams have ended are freed: nothing more of them is summed (05 R195, 10 R394). -/
def purgeSets (f c : Nat) (d : Dev) : Dev :=
  modCourse f c (fun k => { k with
    kbs := k.kbs.filter (fun x => vecLive x.vec d), handed := k.handed.filter (fun x => vecLive x.vec d),
    leafq := k.leafq.filter (fun x => vecLive x.vec d) }) d

/-- The vectors that hold K-block sets. -/
def kbVecs (k : Course) : List (Nat × VecId × Nat) := (k.kbs.map fun x => (x.slot, x.vec, x.layer)).eraseDups

/-- The terms find a register set: their vector holds one, or fewer than four vectors do (05 R195). -/
def kbFits (k : Course) (m : TermMsg) : Bool :=
  decide ((kbVecs k).length < 4) || (kbVecs k).contains (m.slot, m.vec, m.layer)

/-- A first term of a fifth vector waits while four hold registers (05 R195). -/
def treeHeld (f c : Nat) (d : Dev) : Bool :=
  match (courseAt f c d).capoOut.head? with
  | some m => vecLive m.vec d && !kbFits (courseAt f c d) m
  | none => false

/-- Takes of one round, in the order of R169. -/
def takesNow (f c : Nat) (go : List Nat) (d : Dev) : List Take :=
  (liveSlots f c d).flatMap fun s =>
    if slotHeld f c s d || stgExact f c s d then []
    else (((List.range 33).filter fun t => go.contains t && (servers f c s d).contains t).filterMap fun t => takeOf f c s t d)

/-- A take is handed over: its slice leaves the queue, its vector has a buffer slot (R75, R214). -/
def reserve (f c : Nat) (k : Take) (d : Dev) : Dev :=
  match k.fold2 with
  | some _ => modTile f c k.tile (fun x => { x with next := none }) d
  | none =>
    modTile f c k.tile (fun x => { x with inq := ((takeSlice k.vec.stream x.inq).map (·.2)).getD x.inq, taken := k.idx + 1 })
      (assignVec f c k.slot k.pass k.vec (handOver f c k.slot k.pass.layer k.vec d))

/-- The takes of one pluck boundary: after an all-zero vector a tile's next may start at the same boundary (R82). -/
def collectTakes (f c : Nat) : Nat → List Nat → Dev → List Take × Dev
  | 0, _, d => ([], d)
  | n + 1, go, d =>
    if go.isEmpty then ([], d)
    else
      let ks := takesNow f c go d
      let e := forEach ks (fun k => reserve f c k) d
      let r := collectTakes f c n ((ks.filter (zeroTake f c e)).map (·.tile)) e
      (ks ++ r.1, r.2)

/-- The takes of each tile, in the order of R169. -/
def byTile (ks : List Take) : List (List Take) :=
  ((List.range 4).flatMap fun s => (List.range 33).map fun t => ks.filter fun k => k.slot == s && k.tile == t).filter fun l => !l.isEmpty

/-- A take goes back to its queue: an earlier vector of its tile, all-zero when counted, takes the pluck (04 R172). -/
def unTake (f c : Nat) (k : Take) (d : Dev) : Dev :=
  modTile f c k.tile (fun x => { x with inq := k.slice :: x.inq, taken := k.idx }) d

/-- Carry out the takes of a tile, from the `i`th on. A vector that only write-backs make non-zero takes the pluck, and those after it
wait for the next period (DESIGN CHOICE, notes/assumptions/137.md). -/
def runTakes (f c : Nat) (g : Grant) : Nat → List Take → Dev → Dev
  | _, [], d => d
  | i, k :: r, d =>
    let e := doTake f c k i g d
    if g.back.any (fun o => o.1 == i) && zeroTake f c d k then forEach r.reverse (fun k => unTake f c k) e else runTakes f c g (i + 1) r e

/-- All takes of a pluck boundary: one window decision, then each tile's (04 R167-R173). -/
def takeAll (f c : Nat) (go : List Nat) (d : Dev) : Dev :=
  let z := collectTakes f c 513 go d
  let ts := byTile z.1
  let dec := windowDecide f c (ts.map fun ks => demandOf f c ks z.2) z.2
  forEach (ts.zip dec.1) (fun e => runTakes f c e.2 0 e.1) dec.2

/-- Items that the Capo's 64 lanes process in one pluck window, two CORE cycles per SEQ cycle (04 R179). -/
def capoWindow (f c : Nat) (d : Dev) : Nat := 128 * coursePeriod f c d

/-- PLUCK: one pluck period of a course. Cells upset since the last, the conversions of the plucks before, the holds, and
the plucks of the tiles in `go` whose next vector is counted. `backlog` is the lane work pending, in items; more than 4 windows
of it hold the course (04 R179). -/
def pluckPeriodOf (f c : Nat) (go : List Nat) (convs : List ConvEv) (upsets : List Upset) (backlog : Nat) (d : Dev) : Dev :=
  if !dieAlive f d then d
  else
    let d := modCourse f c (fun k => { k with backlog := backlog }) (forEach upsets (applyUpset f c) d)
    let d := purgeSets f c (convertAll f c convs d)
    let p := coursePeriod f c d
    let covered := ((courseTiles f c d).filter fun w => physOf f c w d == 0x3F).length
    let d := addCtr (CS_COVERED f c) covered d
    let noBuf := (liveSlots f c d).filter fun s => slotNoBuf f c s d
    let d := forEach (liveSlots f c d) (fun s d =>
      let d := if (slotAt f c s d).repair.isEmpty then d else addCtr (CS_REPAIRSTALL f c) p d
      if noBuf.contains s then addCtr (CS_BUFSTALL f c) p d else d) d
    if decide (4 * capoWindow f c d < backlog) || queueFull f c d then addCtr (CS_CAPOSTALL f c) p d
    else if treeHeld f c d then addCtr (CS_TREESTALL f c) p d
    else takeAll f c (go.filter fun t => !noBuf.any fun s => (servers f c s d).contains t) d

/-- ENCORE_PASS_END: one extra pluck period of an Encore pass has gone by (04 R171). -/
def encorePassEnd (f c s : Nat) (d : Dev) : Dev := modSlot f c s (fun x => { x with encore := x.encore - 1 }) d

end Sys2Proof.Machine
end

