-- ==== Sys2Proof/Machine/Check.lean ====
section
/-! DEFINITION. Group checks and what they lead to (02 R85, R87; 04 R158-R166, R181-R183; 06 R224-R238, R250). -/

namespace Sys2Proof.Machine

/-- The oldest pluck of a tile that meets a condition. -/
def pluckOf (f c t : Nat) (w : Pluck → Bool) (d : Dev) : Option Pluck :=
  (courseAt f c d).plucks.find? fun p => p.tile == t && w p

def groupOf (col : Nat) : Nat := if col < 512 then col / 64 else col - 512

/-- The value of an enabled column in the check's sum, and of the harmonic column (R225). -/
def checkVal (p : Pluck) (col : Nat) : Int :=
  match mget? p.exact col with
  | some v => 64 * v
  | none =>
    match mget? p.trimmed col with
    | some t => t
    | none => trimmed (mgetD p.trims col zeroTrim) p.step col (mgetD p.codes col 0)

def checkD (x : Tile) (p : Pluck) (g : Nat) : Int :=
  (groupCols (scanMask x) g).foldl (fun a c => a + checkVal p c) 0

/-- R226: the two sums agree within 4 l BANDG. -/
def checkPasses (k : Nat) (x : Tile) (p : Pluck) (g : Nat) : Bool :=
  let e := (groupCols (scanMask x) g).length
  decide (((checkD x p g) - checkVal p (512 + g)).natAbs ≤ (2 * lsb2 p.step * bandG k e p.qf p.qh).natAbs)

/-- Used columns of a group that are retired (02 R91). -/
def retiredCols (x : Tile) (g : Nat) : List Nat := (groupCols x.use g).filter fun c => x.ret.getLsbD c

/-- A group that passed takes the exact values of its retired columns before it is settled. -/
def passGroup (f c : Nat) (p : Pluck) (g outcome : Nat) (d : Dev) : Dev :=
  let need := (retiredCols (tileAt f c p.tile d) g).filter fun col => (mget? p.exact col).isNone
  if need.isEmpty then settleGroup f c p g outcome d
  else addBacklog f c (need.length * colReads p.x)
    (modPluck f c p.id (fun p => { p with open_ := p.open_.filter (· != g), passed := g :: p.passed, colrec := p.colrec ++ need }) d)

/-- Go on with a group whose awaited values may all be there (R162, R225, R226). -/
def advanceGroup (f c id g : Nat) (d : Dev) : Dev :=
  match pluckAt f c id d with
  | none => d
  | some p =>
    let x := tileAt f c p.tile d
    let waits := (p.recon ++ p.colrec).any fun col => groupOf col == g
    if waits then d
    else if p.passed.contains g then settleGroup f c p g 0 d
    else if !p.open_.contains g || p.grprec.contains g then d
    else if (groupCols (scanMask x) g).isEmpty then passGroup f c p g 0 d
    else if checkPasses (hcK f c p.slot d) x p g then passGroup f c p g 0 d
    else addBacklog f c (countNonzero p.x) (modPluck f c id (fun p => { p with grprec := p.grprec ++ [g] }) (bump (CS_HCMISS f c) d))

/-- GROUP_HANDON: a tile hands on a group of its oldest converted pluck; the recomputes of clipped columns and of a
harmonic column without a usable code are issued (R85, R160, R162, R225). -/
def groupHandon (f c t g : Nat) (d : Dev) : Dev :=
  match pluckOf f c t (fun p => p.converted && !p.voided && p.wait.contains g) d with
  | none => d
  | some p =>
    let x := tileAt f c t d
    let cols := groupCols (scanMask x) g
    let clips := cols.filter fun col => match mget? p.codes col with | some q => clippedCode q | none => false
    let harm := if cols.isEmpty then []
      else match mget? p.codes (512 + g) with
        | some q => if clippedCode q then [512 + g] else []
        | none => [512 + g]
    advanceGroup f c p.id g (addBacklog f c ((clips ++ harm).length * colReads p.x) (modPluck f c p.id (fun p =>
      { p with wait := p.wait.filter (· != g), open_ := g :: p.open_, colrec := p.colrec ++ clips ++ harm }) d))

/-- RECONVERT_RESULT: a granted re-convert of the sample in its hold bank gives its code, or fails (02 R76, R87, R89; 04 R160). Of a pluck
voided meanwhile it is only counted. -/
def reconvertResult (f c t col : Nat) (dev : Int) (unsettled badParity : Bool) (d : Dev) : Dev :=
  match pluckOf f c t (fun p => p.recon.contains col) d with
  | none => d
  | some p =>
    let q := codeOf p.step col (mgetD p.bank col 0) dev
    let fails := unsettled || badParity
    let d := if unsettled then bump (CS_UNSETTLED f c) d else d
    let d := if badParity then bump (CS_OUTPAR f c) d else d
    let d := modPluck f c p.id (fun p => { p with recon := p.recon.filter (· != col) }) d
    let d := if !fails && clippedCode q then
        addClips f c p 1 (modSlot f c p.slot (fun y => { y with fmarks := y.fmarks + 1 })
          (bump (CS_CLIPCNT f c) (bump (CS_TCLIP f c t) d)))
      else d
    let d := windowEnds f c p.id d
    if p.voided then d
    else advanceGroup f c p.id (groupOf col)
      (if fails || clippedCode q then
        addBacklog f c (colReads p.x) (modPluck f c p.id (fun p => { p with colrec := p.colrec ++ [col] }) d)
      else modPluck f c p.id (fun p =>
        { p with trimmed := mput p.trimmed col (trimmed (mgetD p.trims col zeroTrim) p.step col q) }) d)

/-- COLUMN_RECOMPUTE_DONE: the exact value of a column of the oldest pluck that waits for it in the recompute queue (R164, R166), read
through the port (02 R71). -/
def columnRecomputeDone (f c t col : Nat) (d : Dev) : Dev :=
  match pluckOf f c t (fun p => p.colrec.contains col && inQueue (courseAt f c d) p (p.colrec.findIdx (· == col))) d with
  | none => d
  | some p =>
    match portSum (planeOf (tileAt f c t d) p.planeB) p.x col with
    | none => d
    | some v =>
      let d := subBacklog f c (colReads p.x) (bump (CS_COLRECOMP f c) d)
      advanceGroup f c p.id (groupOf col) (modPluck f c p.id (fun p =>
        { p with colrec := p.colrec.filter (· != col), exact := mput p.exact col v }) d)

/-! ### Disagreements (06 R229-R233) -/

/-- A row segment read agrees with its parity bits and with its harmonic cell. -/
def segGood (x : Tile) (g : Nat) (s : Seg) : Bool :=
  cellParity s.slots false == s.p0 && cellParity s.slots true == s.p1 && segSum x g s.slots == harmVal s.harm

def cellsGood (x : Tile) (p : Plane) (rows : List Nat) (g : Nat) : Bool :=
  rows.all fun r => segGood x g (segAt p (8 * r + g))

/-- The offending columns of the Data finding. -/
def offending (k : Nat) (x : Tile) (pl : Plane) (p : Pluck) (g : Nat) : List Nat :=
  (groupCols (scanMask x) g).filter fun c =>
    (mget? p.exact c).isNone
      && decide ((2 * lsb2 p.step * bandC k p.qf).natAbs < (checkVal p c - 64 * exactSum pl p.x c).natAbs)

def harmonicGood (k : Nat) (pl : Plane) (p : Pluck) (g : Nat) : Bool :=
  (mget? p.exact (512 + g)).isSome
    || decide ((checkVal p (512 + g) - 64 * exactSum pl p.x (512 + g)).natAbs ≤ (2 * lsb2 p.step * bandH k p.qh).natAbs)

def colMask (g : Nat) (cols : List Nat) : Nat := (cols.map fun c => 2 ^ (c - 64 * g)).foldl (· + ·) 0

/-- Exact values for some columns of a pluck. -/
def setExact (f c id : Nat) (pl : Plane) (cols : List Nat) (d : Dev) : Dev :=
  modPluck f c id (fun p => { p with exact := cols.foldl (fun m col => mput m col (exactSum pl p.x col)) p.exact }) d

/-- A CELL outcome (R234, R236, R237): plucks are voided, and an ACTIVE plane becomes EMPTY and waits for its repair. -/
def cellOutcome (f c t : Nat) (b : Bool) (id slot : Nat) (d : Dev) : Dev :=
  let v := voidPlucks f c (fun p => p.tile == t && p.planeB == b && decide (id ≤ p.id)) d
  let d := addCtr (CS_VOIDPLK f c) v.1 v.2
  let pl := planeOf (tileAt f c t d) b
  if pl.st = 3 then
    modSlot f c slot (fun y => { y with repair := y.repair ++ [2 * t + b2n b] })
      (modPlane f c t b (fun p => { emptyPlane with src := p.src }) d)
  else d

/-- GROUP_RECOMPUTE_DONE: the four findings and the outcome of R230. -/
def groupRecomputeDone (f c t g : Nat) (d : Dev) : Dev :=
  match pluckOf f c t (fun p => p.grprec.contains g && portReads (planeOf (tileAt f c t d) p.planeB)
      && inQueue (courseAt f c d) p (p.colrec.length + p.grprec.findIdx (· == g))) d with
  | none => d
  | some p =>
    let x := tileAt f c t d
    let pl := planeOf x p.planeB
    let k := hcK f c p.slot d
    let d := subBacklog f c (countNonzero p.x) (bump (CS_GRPRECOMP f c) d)
    let rec_ := fun (ty mask : Nat) (persist : Bool) (d : Dev) =>
      tileRecord ty f c t g p.layer 3 p.vec.stream mask persist (markSuspect f c t d)
    if !cellsGood x pl ((activeRows p.x).map (·.1)) g then
      rec_ 0x0063 0 true (cellOutcome f c t p.planeB p.id p.slot (bump (CS_CELLFAULT f c) d))
    else
      let off := offending k x pl p g
      let hOk := harmonicGood k pl p g
      let out := if off.isEmpty then (if hOk then 1 else 2) else if hOk then 3 else 4
      let cols := if off.isEmpty then retiredCols x g else groupCols x.use g
      let d := modPluck f c p.id (fun p => { p with grprec := p.grprec.filter (· != g) }) (setExact f c p.id pl cols d)
      let d := match pluckAt f c p.id d with
        | some p => settleGroup f c p g out d
        | none => d
      if out = 1 then bump (CS_HCNOFAULT f c) d
      else if out = 2 then rec_ 0x0060 0 false (bump (CS_HCFAULTH f c) d)
      else if out = 3 then rec_ 0x0061 (colMask g off) false (addCtr (CS_HCBADCOL f c) off.length (bump (CS_HCFAULTD f c) d))
      else rec_ 0x0062 (colMask g off) false (bump (CS_HCMULTI f c) d)

/-! ### Fetched recompute (R235, R250) -/

/-- The cells of a block in HBM. -/
def blockCells (b a : Nat) (d : Dev) : Cells :=
  let h := hbmBytes b a 0x440 d
  let fp4 := u8 h 8 = 1
  let off := u32 h 0x10
  { w := fun r c =>
      let v := (hbmByte b (a + off + 32 * (8 * r + c / 64) + c % 64 / 2) d).toNat
      codeVal fp4 (if c % 2 = 0 then v % 16 else v / 16),
    scale := fun c => u16 h (0x40 + 2 * c),
    recs := blockRecs (hbmBytes b (a + 0x440) (8 * u16 h 0x0A) d) (u16 h 0x0A) }

def cellsSum (k : Cells) (x : List Int) (c : Nat) : Int := (activeRows x).foldl (fun a e => a + k.w e.1 c * e.2) 0

/-- The rows a recompute reads: driven rows and rows with an outlier. -/
def rowsNeeded (x : List Int) (outs : List OutEnt) : List Nat :=
  ((activeRows x).map (·.1) ++ outs.map (·.index)).eraseDups

/-- A row of a block meets a poisoned word. -/
def rowsPoisoned (b a : Nat) (rows : List Nat) (d : Dev) : Bool :=
  let off := u32 (hbmBytes b a 0x40 d) 0x10
  hbmPoisoned b a off d || rows.any fun r => hbmPoisoned b (a + off + 256 * r) 256 d

/-- The Bridge reads a block's scales and records, and rows of it (R235), with ECC verdicts by offset in the block (R243). -/
def readRows (b a : Nat) (rows : List Nat) (errs : List (Nat × Nat)) (d : Dev) : Dev :=
  let off := u32 (hbmBytes b a 0x40 d) 0x10
  forEach rows (fun r => hbmReadEcc b (a + off + 256 * r) 256 (errsIn (off + 256 * r) 256 errs)) (hbmReadEcc b a off (errsIn 0 off errs) d)

/-- What the Bridge sends of a block for rows of it: scales, records and codes (R235). -/
def fetchedBytes (b a : Nat) (rows : List Nat) (d : Dev) : List Byte :=
  let off := u32 (hbmBytes b a 0x40 d) 0x10
  (hbmBytes b a off d).drop 0x40 ++ rows.flatMap fun r => hbmBytes b (a + off + 256 * r) 256 d

/-- Every group of a voided pluck not yet accepted is computed from the fetched rows. -/
def fetchPluck (f c : Nat) (p : Pluck) (d : Dev) : Dev :=
  let x := tileAt f c p.tile d
  let k := blockCells f p.src d
  let d := forEach p.wait (fun g d =>
    match pluckAt f c p.id d with
    | none => d
    | some p =>
      let cols := groupCols x.use g
      let terms := (cols.map fun col => mainExact k p.scale col (cellsSum k p.x col))
        ++ corrections k p.x p.scale p.outs p.recs (p.fold != 2) cols
      sendTerms f c p g terms (modPluck f c p.id (fun p => { p with outcome := mput p.outcome g 5 }) d)) d
  modPluck f c p.id (fun p => { p with wait := [] }) d

/-- The exact terms of one vector at one tile: all rows, all records, all outliers (R182, R250). -/
def exactTerms (k : Cells) (use : BitVec 512) (fp4 : Bool) (s : Slice) : List Term :=
  let cols := (List.range 512).filter fun c => use.getLsbD c
  let x := sliceX fp4 s
  (cols.map fun col => mainExact k s.scale col (cellsSum k x col)) ++ corrections k x s.scale s.outs k.recs true cols

def exactMsg (w t slot layer : Nat) (v : VecId) (terms : List Term) : TermMsg :=
  { pid := 0, group := 0xFF, slot := slot, wtile := w, tile := t, vec := v, layer := layer, terms := terms, last := true, tries := 0 }

def queueMsgs (f c : Nat) (ms : List TermMsg) (d : Dev) : Dev :=
  modCourse f c (fun k => { k with capoOut := k.capoOut ++ ms }) d

/-- Up to eight consecutive vectors of a pass, from the one with index `taken`, whose slices wait: (next index, vector,
slice) each, and the queue left. -/
def takeGroup (q : PassD) (d : Dev) : Nat → Nat → List Slice → List (Nat × VecId × Slice) × List Slice
  | 0, _, inq => ([], inq)
  | n + 1, taken, inq =>
    match nextVec q taken d with
    | none => ([], inq)
    | some (i, v) =>
      match takeSlice v.stream inq with
      | none => ([], inq)
      | some (s, r) => let z := takeGroup q d n (i + 1) r; ((i + 1, v, s) :: z.1, z.2)

/-- The group that a tile takes next is there (R181): eight vectors, or all that are left of the pass. -/
def groupReady (q : PassD) (taken : Nat) (l : List (Nat × VecId × Slice)) (d : Dev) : Bool :=
  !l.isEmpty && (l.length = 8 || (nextVec q ((l.getLast?.map (·.1)).getD taken) d).isNone)

/-- The terms of a vector computed without an outlier queue count like admitted ones (R191). -/
def countTerms (f c : Nat) (recs : List WRec) (fp4 : Bool) (s : Slice) (d : Dev) : Dev :=
  let x := sliceX fp4 s
  addCtr (CS_AOUTCNT f c) s.outs.length (addCtr (CS_WOUTCNT f c) (recs.filter fun r => x.getD r.row 0 != 0).length d)

/-- A covered working tile's next group of vectors is computed from the fetched rows (R250). -/
def fetchCovered (f c w s : Nat) (errs : List (Nat × Nat)) (q : PassD) (d : Dev) : Dev :=
  let k := courseAt f c d
  let z := takeGroup q d 8 (mgetD k.covTaken w 0) (mgetD k.cov w [])
  let vs := z.1.map fun e => e.2.1
  match z.1.getLast?, blockAddr f c w q d with
  | some last, some a =>
    let fp4 := bit (qCfg f c s d) 0
    let rows := (z.1.flatMap fun e => rowsNeeded (sliceX fp4 e.2.2) e.2.2.outs).eraseDups
    if !groupReady q (mgetD k.covTaken w 0) z.1 d || groupHeld f c s q vs d then d
    else
      let d := readRows f a rows errs d
      if rowsPoisoned f a rows d then slotFault fcWEIGHT_POISON f c s none d
      else
        let d := neckBulk q.part f c (fetchedBytes f a rows d) d
        let cells := blockCells f a d
        let use := match tileRec (courseImg f c d) f c w with | some r => useMask (courseImg f c d) r | none => 0#512
        let d := forEach z.1 (fun e => countTerms f c cells.recs fp4 e.2.2) (assignGroup f c s q vs d)
        queueMsgs f c (z.1.map fun e => exactMsg w 0x3F s q.layer e.2.1 (exactTerms cells use fp4 e.2.2))
          (hbmCount q.part (256 * rows.length) <| modCourse f c (fun k => { k with cov := mput k.cov w z.2, covTaken := mput k.covTaken w last.1 }) d)
  | _, _ => d

/-- FETCHED_ROW_ARRIVAL: the rows asked of the Bridge for a working tile have arrived: voided plucks first, then a group
of vectors of a covered working tile. `errs` lists ECC verdicts by offset in the block. -/
def fetchedRowArrival (f c w : Nat) (errs : List (Nat × Nat)) (d : Dev) : Dev :=
  match (courseAt f c d).plucks.find? fun p => p.wtile == w && p.voided && !p.wait.isEmpty with
  | some p =>
    let rows := rowsNeeded p.x p.outs
    let d := readRows f p.src rows errs d
    if rowsPoisoned f p.src rows d then slotFault fcWEIGHT_POISON f c p.slot none d
    else
      let d := neckBulk (coursePart f c d) f c (fetchedBytes f p.src rows d) d
      fetchPluck f c p (hbmCount (coursePart f c d) (256 * rows.length) d)
  | none =>
    match tileRec (courseImg f c d) f c w with
    | none => d
    | some r => match slotOfStage (courseImg f c d) f c (tStage r) with
      | none => d
      | some s => match (slotAt f c s d).cur with
        | some q => if physOf f c w d = 0x3F then fetchCovered f c w s errs q d else d
        | none => d

/-- REPAIR_SWAP: a reloaded plane becomes ACTIVE again at the next pluck boundary (R236). -/
def repairSwap (f c t : Nat) (d : Dev) : Dev :=
  match slotOfTile f c t d with
  | none => d
  | some s =>
    match [false, true].find? fun b => (planeOf (tileAt f c t d) b).st = 2 && (slotAt f c s d).repair.contains (2 * t + b2n b) with
    | none => d
    | some b =>
      modSlot f c s (fun y => { y with repair := y.repair.filter (· != 2 * t + b2n b) })
        (modTile f c t (fun x => setPlane b { planeOf x b with st := 3 } { x with act := b }) d)

/-! ### Exact mode (R181-R183) -/

/-- The row segments read that do not agree with their parity bits or harmonic cell, as (row, group): a row read returns all eight of a
row (R149, R183). -/
def badSegs (x : Tile) (p : Plane) (rows : List Nat) : List (Nat × Nat) :=
  (rows.flatMap fun r => (List.range 8).map fun g => (r, g)).filter fun e => !segGood x e.2 (segAt p (8 * e.1 + e.2))

/-- The vectors of an exact group at a tile whose cells are wrong, as plucks that the fetched recompute computes (06 R232, R235). -/
def exactPlucks (id0 s w layer : Nat) (fp4 : Bool) (x : Tile) (t : Nat) (vs : List (Nat × VecId × Slice)) : List Pluck :=
  vs.zipIdx.map fun e =>
    { blankPluck with
      id := id0 + e.2, src := (planeOf x x.act).src, tile := t, wtile := w, planeB := x.act, slot := s, layer := layer, vec := e.1.2.1,
      x := sliceX fp4 e.1.2.2, scale := e.1.2.2.scale, outs := e.1.2.2.outs, recs := (planeOf x x.act).recs, converted := true,
      wait := usedGroups x }

/-- One tile's share of an exact group: the segments it reads are checked; each that fails is a CELL outcome with its record (06 R232,
R233), and the vectors are then computed by fetched recompute. -/
def exactTile (f c s w : Nat) (q : PassD) (vs : List (Nat × VecId × Slice)) (rest : List Slice) (d : Dev) : Dev :=
  let t := physOf f c w d
  let x := tileAt f c t d
  let pl := planeOf x x.act
  let fp4 := bit (qCfg f c s d) 0
  let last := (vs.getLast?.map (·.1)).getD x.taken
  let d := modTile f c t (fun x => { x with inq := rest, taken := last }) d
  let d := forEach vs (fun e => countTerms f c pl.recs fp4 e.2.2) d
  let rows := (vs.flatMap fun e => rowsNeeded (sliceX fp4 e.2.2) e.2.2.outs).eraseDups
  let bad := badSegs x pl rows
  if bad.isEmpty then queueMsgs f c (vs.map fun e => exactMsg w t s q.layer e.2.1 (exactTerms (planeCells pl) x.use fp4 e.2.2)) d
  else
    let id0 := (courseAt f c d).orders
    let stream := (vs.head?.map fun e => e.2.1.stream).getD 0x3FFFF
    let d := modCourse f c (fun k => { k with orders := id0 + vs.length, plucks := k.plucks ++ exactPlucks id0 s w q.layer fp4 x t vs }) d
    let d := cellOutcome f c t x.act id0 s d
    forEach bad (fun e d => tileRecord 0x0063 f c t e.2 q.layer 3 stream 0 true (markSuspect f c t (bump (CS_CELLFAULT f c) d))) d

/-- Some vector of a slot still waits in the Capo for a register set: the next exact group does not start (05 R195). -/
def exactHeld (f c s : Nat) (d : Dev) : Bool :=
  (courseAt f c d).capoOut.any fun m => m.slot == s && !(kbVecs (courseAt f c d)).contains (m.slot, m.vec, m.layer)

/-- Messages that came tile by tile, `n` of each, put vector by vector (05 R195). -/
def byVector (n : Nat) (ms : List TermMsg) : List TermMsg :=
  (List.range n).flatMap fun j => (ms.zipIdx.filter fun e => e.2 % n = j).map (·.1)

/-- The messages queued after the first `len` go vector by vector (05 R195). -/
def orderMsgs (f c len n : Nat) (d : Dev) : Dev :=
  modCourse f c (fun k => { k with capoOut := k.capoOut.take len ++ byVector n (k.capoOut.drop len) }) d

/-- EXACT_GROUP_DONE: a group of an exact-mode stage, eight vectors or the last ones of the pass, is complete in a course. `stall` counts the
SEQ cycles its terms waited for K-block registers (05 R195). -/
def exactGroupDone (f c s stall : Nat) (d : Dev) : Dev :=
  match (slotAt f c s d).cur with
  | none => d
  | some q =>
    if !stgExact f c s d || !dieAlive f d || slotHeld f c s d || exactHeld f c s d then d
    else
      let ws := (stageTiles (courseImg f c d) f c (stgStage f c s d)).filter fun w => decide (physOf f c w d < 33)
      let zs := ws.map fun w => (w, takeGroup q d 8 (tileAt f c (physOf f c w d) d).taken (tileAt f c (physOf f c w d) d).inq)
      let n := (zs.map fun z => z.2.1.length).foldl min 8
      let vs := (zs.head?.map fun z => z.2.1.map fun e => e.2.1).getD []
      if zs.isEmpty || !(zs.all fun z => z.2.1.length = n && groupReady q (tileAt f c (physOf f c z.1 d) d).taken z.2.1 d)
          || groupHeld f c s q vs d then d
      else
        let d := bump (CS_EXACTGRP f c) (addCtr (CS_TREESTALL f c) stall (assignGroup f c s q vs d))
        let len := (courseAt f c d).capoOut.length
        let d := forEach zs (fun z d => exactTile f c s z.1 q z.2.1 z.2.2 d) d
        orderMsgs f c len n d

end Sys2Proof.Machine
end

