-- ==== Sys2Proof/Machine/Tail.lean ====
section
/-! DEFINITION. The Tailpiece (05 R192-R219): K-block registers, stochastic rounding, trees, buffers, fused operations
and output slices (03 R139-R142); and where outputs go (11 R451). -/

namespace Sys2Proof.Machine

/-! ### Where outputs go -/

/-- Courses that take an input slice of a stage, as (die, course). -/
def sliceCourses (img : List Byte) (stage islice : Nat) : List (Nat × Nat) :=
  ((tileRecs img).filter fun r => tStage r == stage && tIslice r == islice).map (fun r => (u8 r 0, u8 r 1)) |>.eraseDups

/-- The course that roots an output slice of a stage. -/
def sliceRoot (img : List Byte) (stage oslice : Nat) : Option (Nat × Nat) :=
  (sliceRec img stage oslice).map fun r => (u8 r 1 / 16, u8 r 1 % 16)

/-- Destinations of a stage's output slice for one use: (node, endpoint, class, destination slice, destination stage). -/
def routeDests (img : List Byte) (stage slice use : Nat) (home : Nat) : List (Nat × Nat × Nat × Nat × Nat) :=
  ((routeRecs img).filter fun r => u8 r 0 == stage && u8 r 2 % 4 == use && inRange (u16 r 4) (u16 r 6) slice).flatMap fun r =>
    let ds := u16 r 8 + (slice - u16 r 4)
    let dst := u8 r 1
    match stageRec img dst with
    | none => []
    | some sr =>
      if sKind sr = 0 then
        let cs := if use = 0 then sliceCourses img dst ds else (match sliceRoot img dst ds with | some x => [x] | none => [])
        cs.map fun x => (x.1, x.2 + 1, 1, ds, dst)
      else if sKind sr = 1 then
        ((List.range 12).filter fun b => bit (sBridges sr) b).map fun b => (b, 0, 1, ds, dst)
      else [(home, 0, 2, ds, dst)]

def streamHome (i : Nat) (d : Dev) : Nat := match streamAt i d with | some s => s.home | none => 0

/-- Send a slice to its destinations as input, each flit with the one of its outliers directly behind it (03 R132, R133). -/
def sendSlice (p b stage slice scale stream : Nat) (codes outs : List Byte) (d : Dev) : Dev :=
  forEach (routeDests (imgOf p d) stage slice 0 (streamHome stream d)) (fun x d =>
    let flit := fun (s : Nat) (pay : List Byte) (d : Dev) => fretInject p b (mkFlitHdr x.1 b p x.2.2.1 x.2.1 s stream) pay d
    let d := flit scale codes d
    if outs.isEmpty then d else flit 0xFF outs d) d

/-! ### Stochastic rounding (R204, R205) -/

def rand24 (seed : DWord) (layer pos slice col node : Nat) : Nat :=
  let m := 2 ^ 64
  let h := seed.toNat ^^^ ((layer <<< 48) ||| (pos <<< 24) ||| (slice <<< 9) ||| col) % m
  let h := h ^^^ (node * 0x9E3779B97F4A7C15 % m)
  let h := (h ^^^ (h >>> 30)) * 0xBF58476D1CE4E5B9 % m
  let h := (h ^^^ (h >>> 27)) * 0x94D049BB133111EB % m
  let h := h ^^^ (h >>> 31)
  h >>> 40

/-- SR of R205; the flag says that the value was limited. -/
def srRound (f : Fmt) (x : Dy) (r : Nat) : Dy × Bool :=
  if x.m = 0 then (dyZero, false)
  else
    let a := dyAbs x
    let q := max (dyLog2 a - f.mb) (fmtQmin f)
    let e := min a.e (q - 24)
    let n := dyAt a e
    let k := (q - e).toNat
    let lo := n / 2 ^ k
    let d24 := (n % 2 ^ k) / 2 ^ (k - 24)
    let m : Dy := ⟨if 2 ^ 24 ≤ d24 + r then lo + 1 else lo, q⟩
    let sat := dyLt f.maxv m
    let m := if sat then f.maxv else m
    (if x.m < 0 then dyNeg m else m, sat)

def treeFmt (cfg : Nat) : Fmt := match bits cfg 8 2 with | 0 => fF32 | 1 => fBF16 | _ => fF16
def treeBytes (cfg : Nat) : Nat := if bits cfg 8 2 = 0 then 4 else 2
def kbBase (cfg : Nat) : Int := sext 9 (bits cfg 23 9)

/-- A flag of a stream's position, for the token record that takes it (10 R419; log 100). -/
def flagStream (i pos k : Nat) (d : Dev) : Dev :=
  modStream i (fun s => { s with pflags := mput s.pflags pos (mgetD s.pflags pos 0 ||| 2 ^ k) }) d

/-- Count a saturation and mark ACC_SAT. -/
def satMark (ctr : Nat) (v : VecId) (d : Dev) : Dev := flagStream v.stream v.pos 1 (bump ctr d)

/-! ### Terms into K-block registers (R193, R194) -/

/-- The aligned term: value, whether rounding changed it, whether it was limited. -/
def alignTerm (b : Int) (t : Term) : Int × Bool × Bool :=
  let v : Int := if b ≤ t.exp then t.mant * 2 ^ (t.exp - b).toNat else rhe t.mant (b - t.exp).toNat
  let low := decide (t.exp < b) && v * 2 ^ (b - t.exp).toNat != t.mant
  let sat := decide ((2 : Int) ^ 95 ≤ v.natAbs)
  (if sat then (if v < 0 then -(2 ^ 95 - 1) else 2 ^ 95 - 1) else v, low, sat)

def emptyKb (m : TermMsg) (oslice leaf : Nat) : KbReg :=
  { slot := m.slot, vec := m.vec, layer := m.layer, oslice := oslice, leaf := leaf, vals := [], done := [], narrowed := false }

def sameKb (m : TermMsg) (oslice leaf : Nat) (x : KbReg) : Bool :=
  x.slot == m.slot && x.vec == m.vec && x.layer == m.layer && x.oslice == oslice && x.leaf == leaf

/-- Add a message's terms to its register set; `fin` closes its tile's part. -/
def addTerms (b : Int) (m : TermMsg) (x : KbReg) : KbReg :=
  { x with vals := m.terms.foldl (fun v t => mput v t.col (mgetD v t.col 0 + (alignTerm b t).1)) x.vals,
           done := if m.last then m.wtile :: x.done else x.done }

/-- The oldest vector slot of a stream that meets a condition: buffers by their order, then slot order. -/
def oldestV (x : Slot) (w : VSlot → Bool) : Option VSlot :=
  let l := if x.bufA.st ≠ 0 && x.bufB.st ≠ 0 && x.bufB.order < x.bufA.order then x.bufB.slots ++ x.bufA.slots
    else x.bufA.slots ++ x.bufB.slots
  l.find? w

def sameV (u v : VSlot) : Bool := u.vec == v.vec && u.layer == v.layer && u.batch == v.batch

def modVSlot (f c s : Nat) (u : VSlot) (g : VSlot → VSlot) (d : Dev) : Dev :=
  let h := fun (y : Buf) => { y with slots := y.slots.map fun v => if sameV u v then g v else v }
  modSlot f c s (fun x => { x with bufA := h x.bufA, bufB := h x.bufB }) d

def putCols (m : SMap (SMap Nat)) (k : Nat) (vals : List (Nat × Nat)) : SMap (SMap Nat) :=
  mput m k (vals.foldl (fun n e => mput n e.1 e.2) (mgetD m k []))

/-- Values a tree format's data flit holds. -/
def flitVals (bytes : Nat) : Nat := if bytes = 4 then 63 else if bytes = 2 then 126 else 252

/-- Data flits of a slice: descriptor and values (R197, R198). -/
def dataFlits (kind leaf slice bytes : Nat) (vals : List Nat) : List (List Byte) :=
  let n := flitVals bytes
  (List.range ((vals.length + n - 1) / n)).map fun j =>
    padTo 256 (leBytes 4 (kind * 2 ^ 30 + leaf * 2 ^ 24 + slice * 2 ^ 9 + n * j)
      ++ ((vals.drop (n * j)).take n).flatMap fun v => leBytes bytes v)

/-- The values of a K-block register's leaf in the tree format (R194), with the columns limited and those saturated. -/
def narrowed (fm : Fmt) (base : Int) (x : KbReg) : List (Nat × Bool × Bool) :=
  (List.range 512).map fun col =>
    let v := mgetD x.vals col 0
    let lim := decide (v < -(2 ^ 95)) || decide (2 ^ 95 ≤ v)
    let v := max (-(2 ^ 95)) (min (2 ^ 95 - 1) v)
    let r := srRound fm ⟨v, base⟩ (rand24 x.vec.seed x.layer x.vec.pos x.oslice col x.leaf)
    (fpOf fm r.1, lim, r.2)

/-- The leaf enters the tree of its own course, in the oldest slot of its vector that lacks it. -/
def ownLeaf (f c : Nat) (x : Leaf) (d : Dev) : Dev :=
  let key := 64 * x.oslice + x.leaf
  match oldestV (slotAt f c x.slot d) fun u => u.vec == x.vec && u.layer == x.layer && (mget? u.leaves key).isNone with
  | some u => modVSlot f c x.slot u (fun u => { u with leaves := putCols u.leaves key (x.vals.zipIdx.map fun e => (e.2, e.1)) }) d
  | none => d

/-- A register is narrowed to its leaf (R194): into the course's own tree, or to those that wait to leave for the root (R197). -/
def narrowKb (f c : Nat) (x : KbReg) (d : Dev) : Dev :=
  let cfg := tpCfg f c x.slot d
  let res := narrowed (treeFmt cfg) (kbBase cfg) x
  let d := forEach (res.filter fun e => e.2.1) (fun _ d => satMark (CS_KBSAT f c) x.vec d) d
  let d := forEach (res.filter fun e => e.2.2) (fun _ d => satMark (CS_TREESAT f c) x.vec d) d
  let l : Leaf := { slot := x.slot, vec := x.vec, layer := x.layer, oslice := x.oslice, leaf := x.leaf, vals := res.map (·.1) }
  match sliceRoot (courseImg f c d) (stgStage f c x.slot d) x.oslice with
  | none => d
  | some r =>
    if r == (f, c) then ownLeaf f c l d else modCourse f c (fun k => { k with leafq := k.leafq ++ [l] }) d

/-- Every vector before a leaf's own in pass order has sent that K-block (R197). -/
def leafTurn (k : Course) (x : Leaf) : Bool :=
  ((k.handed.filter fun h => h.slot == x.slot).takeWhile fun h => !(h.vec == x.vec && h.layer == x.layer)).all fun h =>
    h.sent.contains (64 * x.oslice + x.leaf)

/-- Vectors with which a course is done leave its pass order. -/
def pruneHanded (k : Course) : Course :=
  { k with handed := k.handed.filter fun h =>
      !h.done || k.leafq.any fun x => x.slot == h.slot && x.vec == h.vec && x.layer == h.layer }

/-- A leaf leaves for its root in data flits (R197). -/
def sendLeaf (f c : Nat) (x : Leaf) (d : Dev) : Dev :=
  let cfg := tpCfg f c x.slot d
  let p := coursePart f c d
  let mine := fun (h : Handed) => h.slot == x.slot && h.vec == x.vec && h.layer == x.layer
  let d := modCourse f c (fun k => pruneHanded { k with
    leafq := k.leafq.filter (· != x),
    handed := k.handed.map fun h => if mine h then { h with sent := (64 * x.oslice + x.leaf) :: h.sent } else h }) d
  match sliceRoot (imgOf p d) (stgStage f c x.slot d) x.oslice with
  | none => d
  | some (rf, rc) =>
    forEach (dataFlits 0 x.leaf x.oslice (treeBytes cfg) x.vals) (fun pay d =>
      fretInject p f (mkFlitHdr rf f p 1 (rc + 1) 0xFE x.vec.stream) pay d) d

/-- The leaves whose turn has come leave. -/
def sendLeaves (f c : Nat) (d : Dev) : Dev :=
  forEach (List.range (courseAt f c d).leafq.length) (fun _ d =>
    match (courseAt f c d).leafq.find? (leafTurn (courseAt f c d)) with
    | some x => sendLeaf f c x d
    | none => d) d

/-- K-blocks of a stage in a course, as (slice, leaf). -/
def courseKbs (img : List Byte) (f c stage : Nat) : List (Nat × Nat) :=
  ((stageTiles img f c stage).filterMap fun w => (tileRec img f c w).map fun r => (tOslice r, tKblock r)).eraseDups

/-- The registers of a vector in a course. -/
def vecKbs (k : Course) (m : TermMsg) : List KbReg := k.kbs.filter fun y => y.slot == m.slot && y.vec == m.vec && y.layer == m.layer

/-- A vector's set is free once all its registers are narrowed (R195). -/
def freeSet (f c : Nat) (m : TermMsg) (d : Dev) : Dev :=
  let mine := vecKbs (courseAt f c d) m
  let same := fun (s : Nat) (v : VecId) (l : Nat) => s == m.slot && v == m.vec && l == m.layer
  if (courseKbs (courseImg f c d) f c (stgStage f c m.slot d)).all (fun e => mine.any fun y => y.oslice == e.1 && y.leaf == e.2 && y.narrowed) then
    modCourse f c (fun k => pruneHanded { k with
      kbs := k.kbs.filter (fun y => !same y.slot y.vec y.layer),
      handed := k.handed.map fun h => if same h.slot h.vec h.layer then { h with done := true } else h }) d
  else d

/-- Narrow a register whose tiles have all delivered. -/
def settleKb (f c : Nat) (m : TermMsg) (oslice leaf : Nat) (d : Dev) : Dev :=
  match (courseAt f c d).kbs.find? (sameKb m oslice leaf) with
  | none => d
  | some x =>
    if x.narrowed || !((kbTiles (courseImg f c d) f c (stgStage f c m.slot d) oslice leaf).all fun w => x.done.contains w) then d
    else
      let d := narrowKb f c x d
      let d := modCourse f c (fun k => { k with kbs := k.kbs.map fun y =>
        if (sameKb m oslice leaf y) then { y with narrowed := true, vals := [] } else y }) d
      freeSet f c m (sendLeaves f c d)

/-- A vector's registers exist from its first term on, for every K-block of its stage in the course (R195). -/
def openKbs (f c : Nat) (m : TermMsg) (d : Dev) : Dev :=
  let stage := stgStage f c m.slot d
  if (kbVecs (courseAt f c d)).contains (m.slot, m.vec, m.layer) then d
  else modCourse f c (fun k => { k with kbs := k.kbs ++ (courseKbs (courseImg f c d) f c stage).map fun e => emptyKb m e.1 e.2 }) d

/-- A parity error that ends the vector's stream (06 R241), with its OUT_PARITY record. -/
def dataParity (f c slot t g layer stream : Nat) (d : Dev) : Dev :=
  let d := tileRecord 0x0068 f c t g layer 3 stream 0 false (bump (CS_OUTPAR f c) d)
  slotFault fcDATA_PARITY f c slot (some stream) d

/-- The same in the tree or a buffer, which belongs to no tile: the record names none (DESIGN CHOICE, notes/assumptions/141.md). -/
def slotParity (f c slot layer stream : Nat) (d : Dev) : Dev :=
  let d := errRecord 0x0068 (coursePart f c d) f c 0xFF 0xFF 0xFF layer (stgStage f c slot d) 0x30 stream 0 false (bump (CS_OUTPAR f c) d)
  slotFault fcDATA_PARITY f c slot (some stream) d

/-- The first message that meets a condition, with those before it and those after. -/
def splitFirst (w : TermMsg → Bool) : List TermMsg → Option (List TermMsg × TermMsg × List TermMsg)
  | [] => none
  | m :: r => if w m then some ([], m, r) else (splitFirst w r).map fun e => (m :: e.1, e.2)

/-- In the root course a vector's terms are sent once it has a buffer slot; those of an exact group may wait for one (R214, R217). -/
def hasSlot (f c : Nat) (m : TermMsg) (d : Dev) : Bool :=
  let x := slotAt f c m.slot d
  !isRoot f c m.slot d || (x.bufA.slots ++ x.bufB.slots).any fun u => u.vec == m.vec && u.layer == m.layer

/-- The terms the Capo sends next: the first whose vector has a slot and a register set; the others stay in the Capo (R195). What is
left of a vector whose stream has ended goes in its turn. -/
def nextTerm (f c : Nat) (d : Dev) : Option (List TermMsg × TermMsg × List TermMsg) :=
  let k := courseAt f c d
  splitFirst (fun m => !vecLive m.vec d || (kbFits k m && hasSlot f c m d)) k.capoOut

/-- Vectors whose terms wait in the Capo take buffer slots that have become free, in pass order (R214). -/
def assignWaiting (f c : Nat) (d : Dev) : Dev :=
  forEach (List.range 4) (fun s d =>
    match (slotAt f c s d).cur with
    | some q => forEach (q.vecs.filter fun v => (courseAt f c d).capoOut.any fun m => m.slot == s && m.vec == v && m.layer == q.layer)
        (assignVec f c s q) d
    | none => d) d

/-- Terms are added to their K-block register (R193), or dropped with a vector whose stream has ended. -/
def sumTerms (f c : Nat) (m : TermMsg) (d : Dev) : Dev :=
  match tileRec (courseImg f c d) f c m.wtile with
  | none => d
  | some r =>
    if !vecLive m.vec d then d
    else
      let d := openKbs f c m d
      let b := kbBase (tpCfg f c m.slot d)
      let al := m.terms.map (alignTerm b)
      let d := addCtr (CS_KBLOW f c) (al.filter fun e => e.2.1).length (addCtr (CS_KBSAT f c) (al.filter fun e => e.2.2).length d)
      let d := modCourse f c (fun k => { k with kbs := k.kbs.map fun x =>
        if (sameKb m (tOslice r) (tKblock r) x) then (addTerms b m x) else x }) d
      if m.last then settleKb f c m (tOslice r) (tKblock r) d else d

/-- A group's terms have left the Capo (04 R163). -/
def groupLeft (f c : Nat) (m : TermMsg) (d : Dev) : Dev :=
  if m.group = 0xFF then d else retirePluck f c m.pid (modPluck f c m.pid (fun p => { p with left := m.group :: p.left }) d)

/-- TAILPIECE_TERM_ARRIVAL: the terms the Capo sends next reach the Tailpiece, or fail their parity (R193-R195, R241).
`inside` is a parity error inside a K-block register. -/
def termArrival (f c : Nat) (parityErr inside : Bool) (d : Dev) : Dev :=
  let d := assignWaiting f c (purgeSets f c d)
  match nextTerm f c d with
  | none => d
  | some (pre, m, rest) =>
    if inside || (parityErr && 1 ≤ m.tries) then dataParity f c m.slot m.tile m.group m.layer m.vec.stream d
    else if parityErr then modCourse f c (fun k => { k with capoOut := pre ++ { m with tries := m.tries + 1 } :: rest }) d
    else groupLeft f c m (sumTerms f c m (modCourse f c (fun k => { k with capoOut := pre ++ rest }) d))

/-! ### Data flits and trees (R197-R203) -/

def opFmt (n : Nat) : Fmt := match n with | 0 => fE4M3 | 1 => fBF16 | 2 => fF16 | _ => fF32
def opBytes (n : Nat) : Nat := match n with | 0 => 1 | 1 => 2 | 2 => 2 | _ => 4

/-- The vector without a slot that a stream's first data flit belongs to, in pass order. -/
def passVec (f c s stream : Nat) (d : Dev) : Option (PassD × VecId) :=
  let x := slotAt f c s d
  ((passOrder x).drop x.assigned).find? fun e => e.2.stream == stream && vecLive e.2 d

/-- TAILPIECE_DATA_FLIT: leaf or operand values reach the oldest slot of the stream that lacks them (R199, R214). -/
def dataFlit (f c s stream : Nat) (payload : List Byte) (d : Dev) : Dev :=
  let w := u32 payload 0
  let kind := bits w 30 2
  let slice := bits w 9 15
  let first := bits w 0 9
  let cfg := tpCfg f c s d
  let bytes := if kind = 0 then treeBytes cfg else opBytes (if kind = 1 then bits cfg 2 2 else bits cfg 6 2)
  let n := min (flitVals bytes) (512 - first)
  let vals := (List.range n).map fun j => (first + j, leNat (bytesAt payload (4 + bytes * j) bytes))
  let key := if kind = 0 then 64 * slice + bits w 24 6 else 2 * slice + (kind - 1)
  let mapOf := fun (u : VSlot) => if kind = 0 then u.leaves else u.ops
  let lacks := fun (u : VSlot) => u.vec.stream == stream && (mget? (mgetD (mapOf u) key []) first).isNone
  let put := fun (u : VSlot) => if kind = 0 then { u with leaves := putCols u.leaves key vals } else { u with ops := putCols u.ops key vals }
  let d := ringTake f c payload d
  if kind = 3 || !isRoot f c s d || !dieAlive f d then d
  else match oldestV (slotAt f c s d) lacks with
    | some u => modVSlot f c s u put d
    | none => match passVec f c s stream d with
      | none => d
      | some (q, v) =>
        let d := assignVec f c s q v d
        match oldestV (slotAt f c s d) lacks with
        | some u => modVSlot f c s u put d
        | none => d

/-- One level of a column's tree: pairs added, an odd last value carried (R200). Values and saturation count. -/
def treeLevel (fm : Fmt) (rnd : Nat → Nat) : Nat → List Dy → List Dy × Nat
  | i, x :: y :: r =>
    let z := srRound fm (dyAdd x y) (rnd i)
    let t := treeLevel fm rnd (i + 1) r
    (z.1 :: t.1, t.2 + b2n z.2)
  | _, l => (l, 0)

def treeLevels (fm : Fmt) (rnd : Nat → Nat → Nat) : Nat → Nat → List Dy → List Dy × Nat
  | 0, _, l => (l, 0)
  | n + 1, lev, l =>
    match l with
    | _ :: _ :: _ =>
      let t := treeLevel fm (rnd lev) 0 l
      let u := treeLevels fm rnd n (lev + 1) t.1
      (u.1, u.2 + t.2)
    | _ => (l, 0)

/-- TREE_RESULT: a column whose leaves are all present leaves the tree (R200-R203), or a parity error is found in it (06 R241). -/
def treeResult (f c s slice col : Nat) (parityErr : Bool) (d : Dev) : Dev :=
  match sliceRec (courseImg f c d) (stgStage f c s d) slice with
  | none => d
  | some r =>
    let nk := slNk r
    let leaf := fun (u : VSlot) (k : Nat) => mget? (mgetD u.leaves (64 * slice + k) []) col
    let ready := fun (u : VSlot) => (mget? (mgetD u.results slice []) col).isNone && (List.range nk).all fun k => (leaf u k).isSome
    match oldestV (slotAt f c s d) ready with
    | none => d
    | some u =>
      if parityErr then slotParity f c s u.layer u.vec.stream d
      else
      let fm := treeFmt (tpCfg f c s d)
      let vals := (List.range nk).map fun k => fpVal fm ((leaf u k).getD 0)
      let t := treeLevels fm (fun l j => rand24 u.vec.seed u.layer u.vec.pos slice col (64 * l + j)) 7 1 vals
      let d := forEach (List.range t.2) (fun _ d => satMark (CS_TREESAT f c) u.vec d) d
      modVSlot f c s u (fun u => { u with results := putCols u.results slice [(col, fpOf fm (t.1.headD dyZero))] }) d

/-! ### Buffers (R215, R216) -/

def stageSlices (f c s : Nat) (d : Dev) : List (List Byte) := rootedSlices (courseImg f c d) f c (stgStage f c s d)

def fop (cfg n : Nat) : Nat := bits cfg (if n = 1 then 0 else 4) 2
def opfmt (cfg n : Nat) : Nat := bits cfg (if n = 1 then 2 else 6) 2

/-- Every column holds its result and the operands it uses (R214); a vector whose stream has ended is not waited for. -/
def slotComplete (f c s : Nat) (u : VSlot) (d : Dev) : Bool :=
  let cfg := tpCfg f c s d
  !vecLive u.vec d || (stageSlices f c s d).all fun r =>
    let sl := u16 r 2
    decide (512 ≤ (mgetD u.results sl []).length)
      && (fop cfg 1 = 0 || decide (512 ≤ (mgetD u.ops (2 * sl) []).length))
      && (fop cfg 2 = 0 || decide (512 ≤ (mgetD u.ops (2 * sl + 1) []).length))

/-- BUFFER_SEALED: the seal token leaves the tree; `wait` counts the CORE cycles spent in SEAL. -/
def bufferSealed (f c s : Nat) (b : Bool) (wait : Nat) (d : Dev) : Dev :=
  let y := bufOf (slotAt f c s d) b
  if y.st != 2 || !(y.slots.all fun u => slotComplete f c s u d) then d
  else
    let o := (courseAt f c d).orders
    let d := forEach (stagePlaces (courseImg f c d) (stgStage f c s d)) (fun x d =>
      modSlot x.1 x.2.1 x.2.2 (fun y => if y.cur.isSome then { y with passStart := d.time } else y) d) d
    modCourse f c (fun k => { k with orders := o + 1 })
      (modBuf f c s b (fun y => { y with st := 3, order := o + 1 }) (addCtr (CS_SEALWAIT f c) wait d))

/-- One fused operation (R207, R208): FP32 result and whether it was limited. A zero result is plus zero: the spec gives no sign
(DESIGN CHOICE, notes/assumptions/143.md). -/
def fused (op : Nat) (y a : Dy) : Dy × Bool :=
  if op = 1 then fpRound fF32 (dyAdd y a) else if op = 2 then fpRound fF32 (dyMul y a) else (y, false)

/-- The FP32 outputs of one slice of a vector; none when an operand is non-finite (R207-R209). -/
def slotOutputs (cfg sl : Nat) (u : VSlot) : Option (List Dy × Nat) :=
  let op := fun (n col : Nat) => fpDec (opFmt (opfmt cfg n)) (mgetD (mgetD u.ops (2 * sl + n - 1) []) col 0)
  let need := fun (n : Nat) => fop cfg n != 0
  if (List.range 512).any (fun col => (need 1 && (op 1 col).isNone) || (need 2 && (op 2 col).isNone)) then none
  else
    let l := (List.range 512).map fun col =>
      let y := fpVal (treeFmt cfg) (mgetD (mgetD u.results sl []) col 0)
      let a := if need 1 then fused (fop cfg 1) y ((op 1 col).getD dyZero) else (y, false)
      let b := if need 2 then fused (fop cfg 2) a.1 ((op 2 col).getD dyZero) else (a.1, false)
      (b.1, b2n a.2 + b2n b.2)
    some (l.map (·.1), (l.map (·.2)).foldl (· + ·) 0)

def emptyEf : EfSet := { valid := false, stream := 0, pos := 0, exp := 0, rho := [] }
def efAt (f c k : Nat) (d : Dev) : EfSet := mgetD (courseAt f c d).ef k emptyEf
def putEf (f c k : Nat) (e : EfSet) (d : Dev) : Dev := modCourse f c (fun y => { y with ef := mput y.ef k e }) d

/-- The feedback terms R(i) of R140. -/
def efTerms (on : Bool) (e : EfSet) (v : VecId) : List Dy :=
  if on && e.valid && e.stream = v.stream && e.pos + 1 = v.pos then
    (List.range 512).map fun i => ⟨e.rho.getD i 0, (e.exp : Int) - 127 - 5⟩
  else List.replicate 512 dyZero

/-- A G4 output slice: conditioned with error feedback and sent with its outliers (03 R130-R141). -/
def sendG4 (f c s p stage sl efpos : Nat) (v : VecId) (y : List Dy) (d : Dev) : Dev :=
  let q := qCfg f c s d
  let on := bit q 8 && efpos < 32
  let e := efAt f c efpos d
  let k := conditionFin (bit q 9) (bits q 4 4) y (efTerms on e v)
  let d := addCtr (CS_XOUTCNT f c) k.outs.length d
  let d := if k.zero then bump (CS_SLICEZERO f c) d else d
  let d := if k.clamped then flagStream v.stream v.pos 0 (bump (CS_SLICECLAMP f c) d) else d
  let d := if !on then d
    else if k.clamped then putEf f c efpos { e with valid := false, rho := k.resid } d
    else putEf f c efpos { valid := true, stream := v.stream, pos := v.pos, exp := k.scale, rho := k.resid } d
  sendSlice p f stage sl k.scale v.stream (slicePayload k.codes) (if k.outs.isEmpty then [] else outPayload k.outs) d

/-- Operand flits of a slice to every destination of use 1 or 2. -/
def sendOperands (p b stage sl use stream bytes : Nat) (vals : List Nat) (d : Dev) : Dev :=
  forEach (routeDests (imgOf p d) stage sl use (streamHome stream d)) (fun x d =>
    forEach (dataFlits use 0 x.2.2.2.1 bytes vals) (fun pay d =>
      fretInject p b (mkFlitHdr x.1 b p x.2.2.1 x.2.1 0xFE stream) pay d) d) d

/-- A wide output slice in the stage's OUT_FMT (R142), as input slices and as operands. The spec gives a wide slice sent as input no flit
form: the model uses data flits of the reserved KIND 3 with SCALE 0 (DESIGN CHOICE, notes/assumptions/142.md). -/
def sendWide (f c s p stage sl : Nat) (v : VecId) (y : List Dy) (d : Dev) : Dev :=
  let fmt := bits (qCfg f c s d) 10 2
  let o := y.map (wideOut fmt)
  let bytes := if fmt = 3 then 2 else 1
  let d := addCtr (CS_FP8SAT f c) (o.filter (·.2)).length d
  let d := forEach (routeDests (imgOf p d) stage sl 0 (streamHome v.stream d)) (fun x d =>
    forEach (dataFlits 3 0 x.2.2.2.1 bytes (o.map (·.1))) (fun pay d =>
      fretInject p f (mkFlitHdr x.1 f p x.2.2.1 x.2.1 0 v.stream) pay d) d) d
  forEach [1, 2] (fun use d => sendOperands p f stage sl use v.stream bytes (o.map (·.1)) d) d

/-- Error feedback after a non-finite value: the sets of the vector's slices are void (03 R140). -/
def voidEf (f c s : Nat) (d : Dev) : Dev :=
  if !bit (qCfg f c s d) 8 then d
  else forEach (((stageSlices f c s d).map slEfpos).filter (· < 32)) (fun k d =>
    putEf f c k { efAt f c k d with valid := false, rho := List.replicate 512 0 } d) d

/-- One vector slot leaves through the drain path (R207-R210). A non-finite operand leaves no output of the vector, so every slice of it
has the outcome Non-finite of 03 R140. -/
def drainSlot (f c s : Nat) (u : VSlot) (d : Dev) : Dev :=
  if !vecLive u.vec d then d
  else
    let cfg := tpCfg f c s d
    let p := coursePart f c d
    let stage := stgStage f c s d
    let outs := (stageSlices f c s d).map fun r => (u16 r 2, slEfpos r, slotOutputs cfg (u16 r 2) u)
    if outs.any (fun o => o.2.2.isNone) then endStream u.vec.stream 0x10 (bump (CS_NONFINITE f c) (voidEf f c s d))
    else forEach outs (fun o d =>
      match o.2.2 with
      | none => d
      | some (y, sat) =>
        let d := forEach (List.range sat) (fun _ d => satMark (CS_TREESAT f c) u.vec d) d
        if bits (qCfg f c s d) 10 2 = 0 then sendG4 f c s p stage o.1 o.2.1 u.vec y d
        else sendWide f c s p stage o.1 u.vec y d) d

/-- BUFFER_DRAIN_START: a SEALED buffer drains while no other of the stage does, in the order sealed (R215, R218). `par` names a slot of it
in which a parity error is found (06 R241). -/
def bufferDrainStart (f c s : Nat) (b : Bool) (par : Option Nat) (d : Dev) : Dev :=
  let x := slotAt f c s d
  let y := bufOf x b
  let o := bufOf x (!b)
  if y.st != 3 || o.st = 4 || (o.st = 3 && o.order < y.order) then d
  else match par.bind fun i => y.slots[i]? with
  | some u => slotParity f c s u.layer u.vec.stream d
  | none => forEach y.slots (fun u d => drainSlot f c s u d) (modBuf f c s b (fun y => { y with st := 4 }) d)

/-- BUFFER_DRAIN_DONE: the last output flit has left (R215); the stage's pass timers start again (16 R609). -/
def bufferDrainDone (f c s : Nat) (b : Bool) (d : Dev) : Dev :=
  if (bufOf (slotAt f c s d) b).st != 4 then d
  else
    let o := (courseAt f c d).orders
    let d := forEach (stagePlaces (courseImg f c d) (stgStage f c s d)) (fun x d =>
      modSlot x.1 x.2.1 x.2.2 (fun y => if y.cur.isSome then { y with passStart := d.time } else y) d) d
    modCourse f c (fun k => { k with orders := o + 1 })
      (modBuf f c s b (fun _ => { st := 0, slots := [], order := o + 1 }) (bump (CS_DRAINCNT f c) d))

/-! ### The end of a pass (04 R174-R176) -/

/-- The CAPO_OVERFLOW advisory (R176). -/
def capoAdvisory (f c s layer : Nat) (a : AdvTag) (d : Dev) : Dev :=
  let p := coursePart f c d
  let stage := stgStage f c s d
  let d := regPut (CS_ADVLAST f c) (BitVec.ofNat 32 (layer * 2 ^ 16 + stage * 2 ^ 8 + s)) (bump (CS_ADVCNT f c) d)
  raiseEvent p 0x0041 (leBytes 1 (b2n (capoClip f c s d)) ++ leBytes 1 f ++ leBytes 1 c ++ leBytes 1 stage ++ [0#8] ++ leBytes 2 layer
    ++ [0#8, 0#8] ++ leBytes 4 a.ovf ++ leBytes 4 a.excess ++ leBytes 4 a.peak ++ timeBytes d) false d

/-- Account one pass of a layer (R174, R175); tags are kept most recently used first. -/
def advisoryPass (f c s : Nat) (q : PassD) (d : Dev) : Dev :=
  let x := slotAt f c s d
  let heavy := decide (0 < x.ovf) && decide (x.wins ≤ 64 * x.ovf)
  let old := (x.adv.find? fun a => a.layer == q.layer).getD { layer := q.layer, count := 0, ovf := 0, excess := 0, peak := 0 }
  let new_ : AdvTag := if heavy then { old with count := old.count + 1, ovf := old.ovf + x.ovf, excess := old.excess + x.excess, peak := max old.peak x.peak }
    else { layer := q.layer, count := 0, ovf := 0, excess := 0, peak := 0 }
  let fire := new_.count = 4
  let kept : AdvTag := if fire then { layer := q.layer, count := 0, ovf := 0, excess := 0, peak := 0 } else new_
  let d := modSlot f c s (fun x => { x with adv := (kept :: x.adv.filter fun a => a.layer != q.layer).take 64 }) d
  let recent := match mget? x.advLast q.layer with | some t => decide (since t d < sec 1) | none => false
  if fire && capoAdv f c s d && !recent then
    capoAdvisory f c s q.layer new_ (modSlot f c s (fun x => { x with advLast := mput x.advLast q.layer d.time }) d)
  else d

/-- PASS_END: every tile of the slot has taken every live vector of its pass. -/
def passEnd (f c s : Nat) (d : Dev) : Dev :=
  match (slotAt f c s d).cur with
  | none => d
  | some q =>
    let k := courseAt f c d
    let taken := (servers f c s d).all fun t => (nextVec q (tileAt f c t d).taken d).isNone && (tileAt f c t d).next.isNone
    let cov := (stageTiles (courseImg f c d) f c (stgStage f c s d)).all fun w =>
      physOf f c w d != 0x3F || (nextVec q (mgetD k.covTaken w 0) d).isNone
    let slots := isRoot f c s d && ((q.vecs.drop (slotAt f c s d).assigned).any fun v => vecLive v d)
    if !taken || !cov || slots || slotHeld f c s d then d
    else
      let d := advisoryPass f c s q d
      let mine := fun (y : Buf) => (y.slots.getLast?.map fun u => u.batch == q.batch && u.layer == q.layer).getD false
      let close := fun (y : Buf) => if y.st = 1 && mine y then { y with st := 2 } else y
      modSlot f c s (fun x =>
        { x with cur := none, taken := 0, assigned := x.assigned - q.vecs.length, bufA := close x.bufA, bufB := close x.bufB }) d

end Sys2Proof.Machine
end

