-- ==== Sys2Proof/Machine/SelfTest.lean ====
section
/-! DEFINITION. Self-tests, observation and the return to service (06 R246-R256, R266). -/

namespace Sys2Proof.Machine

/-- A tile stands out of service: no working tile is served by it. -/
def outOfService (f c t : Nat) (d : Dev) : Bool :=
  match wtileOf f c t d with | none => true | some w => !(courseTiles f c d).contains w

/-- The first self-test wanted of a tile: it runs, or runs next. -/
def testOf (f c t : Nat) (d : Dev) : Option TestReq := (courseAt f c d).tests.find? fun q => q.tile == t

/-- Change the first self-test of a tile, or drop it. -/
def updTest (t : Nat) (g : TestReq → Option TestReq) : List TestReq → List TestReq
  | [] => []
  | q :: r => if q.tile = t then (g q).toList ++ r else q :: updTest t g r

/-- SELFTEST_START: a waiting test gets its turn on a tile out of service to which no pluck refers any more (R253, R256, R97). -/
def selftestStart (f c t : Nat) (d : Dev) : Dev :=
  match testOf f c t d with
  | none => d
  | some q =>
    if q.running || !dieAlive f d || !turnFree f c d || !outOfService f c t d || planeRefs f c t false d || planeRefs f c t true d then d
    else
      modTile f c t (fun x => { x with inTest := true, pa := emptyPlane, pb := emptyPlane })
        (modCourse f c (fun k => { k with tests := updTest t (fun y => some { y with running := true }) k.tests }) d)

def dropTest (f c t : Nat) (d : Dev) : Dev := modCourse f c (fun k => { k with tests := updTest t (fun _ => none) k.tests }) d

/-- An hour of observation starts: 360 periodic self-tests, 10 s apart. -/
def startObservation (f c t : Nat) (d : Dev) : Dev :=
  modTile f c t (fun x => { x with tstate := 1, suspect := false, obsLeft := 360, obsFrom := d.time, scanFrom := d.time }) d

def retiredCount (x : Tile) : Nat := ((List.range 512).filter fun c => x.ret.getLsbD c).length

/-- A column joins the retired-column mask while both planes are EMPTY (02 R70, R254). -/
def retireColumn (f c t col : Nat) (d : Dev) : Dev :=
  let x := tileAt f c t d
  if x.ret.getLsbD (col % 512) || 4 ≤ retiredCount x || x.pa.st != 0 || x.pb.st != 0 then d
  else bump (CS_COLRETIRE f c) (modTile f c t (fun x => { x with ret := x.ret ||| BitVec.ofNat 512 (2 ^ (col % 512)) }) d)

/-- A tile that may return is assigned its working tile again (R249 step 6). -/
def returnToService (f c t : Nat) (d : Dev) : Dev :=
  let x := tileAt f c t d
  if x.home = 0 || x.tstate = 2 then d
  else
    let w := x.home - 1
    if (courseTiles f c d).contains w && physOf f c w d != t && (mget? (courseAt f c d).assigned w).isNone then assignTile f c w t d
    else d

/-- A Keeper command of a die still waits or runs. -/
def keeperWaits (f : Nat) (d : Dev) : Bool := (List.range 16).any fun c => (courseAt f c d).tests.any fun q => q.keeper != 0

/-- A Keeper command's results (R266); DONE tells that the last command given has finished. -/
def keeperDone (f kat scan : Nat) (d : Dev) : Dev :=
  let was := (mgetD d.fret.cmds f freshCmd).done
  { d with fret := { d.fret with cmds := mput d.fret.cmds f { done := was || !keeperWaits f d, kat := kat, scan := scan } } }

/-- The SELFTEST record of a COLUMN or FAIL result (R254, R259). -/
def testRecord (f c t res col : Nat) (d : Dev) : Dev :=
  if res = 0 then d
  else tileRecord 0x0064 f c t (if res = 1 then col % 512 / 64 else 0xFF) 0xFFFF res 0x3FFFF (if res = 1 then 2 ^ (col % 64) else 0) false d

/-- A PASS starts an observation (R246, R254). -/
def passObserved (f c t : Nat) (d : Dev) : Dev :=
  addField (CS_TFAULT f c t) 0 8 1 (bump (CS_TRANSIENT f c) (startObservation f c t d))

/-- A COLUMN or FAIL result and its record (R246, R254, R266): the tile is retired, or the column is, and the tile is observed from then
on. A retired tile stays retired. -/
def classifyBad (f c t res col : Nat) (d : Dev) : Dev :=
  let x := tileAt f c t d
  testRecord f c t res col
    (if x.tstate = 2 then (if res = 1 then retireColumn f c t col d else d)
     else if res = 2 || 4 ≤ retiredCount x then retireTile f c t d
     else startObservation f c t (retireColumn f c t col d))

/-- One result of a self-test (R246, R254). -/
def classify (f c t res col : Nat) (q : TestReq) (d : Dev) : Dev :=
  let x := tileAt f c t d
  if res != 0 then classifyBad f c t res col d
  else if q.keeper != 0 || x.tstate = 2 then d
  else if x.tstate = 1 && x.suspect then passObserved f c t d
  else if q.periodic then modTile f c t (fun x => { x with obsLeft := x.obsLeft - 1, scanFrom := d.time }) d
  else d

/-- A Keeper reinstatement with both results PASS takes a retired tile out of the map (R246, R248, R254). -/
def reinstateTile (f c t : Nat) (d : Dev) : Dev :=
  if (tileAt f c t d).tstate = 2 then passObserved f c t (putRetMap ((retMap d).filter (· != retKey f c t)) d) else d

/-- KAT runs on the tiles of a die before its calibration: in a cold bring-up, and in a reset of the die (R253, R255). -/
def katRuns (f : Nat) (d : Dev) : Bool :=
  (d.rst.phase == .booted && d.peg.fwOk && d.rst.scope != .warm && (dieAt f d).cal != 0)
    || (d.rst.phase == .idle && (dieAt f d).cal != 0 && d.rst.subs.any fun x => x.scope == .die && x.die == f)

/-- A KAT result of the bring-up: a tile that fails is retired without a SCAN (R255), and a COLUMN result retires the column (R254). -/
def bringUpKat (f c t kat col : Nat) (d : Dev) : Dev :=
  if !katRuns f d || (tileAt f c t d).tstate = 2 || 32 < t || 2 < kat then d
  else
    let d := bump (CS_SELFTEST f c) (modTile f c t (fun x => { x with lastRes := kat }) d)
    if kat = 1 && retiredCount (tileAt f c t d) < 4 then testRecord f c t 1 col (retireColumn f c t col d)
    else if kat = 0 then d
    else testRecord f c t kat col (retireTile f c t d)

/-- SELFTEST_RESULT: results of KAT and SCAN (0 PASS, 1 COLUMN, 2 FAIL, 3 not run), each with its column. A Keeper command runs both, the
suspect flow and an observation SCAN alone; during the bring-up of the die the result is KAT's (R255). -/
def selftestResult (f c t kat scan katCol scanCol : Nat) (d : Dev) : Dev :=
  match testOf f c t d with
  | none => bringUpKat f c t kat katCol d
  | some q =>
    if !q.running || 2 < scan || (q.keeper != 0 && 2 < kat) then d
    else
      let d := addCtr (CS_SELFTEST f c) (if q.keeper = 0 then 1 else 2) d
      let d := dropTest f c t (modTile f c t (fun x => { x with inTest := false, lastRes := scan }) d)
      let d := if q.keeper = 0 then d else classify f c t kat katCol q d
      let d := classify f c t scan scanCol q d
      let d := if q.keeper = 2 && kat = 0 && scan = 0 then reinstateTile f c t d else d
      let d := if q.keeper = 0 || kat != 0 || scan != 0 then modTile f c t (fun x => { x with suspect := false }) d else d
      returnToService f c t (if q.keeper = 0 then d else keeperDone f kat scan d)

/-- PERIODIC_SCAN_DUE: 10 s after the last one, an observed tile asks for a SCAN (R247), by steps 2 to 6 of R249. -/
def periodicScanDue (f c t : Nat) (d : Dev) : Dev :=
  let x := tileAt f c t d
  if !dieAlive f d || x.tstate != 1 || x.suspect || x.inTest || x.obsLeft = 0 || since x.scanFrom d < sec 10 || (testOf f c t d).isSome then d
  else
    let d := modCourse f c (fun k => { k with tests := k.tests ++ [{ tile := t, keeper := 0, periodic := true, running := false }] }) d
    match wtileOf f c t d, freeSpare f c d with
    | some w, some sp => if (courseTiles f c d).contains w then assignTile f c w sp d else d
    | _, _ => d

/-- OBSERVATION_END: an hour in which every periodic self-test passed (R246). A tile that is to return to service serves its working tile. -/
def observationEnd (f c t : Nat) (d : Dev) : Dev :=
  let x := tileAt f c t d
  if x.tstate != 1 || x.suspect || x.inTest || since x.obsFrom d < sec 3600 || (testOf f c t d).isSome then d
  else modTile f c t (fun x => { x with tstate := if outOfService f c t d && !isAssigned f c t d then 3 else 0, obsLeft := 0 }) d

/-- A Keeper command of FT_TILECTL on course `c`, tile `t` (R266): 1 test, 2 reinstate. It waits behind a test already wanted of the tile. -/
def tileCommand (f action c t : Nat) (d : Dev) : Dev :=
  if 32 < t || !(action = 1 || action = 2) then d
  else
    let cmd := fun (done : Bool) (d : Dev) =>
      { d with fret := { d.fret with cmds := mput d.fret.cmds f { done := done, kat := 3, scan := 3 } } }
    if action = 2 && (tileAt f c t d).tstate != 2 then cmd true d
    else
      let d := cmd false (modCourse f c (fun k =>
        { k with tests := k.tests ++ [{ tile := t, keeper := action, periodic := false, running := false }] }) d)
      if (mget? (courseAt f c d).assigned ((wtileOf f c t d).getD 32)).isSome then d
      else
      match wtileOf f c t d, freeSpare f c d with
      | some w, some sp => if (courseTiles f c d).contains w && (tileAt f c t d).tstate < 2 then assignTile f c w sp d else d
      | _, _ => d

end Sys2Proof.Machine
end

