-- ==== Sys2Proof/Machine/Drone.lean ====
section
/-! DEFINITION. The Drone (07 R269-R290; 04 R177, R178; 06 R257): samples, refits, quality figures, bands, fold-limit
adaptation, and the commit of a calibration. -/

namespace Sys2Proof.Machine

/-- 168 over LSB2: scales values in product units to 1/84 of a data LSB. -/
def lsbUnits (step : Nat) : Int := [42, 28, 24, 21].getD step 21

/-- The nearest integer to x / y, ties to even; y is not 0. -/
def rneDy (x y : Dy) : Int :=
  let s : Int := if y.m < 0 then -1 else 1
  if y.e ≤ x.e then rheDiv (s * x.m * 2 ^ (x.e - y.e).toNat) (s * y.m)
  else rheDiv (s * x.m) (s * y.m * 2 ^ (y.e - x.e).toNat)

/-- The nearest integer to the square root of n / k, ties to even. -/
def rneSqrt (n k : Nat) : Nat :=
  let r := isqrt (n / k)
  let l := 4 * n
  let m := (4 * r * r + 4 * r + 1) * k
  if m < l then r + 1 else if l < m then r else if r % 2 = 0 then r else r + 1

/-- QF or QH of a mean square in (1/84 LSB)^2 (R283): 588 is 1/12. -/
def qualityOf (mse : Dy) : Nat :=
  let x := dySub mse (dyInt 588)
  if x.m ≤ 0 then 0
  else
    let n := if 0 ≤ x.e then x.m.natAbs * 2 ^ x.e.toNat else x.m.natAbs
    let k := if 0 ≤ x.e then 1 else 2 ^ (-x.e).toNat
    if 4096 * 4096 * 7056 * k < n * 1000000 then 4095 else min 4095 (rneSqrt (n * 1000000) (7056 * k))

def zeroSums : FitSums := { s0 := dyZero, su := dyZero, sq := dyZero, suu := dyZero, suq := dyZero, n := 0 }

/-- The running sums after one sample (R281); `u` in 1/84 LSB. -/
def addSample (u : Dy) (q : Int) (s : FitSums) : FitSums :=
  let f := fun (x : Dy) => dyMul x ⟨4095, -12⟩
  { s0 := dyAdd (f s.s0) (dyInt 1), su := dyAdd (f s.su) u, sq := dyAdd (f s.sq) (dyInt q),
    suu := dyAdd (f s.suu) (dyMul u u), suq := dyAdd (f s.suq) (dyMul u (dyInt q)), n := s.n + 1 }

/-- Columns of a sample that R279 does not exclude. -/
def sampledCols (p : Pluck) : List Nat :=
  (p.codes.filter fun e => !clippedCode e.2 && mgetD p.outcome (groupOf e.1) 9 ≤ 1).map (·.1)

/-- A sample is complete: its pluck is converted and every group of it settled. -/
def sampleReady (x : Tile) (p : Pluck) : Bool :=
  p.converted && (liveGroups (scanMask x)).all fun g => (mget? p.outcome g).isSome

/-- The escapes of a sample (06 R257): data columns of a group that passed or was settled NOFAULT whose converted value went into
the sum and misses the exact one by more than BANDC. A column that an exact recompute replaced sent no converted value (06 R225). -/
def escapedCols (k : Nat) (p : Pluck) : List Nat :=
  (List.range 512).filter fun c =>
    ((mget? p.codes c).isSome || (mget? p.trimmed c).isSome) && (mget? p.exact c).isNone && decide (mgetD p.outcome (c / 64) 9 ≤ 1)
      && decide ((2 * lsb2 p.step * bandC k p.qf).natAbs < (checkVal p c - 64 * mgetD p.bank c 0).natAbs)

/-- DRONE_SAMPLE_DONE: the oldest complete sample of a course reaches the Drone. Its exact values are those of the cells at the pluck, whatever
has become of the plane since (DESIGN CHOICE, notes/assumptions/144.md). -/
def droneSampleDone (f c : Nat) (d : Dev) : Dev :=
  match (courseAt f c d).samples.find? fun s => sampleReady (tileAt f c s.pluck.tile d) s.pluck with
  | none => d
  | some s =>
    let p := s.pluck
    let t := p.tile
    let d := bump (CS_SAMPLECNT f c) (modCourse f c (fun k => { k with samples := k.samples.filter fun y => y.pluck.id != p.id }) d)
    let k := lsbUnits p.step
    let upd := fun (x : Tile) (col : Nat) =>
      let v := mgetD p.bank col 0
      let q := mgetD p.codes col 0
      let tq := trimmed (mgetD p.trims col zeroTrim) p.step col q
      let h := decide (512 ≤ col)
      let sh : Int := if h then -4 else 0
      let u : Dy := ⟨v * k, sh⟩
      let e : Dy := ⟨(tq - 64 * v) * k, sh - 6⟩
      let avg := fun (m : Dy) => dyAdd m (dyScale (dySub (dyMul e e) m) (-16))
      let key := 520 * s.band + col
      { x with sums := mput x.sums key (addSample u q (mgetD x.sums key zeroSums)),
               mseF := if h then x.mseF else avg x.mseF, mseH := if h then avg x.mseH else x.mseH }
    let d := modTile f c t (fun x => let y := (sampledCols p).foldl upd x; { y with nsamp := y.nsamp + 1 }) d
    match escapedCols (hcK f c p.slot d) p with
    | [] => d
    | col :: more =>
      let g := col / 64
      tileRecord 0x006A f c t g p.layer 3 p.vec.stream (colMask g ((col :: more).filter fun y => y / 64 == g)) false
        (markSuspect f c t (bump (CS_ESCAPE f c) d))

/-- The refitted entry (R281) and whether it was limited. Where the slope is 0 the fitted gain is `free`, a free value (DESIGN CHOICE,
notes/assumptions/157.md). -/
def refit (s : FitSums) (e : Trim) (free : Int) : Trim × Bool :=
  let bn := dySub (dyMul s.s0 s.suu) (dyMul s.su s.su)
  let an := dyMul (dyInt 84) (dySub (dyMul s.s0 s.suq) (dyMul s.su s.sq))
  let fit := dyLe (dyMul (dyInt (64 * 84 * 84)) (dyMul s.s0 s.s0)) bn
  let g : Int := if !fit then e.gain else if an.m = 0 then free else rneDy (dyMul (dyInt 16384) (dySub bn an)) an
  let one := dyInt (84 * (16384 + e.gain))
  let o : Int := if fit then
      rneDy (dyMul (dyInt 64) (dySub (dyMul s.sq (dyMul (dyInt 84) bn)) (dyMul an s.su))) (dyMul s.s0 (dyMul (dyInt 84) bn))
    else rneDy (dyMul (dyInt 64) (dySub (dyMul s.sq one) (dyMul (dyInt 16384) s.su))) (dyMul s.s0 one)
  let g := max (e.gain - 32) (min (e.gain + 32) g)
  let o := max (e.off - 16) (min (e.off + 16) o)
  let lim := decide (g < -2048) || decide (2047 < g) || decide (o < -512) || decide (511 < o)
  ({ gain := max (-2048) (min 2047 g), off := max (-512) (min 511 o), stale := false, derived := false }, lim)

/-- DRONE_REFIT: after 256 samples of a column its entry is fitted anew (R281, R282). -/
def droneRefit (f c t band col : Nat) (d : Dev) : Dev :=
  let x := tileAt f c t d
  let key := 520 * (band % 4) + col % 520
  let s := mgetD x.sums key zeroSums
  if s.n < 256 then d
  else
    let d := modTile f c t (fun x => { x with sums := mput x.sums key { s with n := s.n - 256 } }) d
    if dyLt s.s0 (dyInt 1024) then d
    else
      let (n, d) := draw d
      let r := refit s (trimEntry f x (band % 4) (col % 520) d) (Config.freeWord n).toInt
      let d := modTile f c t (fun x => { x with tables := mput x.tables key r.1 }) d
      if r.2 then bump (FT_TRIMLIM f) d else d

/-- A DRONE_QUALITY advisory where a tile's published figure exceeds the bound, at most one per tile in 10 s (R284). -/
def qualityAlarm (f c t : Nat) (d : Dev) : Dev :=
  let x := tileAt f c t d
  let due := match x.qalarm with | some a => decide (sec 10 ≤ since a d) | none => true
  if (1768 < x.qf || 1768 < x.qh) && due then
    let d := bump (FT_QALARM f) (modTile f c t (fun x => { x with qalarm := some d.time }) d)
    raiseEvent (coursePart f c d) 0x0042 (leBytes 1 f ++ leBytes 1 c ++ leBytes 1 t ++ leBytes 1 (dieAt f d).band ++ [0#8]
      ++ leBytes 2 x.qf ++ leBytes 2 x.qh ++ leBytes 4 (regGet (FT_TRIMLIM f) d).toNat ++ timeBytes d) false d
  else d

/-- QUALITY_PUBLISH: after 256 samples of a tile (R283, R284, R286). -/
def qualityPublish (f c t : Nat) (d : Dev) : Dev :=
  let x := tileAt f c t d
  if x.nsamp < 256 then d
  else qualityAlarm f c t (modTile f c t (fun x =>
    { x with qf := qualityOf x.mseF, qh := qualityOf x.mseH, nsamp := x.nsamp - 256, qSeq := (dieAt f d).bandSeq }) d)

/-- FOLD_WINDOW_END: 65,536 plucks of a stage in a course (R290). -/
def foldWindowEnd (f c s : Nat) (d : Dev) : Dev :=
  let x := slotAt f c s d
  if x.fplucks < 65536 || !bit (drnCfg f c s d) 8 then d
  else
    let eff := stgFold f c s d
    let lim := bits (stgCfg f c s d) 0 2
    let flow := if x.fmarks ≤ 512 then x.flow + 1 else 0
    let d := modSlot f c s (fun y => { y with fplucks := 0, fmarks := 0, flow := flow }) d
    let set := fun (n ctr : Nat) (d : Dev) =>
      choice (coursePart f c d) true (bump ctr (regSetField (CS_STGCFG0 f c + 4 * s) 2 2 n
        (modSlot f c s (fun y => { y with flow := 0 }) d)))
    if 8192 ≤ x.fmarks && 0 < eff then set (eff - 1) (CS_FOLDDN f c) d
    else if 4 ≤ flow && eff < lim then set (eff + 1) (CS_FOLDUP f c) d
    else d

/-! ### Bands (R269-R273) -/

/-- The band of a temperature in 1/64 degree. -/
def bandOf (t : Int) : Nat := if 5760 ≤ t then 3 else if 4480 ≤ t then 2 else if 2880 ≤ t then 1 else 0
def bandLow (b : Nat) : Int := [-32768, 2880, 4480, 5760].getD b 5760

/-- The band after a reading (R270). -/
def bandNext (b : Nat) (t : Int) : Nat := if b < bandOf t then bandOf t else if t ≤ bandLow b - 128 then bandOf t else b

/-- A die's highest reading decides its band, HOT and, on a Bridge, the refresh rate (R269-R273). -/
def bandUpdate (die : Nat) (d : Dev) : Dev :=
  match dieMax die true d with
  | none => d
  | some t =>
    if 28 ≤ die then d
    else
      let y := dieAt die d
      let b := bandNext y.band t
      let d := modDie die (fun y => { y with band := b, hot := decide (6720 < t), dblref := decide (16 ≤ die) && b = 3,
                                             bandSeq := if b = y.band then y.bandSeq else y.bandSeq + 1 }) d
      if b ≠ y.band && die < 12 then bump (FT_BANDCNT die) d else d

/-- SENSOR_SAMPLE: the sequencer writes one die sensor's result (17 R646, 15 R590). -/
def sensorSample (die k : Nat) (v : Half) (d : Dev) : Dev :=
  thermalCheck (bandUpdate die (fastUpdate die (snWrite die k v d)))

/-- POWER_SENSOR_SAMPLE: a Bridge's band follows the readings of its stacks too (R269). -/
def powerSensorSample (hbms : List (Nat × Nat × Half)) (vin iin pin : Half) (d : Dev) : Dev :=
  forEach hbms (fun e => bandUpdate (16 + e.1 % 12)) (powerSample hbms vin iin pin d)

/-! ### Calibration (R274-R278) -/

def fitBad (x : Fit) : Bool := decide (x.gain < -2048) || decide (2047 < x.gain) || decide (x.off < -512) || decide (511 < x.off)

/-- A fit out of range retires the column, or the tile when it is a harmonic column or the fifth (R277); a column that is
retired already is not fitted. -/
def fitRange (f : Nat) (x : Fit) (d : Dev) : Dev :=
  if !fitBad x || (decide (x.col < 512) && (tileAt f x.course x.tile d).ret.getLsbD x.col) then d
  else if 512 ≤ x.col || 4 ≤ retiredCount (tileAt f x.course x.tile d) then
    (if (tileAt f x.course x.tile d).tstate = 2 then d else retireTile f x.course x.tile d)
  else bump (FT_CALRETIRE f)
    (modTile f x.course x.tile (fun y => { y with ret := y.ret ||| BitVec.ofNat 512 (2 ^ (x.col % 512)) }) d)

/-- Tiles of a die that hold anything beyond their reset value, as (course, tile). -/
def heldTiles (f : Nat) (d : Dev) : List (Nat × Nat) :=
  (d.fret.tiles.filter fun e => e.1 / 1024 == f).map fun e => (e.1 / 64 % 16, e.1 % 64)

/-- The commit of a die's calibration, 1 full or 2 quick (R276, R278, R286): fits in range enter the table of the current band; a full one
replaces all four tables. `temp` is T of R276. -/
def calCommit (f : Nat) (temp : Int) (fits : List Fit) (mses : List CalMse) (d : Dev) : Dev :=
  let y := dieAt f d
  let d := forEach fits (fitRange f) d
  let good := fits.filter fun x => !fitBad x
  let d := if y.cal = 1 then
      let d := forEach (heldTiles f d) (fun e d => modTile f e.1 e.2 (fun x =>
        { x with base := [], tables := [], sums := [], lfsr := lfsrSeed e.2, mseF := dyZero, mseH := dyZero, qf := 0, qh := 0, qSeq := 0,
                 nsamp := 0 }) d) d
      forEach good (fun x d => modTile f x.course x.tile (fun t => { t with base := mput t.base x.col (x.gain, x.off) }) d) d
    else
      forEach (good.filter fun x => decide (x.col < 512)) (fun x d => modTile f x.course x.tile (fun t =>
        { t with tables := mput t.tables (520 * y.band + x.col) { gain := x.gain, off := x.off, stale := false, derived := false } }) d)
        (forEach (heldTiles f d) (fun e d => modTile f e.1 e.2 (fun x => { x with qSeq := 0 }) d) d)
  let d := forEach mses (fun m d => qualityAlarm f m.course m.tile (modTile f m.course m.tile (fun x =>
    { x with mseF := m.mseF, mseH := m.mseH, qf := qualityOf m.mseF, qh := qualityOf m.mseH, qSeq := 0 }) d)) d
  modDie f (fun z => if y.cal = 1 then { z with cal := 0, calT := temp, calBand := z.band, derived := true, bandSeq := 0 }
                     else { z with cal := 0, bandSeq := 0 }) d

end Sys2Proof.Machine
end

