-- ==== Sys2Proof/Machine/Loads.lean ====
section
/-! DEFINITION. Weight images, load windows, epochs, adapters and the far tier (08 R299-R334). -/

namespace Sys2Proof.Machine

/-! ### Windows -/

def windowAt (n : Nat) (d : Dev) : Option Window := d.loads.windows.find? fun w => w.num == n
def modWindow (n : Nat) (f : Window → Window) (d : Dev) : Dev :=
  { d with loads := { d.loads with windows := d.loads.windows.map fun w => if w.num = n then f w else w } }
def dropWindow (n : Nat) (d : Dev) : Dev :=
  { d with loads := { d.loads with windows := d.loads.windows.filter fun w => w.num != n } }

def modelWindow (p m : Nat) (d : Dev) : Option Window :=
  d.loads.windows.find? fun w => w.part == p && w.model == m && w.adapter.isNone
def slotWindow (slot : Nat) (d : Dev) : Option Window := d.loads.windows.find? fun w => w.adapter == some slot

def freeWindow (d : Dev) : Option Nat := (List.range 1024).find? fun n => (windowAt n d).isNone

def payloadCounts (l : List Byte) : List Nat := (List.range 12).map fun b => u16 l (0x10 + 2 * b)

def liveEpochs (p m : Nat) (d : Dev) : List Epoch := d.loads.epochs.filter fun e => e.part == p && e.model == m

/-- Retire-by of a retirement that starts now (R323): none when RETIRE_AFTER is 0. -/
def retireByOf (after : Nat) (d : Dev) : Option DWord := if after = 0 then none else some (d.time + BitVec.ofNat 64 (sec after))

def retireEpoch (p m after : Nat) (by_ : Option Nat) (d : Dev) : Dev :=
  { d with loads := { d.loads with epochs := d.loads.epochs.map fun e =>
    if e.part = p ∧ e.model = m ∧ !e.retiring then { e with retiring := true, retireBy := retireByOf after d, retiredBy := by_ } else e } }

/-- The fields of R306 that an OK reply adds. -/
def windowReply (n : Nat) : List Byte :=
  leBytes 2 n ++ [0#8, 0#8] ++ leBytes 4 (Config.windowKey n).toNat ++ leBytes 8 (Config.windowVa n).toNat

def windowOf (n p m : Nat) (ad : Option Nat) (rank : Nat) (epoch layout : Word) (after : Nat) (drain : Bool) (counts : List Nat)
    (place : List (List Nat)) (d : Dev) : Window :=
  { num := n, part := p, model := m, adapter := ad, rank := rank, state := if drain then 1 else 2, epoch := epoch, layout := layout,
    retireAfter := after, drain := drain, counts := counts, place := place, written := [], partialEnd := [], last := d.time, reply := none }

def putWindow (w : Window) (d : Dev) : Dev := { d with loads := { d.loads with windows := d.loads.windows ++ [w] } }

/-- The first applicable status of R305; OK when the LOAD_BEGIN is accepted. -/
def loadBeginStatus (p : Nat) (l : List Byte) (d : Dev) : Nat :=
  let m := u8 l 0
  let drain := bit (u8 l 1) 0
  let epoch := u32 l 4
  let lives := liveEpochs p m d
  if 2592000 < u32 l 0x0C || (payloadCounts l).any (fun n => decide (2048 < n)) then stBAD_PARAM
  else match modelRec (imgOf p d) m with
    | none => stLAYOUT_MISMATCH
    | some r =>
      if (mLayout r).toNat ≠ u32 l 8 then stLAYOUT_MISMATCH
      else if !isTarget r then stNO_MODEL
      else if (modelWindow p m d).isSome then stWINDOW_BUSY
      else if 1 < lives.length then stEPOCH_BUSY
      else if lives.any (fun e => decide (epoch ≤ e.num.toNat) || e.num.toNat % 2 == epoch % 2) then stEPOCH_ORDER
      else if (freeWindow d).isNone then stNO_SPACE
      else if !drain && (placeAll p 1 (payloadCounts l) d).isNone then stNO_SPACE
      else stOK

/-- A host LOAD_BEGIN (R305, R306, R329). -/
def doLoadBegin (p aid : Nat) (m : Dgram) (d : Dev) : Dev :=
  let l := m.payload
  if l.length ≠ 40 || 1 < u8 l 1 || !allZero (bytesAt l 2 2) then sendReply aid m stBAD_MESSAGE 0 0 [] d
  else
    let st := loadBeginStatus p l d
    match freeWindow d with
    | none => sendReply aid m (if st = stOK then stNO_SPACE else st) 0 0 [] d
    | some n =>
      if st ≠ stOK then sendReply aid m st 0 0 [] d
      else
        let drain := bit (u8 l 1) 0
        let place := if drain then [] else (placeAll p 1 (payloadCounts l) d).getD []
        let w := windowOf n p (u8 l 0) none 0 (BitVec.ofNat 32 (u32 l 4)) (BitVec.ofNat 32 (u32 l 8)) (u32 l 0x0C) drain (payloadCounts l) place d
        let d := sendReply aid m stOK 0 0 (windowReply n) (putWindow w d)
        if drain then settleRefs (retireEpoch p (u8 l 0) (u32 l 0x0C) (some n) d) else d

/-- The first applicable status of R332; an OP that it does not name is BAD_PARAM (12 R481). -/
def adapterStatus (p : Nat) (l : List Byte) (d : Dev) : Nat :=
  let slot := u16 l 0
  if 1 < u8 l 2 then stBAD_PARAM
  else if !ownsAdapter p slot d then stNO_ADAPTER
  else if u8 l 2 = 1 then (if (curGenOf slot d).isNone then stNO_ADAPTER else stOK)
  else match modelRec (imgOf p d) (u8 l 3) with
    | none => stLAYOUT_MISMATCH
    | some r =>
      if (mLayout r).toNat ≠ u32 l 4 || u8 l 8 < 1 || 64 < u8 l 8 then stLAYOUT_MISMATCH
      else if (slotWindow slot d).isSome then stWINDOW_BUSY
      else if (oldGenOf slot d).isSome then stADAPTER_BUSY
      else if (freeWindow d).isNone then stNO_SPACE
      else if (placeAll p 2 (payloadCounts l) d).isNone then stNO_SPACE
      else stOK

/-- Remove a slot's CURRENT generation: FREED, or RETIRING while it is referenced (R334). -/
def retireGen (slot : Nat) (d : Dev) : Dev :=
  settleRefs { d with loads := { d.loads with gens := d.loads.gens.map fun g =>
    if g.slot = slot ∧ !g.retiring then { g with retiring := true } else g } }

/-- The length of an ADAPTER_LOAD and the parts of it that must be 0. -/
def adapterMalformed (l : List Byte) : Bool :=
  l.length ≠ 40 || !allZero (bytesAt l 9 7) || (u8 l 2 = 1 && !allZero (l.drop 0x10))

/-- A host ADAPTER_LOAD of the OP `op` (R332). -/
def doAdapterLoad (p aid : Nat) (m : Dgram) (d : Dev) : Dev :=
  let l := m.payload
  if adapterMalformed l then sendReply aid m stBAD_MESSAGE 0 0 [] d
  else
    let st := adapterStatus p l d
    if st ≠ stOK then sendReply aid m st 0 0 [] d
    else if u8 l 2 = 1 then retireGen (u16 l 0) (sendReply aid m stOK 0 0 [] d)
    else match freeWindow d with
      | none => sendReply aid m stNO_SPACE 0 0 [] d
      | some n =>
        let w := windowOf n p (u8 l 3) (some (u16 l 0)) (u8 l 8) 0#32 (BitVec.ofNat 32 (u32 l 4)) 0 false (payloadCounts l)
          ((placeAll p 2 (payloadCounts l) d).getD []) d
        sendReply aid m stOK 0 0 (windowReply n) (putWindow w d)

/-- A window is aborted (R314, R323): `cause` 0 for LOAD_ABORT, else that of R500's event. -/
def abortWindow (w : Window) (cause : Nat) (d : Dev) : Dev :=
  let d := bump HS_LDABORT (dropWindow w.num d)
  let d := if cause = 3 then d
    else { d with loads := { d.loads with epochs := d.loads.epochs.map fun e =>
      if e.retiredBy = (some w.num) ∧ e.part = w.part ∧ e.model = w.model then { e with retiring := false, retireBy := none, retiredBy := none } else e } }
  let d := if cause = 0 then d
    else windowEvent w.part 0x0045 (if w.adapter.isSome then 0xFF else w.model) w.num cause w.epoch.toNat 0xFFFFFFFF d
  settleRefs d

/-- A host LOAD_ABORT (12 R502). -/
def doLoadAbort (p aid : Nat) (m : Dgram) (d : Dev) : Dev :=
  if m.payload.length ≠ 4 || !allZero (m.payload.drop 2) then sendReply aid m stBAD_MESSAGE 0 0 [] d
  else match windowAt (u16 m.payload 0) d with
    | some w =>
      if w.part ≠ p then sendReply aid m stNO_WINDOW 0 0 [] d
      else if w.state = 3 then sendReply aid m stWINDOW_BUSY 0 0 [] d
      else abortWindow w 0 (sendReply aid m stOK 0 0 [] d)
    | none => sendReply aid m stNO_WINDOW 0 0 [] d

/-- WINDOW_IDLE_TIMEOUT: 600 s without a completed write or a command (R314). -/
def windowIdleTimeout (n : Nat) (d : Dev) : Dev :=
  match windowAt n d with
  | some w => if since w.last d < sec 600 || w.state = 3 then d else abortWindow w 1 d
  | none => d

/-! ### RDMA writes (R307, R308) -/

def unitKey (b j u : Nat) : Nat := (2048 * b + j) * 1024 + u

/-- Units written whole and the partial unit of a write of `n` bytes from `off`; a unit that a write has covered far enough stays
written (R308). -/
def markUnits (b j off n : Nat) (w : Window) : Window :=
  let w := { w with written := (List.range (n / 65536)).foldl (fun m k => mput m (unitKey b j (off / 65536 + k)) true) w.written }
  if n % 65536 = 0 then w
  else
    let k := unitKey b j ((off + n) / 65536)
    { w with partialEnd := mput w.partialEnd k (max (mgetD w.partialEnd k 0) (off + n)) }

/-- Where a shard of a window stands in its Bridge's HBM. -/
def shardAddr (w : Window) (b j : Nat) : Nat := (w.place.getD b []).getD j 0

/-- The window that a memory key names, with the shard and the byte in it that a virtual address names (R306). -/
def keyWindow (key : Word) (d : Dev) : Option Window := d.loads.windows.find? fun w => Config.windowKey w.num == key
def shardAt (w : Window) (va : DWord) : Nat × Nat × Nat :=
  let o := (va - Config.windowVa w.num).toNat
  (o / 2 ^ 40, o % 2 ^ 40 / 2 ^ 26, o % 2 ^ 26)

/-- Is a memory key that of a window number that is not open? -/
def closedKey (key : Word) : Bool := (List.range 1024).any fun n => Config.windowKey n == key

/-- A write into an OPEN window, at byte `off` of shard `j` of Bridge `b` (R307, R308). -/
def writeShard (qp p b j off : Nat) (w : Window) (data : List Byte) (d : Dev) : Dev :=
  if 12 ≤ b || w.counts.getD b 0 ≤ j || 0x4000000 < off + data.length then send (.rdmaNakAccess qp) (bump HS_LDNAK d)
  else if off % 65536 ≠ 0 then send (.rdmaNakInvalid qp) (bump HS_LDNAK d)
  else
    send (.rdmaAck qp) (modWindow w.num (fun w => markUnits b j off data.length { w with last := d.time })
      (hbmCount p data.length (hbmWrite b (shardAddr w b j + off) data (bridgeBulk p (fbStop b) b 3 data d))))

/-- RDMA_WRITE_LOAD: a write by memory key and virtual address over a queue pair of partition `p`, with the flow control and congestion
marks of its packets. A queue pair or key of another partition is the firewall's (13 R526); a closed window's key is R307's. -/
def rdmaWriteLoad (qp p : Nat) (key : Word) (va : DWord) (ce : Bool) (data : List Byte) (d : Dev) : Dev :=
  if !d.eth.up then d
  else if !ownsQp p qp d then rdmaFirewallRefuse p qp d
  else
    match keyWindow key d with
    | none => if closedKey key then send (.rdmaNakAccess qp) (bump HS_LDNAK (ceOnRdma ce qp d)) else rdmaFirewallRefuse p qp d
    | some w =>
      if w.part ≠ p then rdmaFirewallRefuse p qp d
      else if w.state ≠ 2 then send (.rdmaNakAccess qp) (bump HS_LDNAK (ceOnRdma ce qp d))
      else
        let z := shardAt w va
        writeShard qp p z.1 z.2.1 z.2.2 w data (ceOnRdma ce qp d)

/-! ### Presence and the block index (R300-R302, R308-R310) -/

def kindOk (w : Window) (b j kind : Nat) : Bool :=
  if w.adapter.isSome then kind = 3 else if b = 0 && j = 0 then kind = 0 else kind = 1 || kind = 2

/-- A shard's header matches R300 and the window. -/
def shardHdrOk (w : Window) (b j : Nat) (h : List Byte) : Bool :=
  u32 h 0 == 0x47530001 && u16 h 4 == 1 && kindOk w b j (u8 h 6) && u8 h 7 == b && u16 h 8 == j && u8 h 0x0A == w.model && u8 h 0x0B == 0
    && (w.adapter.isSome || u32 h 0x0C == w.epoch.toNat) && decide (4096 ≤ u32 h 0x10) && decide (u32 h 0x10 ≤ 0x4000000)
    && (u8 h 6 = 1 || u32 h 0x14 == 0) && u32 h 0x18 == w.layout.toNat && allZero (bytesAt h 0x1C 36)

def shardPresent (w : Window) (b j : Nat) (d : Dev) : Bool :=
  let h := hbmBytes b (shardAddr w b j) 64 d
  let len := u32 h 0x10
  let unit := fun (u : Nat) => (mget? w.written (unitKey b j u)).isSome || decide (len ≤ mgetD w.partialEnd (unitKey b j u) 0)
  unit 0 && shardHdrOk w b j h && (List.range ((len + 65535) / 65536)).all unit

/-- Walk the blocks of a shard: (key, address), and whether each carries the epoch's bit 15 (R301, R304, R309). -/
def walkBlocks (b base len : Nat) (d : Dev) : Nat → Nat → List (Nat × Nat)
  | 0, _ => []
  | n + 1, o =>
    let h := hbmBytes b (base + o) 64 d
    let size := u32 h 0x14
    if size = 0 || len < o + size then []
    else
      let tile := u32 h 0x0C
      (blockKey (bits tile 16 4) (bits tile 8 4) (bits tile 0 5) (u16 h 6), base + o) :: walkBlocks b base len d n (o + roundUp size 256)

/-- The blocks of a weight image: every present shard of KIND 0x01. -/
def blockList (counts : List Nat) (place : List (List Nat)) (d : Dev) : List (Nat × Nat) :=
  (List.range 12).flatMap fun b => (List.range (counts.getD b 0)).flatMap fun j =>
    let a := (place.getD b []).getD j 0
    let h := hbmBytes b a 64 d
    if u8 h 6 = 1 then walkBlocks b a (u32 h 0x10) d (u32 h 0x14) 0x1000 else []

/-- Missing shards in ascending global index. -/
def missingShards (w : Window) (d : Dev) : List Nat :=
  (List.range 12).flatMap fun b => ((List.range (w.counts.getD b 0)).filter fun j => !shardPresent w b j d).map fun j => 2048 * b + j

/-- The directory body matches R302 and the LOAD_BEGIN. -/
def directoryOk (w : Window) (d : Dev) : Bool :=
  let h := hbmBytes 0 (shardAddr w 0 0) 128 d
  u32 h 0x40 == 0x47440001 && u8 h 0x44 == w.model && allZero (bytesAt h 0x45 3) && u32 h 0x48 == w.epoch.toNat
    && u32 h 0x4C == w.layout.toNat && (List.range 12).all (fun b => u16 h (0x50 + 2 * b) == w.counts.getD b 0)
    && allZero (bytesAt h 0x6C 4) && allZero (bytesAt h 0x78 8)

/-- The keys that a model's stages need, FAR layers left out (R310). -/
def neededKeys (img : List Byte) (model : Nat) (epoch : Word) : List Nat :=
  (tileRecs img).flatMap fun t =>
    match stageRec img (tStage t) with
    | some s =>
      if sModel s = model then
        ((stageLayers img (tStage t)).filter fun l => !lFar l).map fun l =>
          blockKey (u8 t 0) (u8 t 1) (u8 t 2) (tagOf (lTag l) epoch)
      else []
    | none => []

/-- The key of a block of a FAR layer of its tile's stage: such blocks of a window are ignored (R310). -/
def farKey (img : List Byte) (k : Nat) : Bool :=
  match tileRec img (k / 2 ^ 25) (k / 2 ^ 21 % 16) (k / 2 ^ 16 % 32) with
  | some t => layerFar img (tStage t) (k % 65536)
  | none => false

def indexOk (w : Window) (img : List Byte) (blocks : List (Nat × Nat)) : Bool :=
  (neededKeys img w.model w.epoch).all (fun k => (blocks.filter fun e => e.1 == k).length = 1)
    && blocks.all fun e => farKey img e.1 || e.1 % 65536 / 2 ^ 15 == w.epoch.toNat % 2

/-- The load status record of R313. -/
def loadRecord (st : Nat) (w : Window) (epoch : Nat) (missing : List Nat) : List Byte :=
  leBytes 2 st ++ leBytes 1 w.part ++ leBytes 1 w.model ++ leBytes 2 w.num ++ [0#8, 0#8] ++ leBytes 4 epoch ++ leBytes 4 missing.length
    ++ leBytes 2 (min missing.length 256) ++ [0#8, 0#8] ++ (missing.take 256).flatMap fun k => leBytes 2 k

/-- A LOAD_COMMIT that names no open window of its partition (R313). -/
def noWindow (p aid : Nat) (m : Dgram) (d : Dev) : Dev :=
  sendReply aid m stNO_WINDOW 0 0 (leBytes 2 stNO_WINDOW ++ leBytes 1 p ++ [0#8] ++ leBytes 2 (u16 m.payload 0) ++ List.replicate 14 0#8) d

/-- A host LOAD_COMMIT (R310, R313): the window becomes COMMITTING. -/
def doLoadCommit (p aid : Nat) (m : Dgram) (d : Dev) : Dev :=
  if m.payload.length ≠ 4 || !allZero (m.payload.drop 2) then sendReply aid m stBAD_MESSAGE 0 0 [] d
  else match windowAt (u16 m.payload 0) d with
    | some w =>
      if w.part ≠ p then noWindow p aid m d
      else if w.state ≠ 2 then
        sendReply aid m stWINDOW_BUSY 0 0 (loadRecord stWINDOW_BUSY w w.epoch.toNat (missingShards w d))
          (modWindow w.num (fun w => { w with last := d.time }) d)
      else modWindow w.num (fun w => { w with state := 3, last := d.time, reply := some (aid, m) }) d
    | none => noWindow p aid m d

def replyCommit (w : Window) (st epoch : Nat) (missing : List Nat) (d : Dev) : Dev :=
  match w.reply with
  | some (aid, m) => sendReply aid m st 0 0 (loadRecord st w epoch missing) d
  | none => d

/-- The image of a committed weight window becomes the CURRENT epoch (R311, R323). -/
def commitEpoch (w : Window) (blocks : List (Nat × Nat)) (d : Dev) : Dev :=
  let h := hbmBytes 0 (shardAddr w 0 0) 128 d
  let e : Epoch :=
    { part := w.part, model := w.model, num := w.epoch, layout := w.layout, retiring := false, retireBy := none, retiredBy := none,
      place := w.place, index := blocks.foldl (fun m b => mput m b.1 b.2) [], farShards := u32 h 0x68, farVa := BitVec.ofNat 64 (u64 h 0x70) }
  let d := retireEpoch w.part w.model w.retireAfter none d
  { d with loads := { d.loads with epochs := d.loads.epochs ++ [e] } }

/-- A committed adapter window gives its slot a new CURRENT generation (R334). -/
def commitGen (w : Window) (slot gen : Nat) (d : Dev) : Dev :=
  let g : AdpGen := { slot := slot, gen := gen, part := w.part, model := w.model, layout := w.layout, rank := w.rank, retiring := false, place := w.place }
  let d := retireGen slot d
  { d with loads := { d.loads with gens := d.loads.gens ++ [g], adpLast := mput d.loads.adpLast slot gen } }

/-- LOAD_COMMIT_RESULT: the checks of a COMMITTING window end. `nonFinite` is what the Bridges find in an adapter's FP8
contents, whose layout the spec does not give (R301, R333). -/
def loadCommitResult (n : Nat) (nonFinite : Bool) (d : Dev) : Dev :=
  match windowAt n d with
  | none => d
  | some w =>
    if w.state ≠ 3 then d
    else
      let missing := missingShards w d
      let fail := fun (st : Nat) (d : Dev) =>
        replyCommit w st w.epoch.toNat missing (bump HS_LDFAIL (modWindow n (fun w => { w with state := 2, reply := none, last := d.time }) d))
      match w.adapter with
      | some slot =>
        if nonFinite then fail stNONFINITE_INPUT (forEach (List.range 12) (fun b => bump (BR_NONFINITE b)) d)
        else if !missing.isEmpty then fail stSHARD_MISSING d
        else if (oldGenOf slot d).isSome then fail stADAPTER_BUSY d
        else
          let gen := match mget? d.loads.adpLast slot with | some g => (g + 1) % 65536 | none => 0
          settleRefs (replyCommit w stOK gen [] (commitGen w slot gen (bump HS_LDCOMMIT (dropWindow n d))))
      | none =>
        let blocks := blockList w.counts w.place d
        if !missing.isEmpty then fail stSHARD_MISSING d
        else if w.counts.getD 0 0 = 0 || !directoryOk w d || !indexOk w (imgOf w.part d) blocks then fail stIMAGE_FORMAT d
        else settleRefs (replyCommit w stOK w.epoch.toNat [] (commitEpoch w blocks (bump HS_LDCOMMIT (dropWindow n d))))

/-! ### The end of an epoch (R326) -/

/-- A prefix handle is dropped: its frames lose a reference (09 R366, 10 R428). -/
def dropPrefix (h : Nat) (d : Dev) : Dev :=
  match mget? d.prefixes h with
  | none => d
  | some x =>
    let d := forEach (x.frames ++ x.draftFrames) (fun e d => unrefFrame x.bridge e.2 d) d
    settleRefs { d with prefixes := mdel d.prefixes h }

/-- Prefix handles bound to an epoch are dropped and reported (R326). -/
def dropEpochPrefixes (e : Epoch) (d : Dev) : Dev :=
  forEach (d.prefixes.filter fun x => x.2.part == e.part && x.2.model == e.model && x.2.epoch == e.num) (fun x d =>
    windowEvent e.part 0x0046 e.model 0xFFFF 0 e.num.toNat x.1 (dropPrefix x.1 d)) d

/-- A stream whose epoch's retire-by has passed ends once it stands at a step boundary. -/
def retireStream (i : Nat) (d : Dev) : Dev :=
  match streamAt i d with
  | some s => if streamLive s && s.steps.isEmpty then endStream i 0x15 (bump HS_EPOCHRET d) else d
  | none => d

def epochStreams (e : Epoch) (d : Dev) : List Nat :=
  (d.streams.filter fun x => x.2.part == e.part && x.2.model == e.model && x.2.epoch == e.num).map (·.1)

/-- Is an epoch past its retire-by? -/
def epochExpired (p m : Nat) (n : Word) (d : Dev) : Bool :=
  d.loads.epochs.any fun e => e.part == p && e.model == m && e.num == n && e.retiring && match e.retireBy with
    | some t => decide (t.toNat ≤ d.time.toNat)
    | none => false

/-- EPOCH_RETIRE_BY. -/
def epochRetireBy (p m : Nat) (d : Dev) : Dev :=
  match oldEpoch p m d with
  | none => d
  | some e =>
    if !epochExpired p m e.num d || asleep d then d
    else settleRefs (forEach (epochStreams e d) retireStream (dropEpochPrefixes e d))

/-- A loaded image changes a model's LAYOUT (R323, R334, R314): streams end, handles drop, epochs and generations are
freed, windows are aborted. -/
def layoutChange (p m : Nat) (d : Dev) : Dev :=
  let d := forEach (liveEpochs p m d) (fun e d =>
    forEach ((epochStreams e d).filter fun i => match streamAt i d with | some s => streamLive s | none => false)
      (fun i d => endStream i 0x15 (bump HS_EPOCHRET d)) (dropEpochPrefixes e d)) d
  let d := forEach (d.loads.windows.filter fun w => w.part == p && w.model == m) (fun w d => abortWindow w 3 d) d
  let d := { d with loads := { d.loads with
    epochs := d.loads.epochs.map (fun e => if e.part = p ∧ e.model = m then { e with retiring := true } else e),
    gens := d.loads.gens.map fun g => if g.part = p ∧ g.model = m then { g with retiring := true } else g } }
  settleRefs d

/-! ### The far tier (R319-R322) -/

def sameFar (p m : Nat) (e : Word) (tag : Nat) (x : FarLayer) : Bool := x.part == p && x.model == m && x.epoch == e && x.layer == tag

/-- The far-tier layers of a model in layer order, as tags without the epoch bit. -/
def farTags (img : List Byte) (model : Nat) : List Nat :=
  ((layerRecs img).filter fun l => lFar l && (match stageRec img (u8 l 0) with | some s => sModel s == model | none => false)).map lTag

def farRec (img : List Byte) : Option (List Byte) := (memRecs img).find? fun r => u8 r 0 == 8

/-- A stage of the model that names a far layer, for a fault. -/
def farStage (img : List Byte) (m tag : Nat) : Nat :=
  match (layerRecs img).find? fun l => lFar l && lTag l == tag % 2 ^ 15 && (match stageRec img (u8 l 0) with | some s => sModel s == m | none => false) with
  | some l => u8 l 0
  | none => 0xFF

/-- Every plane load of a landed far-tier layer has started, or its tile holds the layer. -/
def farLoaded (y : FarLayer) (d : Dev) : Bool :=
  y.landed && y.left.all fun k =>
    let f := k / 2 ^ 25
    let c := k / 2 ^ 21 % 16
    let x := tileAt f c (physOf f c (k / 2 ^ 16 % 32) d) d
    planeLayer x.pa == some y.layer || planeLayer x.pb == some y.layer

/-- A pass formed names a far-tier layer. -/
def farNamed (y : FarLayer) (d : Dev) : Bool :=
  (allPlaces (imgOf y.part d)).any fun x => (slotPasses x.1 x.2.1 x.2.2 d).any fun q =>
    q.part == y.part && q.model == y.model && q.epoch == y.epoch && q.layer == y.layer

/-- The half of the landing area that layer `k` goes to is free: the loads of layer k - 2 have started (R320), and another layer's there
have started or no pass formed names it. -/
def halfFree (p m : Nat) (e : Word) (k : Nat) (before : Option Nat) (d : Dev) : Bool :=
  d.loads.far.all fun y => y.part != p || y.half != k % 2 || farLoaded y d
    || (!(before.any fun t => sameFar p m e (tagOf t e) y) && !farNamed y d)

/-- A stage that a far-tier layer's loads feed is being reset: its prefetch waits for it to recover (R322). -/
def farResets (p m tag : Nat) (d : Dev) : Bool :=
  d.rst.subs.any fun r => subCovers r p d && (r.scope != .stage || r.stage == farStage (imgOf p d) m tag)

/-- FAR_PREFETCH_START: the RDMA READs of the next far-tier layer begin: one prefetch at a time, in layer order (R319, R320). -/
def farPrefetchStart (p m : Nat) (e : Word) (tag : Nat) (d : Dev) : Dev :=
  let img := imgOf p d
  let tags := farTags img m
  match epochAt p m e d, tags.findIdx? (fun t => t == tag % 2 ^ 15), farRec img with
  | some ep, some k, some r =>
    let tag := tagOf tag e
    let prev := if k = 0 then none else tags[k - 1]?
    let before := if k < 2 then none else tags[k - 2]?
    if d.loads.far.any (fun x => !x.landed) || d.loads.far.any (sameFar p m e tag) || !d.eth.up || farResets p m tag d
        || prev.any (fun t => !d.loads.far.any (sameFar p m e (tagOf t e))) || !halfFree p m e k before d then d
    else
      let x : FarLayer :=
        { part := p, model := m, epoch := e, layer := tag, started := d.time, landed := false, half := k % 2, index := [], left := [] }
      let d := { d with loads := { d.loads with far := (d.loads.far.filter fun y => !(y.part == p && y.half == k % 2)) ++ [x] } }
      forEach (List.range ep.farShards) (fun j d =>
        send (.rdmaRead (u32 r 4 % 2 ^ 24) (BitVec.ofNat 32 (u32 r 0x18)) (ep.farVa + BitVec.ofNat 64 (0x4000000 * j)) 0x4000000) d) d
  | _, _, _ => d

/-- Where a landed shard goes: half of the landing area of its Bridge, after the shards before it. -/
def landingBase (p b half : Nat) (d : Dev) : Nat :=
  match areaRec (imgOf p d) 6 b with
  | some r => areaBase p b r d + half * (areaSize r / 2)
  | none => 0

/-- The header of a far-tier shard of Bridge `b` matches R300 and its image: no directory, and no tile blocks beside KIND 0x01. -/
def farHdrOk (x : FarLayer) (layout : Word) (b : Nat) (h : List Byte) : Bool :=
  u32 h 0 == 0x47530001 && u16 h 4 == 1 && (u8 h 6 = 1 || (u8 h 6 = 2 && u32 h 0x14 == 0)) && decide (b < 12) && u8 h 7 == b
    && decide (u16 h 8 < 2048) && u8 h 0x0A == x.model && u8 h 0x0B == 0 && u32 h 0x0C == x.epoch.toNat && decide (4096 ≤ u32 h 0x10)
    && decide (u32 h 0x10 ≤ 0x4000000) && u32 h 0x18 == layout.toNat && allZero (bytesAt h 0x1C 36)

/-- FAR_LAYER_LANDED: the shards read, as (Bridge, bytes) in order; a header that fails R300 faults the stage (R321). -/
def farLayerLanded (shards : List (Nat × List Byte)) (d : Dev) : Dev :=
  match d.loads.far.find? fun x => !x.landed with
  | none => d
  | some x =>
    let layout := match epochAt x.part x.model x.epoch d with | some e => e.layout | none => 0#32
    if shards.any (fun s => !farHdrOk x layout s.1 (s.2.take 64)) then
      stageFault x.part (farStage (imgOf x.part d) x.model x.layer) fcIMAGE_FORMAT 0 0 true none none
        { d with loads := { d.loads with far := d.loads.far.filter fun y => y != x } }
    else
      let z := shards.foldl (fun (a : SMap Nat × List (Nat × Nat) × Dev) s =>
        let at_ := mgetD a.1 s.1 (landingBase x.part s.1 x.half a.2.2)
        let d := hbmCount x.part s.2.length (hbmWrite s.1 at_ s.2 (bridgeBulk x.part (fbStop s.1) s.1 3 s.2 a.2.2))
        (mput a.1 s.1 (at_ + roundUp s.2.length 4096), a.2.1 ++ walkBlocks s.1 at_ (u32 s.2 0x10) d (u32 s.2 0x14) 0x1000, d))
        (([] : SMap Nat), ([] : List (Nat × Nat)), d)
      let idx := (z.2.1.filter fun e => e.1 % 65536 == x.layer).foldl (fun m b => mput m b.1 b.2) []
      let d := z.2.2
      { d with loads := { d.loads with far := d.loads.far.map fun y =>
        if y = x then { y with landed := true, index := idx, left := idx.map (·.1) } else y } }

/-- FAR_READ_TIMEOUT: no answer within FAR_TMO, or retries exhausted; the prefetch restarts from its first shard once
the stage recovers (R322). `b` is the Bridge that waited. -/
def farReadTimeout (b : Nat) (exhausted : Bool) (d : Dev) : Dev :=
  match d.loads.far.find? fun x => !x.landed with
  | none => d
  | some x =>
    if !exhausted && since x.started d < us (farTmo (imgOf x.part d)) then d
    else
      let d := bump (BR_FARTMO b) { d with loads := { d.loads with far := d.loads.far.filter fun y => y != x } }
      stageFault x.part (farStage (imgOf x.part d) x.model x.layer) fcFAR_TIMEOUT b 0 true none none d

end Sys2Proof.Machine
end

