-- ==== Sys2Proof/Machine/Kv.lean ====
section
/-! DEFINITION. Attention on a Bridge (09 R343-R387): appending keys and values, the attention step and its arithmetic,
staging, edits published, generations; and what a Bridge's own units send (03 R128, R142; 01 R29). -/

namespace Sys2Proof.Machine

/-! ### Flits that a Bridge's units send -/

/-- Destinations of a stage's input route that are Fret stages, or the others. -/
def inputDests (p stage sl : Nat) (fret : Bool) (stream : Nat) (d : Dev) : List (Nat × Nat × Nat × Nat × Nat) :=
  (routeDests (imgOf p d) stage sl 0 (streamHome stream d)).filter fun x =>
    (match stageRec (imgOf p d) x.2.2.2.2 with | some r => sKind r == 0 | none => false) == fret

/-- Send flits, each with its SCALE, to destinations: given the destination slice, one destination after the other (03 R133). -/
def bridgeRouted (p b stream : Nat) (dests : List (Nat × Nat × Nat × Nat × Nat)) (flits : Nat → List (Nat × List Byte)) (d : Dev) : Dev :=
  forEach dests (fun x d =>
    forEach (flits x.2.2.2.1) (fun e d => nodeInject p b (mkFlitHdr x.1 b p x.2.2.1 x.2.1 e.1 stream) e.2 d) d) d

/-- The operand format that a stage record gives its operand `n` (11 R445, R451). -/
def destOpFmt (img : List Byte) (stage n : Nat) : Nat :=
  match stageRec img stage with
  | some r => bits (u8 r 7) (if n = 1 then 2 else 6) 2
  | none => 0

/-- A Bridge's operand routes carry every value rounded to the destination's operand format (11 R451, 03 R142). -/
def bridgeOperands (p b stage sl : Nat) (v : VecId) (y : List Dy) (d : Dev) : Dev :=
  forEach [1, 2] (fun use d =>
    forEach (routeDests (imgOf p d) stage sl use (streamHome v.stream d)) (fun x d =>
      let n := destOpFmt (imgOf p d) x.2.2.2.2 use
      let f := opFmt n
      let d := addCtr (BR_FP8SAT b) (y.filter fun a => (fpRound f a).2).length d
      forEach (dataFlits use 0 x.2.2.2.1 (opBytes n) (y.map (fpOf f))) (fun pay d =>
        nodeInject p b (mkFlitHdr x.1 b p x.2.2.1 x.2.1 0xFE v.stream) pay d) d) d) d

/-- A slice conditioned to G4 without error feedback (03 R128-R139), to the given destinations. -/
def bridgeG4 (p b codes : Nat) (v : VecId) (y : List Dy) (dests : List (Nat × Nat × Nat × Nat × Nat)) (d : Dev) : Dev :=
  if dests.isEmpty then d
  else
    let k := conditionFin (bit codes 1) (bits codes 4 4) y (List.replicate 512 dyZero)
    let d := addCtr (BR_XOUTCNT b) k.outs.length d
    let d := if k.zero then bump (BR_SLICEZERO b) d else d
    let d := if k.clamped then flagStream v.stream v.pos 0 (bump (BR_SLICECLAMP b) d) else d
    let outs := if k.outs.isEmpty then [] else [(0xFF, outPayload k.outs)]
    bridgeRouted p b v.stream dests (fun _ => (k.scale, slicePayload k.codes) :: outs) d

/-- A slice in the stage's wide OUT_FMT (R142), to the given destinations (DESIGN CHOICE of the flits, notes/assumptions/142.md). -/
def bridgeWide (p b fmt : Nat) (v : VecId) (y : List Dy) (dests : List (Nat × Nat × Nat × Nat × Nat)) (d : Dev) : Dev :=
  let vals := y.map fun x => (wideOut fmt x).1
  bridgeRouted p b v.stream dests (fun ds => (dataFlits 3 0 ds (if fmt = 3 then 2 else 1) vals).map fun e => (0, e)) d

/-- One output slice of a Bridge's stage; `codes` is the CODES byte of the stage (11 R445). Every slice that enters a Fret
stage is conditioned (03 R128), from its FP32 values (DESIGN CHOICE, notes/assumptions/150.md); other input routes, and consort ports when
`port`, carry the OUT_FMT, whose limited values are counted once (03 R142). -/
def bridgeSlice (p b stage sl codes : Nat) (port : Bool) (v : VecId) (y : List Dy) (d : Dev) : Dev :=
  let fmt := bits codes 2 2
  let toFret := inputDests p stage sl true v.stream d
  let other := inputDests p stage sl false v.stream d
  let d := bridgeOperands p b stage sl v y d
  if fmt = 0 then bridgeG4 p b codes v y (toFret ++ other) d
  else
    let sat := if other.isEmpty && !port then 0 else (y.filter fun x => (wideOut fmt x).2).length
    bridgeWide p b fmt v y other (bridgeG4 p b codes v y toFret (addCtr (BR_FP8SAT b) sat d))

/-- The values of a vector as slices of 512, from slice 0. -/
def bridgeOut (p b stage codes : Nat) (v : VecId) (y : List Dy) (d : Dev) : Dev :=
  forEach (List.range ((y.length + 511) / 512)) (fun sl d =>
    let part := (y.drop (512 * sl)).take 512
    bridgeSlice p b stage sl codes false v (part ++ List.replicate (512 - part.length) dyZero) d) d

/-! ### EXP (R379) -/

/-- Terms y^n / n! of the series of e^-y in units of 2^-512, alternating. -/
def expSeries (y : Nat) : Nat → Nat → Nat → Int → Int
  | 0, _, _, acc => acc
  | fuel + 1, n, t, acc =>
    let t' := t * y / (n * 2 ^ 512)
    expSeries y fuel (n + 1) t' (if n % 2 = 1 then acc - t' else acc + t')

def sqrFix : Nat → Nat → Nat
  | 0, v => v
  | n + 1, v => sqrFix n (v * v / 2 ^ 512)

/-- e^-a in units of 2^-512, for 0 < a <= 104. -/
def expFix (a : Dy) : Nat :=
  let y := if 0 ≤ a.e + 504 then a.m.natAbs * 2 ^ (a.e + 504).toNat else a.m.natAbs / 2 ^ (-(a.e + 504)).toNat
  sqrFix 8 (expSeries y 120 1 (2 ^ 512) (2 ^ 512)).toNat

/-- EXP of an FP32 value x <= 0: 1 at 0, 0 below -104, else one of the two FP32 values next to the exact one; which, the
spec leaves to the part (free value, Config.expRoundsUp). -/
def expF32 (x : Dy) : Dy :=
  if 0 ≤ x.m then dyInt 1
  else if dyLt x (dyInt (-104)) then dyZero
  else
    let v := expFix x
    let q := max ((Nat.log2 v : Int) - 512 - 23) (-149)
    let n := v / 2 ^ (q + 512).toNat
    let up := Config.expRoundsUp (BitVec.ofNat 32 (fpEnc fF32 true x))
    ⟨if up then n + 1 else n, q⟩

/-! ### Entries (R345-R348) -/

/-- Bytes of one head vector. -/
def headBytes (lay : List Byte) : Nat := kvDim lay * kvB2 lay / 2

/-- A head vector in the storage format: its bytes and its scale byte. `raw` are patterns of format `f`. -/
def kvConvert (lay : List Byte) (f : Fmt) (raw : List Nat) : List Byte × Nat :=
  let v := raw.map (fpVal f)
  if u8 lay 1 = 0 then
    let m := v.foldl (fun b a => if dyLt b (dyAbs a) then dyAbs a else b) dyZero
    if m.m = 0 then (raw.map fun _ => 0#8, 0)
    else
      let e := min 127 (max (-127) (leastExp m 448))
      let enc1 := fun (w : Nat) => fpEnc fE4M3 (bit w (f.eb + f.mb)) (fpRound fE4M3 (dyScale (fpVal f w) (-e))).1
      (raw.map fun w => BitVec.ofNat 8 (enc1 w), (e + 127).toNat)
  else
    let k := conditionFin (u8 lay 1 == 2) 0 v (v.map fun _ => dyZero)
    ((List.range (kvDim lay / 2)).map fun j =>
      BitVec.ofNat 8 (k.codes.getD (2 * j) 0 % 16 + 16 * (k.codes.getD (2 * j + 1) 0 % 16)), k.scale)

/-- Where a key (kind 0) or value (kind 1) head lies in an entry, and its scale byte. -/
def headOff (lay : List Byte) (kind head : Nat) : Nat := (kind * kvHeads lay + head) * headBytes lay
def scaleOff (lay : List Byte) (kind head : Nat) : Nat := 2 * kvHeads lay * headBytes lay + kind * kvHeads lay + head

/-- The values of a stored head vector. -/
def kvHeadVal (lay : List Byte) (entry : Nat → Byte) (kind head : Nat) : List Dy :=
  let sc : Int := ((entry (scaleOff lay kind head)).toNat : Int) - 127
  (List.range (kvDim lay)).map fun e =>
    if u8 lay 1 = 0 then dyScale (fpVal fE4M3 (entry (headOff lay kind head + e)).toNat) sc
    else
      let w := (entry (headOff lay kind head + e / 2)).toNat
      ⟨codeVal (u8 lay 1 == 2) (if e % 2 = 0 then w % 16 else w / 16), sc⟩

/-! ### Pages of a region -/

def posVa (r : Region) (lay : List Byte) (l pos : Nat) : Nat := r.base + kvOffset lay r.mode r.maxlen l pos
def pageKeyOf (r : Region) (lay : List Byte) (va : Nat) : Nat := pageKey r.part (va / kvPage lay * kvPage lay)

/-- The root of a region's space in the current generation. -/
def curRoot (b : Nat) (r : Region) (d : Dev) : Option Nat := genRoot r.part (curGen (kvAt b d))

/-- A translation fault ends the stream (R354). -/
def kvFault (b i : Nat) (d : Dev) : Dev := endStream i 0x12 (bump (BR_KVFAULT b) d)

/-! ### Appending (R369-R372) -/

/-- The step a piece belongs to: the stream's step that covers its position, or, for the draft model between steps, the
position alone. -/
def stepFor (s : Stream) (draft : Bool) (pos : Nat) : Option StepRec :=
  match s.steps.find? fun x => inRange x.pos0 x.count pos with
  | some x => some x
  | none => if draft then some { batch := 2 ^ 32, pos0 := pos, count := 1, prefill := false } else none

def sameStep (i lk batch : Nat) (x : KvStep) : Bool := x.stream == i && x.layer == lk && x.batch == batch

def kvStepAt (b i lk : Nat) (st : StepRec) (d : Dev) : KvStep :=
  ((kvAt b d).kvsteps.find? (sameStep i lk st.batch)).getD
    { stream := i, layer := lk, batch := st.batch, pos0 := st.pos0, count := st.count, appended := [], direct := [], queries := [] }

def putKvStep (b : Nat) (x : KvStep) (d : Dev) : Dev :=
  modKv b (fun k => { k with kvsteps := k.kvsteps.filter (fun y => !sameStep x.stream x.layer x.batch y) ++ [x] }) d

def pieceCode (pos kind head : Nat) : Nat := 4096 * pos + 1024 * kind + head

/-- Every key and value head of a position has been appended. -/
def entryWhole (h pos : Nat) (x : KvStep) : Bool :=
  (List.range h).all fun k => x.appended.contains (pieceCode pos 0 k) && x.appended.contains (pieceCode pos 1 k)

def stagePeak (b : Nat) (d : Dev) : Dev :=
  let n := (kvAt b d).bufs.length
  if regField (BR_STGPEAK b) 0 13 d < n then regSetField (BR_STGPEAK b) 0 13 n d else d

/-- Bytes of a head vector and its scale into an OPEN buffer. -/
def stageBytes (b i lk first off : Nat) (bytes : List (Nat × Byte)) (d : Dev) : Dev :=
  modKv b (fun k => { k with bufs := k.bufs.map fun s =>
    if s.stream = i ∧ s.layer = lk ∧ s.first = first ∧ s.st = 1 then
      { s with bytes := bytes.foldl (fun m e => mput m (off + e.1) e.2) s.bytes }
    else s }) d

/-- The pieces of its append have supplied byte `o` of an entry; padding needs none (R347, R372). -/
def supplied (lay : List Byte) (pos : Nat) (x : KvStep) (o : Nat) : Bool :=
  let h := kvHeads lay
  let at_ := fun (n : Nat) => x.appended.contains (pieceCode pos (n / h) (n % h))
  if o < 2 * h * headBytes lay then at_ (o / headBytes lay)
  else if o < 2 * h * headBytes lay + 2 * h then at_ (o - 2 * h * headBytes lay)
  else true

/-- Bytes of a head vector and its scale written to HBM at once, word by word (R372): a word whose bytes all come from the
append is written whole and loses its poison; any other is read, with the verdicts `errs` by HBM address, merged and
written back, and stays poisoned. -/
def directBytes (b addr : Nat) (lay : List Byte) (pos : Nat) (x : KvStep) (bytes : List (Nat × Byte)) (errs : List (Nat × Nat)) (d : Dev) : Dev :=
  let words := (bytes.map fun e => e.1 / 8).eraseDups
  let whole := fun (w : Nat) => (List.range 8).all fun o => supplied lay pos x (8 * w + o)
  let d := forEach (words.filter fun w => !whole w) (fun w d => hbmReadEcc b (addr + 8 * w) 8 (errsIn (addr + 8 * w) 8 errs) d) d
  let d := forEach bytes (fun e d => setByte b (addr + e.1) e.2 d) d
  forEach (words.filter whole) (fun w d => hbmWrite b (addr + 8 * w) (hbmBytes b (addr + 8 * w) 8 d) d) d

/-- A key or value piece of a step (R369-R372). -/
def appendPiece (b i lk l pos kind head : Nat) (r : Region) (lay : List Byte) (st : StepRec) (bytes : List (Nat × Byte))
    (errs : List (Nat × Nat)) (d : Dev) : Dev :=
  let first := st.pos0 + (pos - st.pos0) / kvEs lay * kvEs lay
  let k := kvAt b d
  let x := kvStepAt b i lk st d
  let x' := { x with appended := pieceCode pos kind head :: x.appended }
  let whole := entryWhole (kvHeads lay) pos x'
  let open_ := k.bufs.any fun s => s.stream == i && s.layer == lk && s.first == first && s.st == 1
  if !x.direct.contains first && (open_ || decide (k.bufs.length < 4096)) then
    let d := if open_ then d
      else stagePeak b (modKv b (fun k => { k with bufs := k.bufs ++ [{ stream := i, layer := lk, first := first, st := 1, bytes := [], bad := [] }] }) d)
    let d := if whole then bump (BR_KVSTAGED b) d else d
    stageBytes b i lk first ((pos - first) * kvStride lay) bytes (putKvStep b x' d)
  else
    let va := posVa r lay l pos
    let d := if x.direct.isEmpty then choice r.part false d else d
    let d := putKvStep b { x' with direct := if x.direct.contains first then x.direct else first :: x.direct } d
    let d := cacheLook b (pageKeyOf r lay va) true d
    match xlate b (curRoot b r d) lay va true d with
    | none => kvFault b i d
    | some a => directBytes b a lay pos x' bytes errs
        (if whole then hbmCount r.part (kvStride lay) (bump (BR_KVDIRECT b) d) else d)

/-- KV_APPEND_PIECE: one head vector of a position's key (kind 0), value (1) or query (2), in E4M3 or BF16, reaches the
home Bridge (R344, R372); `errs` are the bit errors in HBM words that its merges read, by address (06 R243). -/
def kvAppendPiece (b i : Nat) (draft : Bool) (l pos kind head : Nat) (bf16 : Bool) (data : List Byte) (errs : List (Nat × Nat)) (d : Dev) : Dev :=
  match streamAt i d, regionAt b (regKey i draft) d with
  | some s, some r =>
    let lay := regRecOf r d
    let heads := if kind = 2 then kvHeads lay * (kvGroup lay) else kvHeads lay
    let f := if bf16 then fBF16 else fE4M3
    let w := if bf16 then 2 else 1
    let raw := (List.range (kvDim lay)).map fun e => leNat (bytesAt data (w * e) w)
    if s.home != b || !streamLive s || 2 < kind || heads ≤ head || kvLayers lay ≤ l || r.maxlen ≤ pos
      || data.length != w * kvDim lay || raw.any (fpNonFinite f) then d
    else match stepFor s draft pos with
      | none => d
      | some st =>
        let lk := 2 * l + b2n draft
        if kind = 2 then
          let x := kvStepAt b i lk st d
          putKvStep b { x with queries := mput x.queries (1024 * pos + head) ((BitVec.ofNat 8 w) :: data) } d
        else
          let c := kvConvert lay f raw
          let bytes := c.1.zipIdx.map (fun e => (headOff lay kind head + e.2, e.1)) ++ [(scaleOff lay kind head, BitVec.ofNat 8 c.2)]
          appendPiece b i lk l pos kind head r lay st bytes errs d
  | _, _ => d

/-! ### The attention step (R374-R381) -/

/-- The stage and layer record of a model's attention layer. -/
def attStage (img : List Byte) (m : Nat) : Option (List Byte) := (stageRecs img).find? fun r => sModel r == m && sKind r == 2

def modGen (b : Nat) (g : Word) (f : KvGen → KvGen) (d : Dev) : Dev :=
  modKv b (fun k => { k with gens := k.gens.map fun x => if x.num = g then f x else x }) d

/-- Every query head of every position of a step has arrived. -/
def queriesWhole (h : Nat) (x : KvStep) : Bool :=
  (List.range x.count).all fun j => (List.range h).all fun k => (mget? x.queries (1024 * (x.pos0 + j) + k)).isSome

/-- ATTENTION_STEP: the walk of a stream's step at a layer starts (R374, R375 SNAP); `appends` says whether the layer's
step appends keys and values. A step that finds 256 walks in progress waits. -/
def attentionStep (b i lk : Nat) (appends : Bool) (d : Dev) : Dev :=
  match regionAt b (regKey i (lk % 2 == 1)) d, streamAt i d with
  | some r, some s =>
    let lay := regRecOf r d
    let ready := fun (x : KvStep) => x.stream == i && x.layer == lk && queriesWhole (kvHeads lay * kvGroup lay) x
      && (if appends then (List.range x.count).all (fun j => entryWhole (kvHeads lay) (x.pos0 + j) x) else x.appended.isEmpty)
    match (kvAt b d).kvsteps.find? ready with
    | none => d
    | some x =>
      if 256 ≤ (kvAt b d).walks.length || !streamLive s then d
      else
        let g := (curGen (kvAt b d)).num
        let d := modKv b (fun k => { k with kvsteps := k.kvsteps.filter fun y => !sameStep i lk x.batch y }) d
        if r.mode = 2 && decide (r.rows ≤ (x.pos0 + x.count - 1) / 64) then endStream i 0x14 (bump (BR_MASKMISS b) d)
        else
          let w : Walk :=
            { stream := i, layer := lk, batch := x.batch, pos0 := x.pos0, count := x.count, gen := g, region := r,
              kend := if appends then x.pos0 + x.count else r.len, queries := x.queries, gone := false }
          modGen b g (fun y => { y with walks := y.walks + 1 }) (modKv b (fun k => { k with walks := k.walks ++ [w] }) d)
  | _, _ => d

/-- Bit `n` of the mask area (R378), under a root. -/
def maskBit (b : Nat) (m : Option Nat) (r : Region) (lay : List Byte) (n : Nat) (d : Dev) : Bool :=
  match xlate b m lay (r.base + n / 8) false d with
  | some a => bit (hbmByte b a d).toNat (n % 8)
  | none => false

/-- Query position `i` may attend to key position `j` (R377). -/
def allowed (b : Nat) (m : Option Nat) (r : Region) (lay : List Byte) (win i j : Nat) (d : Dev) : Bool :=
  (match r.mode with
    | 0 => decide (j ≤ i)
    | 1 => decide (j ≤ i) || (decide (i < r.prefixLen) && decide (j < r.prefixLen))
    | _ => decide (j ≤ i) && maskBit b m r lay (i / 64 * (i / 64 + 1) / 2 + j / 64) d)
  && (win = 0 || decide (i < j + win))

/-- The buffer an entry is read from: one that holds a piece of it, the newest first (R371). -/
def stagedBuf (b i lk : Nat) (lay : List Byte) (pos : Nat) (d : Dev) : Option StgBuf :=
  (kvAt b d).bufs.reverse.find? fun s => s.stream == i && s.layer == lk && inRange s.first (kvEs lay) pos
    && s.bytes.any (fun e => e.1 / kvStride lay == pos - s.first)

/-- An entry's bytes by offset, from its buffer or under a root from HBM. -/
def entryBytesAt (b i lk l pos : Nat) (m : Option Nat) (r : Region) (lay : List Byte) (d : Dev) : Nat → Byte :=
  match stagedBuf b i lk lay pos d with
  | some s => fun o => mgetD s.bytes ((pos - s.first) * kvStride lay + o) 0#8
  | none => match xlate b m lay (posVa r lay l pos) false d with
    | some a => fun o => hbmByte b (a + o) d
    | none => fun _ => 0#8

/-- The running softmax of R379 for one query head. -/
structure SoftAcc where
  started : Bool
  m : Dy
  l : Dy
  o : List Dy
  sat : Nat
  deriving DecidableEq, Repr

def maxF : Dy := fF32.maxv
def floorF (x : Dy) : Dy := if dyLt x (dyNeg maxF) then dyNeg maxF else x

/-- One block of 64 positions: the allowed ones with their scores and values. -/
def softBlock (acc : SoftAcc) (ss : List (Dy × List Dy)) : SoftAcc :=
  match ss with
  | [] => acc
  | x :: _ =>
    let mb := ss.foldl (fun b a => if dyLt b a.1 then a.1 else b) x.1
    let a1 : SoftAcc :=
      if !acc.started then { acc with started := true, m := mb, l := dyZero, o := acc.o.map fun _ => dyZero }
      else
        let mn := if dyLt acc.m mb then mb else acc.m
        let c := expF32 (floorF (fpRoundU fF32 (dySub acc.m mn)))
        { acc with m := mn, l := f32Mul acc.l c, o := acc.o.map fun y => f32Mul y c }
    ss.foldl (fun a e =>
      let w := expF32 (floorF (fpRoundU fF32 (dySub e.1 a.m)))
      { a with l := f32Add a.l w, o := List.zipWith (fun y v => f32Add y (f32Mul w v)) a.o e.2 }) a1

/-- One query head at one position: outputs, scores limited, and whether no key was allowed. -/
def attHead (b i lk l pos kh kend win : Nat) (m : Option Nat) (r : Region) (lay : List Byte) (q : List Dy) (d : Dev) :
    List Dy × Nat × Bool :=
  let scale := fpVal fF32 (kvScale lay)
  let dims := kvDim lay
  let z := (List.range ((kend + 63) / 64)).foldl (fun acc k =>
    let js := ((List.range 64).map fun t => 64 * k + t).filter fun j => decide (j < kend) && allowed b m r lay win pos j d
    let ss := js.map fun j =>
      let ent := entryBytesAt b i lk l j m r lay d
      let dot := dySum (List.zipWith dyMul q (kvHeadVal lay ent 0 kh))
      let s := fpRound fF32 (dyMul scale dot)
      (s, kvHeadVal lay ent 1 kh)
    let acc' := softBlock acc (ss.map fun e => (e.1.1, e.2))
    { acc' with sat := acc'.sat + (ss.filter fun e => e.1.2).length })
    ({ started := false, m := dyZero, l := dyZero, o := List.replicate dims dyZero, sat := 0 } : SoftAcc)
  if z.started then (z.o.map fun y => f32Div y z.l, z.sat, false) else (List.replicate dims dyZero, z.sat, true)

/-- The values of a query piece. -/
def queryVals (l : List Byte) : List Dy :=
  let w := u8 l 0
  let f := if w = 2 then fBF16 else fE4M3
  (List.range ((l.length - 1) / w)).map fun e => fpVal f (leNat (bytesAt l (1 + w * e) w))

/-- The pages that the query positions `qs` of a walk need, in ascending address, each with its allowed positions. -/
def walkPages (b l : Nat) (w : Walk) (qs : List Nat) (m : Option Nat) (r : Region) (lay : List Byte) (win : Nat) (d : Dev) : List (Nat × List Nat) :=
  (List.range ((w.kend + kvEpp lay - 1) / kvEpp lay)).filterMap fun j =>
    let ps := ((List.range (kvEpp lay)).map fun t => kvEpp lay * j + t).filter fun p =>
      decide (p < w.kend) && qs.any (fun q => allowed b m r lay win q p d)
    if ps.isEmpty then none else some (posVa r lay l (kvEpp lay * j), ps)

/-- An entry in a buffer holds an uncorrectable word (R373). -/
def stagedBad (s : StgBuf) (lay : List Byte) (pos : Nat) : Bool := s.bad.any fun w => w * 8 / kvStride lay == pos - s.first

/-- XLATE and READ over the pages: 0 all read, 1 a fault, 2 poison met in HBM or an uncorrectable word in a buffer; `errs` are the
bit errors in the HBM words read, by address (06 R243). -/
def readPages (b i lk l : Nat) (m : Option Nat) (fill : Bool) (r : Region) (lay : List Byte) (errs : List (Nat × Nat)) :
    List (Nat × List Nat) → Dev → Nat × Dev
  | [], d => (0, d)
  | (va, ps) :: rest, d =>
    let d := cacheLook b (pageKeyOf r lay va) fill d
    match xlate b m lay va false d with
    | none => (1, d)
    | some _ =>
      let hbm := ps.filter fun p => (stagedBuf b i lk lay p d).isNone
      let addrs := hbm.filterMap fun p => xlate b m lay (posVa r lay l p) false d
      let d := hbmCount r.part (kvStride lay * addrs.length) d
      let d := forEach addrs (fun a d => hbmReadEcc b a (kvStride lay) (errsIn a (kvStride lay) errs) d) d
      let bad := addrs.any (fun a => hbmPoisoned b a (kvStride lay) d)
        || ps.any fun p => (stagedBuf b i lk lay p d).any fun s => stagedBad s lay p
      if bad then (2, d) else readPages b i lk l m fill r lay errs rest d

/-- The reads of a walk, for groups of at most 16 query positions in ascending order (R376); errors are met by the first. -/
def readGroups (b i lk : Nat) (w : Walk) (m : Option Nat) (fill : Bool) (r : Region) (lay : List Byte) (win : Nat) :
    List (List Nat) → List (Nat × Nat) → Dev → Nat × Dev
  | [], _, d => (0, d)
  | qs :: rest, errs, d =>
    let z := readPages b i lk (lk / 2) m fill r lay errs (walkPages b (lk / 2) w qs m r lay win d) d
    if z.1 = 0 then readGroups b i lk w m fill r lay win rest [] z.2 else z

def queryGroups (w : Walk) : List (List Nat) :=
  (List.range ((w.count + 15) / 16)).map fun g => (List.range (min 16 (w.count - 16 * g))).map fun t => w.pos0 + 16 * g + t

/-- A staging buffer's complete entries go to HBM in whole ECC words, each page translated once (R370, R354); an uncorrectable word
is written with poison (R373, 06 R244). -/
def flushBuf (b : Nat) (s : StgBuf) (d : Dev) : Dev :=
  let draft := s.layer % 2 == 1
  match regionAt b (regKey s.stream draft) d with
  | none => d
  | some r =>
    let lay := regRecOf r d
    let st := kvStride lay
    let rows := (List.range (kvEs lay)).filter fun k => (List.range (2 * kvHeads lay)).all fun h =>
      (mget? s.bytes (k * st + 2 * kvHeads lay * headBytes lay + h)).isSome
    let va := fun (k : Nat) => posVa r lay (s.layer / 2) (s.first + k)
    let m := curRoot b r d
    let places := rows.map fun k => (k, xlate b m lay (va k) true d)
    let d := forEach ((rows.map fun k => pageKeyOf r lay (va k)).eraseDups) (fun key d => cacheLook b key true d) d
    let d := forEach places (fun x d => match x.2 with
      | none => d
      | some a =>
        let bad := s.bad.filter fun w => w * 8 / st == x.1
        forEach bad (fun w => poisonWord b (a + (w * 8 - x.1 * st)))
          (hbmCount r.part st (hbmWrite b a ((List.range st).map fun o => mgetD s.bytes (x.1 * st + o) 0#8) d))) d
    if places.any (fun x => x.2.isNone) then kvFault b s.stream d else d

/-- The OPEN buffers of a step that ends become FLUSHING and are written. -/
def flushStep (b i lk pos0 count : Nat) (d : Dev) : Dev :=
  let mine := fun (s : StgBuf) => s.stream == i && s.layer == lk && s.st == 1 && inRange pos0 count s.first
  let bs := (kvAt b d).bufs.filter mine
  forEach bs (fun s d => flushBuf b s d)
    (modKv b (fun k => { k with bufs := k.bufs.map fun s => if mine s then { s with st := 2 } else s }) d)

/-- Before a MOVE or TRUNCATE edit the stream's staging buffers are flushed (R367). -/
def settleBufs (b i : Nat) (d : Dev) : Dev :=
  let d := forEach ((kvAt b d).bufs.filter fun s => s.stream == i) (fun s d =>
    bump (BR_STGFLUSH b) (if s.st = 1 then flushBuf b s d else d)) d
  dropBufs b (fun s => s.stream == i) d

/-- R368: the pages of windowed layers that no later query can attend to are unmapped. -/
def reclaimWindow (b rk : Nat) (d : Dev) : Dev :=
  match regionAt b rk d with
  | none => d
  | some r =>
    let lay := regRecOf r d
    let img := imgOf r.part d
    let base := pageKey r.part r.base
    let gone := (regPages r (effPages r.part b d)).filter fun e =>
      let off := (e.1 - base) * 2 ^ 16
      let msz := kvMaskSz lay r.mode r.maxlen
      let l := (off - msz) / kvLstride lay r.maxlen
      let j := (off - msz) % kvLstride lay r.maxlen / kvPage lay
      let win := kvWin img r.model l
      decide (msz ≤ off) && win != 0 && decide ((j + 1) * kvEpp lay + win ≤ r.len + 1)
        && !(r.mode == 1 && decide (j * kvEpp lay < r.prefixLen))
    forEach gone (fun e d =>
      acceptEdit b { op := 2, stream := rk / 2, region := rk, arg := 0, changes := [(e.1, none)] } d) d

/-- LEN of both regions of a stream (R351, 10 R406). -/
def setLen (b i n : Nat) (d : Dev) : Dev :=
  let d := modRegion b (regKey i false) (fun r => { r with len := n }) (modRegion b (regKey i true) (fun r => { r with len := n }) d)
  reclaimWindow b (regKey i true) (reclaimWindow b (regKey i false) d)

/-- The outputs of one query position: its heads in ascending order (R379), with the counts of R381. -/
def attVector (b i lk l pos : Nat) (w : Walk) (m : Option Nat) (r : Region) (lay : List Byte) (win : Nat) (d : Dev) : List Dy × Dev :=
  let hs := (List.range (kvHeads lay * kvGroup lay)).map fun qh =>
    attHead b i lk l pos (qh / kvGroup lay) w.kend win m r lay (queryVals (mgetD w.queries (1024 * pos + qh) [1#8])) d
  let sat := (hs.map fun h => h.2.1).foldl (· + ·) 0
  let d := if sat = 0 then d else addCtr (BR_ATTSAT b) sat d
  let d := if hs.any (fun h => h.2.2) then flagStream i pos 2 (bump (BR_EMPTYATT b) d) else d
  (hs.flatMap fun h => h.1, d)

/-- What ends an attention step that read all it needed: outputs, flushes, the length of a prefill chunk (R351, R370). -/
def finishWalk (b i lk : Nat) (w : Walk) (m : Option Nat) (r : Region) (lay : List Byte) (s : Stream) (d : Dev) : Dev :=
  let l := lk / 2
  let img := imgOf r.part d
  let win := kvWin img r.model l
  let st := attStage img r.model
  let d := forEach (List.range w.count) (fun t d =>
    let z := attVector b i lk l (w.pos0 + t) w m r lay win d
    match st with
    | some sr =>
      if lk % 2 = 0 then bridgeOut r.part b (u8 sr 0) (u8 sr 5) { stream := i, pos := w.pos0 + t, seed := s.seed } z.1 z.2 else z.2
    | none => z.2) d
  let d := flushStep b i lk w.pos0 w.count d
  let prefill := s.steps.any fun x => x.batch == w.batch && x.prefill
  if prefill && lk % 2 = 0 && l + 1 = kvLayers lay then setLen b i (w.pos0 + w.count) d else d

/-- Words of a stream's staging buffers at a layer found uncorrectable, as (position, byte offset in its entry) (R373). -/
def markStaged (b i lk : Nat) (lay : List Byte) (words : List (Nat × Nat)) (d : Dev) : Dev :=
  let bad := fun (s : StgBuf) => (words.filter fun e => inRange s.first (kvEs lay) e.1 && decide (e.2 < kvStride lay)).map fun e =>
    ((e.1 - s.first) * kvStride lay + e.2) / 8
  modKv b (fun k => { k with bufs := k.bufs.map fun s => if s.stream = i ∧ s.layer = lk then { s with bad := s.bad ++ bad s } else s }) d

/-- ATTENTION_OUTPUT: the oldest walk of a stream at a layer ends (R375): its output is sent, or its stream fails, and it lets go of
its generation. The walk of a stream that has ended or rolled back reads on, and its output is discarded. `errs` are bit errors
in the HBM words read, by address (06 R243), `words` the uncorrectable words of its buffers (R373). -/
def attentionOutput (b i lk : Nat) (errs words : List (Nat × Nat)) (d : Dev) : Dev :=
  match (kvAt b d).walks.findIdx? fun w => w.stream == i && w.layer == lk with
  | none => d
  | some n =>
    match (kvAt b d).walks[n]? with
    | none => d
    | some w =>
      let r := w.region
      let lay := regRecOf r d
      let m := ((kvAt b d).gens.find? fun g => g.num == w.gen).bind (genRoot r.part)
      let fill := (curGen (kvAt b d)).num == w.gen
      let d := markStaged b i lk lay words d
      let z := readGroups b i lk w m fill r lay (kvWin (imgOf r.part d) r.model (lk / 2)) (queryGroups w) errs d
      let d := modGen b w.gen (fun g => { g with walks := g.walks - 1 }) (modKv b (fun k => { k with walks := k.walks.eraseIdx n }) z.2)
      match streamAt i d with
      | some s =>
        if w.gone || !streamLive s then d
        else if z.1 = 1 then kvFault b i d
        else if z.1 = 2 then endStream i 0x13 (bump (BR_KVPOISON b) d)
        else finishWalk b i lk w m r lay s d
      | none => d

/-- STAGING_FLUSH_ACK: the controllers acknowledge the write of the oldest FLUSHING buffer that matches (R370). -/
def stagingFlushAck (b i lk first : Nat) (d : Dev) : Dev :=
  match (kvAt b d).bufs.findIdx? fun s => s.stream == i && s.layer == lk && s.first == first && s.st == 2 with
  | none => d
  | some n => bump (BR_STGFLUSH b) (modKv b (fun k => { k with bufs := k.bufs.eraseIdx n }) d)

/-! ### Edits (R358-R364) -/

/-- The MOVE transfers of a stream's pages, those of both regions that satisfy `f`, to a location (10 R425, R426). -/
def moveTransfers (b i loc : Nat) (f : Pte → Bool) (d : Dev) : List Transfer :=
  [regKey i false, regKey i true].flatMap fun rk =>
    match regionAt b rk d with
    | none => []
    | some r => ((regPages r (effPages r.part b d)).filter fun e => f e.2).map fun e =>
        { op := 5, stream := i, region := rk, page := e.1, src := frameKey e.2.loc e.2.addr, loc := loc }

/-- The moves back of an UNPARK begin; without pages to move the stream is PAUSED at once (10 R426). -/
def startUnpark (i : Nat) (d : Dev) : Dev :=
  match streamAt i d with
  | none => d
  | some s =>
    let ts := moveTransfers s.home i 0 (fun e => e.loc != 0) d
    if ts.isEmpty then
      sendStatus i (modStream i (fun s => { s with moving := false, unpark := false, park := none, state := 4, limit := BitVec.allOnes 64 }) d)
    else
      modKv s.home (fun k => { k with transfers := k.transfers ++ ts })
        (modStream i (fun s => { s with moving := true, unpark := true, park := none }) d)

/-- The last move of a park has been published: the expiry time counts from now (10 R425). -/
def parkDone (i ttl : Nat) (d : Dev) : Dev :=
  let d := modStream i (fun s => { s with moving := false, park := none, limit := d.time + BitVec.ofNat 64 (sec ttl) }) d
  match streamAt i d with
  | some s => if s.unpark then startUnpark i d else d
  | none => d

/-- What a published edit changes beyond the tables: TRUNCATE sets the lengths and forgets what lies beyond (R364); the
last MOVE of a park or an unpark ends it (10 R425, R426); RELEASE may free the entry (10 R391). -/
def afterEdit (b : Nat) (e : Edit) (d : Dev) : Dev :=
  match e.op with
  | 5 =>
    match streamAt e.stream d with
    | none => d
    | some s =>
      let k := kvAt b d
      if !s.moving || k.edits.any (fun x => x.op == 5 && x.stream == e.stream) || k.transfers.any (fun x => x.op == 5 && x.stream == e.stream) then d
      else match s.park with
        | some (_, ttl) => parkDone e.stream ttl d
        | none => startUnpark e.stream d
  | 6 =>
    if e.region % 2 = 1 then modRegion b e.region (fun r => { r with len := e.arg }) d
    else
      modStream e.stream (fun s => { s with
        nextpos := e.arg, avail := e.arg, toks := s.toks.filter (fun t => t.1 < e.arg),
        rows := s.rows.filter (fun t => t.1 < e.arg), dataBuf := [],
        hist := s.hist.drop (s.toks.filter fun t => decide (e.arg ≤ t.1) && t.2.2).length })
        (modRegion b e.region (fun r => { r with len := e.arg }) d)
  | 7 => tryFree e.stream d
  | _ => d

/-- EDIT_PUBLISH: pending edits are published (R360); `wait` CORE cycles passed waiting for the oldest of 16 generations
(R361). -/
def editPublish (b wait : Nat) (d : Dev) : Dev :=
  let d := if wait = 0 then d else addCtr (BR_GENWAIT b) wait d
  let z := publishEdits b d
  forEach z.1 (fun e d => afterEdit b e d) z.2

/-- EDIT_DATA_TRANSFER_DONE: the oldest COPY or MOVE transfer of a Bridge ends and its edit is accepted (R358). `data` are
the page's bytes when they come from far memory. A page that a TRUNCATE has unmapped since is not moved. -/
def editDataTransferDone (b : Nat) (data : List Byte) (d : Dev) : Dev :=
  match (kvAt b d).transfers with
  | [] => d
  | t :: rest =>
    match regionAt b t.region d with
    | none => modKv b (fun k => { k with transfers := rest }) d
    | some r =>
      let page := pageOf r.part d
      let key := t.page
      let loc := if t.op = 5 then t.loc else 0
      match freeFrame r.part b loc d with
      | none => d
      | some a =>
        let d := modKv b (fun k => { k with transfers := rest }) d
        if t.op = 5 && (mget? (effPages r.part b d) key).isNone then
          acceptEdit b { op := 5, stream := t.stream, region := t.region, arg := 0, changes := [] } d
        else
        let fromFar := 2 ≤ t.src / 2 ^ 64
        let src := t.src % 2 ^ 64
        let srcB := if t.op = 4 then t.loc else b
        let bytes := if fromFar then (padTo page data).take page else hbmBytes srcB src page d
        let d := if srcB = b || fromFar then d else bridgeBulk r.part srcB b 2 bytes d
        let d := hbmCount r.part (if fromFar || 2 ≤ loc then page else 2 * page) (if fromFar then d else hbmRead srcB src page d)
        let d := if 2 ≤ loc then
            (match (memRecs (imgOf r.part d)).find? fun x => u8 x 0 == 8 with
              | some fr => send (.rdmaWrite (u32 fr 4 % 2 ^ 24) (BitVec.ofNat 64 a) bytes) d
              | none => d)
          else
            let d := hbmWrite b a bytes d
            if fromFar then d else carryPoison srcB src b a page d
        let e : Edit := { op := t.op, stream := t.stream, region := t.region, arg := 0,
                          changes := [(key, some { loc := loc, ro := false, addr := a })] }
        acceptEdit b e (refFrame b loc a d)

/-- R364 on one record; 0 when it passes. -/
def truncStatus (p : Nat) (rec : List Byte) (d : Dev) : Nat :=
  let i := u32 rec 4
  match streamAt (i % 2 ^ 18) d with
  | none => stNO_STREAM
  | some s =>
    if s.part ≠ p then stNO_STREAM
    else if u8 rec 0 ≠ 6 || u8 rec 1 ≠ p || u16 rec 2 ≠ 0 || 2 ^ 18 ≤ i || u32 rec 12 ≠ 0 then stBAD_EDIT
    else if s.state ≠ 4 && s.state ≠ 5 then stSTREAM_STATE
    else match regionAt s.home (regKey i false) d with
      | none => stBAD_EDIT
      | some r =>
        let n := u32 rec 8
        let lay := regRecOf r d
        let img := imgOf p d
        let m := effPages p s.home d
        let shared := fun (rk : Nat) => (regionAt s.home rk d).any fun r => decide (n < r.shared) && (regPages r m).any fun e => e.2.ro
        let lost := fun (l : Nat) =>
          let win := kvWin img r.model l
          win != 0 && (List.range (kvLstride lay r.maxlen / kvPage lay)).any fun j =>
            decide (n + 1 ≤ (j + 1) * kvEpp lay + win - 1) && decide (j * kvEpp lay < n) &&
              (mget? m (pageKeyOf r lay (posVa r lay l (j * kvEpp lay)))).isNone
        if r.len < n then stBAD_EDIT
        else if (List.range (kvLayers lay)).any lost then stBAD_EDIT
        else if shared (regKey i false) || shared (regKey i true) then stBAD_EDIT
        else 0

/-- A page of a region whose positions all lie at or beyond `n`, in any layer. -/
def pageBeyond (r : Region) (lay : List Byte) (n key : Nat) : Bool :=
  let off := (key - pageKey r.part r.base) * 2 ^ 16
  let msz := kvMaskSz lay r.mode r.maxlen
  decide (msz ≤ off) && decide (n ≤ (off - msz) % kvLstride lay r.maxlen / kvPage lay * kvEpp lay)

/-- TRUNCATE accepted: staging is flushed (R367), copies of pages it unmaps are not wanted any more, and the draft region follows
(10 R406). -/
def acceptTruncate (b i n : Nat) (d : Dev) : Dev :=
  let d := settleBufs b i d
  forEach [regKey i false, regKey i true] (fun rk d =>
    match regionAt b rk d with
    | none => d
    | some r =>
      let lay := regRecOf r d
      let gone := (regPages r (effPages r.part b d)).filter fun e => pageBeyond r lay n e.1
      acceptEdit b { op := 6, stream := i, region := rk, arg := n, changes := gone.map fun e => (e.1, none) }
        (modKv b (fun k => { k with transfers := k.transfers.filter fun t => !(t.op == 4 && t.region == rk && pageBeyond r lay n t.page) }) d)) d

/-- A host TABLE_EDIT: COUNT records, all checked before any takes effect (R364, 12 R503). -/
def doTableEdit (p aid : Nat) (m : Dgram) (d : Dev) : Dev :=
  let n := u16 m.payload 0
  if m.payload.length ≠ 4 + 16 * n || u16 m.payload 2 ≠ 0 then sendReply aid m stBAD_MESSAGE 0 0 [] d
  else if n = 0 || 64 < n then sendReply aid m stBAD_PARAM 0 0 [] d
  else
    let recs := chunks 16 n (m.payload.drop 4)
    match recs.findIdx? fun r => truncStatus p r d != 0 with
    | some k => sendReply aid m (truncStatus p (recs.getD k []) d) k 0 [] d
    | none =>
      forEach recs (fun r d => match streamAt (u32 r 4) d with
        | some s => acceptTruncate s.home (u32 r 4) (u32 r 8) d
        | none => d) (sendReply aid m stOK 0 0 [] d)

end Sys2Proof.Machine
end

