-- ==== Sys2Proof/Machine/CnsCore.lean ====
section
/-! DEFINITION. The consort record as it is read (14 R546), and the members it names. -/

namespace Sys2Proof.Machine

def cnsId (r : List Byte) : Nat := u32 r 0
def cnsGen (r : List Byte) : Nat := u32 r 4
def cnsN (r : List Byte) : Nat := u8 r 8
def cnsMasterNo (r : List Byte) : Nat := u8 r 9
def cnsSelf (r : List Byte) : Nat := u8 r 0xA
def cnsTsrc (r : List Byte) : Nat := u8 r 0xB
def cnsMode (r : List Byte) : Nat := u8 r 0xC
def cnsSyncCount (r : List Byte) : Nat := u16 r 0xE
def cnsMember (r : List Byte) (m : Nat) : List Byte := bytesAt r (0x10 + 48 * m) 48
def memSerial (e : List Byte) : DWord := BitVec.ofNat 64 (u64 e 0)
def memQp (e : List Byte) : Nat := u16 e 0x18
def memPart (e : List Byte) : Nat := u8 e 0x1A
def memSync (e : List Byte) : Nat := u16 e 0x1C

/-- The current record names a consort. -/
def inConsort (d : Dev) : Bool := cnsId d.cns.cur != 0
def isCnsMaster (d : Dev) : Bool := inConsort d && cnsSelf d.cns.cur == cnsMasterNo d.cns.cur
def cnsFormed (d : Dev) : Bool := inConsort d && d.cns.state == 2
/-- This module's consort partition. -/
def cnsPart (d : Dev) : Nat := memPart (cnsMember d.cns.cur (cnsSelf d.cns.cur))
/-- PIPELINE or TENSOR. -/
def cnsSplit (d : Dev) : Bool := let m := cnsMode d.cns.cur; m == 2 || m == 3
def cnsOthers (d : Dev) : List Nat := (List.range (cnsN d.cns.cur)).filter fun m => m != cnsSelf d.cns.cur

/-- Partition `p` serves the streams of a formed PIPELINE or TENSOR consort. -/
def cnsServes (p : Nat) (d : Dev) : Bool := cnsFormed d && cnsSplit d && cnsPart d == p

/-- Send a consort message to every other member that is not lost. Kinds: 1 join request, 2 join result, 3 Strum, 4 Strum
acknowledgement, 5 commit, 6 cancel, 7 sync update forwarded, 8 distributed, 9 stream entry, 10 stream message, 11 batch
description, 12 token records, 13 port slices, 14 leave. -/
def cnsSendAll (kind : Nat) (data : List Byte) (d : Dev) : Dev :=
  forEach ((cnsOthers d).filter fun m => !d.cns.lost.contains m) (fun m d => send (.consort m kind data) d) d

/-- PORT entry `k` (R546): source member and stage, destination member and stage, slices. -/
def cnsPort (r : List Byte) (k : Nat) : Nat × Nat × Nat × Nat × Nat :=
  let o := 0x310 + 8 * k
  (u8 r o, u8 r (o + 1), u8 r (o + 2), u8 r (o + 3), u16 r (o + 4))

/-- A port takes output slice `sl` of a stage. -/
def cnsPortTakes (stage sl : Nat) (d : Dev) : Bool :=
  cnsFormed d && cnsSplit d && (List.range (min 24 (u8 d.cns.cur 0xD))).any fun k =>
    let e := cnsPort d.cns.cur k
    e.1 == cnsSelf d.cns.cur && e.2.1 == stage && decide (sl < e.2.2.2.2)

/-- Output slice `sl` of a stage goes to the ports whose source it is, and its bytes are counted (R556, R557). -/
def cnsPortSend (stage sl : Nat) (bytes : List Byte) (d : Dev) : Dev :=
  if !cnsFormed d || !cnsSplit d then d
  else forEach (List.range (min 24 (u8 d.cns.cur 0xD))) (fun k d =>
    let e := cnsPort d.cns.cur k
    if e.1 = cnsSelf d.cns.cur ∧ e.2.1 = stage ∧ sl < e.2.2.2.2 then
      addWrap HS_CNSTXB (bytes.length / 64) (send (.consort e.2.2.1 13 (leBytes 2 k ++ leBytes 2 sl ++ bytes)) d)
    else d) d

def modCns (f : Cns → Cns) (d : Dev) : Dev := { d with cns := f d.cns }

/-- The consort sync object that an object of the consort partition is (R554). -/
def cnsSyncNo (o : Nat) (d : Dev) : Option Nat :=
  let base := memSync (cnsMember d.cns.cur (cnsSelf d.cns.cur))
  if cnsFormed d && inRange base (cnsSyncCount d.cns.cur) o then some (o - base) else none

end Sys2Proof.Machine
end

