-- ==== Sys2Proof/Machine/StreamReq.lean ====
section
/-! DEFINITION. The host's stream messages (10 R396-R399, R424-R429; 12 R493-R496; 09 R349, R366): what ADMIT, APPEND,
PAUSE, RESUME, CANCEL, PARK, UNPARK, PREFIX_REGISTER and PREFIX_DROP check and do once accepted. -/

namespace Sys2Proof.Machine

/-! ### Supplied data (12 R494) -/

/-- Bytes of one input row of a model: the IN_SLICES of its ENTRY stage in the stream's row format. -/
def rowBytes (p model fmt : Nat) (d : Dev) : Nat :=
  let img := imgOf p d
  match modelRec img model with
  | some r => (match stageRec img (mEntry r) with | some s => sIn s * rowSliceBytes fmt | none => rowSliceBytes fmt)
  | none => rowSliceBytes fmt

def splitToks (data : List Byte) : List Nat := (chunks 4 (data.length / 4) data).map fun c => leNat c

/-- Tokens become known from AVAIL on. -/
def feedToks (i : Nat) (l : List Nat) (d : Dev) : Dev :=
  modStream i (fun s => l.foldl (fun s t => { s with toks := mput s.toks s.avail (t, false), avail := s.avail + 1 }) s) d

/-- Row bytes; a position is supplied when its last byte arrives. -/
def feedRows (i n : Nat) (data : List Byte) (d : Dev) : Dev :=
  modStream i (fun s =>
    let all := s.dataBuf ++ data
    let k := if n = 0 then 0 else all.length / n
    let s := (chunks n k all).foldl (fun s r => { s with rows := mput s.rows s.avail r, avail := s.avail + 1 }) s
    { s with dataBuf := all.drop (n * k) }) d

/-- Write row `q` of the bitmap into the mask area (09 R378). -/
def writeMaskRow (b : Nat) (r : Region) (q : Nat) (bytes : List Byte) (d : Dev) : Dev :=
  let lay := regRecOf r d
  let m := effPages r.part b d
  forEach (List.range (q + 1)) (fun k d =>
    let n := q * (q + 1) / 2 + k
    let va := r.base + n / 8
    match mget? m (pageKeyOf r lay va) with
    | none => d
    | some e =>
      let a := e.addr + va % kvPage lay
      let v := (hbmByte b a d).toNat
      let w := if bit (u8 bytes (k / 8)) (k % 8) then v ||| 2 ^ (n % 8) else v - b2n (bit v (n % 8)) * 2 ^ (n % 8)
      setByte b a (BitVec.ofNat 8 w) d) d

/-- Row `q` enters the mask area of a region, and ROWS counts it (09 R378). -/
def maskRowTo (b q : Nat) (bytes : List Byte) (rk : Nat) (d : Dev) : Dev :=
  match regionAt b rk d with
  | some r => modRegion b rk (fun r => { r with rows := r.rows + 1 }) (writeMaskRow b r q bytes d)
  | none => d

/-- Whole rows leave the buffer in ascending order, up to the rows of MAXLEN, for the stream's region and the draft's. -/
def feedMask (i rk b : Nat) : Nat → Dev → Dev
  | 0, d => d
  | fuel + 1, d =>
    match streamAt i d, regionAt b rk d with
    | some s, some r =>
      let n := (r.rows + 1 + 7) / 8
      if s.maskBuf.length < n || (r.maxlen + 63) / 64 ≤ r.rows then d
      else
        let d := forEach [rk, rk + 1] (maskRowTo b r.rows (s.maskBuf.take n)) d
        feedMask i rk b fuel (modStream i (fun s => { s with maskBuf := s.maskBuf.drop n }) d)
    | _, _ => d

def feedMaskBytes (i : Nat) (data : List Byte) (d : Dev) : Dev :=
  let d := modStream i (fun s => { s with maskBuf := s.maskBuf ++ data }) d
  match streamAt i d with
  | some s => feedMask i (regKey i false) s.home s.maskBuf.length d
  | none => d

/-! ### ADMIT -/

/-- An FP32 parameter lies in [lo, hi], `openLo`: above lo. -/
def fpIn (w : Nat) (lo hi : Dy) (openLo openHi : Bool) : Bool :=
  match fpDec fF32 w with
  | none => false
  | some x => (if openLo then dyLt lo x else dyLe lo x) && (if openHi then dyLt x hi else dyLe x hi)

/-- The lists of an ADMIT: where each begins. -/
structure AdmitLists where
  bias : List (Nat × Word)
  stopTok : List Nat
  stopSeq : List (List Nat)
  data : List Byte
  mask : List Byte
  len : Nat
  padOk : Bool
  deriving DecidableEq, Repr

def admitLists (l : List Byte) : AdmitLists :=
  let nb := u16 l 0x48
  let nt := u8 l 0x4A
  let ns := u8 l 0x4B
  let nd := u32 l 0x4C
  let nm := u32 l 0x50
  let o1 := 0x58 + 8 * nb
  let o2 := o1 + 4 * nt
  let o3 := o2 + 68 * ns
  let o4 := o3 + pad4 nd
  { bias := (List.range nb).map fun k => (u32 l (0x58 + 8 * k), BitVec.ofNat 32 (u32 l (0x5C + 8 * k))),
    stopTok := (List.range nt).map fun k => u32 l (o1 + 4 * k),
    stopSeq := (List.range ns).map fun k => (List.range 17).map fun j => u32 l (o2 + 68 * k + 4 * j),
    data := bytesAt l o3 nd, mask := bytesAt l o4 nm, len := o4 + pad4 nm,
    padOk := allZero (bytesAt l (o3 + nd) (pad4 nd - nd)) && allZero (bytesAt l (o4 + nm) (pad4 nm - nm)) }

/-- A stop sequence: its length word in 1 to 16, unused slots 0. -/
def stopSeqOk (vocab : Nat) (l : List Nat) : Bool :=
  let n := l.headD 0
  decide (1 ≤ n) && decide (n ≤ 16) && ((l.drop 1).take n).all (fun t => decide (t < vocab)) && ((l.drop 1).drop n).all (fun t => t == 0)

def maskIdxOk (m : Nat) : Bool := decide (m < 1024) || m == 0xFFFF
def maxTokOk (n : Nat) : Bool := decide (1 ≤ n) && decide (n ≤ 16777215)

/-- The parameters of R412 and the ranges of R397. -/
def admitParamsOk (l : List Byte) (z : AdmitLists) (vocab : Nat) : Bool :=
  let one := dyInt 1
  let rows := bit (u8 l 3) 3
  decide (u8 l 1 < 8) && decide (u8 l 2 < 3) && decide (u8 l 0x12 ≤ 8) && maxTokOk (u32 l 0x14) && decide (u16 l 0x2C ≤ 1024)
    && maskIdxOk (u16 l 0x2E)
    && fpIn (u32 l 0x30) dyZero (dyInt 100) false false && fpIn (u32 l 0x34) dyZero one true false
    && fpIn (u32 l 0x38) dyZero one false true && fpIn (u32 l 0x3C) dyZero (dyInt 8) true false
    && fpIn (u32 l 0x40) (dyInt (-8)) (dyInt 8) false false && fpIn (u32 l 0x44) (dyInt (-8)) (dyInt 8) false false
    && decide (z.bias.length ≤ 256) && z.bias.all (fun e => decide (e.1 < vocab) && fpIn e.2.toNat (dyInt (-100)) (dyInt 100) false false)
    && decide (z.stopTok.length ≤ 64) && z.stopTok.all (fun t => decide (t < vocab))
    && decide (z.stopSeq.length ≤ 16) && z.stopSeq.all (stopSeqOk vocab)
    && (rows || (z.data.length % 4 == 0 && (splitToks z.data).all (fun t => decide (t < vocab))))
    && (u8 l 2 == 2 || z.mask.isEmpty)

/-- The stream's lowest FREE entry of a partition's range (R398). -/
def freeEntry (p : Nat) (d : Dev) : Option Nat :=
  let r := resOf p d
  ((List.range (resStreamCount r)).map fun k => resStreamBase r + k).find? fun i => (streamAt i d).isNone && ownsStream p i d

/-- The home Bridge of R52. -/
def homeBridge (p model : Nat) (d : Dev) : Nat :=
  let img := imgOf p d
  match kvRec img model with
  | some r =>
    let cs := (List.range 12).filter fun b => bit (kvBridges r) b
    (cs.foldl (fun (best : Option (Nat × Nat)) b =>
      let n := freeFrames p b 0 d
      match best with
      | some (x, m) => if m < n then some (b, n) else some (x, m)
      | none => some (b, n)) none).elim 0 (·.1)
  | none =>
    let cs := (List.range 12).filter fun b => match modelRec img model with
      | some r => (match stageRec img (mEntry r) with | some s => bit (sBridges s) b | none => false)
      | none => false
    let load := fun (b : Nat) => (d.streams.filter fun e => e.2.part == p && e.2.home == b).length
    (cs.foldl (fun (best : Option (Nat × Nat)) b => match best with
      | some (x, m) => if load b < m then some (b, load b) else some (x, m)
      | none => some (b, load b)) none).elim 0 (·.1)

/-- Take the KV regions of a stream at admission (R349, R406, R378); none when they do not fit. -/
def takeRegions (p b i model mode maxlen prefixLen : Nat) (draft : Bool) (d : Dev) : Option Dev :=
  match regRec p model false d with
  | none => some d
  | some lay =>
    let dl := if draft then regRec p model true d else none
    let masks := kvMaskSz lay mode maxlen / kvPage lay + dl.elim 0 fun x => kvMaskSz x mode maxlen / kvPage x
    if freeFrames p b 0 d < masks then none
    else match takeRegion p b (regKey i false) model mode maxlen prefixLen lay d with
      | none => none
      | some d =>
        match dl with
        | none => some d
        | some dl =>
          let dm := match modelRec (imgOf p d) model with | some r => u8 r 2 | none => 0
          takeRegion p b (regKey i true) dm mode maxlen prefixLen dl d

/-- MAP every page of the mask area of both regions (R378). -/
def mapMask (p b i : Nat) (d : Dev) : Dev :=
  forEach [regKey i false, regKey i true] (fun rk d =>
    match regionAt b rk d with
    | none => d
    | some r =>
      let lay := regRecOf r d
      forEach (List.range (kvMaskSz lay r.mode r.maxlen / kvPage lay)) (fun k d =>
        mapPage p b i rk (pageKey r.part (r.base + k * kvPage lay)) d) d) d

/-! ### Prefix handles (09 R366) -/

/-- A page of a layer within a handle: layer and page number. -/
def pfxKey (l j : Nat) : Nat := l * 2 ^ 20 + j

/-- The page key in a region of page `j` of layer `l`. -/
def layerPage (r : Region) (lay : List Byte) (l j : Nat) : Nat := pageKeyOf r lay (posVa r lay l (j * kvEpp lay))

/-- ADMIT that names a handle: whole frames are SHAREd on the handle's Bridge, everything else is COPYed. -/
def takePrefix (b i rk : Nat) (x : Prefix) (frames : SMap Nat) (d : Dev) : Dev :=
  match regionAt b rk d with
  | none => d
  | some r =>
    let lay := regRecOf r d
    let d := forEach frames (fun e d =>
      let l := e.1 / 2 ^ 20
      let j := e.1 % 2 ^ 20
      let key := layerPage r lay l j
      if x.bridge = b && decide ((j + 1) * kvEpp lay ≤ x.len) then
        acceptEdit b { op := 3, stream := i, region := rk, arg := 0, changes := [(key, some { loc := 0, ro := true, addr := e.2 % 2 ^ 64 })] }
          (refFrame b 0 (e.2 % 2 ^ 64) d)
      else
        modKv b (fun k => { k with transfers := k.transfers ++
          [{ op := 4, stream := i, region := rk, page := key, src := e.2, loc := x.bridge }] }) d) d
    modRegion b rk (fun r => { r with len := x.len, shared := if x.bridge = b then x.len else 0 }) d

/-! ### The checks of ADMIT (R397) -/

/-- A DRAIN_FIRST window of the model is open: admissions are refused (08 R329). -/
def draining (p m : Nat) (d : Dev) : Bool := d.loads.windows.any fun w => w.part == p && w.model == m && w.adapter.isNone && w.drain

/-- The hint of DRAINING: the retire-by, or all ones (R329). -/
def drainHint (p m : Nat) (d : Dev) : Nat :=
  match (oldEpoch p m d).bind fun e => e.retireBy with
  | some t => t.toNat
  | none => 2 ^ 64 - 1

/-- The hint of BUSY (R429). -/
def busyHint (p : Nat) (d : Dev) : Nat :=
  let k := ((schedAt p d).frees.filter fun t => since t d ≤ sec 1).length
  if k = 0 then 1000 else min 1000 (max 1 (4000 / k))

def admitPrefix (p : Nat) (l : List Byte) (d : Dev) : Option Prefix :=
  (mget? d.prefixes (u32 l 0x0C)).bind fun x => if x.part = p then some x else none

/-- Supplied positions of an ADMIT. -/
def suppliedPos (p : Nat) (l : List Byte) (z : AdmitLists) (d : Dev) : Nat :=
  if bit (u8 l 3) 3 then
    let n := rowBytes p (u8 l 0) (bits (u8 l 3) 4 2) d
    if n = 0 then 0 else z.data.length / n
  else z.data.length / 4

/-- The first applicable status of R397 after BUSY, 0 when the ADMIT passes (14 R555 for a consort). -/
def admitStatus (p : Nat) (l : List Byte) (z : AdmitLists) (i : Nat) (d : Dev) : Nat :=
  let m := u8 l 0
  let img := imgOf p d
  let ad := u16 l 0x10
  let named := u32 l 0x0C != 0xFFFFFFFF
  let target := match modelRec img m with | some r => isTarget r | none => false
  let vocab := match modelRec img m with | some r => mVocab r | none => 0
  if target && draining p m d then stDRAINING
  else match curEpoch p m d with
    | none => stNO_MODEL
    | some e =>
      if !target then stNO_MODEL
      else if cnsServes p d && !Config.memberEpochs d.free then stNO_MODEL
      else if ad ≠ 0xFFFF && !(ownsAdapter p ad d && (curGenOf ad d).isSome) then stNO_ADAPTER
      else if named && (admitPrefix p l d).isNone then stNO_PREFIX
      else
        let gen := match curGenOf ad d with | some g => if ad = 0xFFFF then 0 else g.gen | none => 0
        let stale := match admitPrefix p l d with
          | some x => named && !(x.model == m && x.epoch == e.num && x.adapter == ad && (ad == 0xFFFF || x.adpgen == gen))
          | none => false
        let pfx := if named then (admitPrefix p l d).elim 0 (fun x => x.len) else 0
        let pl := u32 l 8
        let maxlen := u32 l 4
        if stale then stPREFIX_STALE
        else if !admitParamsOk l z vocab || (cnsServes p d && u8 l 0x12 != 0) then stBAD_PARAM
        else if (u8 l 2 ≠ 1 && pl ≠ 0) || chunkMax img < pl
            || (u8 l 2 = 1 && named && (admitPrefix p l d).any (fun x => x.prefixLen != pl)) then stMASK_INVALID
        else if (match kvRec img m with | some r => decide (kvMaxlen r < maxlen) | none => false)
            || maxlen < pfx + suppliedPos p l z d + 1 then stKV_RANGE
        else if (takeRegions p (homeBridge p m d) i m (u8 l 2) maxlen pl (u8 l 0x12 != 0) d).isNone then stNO_SPACE
        else 0

def admitSampling (l : List Byte) (z : AdmitLists) : Sampling :=
  { temp := BitVec.ofNat 32 (u32 l 0x30), topK := u16 l 0x2C, topP := BitVec.ofNat 32 (u32 l 0x34), minP := BitVec.ofNat 32 (u32 l 0x38),
    repPen := BitVec.ofNat 32 (u32 l 0x3C), freqPen := BitVec.ofNat 32 (u32 l 0x40), presPen := BitVec.ofNat 32 (u32 l 0x44),
    penPrompt := bit (u8 l 3) 2, bias := z.bias, stopTok := z.stopTok, stopSeq := z.stopSeq.map fun s => (s.drop 1).take (s.headD 0),
    mask := u16 l 0x2E }

/-- The entry of a newly admitted stream (R398). -/
def admitEntry (p i home : Nat) (m : Dgram) (z : AdmitLists) (e : Epoch) (d : Dev) : Stream :=
  let l := m.payload
  let inc := (mgetD d.incarnation i 0 + 1) % 16384
  let handle := inc * 2 ^ 18 + i
  let seed := if u64 l 0x18 = 0 then d.time ^^^ BitVec.ofNat 64 (handle * 0x9E3779B97F4A7C15) else BitVec.ofNat 64 (u64 l 0x18)
  let ad := u16 l 0x10
  let pfx := if u32 l 0x0C = 0xFFFFFFFF then none else admitPrefix p l d
  let n := pfx.elim 0 (fun x => x.len)
  { handle := BitVec.ofNat 32 handle, state := 1, part := p, prio := u8 l 1, model := u8 l 0, keep := bit (u8 l 3) 0,
    more := bit (u8 l 3) 1, hostp := false, schedp := false, home := home, epoch := e.num, adapter := ad,
    adpgen := if ad = 0xFFFF then 0 else (curGenOf ad d).elim 0 (fun g => g.gen), nextpos := n, avail := n,
    turnLeft := u32 l 0x14, draftMax := u8 l 0x12, draft := u8 l 0x12, turn := true, moving := false, heldKv := false,
    heldTok := false, atRisk := false, rejrun := 0, endr := 0, seed := seed, limit := BitVec.ofNat 64 (u64 l 0x20),
    target := BitVec.ofNat 32 (u32 l 0x28), emitted := 0, admitT := BitVec.ofNat 32 (d.time.toNat / 4096), host := m.src,
    port := m.sport, maxlen := u32 l 4, mode := u8 l 2, prefixLen := u32 l 8, start := n,
    rowsFmt := if bit (u8 l 3) 3 then some (bits (u8 l 3) 4 2) else none, samp := admitSampling l z,
    toks := pfx.elim [] (fun x => x.toks), rows := [], dataBuf := [], maskBuf := [], hist := [], flags := 0, pflags := [], recs := 0,
    turnBegan := d.time, turnEmitted := false, stepEnd := none, stepGap := 0, stepToks := 0, heldFrom := none, steps := [],
    drafts := [], draftDone := false, rolled := none, lastBatch := 0, park := none, unpark := false, finalAcked := false,
    stop := 0, outq := [] }

/-- Supplied data and mask rows of an accepted message. -/
def feed (i : Nat) (data mask : List Byte) (d : Dev) : Dev :=
  match streamAt i d with
  | none => d
  | some s =>
    let d := match s.rowsFmt with
      | some f => feedRows i (rowBytes s.part s.model f d) data d
      | none => feedToks i (splitToks data) d
    if mask.isEmpty then d else feedMaskBytes i mask d

/-- The ADMIT is accepted: the entry, the regions, the binding (R398). -/
def admitAccept (p aid i : Nat) (m : Dgram) (z : AdmitLists) (e : Epoch) (d : Dev) : Dev :=
  let l := m.payload
  let model := u8 l 0
  let home := homeBridge p model d
  let d := (takeRegions p home i model (u8 l 2) (u32 l 4) (u32 l 8) (u8 l 0x12 != 0) d).getD d
  let d := if d.loads.windows.any (fun w => w.part == p && w.model == model && w.state == 3) then choice p true d else d
  let s := admitEntry p i home m z e d
  let d := { d with streams := mput d.streams i s, incarnation := mput d.incarnation i ((mgetD d.incarnation i 0 + 1) % 16384) }
  let d := mapMask p home i d
  let d := if u32 l 0x0C = 0xFFFFFFFF then d else match admitPrefix p l d with
    | some x => takePrefix home i (regKey i true) x x.draftFrames (takePrefix home i (regKey i false) x x.frames d)
    | none => d
  let d := feed i z.data z.mask (bump HS_ADMITOK d)
  let d := if cnsServes p d && isCnsMaster d then
      (match streamAt i d with
        | some s => cnsSendAll 9 (entryBytes i s ++ l) { d with free := d.free + 1 }
        | none => d)
    else d
  sendReply aid m stOK 0 0 (leBytes 4 s.handle.toNat ++ leBytes 1 home ++ [0#8, 0#8, 0#8]) d

/-- ADMIT (12 R493, 10 R397, R398). -/
def doAdmit (p aid : Nat) (m : Dgram) (d : Dev) : Dev :=
  let l := m.payload
  let z := admitLists l
  if l.length < 0x58 || l.length ≠ z.len || !z.padOk || 64 ≤ u8 l 3 || u8 l 0x13 ≠ 0 || u32 l 0x54 ≠ 0 then
    sendReply aid m stBAD_MESSAGE 0 0 [] d
  else match freeEntry p d with
    | none => sendReply aid m stBUSY 0 (busyHint p d) [] (bump HS_ADMITBUSY d)
    | some i =>
      let st := admitStatus p l z i d
      if st = stDRAINING then sendReply aid m st 0 (drainHint p (u8 l 0) d) [] (bump HS_ADMITREF (bump HS_ADMITDRAIN d))
      else if st ≠ 0 then sendReply aid m st 0 0 [] (bump HS_ADMITREF d)
      else match curEpoch p (u8 l 0) d with
        | some e => admitAccept p aid i m z e d
        | none => sendReply aid m stNO_MODEL 0 0 [] (bump HS_ADMITREF d)

/-! ### Leaving PAUSED (R391) -/

/-- A supplied position has not been taken into a batch yet, or no token has been generated. -/
def promptRemains (s : Stream) : Bool :=
  match mget? s.toks (s.avail - 1) with
  | some (_, gen) => s.avail = 0 || !gen
  | none => true

/-- The last of the pauses is gone while TURN is 1. -/
def leavePause (i : Nat) (d : Dev) : Dev :=
  match streamAt i d with
  | none => d
  | some s =>
    if s.state = 4 && s.turn && !s.hostp && !s.schedp then
      modStream i (fun s => { s with state := if promptRemains s then 2 else 3, draftDone := false, drafts := [] }) d
    else d

def enterPause (i : Nat) (d : Dev) : Dev := sendStatus i (modStream i (fun s => { s with state := 4 }) d)

/-! ### APPEND (R399, 12 R495) -/

/-- Refusals of APPEND, 0 when it is accepted. -/
def appendStatus (l : List Byte) (s : Stream) (d : Dev) : Nat :=
  let fl := u8 l 0
  let nd := u32 l 0x10
  let nm := u32 l 0x14
  let data := bytesAt l 0x18 nd
  let newTurn := s.state = 4 && !s.turn
  let vocab := match modelRec (imgOf s.part d) s.model with | some r => mVocab r | none => 0
  let n := match s.rowsFmt with
    | some f => let k := rowBytes s.part s.model f d; if k = 0 then 0 else (s.dataBuf.length + nd) / k
    | none => nd / 4
  if !(s.state = 1 || (s.state = 2 && s.more) || s.state = 4) then stSTREAM_STATE
  else if (s.rowsFmt.isNone && (nd % 4 != 0 || (splitToks data).any (fun t => decide (vocab ≤ t)))) || (s.mode ≠ 2 && nm ≠ 0)
      || ((newTurn || bit fl 3) && !maxTokOk (u32 l 4)) || (bit fl 4 && !maskIdxOk (u16 l 2)) then stBAD_PARAM
  else if s.maxlen < s.avail + n + 1 then stKV_RANGE
  else 0

def doAppend (p aid : Nat) (m : Dgram) (d : Dev) : Dev :=
  let l := m.payload
  let nd := u32 l 0x10
  let nm := u32 l 0x14
  if l.length < 0x18 || l.length ≠ 0x18 + pad4 nd + pad4 nm || 32 ≤ u8 l 0 || u8 l 1 ≠ 0
      || !allZero (bytesAt l (0x18 + nd) (pad4 nd - nd)) || !allZero (bytesAt l (0x18 + pad4 nd + nm) (pad4 nm - nm)) then
    sendReply aid m stBAD_MESSAGE 0 0 [] d
  else match handleStream p m.hdr.stream d with
    | none => sendReply aid m stNO_STREAM 0 0 [] d
    | some (i, s) =>
      let st := appendStatus l s d
      if st ≠ 0 then sendReply aid m st 0 0 [] d
      else
        let fl := u8 l 0
        let newTurn := s.state = 4 && !s.turn
        let d := feed i (bytesAt l 0x18 nd) (bytesAt l (0x18 + pad4 nd) nm) d
        let d := modStream i (fun s => { s with
          more := bit fl 0, hostp := s.hostp && !bit fl 1,
          limit := if newTurn || bit fl 2 then BitVec.ofNat 64 (u64 l 8) else s.limit,
          turnLeft := if newTurn || bit fl 3 then u32 l 4 else s.turnLeft,
          samp := if bit fl 4 then { s.samp with mask := u16 l 2 } else s.samp }) d
        let d := if newTurn then
            modStream i (fun s => { s with turn := true, turnBegan := d.time, turnEmitted := false, hist := [] }) d
          else d
        sendReply aid m stOK 0 0 [] (if bit fl 1 then leavePause i d else d)

/-! ### PAUSE, RESUME, CANCEL (R391-R394, R424) -/

/-- A message that carries only its handle in the header. -/
def bareStream (p aid : Nat) (m : Dgram) (f : Nat → Stream → Dev → Dev) (d : Dev) : Dev :=
  if !m.payload.isEmpty then sendReply aid m stBAD_MESSAGE 0 0 [] d
  else match handleStream p m.hdr.stream d with
    | none => sendReply aid m stNO_STREAM 0 0 [] d
    | some (i, s) => f i s d

def doPause (p aid : Nat) (m : Dgram) (d : Dev) : Dev :=
  bareStream p aid m (fun i s d =>
    let d := sendReply aid m stOK 0 0 [] d
    if s.state = 0 || 5 ≤ s.state then d
    else
      let d := modStream i (fun s => { s with hostp := true }) d
      if s.state = 1 || ((s.state = 2 || s.state = 3) && s.steps.isEmpty && s.stop = 0) then enterPause i d else d) d

def doResume (p aid : Nat) (m : Dgram) (d : Dev) : Dev :=
  bareStream p aid m (fun i s d =>
    let d := sendReply aid m stOK 0 0 [] d
    if s.state = 0 || 6 ≤ s.state then d else leavePause i (modStream i (fun s => { s with hostp := false }) d)) d

def doCancel (p aid : Nat) (m : Dgram) (d : Dev) : Dev :=
  bareStream p aid m (fun i s d =>
    let d := sendReply aid m stOK 0 0 [] d
    if streamLive s then endStream i 0x06 d else d) d

/-! ### PARK and UNPARK (R425, R426) -/

/-- The pages of both regions. -/
def streamPages (b i : Nat) (d : Dev) : List Pte :=
  [regKey i false, regKey i true].flatMap fun rk => match regionAt b rk d with
    | some r => (regPages r (effPages r.part b d)).map (·.2)
    | none => []

/-- At a step boundary the stream is PARKED, its staging is flushed and its moves begin (09 R367). -/
def startPark (i : Nat) (d : Dev) : Dev :=
  match streamAt i d with
  | none => d
  | some s =>
    match s.park with
    | none => d
    | some (dest, ttl) =>
      let d := settleBufs s.home i d
      if !(streamAt i d).any streamLive then d
      else
      let ts := moveTransfers s.home i (locCode s.part (dest + 1)) (fun _ => true) d
      let d := sendStatus i (modStream i (fun s => { s with state := 5, moving := !ts.isEmpty, heldKv := false, heldTok := false,
                                                            limit := BitVec.allOnes 64 }) d)
      if ts.isEmpty then parkDone i ttl d
      else modKv s.home (fun k => { k with transfers := k.transfers ++ ts }) d

def parkStatus (l : List Byte) (i : Nat) (s : Stream) (d : Dev) : Nat :=
  let ttl := u32 l 4
  if ttl < 1 || 2592000 < ttl || 1 < u8 l 0 then stBAD_PARAM
  else if !(s.state = 2 || s.state = 3 || s.state = 4) then stSTREAM_STATE
  else if (locArea s.part s.home (locCode s.part (u8 l 0 + 1)) d).isNone
      || freeFrames s.part s.home (locCode s.part (u8 l 0 + 1)) d < (streamPages s.home i d).length then stNO_SPACE
  else 0

def doPark (p aid : Nat) (m : Dgram) (d : Dev) : Dev :=
  let l := m.payload
  if l.length ≠ 8 || !allZero (bytesAt l 1 3) then sendReply aid m stBAD_MESSAGE 0 0 [] d
  else match handleStream p m.hdr.stream d with
    | none => sendReply aid m stNO_STREAM 0 0 [] d
    | some (i, s) =>
      let st := parkStatus l i s d
      if st ≠ 0 then sendReply aid m st 0 0 [] d
      else
        let d := sendReply aid m stOK 0 0 [] d
        let d := modStream i (fun s => { s with park := some (u8 l 0, u32 l 4), hostp := s.hostp || s.state != 4 }) d
        if s.steps.isEmpty && s.stop = 0 then startPark i d else d

/-- A parked stream whose expiry time has come (R426, R427). -/
def parkDue (s : Stream) (d : Dev) : Bool :=
  s.state = 5 && !asleep d && !s.moving && s.limit != BitVec.allOnes 64 && decide (s.limit.toNat ≤ d.time.toNat)

/-- PARK_EXPIRY (R427). -/
def parkExpiry (i : Nat) (d : Dev) : Dev :=
  match streamAt i d with
  | none => d
  | some s => if parkDue s d then endStream i 0x07 (bump HS_PARKEXP d) else d

/-- Refusals of UNPARK, 0 when it is accepted: a stream whose park has expired has ended (R426). -/
def unparkStatus (i : Nat) (s : Stream) (d : Dev) : Nat :=
  if parkDue s d || (s.state = 6 && s.endr = 7) then stNO_STREAM
  else if s.state ≠ 5 || s.unpark then stSTREAM_STATE
  else if freeFrames s.part s.home 0 d < ((streamPages s.home i d).filter fun e => e.loc != 0).length then stNO_SPACE
  else 0

def doUnpark (p aid : Nat) (m : Dgram) (d : Dev) : Dev :=
  bareStream p aid m (fun i s d =>
    let st := unparkStatus i s d
    let d := sendReply aid m st 0 0 [] (parkExpiry i d)
    if st ≠ 0 then d
    else if s.moving then modStream i (fun s => { s with unpark := true }) d
    else startUnpark i d) d

/-! ### Prefix handles (R428, 09 R366) -/

def freePrefix (p : Nat) (d : Dev) : Option Nat :=
  let r := resOf p d
  ((List.range (resPfxCount r)).map fun k => resPfxBase r + k).find? fun h => (mget? d.prefixes h).isNone && ownsPrefix p h d

/-- The pages of a region that a prefix of `n` positions takes: (key in the handle, frame, wholly below n). -/
def prefixPages (b rk n : Nat) (d : Dev) : List (Nat × Nat × Bool) :=
  match regionAt b rk d with
  | none => []
  | some r =>
    let lay := regRecOf r d
    let m := effPages r.part b d
    (List.range (kvLayers lay)).flatMap fun l => (List.range ((n + kvEpp lay - 1) / kvEpp lay)).filterMap fun j =>
      (mget? m (layerPage r lay l j)).map fun e => (pfxKey l j, frameKey e.loc e.addr, decide ((j + 1) * kvEpp lay ≤ n))

/-- The handle's references: whole frames shared, a partial frame copied. -/
def takeFrames (p b : Nat) (l : List (Nat × Nat × Bool)) (d : Dev) : SMap Nat × Dev :=
  l.foldl (fun a e =>
    if e.2.2 then (mput a.1 e.1 e.2.1, refFrame b (e.2.1 / 2 ^ 64) (e.2.1 % 2 ^ 64) a.2)
    else match freeFrame p b 0 a.2 with
      | some f =>
        let src := e.2.1 % 2 ^ 64
        let d := hbmCount p (2 * pageOf p a.2) <| carryPoison b src b f (pageOf p a.2) <|
          hbmWrite b f (hbmBytes b src (pageOf p a.2) a.2) (hbmRead b src (pageOf p a.2) a.2)
        (mput a.1 e.1 (frameKey 0 f), refFrame b 0 f d)
      | none => a) ([], d)

def registerStatus (p lp i : Nat) (s : Stream) (d : Dev) : Nat :=
  let parts := (prefixPages s.home (regKey i false) lp d ++ prefixPages s.home (regKey i true) lp d).filter fun e => !e.2.2
  if !((s.state = 3 || s.state = 4) && s.steps.isEmpty) then stSTREAM_STATE
  else if lp < 1 || streamLen i s d < lp then stKV_RANGE
  else if !((curEpoch p s.model d).any (fun e => e.num == s.epoch))
      || (s.adapter ≠ 0xFFFF && !((curGenOf s.adapter d).any (fun g => g.gen == s.adpgen))) then stPREFIX_STALE
  else if (freePrefix p d).isNone || freeFrames p s.home 0 d < parts.length then stPREFIX_FULL
  else 0

def doPrefixRegister (p aid : Nat) (m : Dgram) (d : Dev) : Dev :=
  if m.payload.length ≠ 4 then sendReply aid m stBAD_MESSAGE 0 0 [] d
  else match handleStream p m.hdr.stream d with
    | none => sendReply aid m stNO_STREAM 0 0 [] d
    | some (i, s) =>
      let lp := u32 m.payload 0
      let st := registerStatus p lp i s d
      match freePrefix p d with
      | none => sendReply aid m (if st = 0 then stPREFIX_FULL else st) 0 0 [] d
      | some h =>
        if st ≠ 0 then sendReply aid m st 0 0 [] d
        else
          let f := takeFrames p s.home (prefixPages s.home (regKey i false) lp d) d
          let g := takeFrames p s.home (prefixPages s.home (regKey i true) lp f.2) f.2
          let toks := (s.toks.filter fun t => decide (t.1 < lp) && decide (lp ≤ t.1 + 4096)).map fun t => (t.1, (t.2.1, false))
          let x : Prefix :=
            { part := p, model := s.model, bridge := s.home, epoch := s.epoch, adapter := s.adapter, adpgen := s.adpgen, len := lp,
              prefixLen := if s.mode = 1 then s.prefixLen else 0, frames := f.1, draftFrames := g.1, toks := toks }
          sendReply aid m stOK 0 0 (leBytes 4 h) { g.2 with prefixes := mput g.2.prefixes h x }

def doPrefixDrop (p aid : Nat) (m : Dgram) (d : Dev) : Dev :=
  if m.payload.length ≠ 4 || m.hdr.stream ≠ 0#32 then sendReply aid m stBAD_MESSAGE 0 0 [] d
  else match mget? d.prefixes (u32 m.payload 0) with
    | some x =>
      if x.part = p then dropPrefix (u32 m.payload 0) (sendReply aid m stOK 0 0 [] d) else sendReply aid m stNO_PREFIX 0 0 [] d
    | none => sendReply aid m stNO_PREFIX 0 0 [] d

end Sys2Proof.Machine
end

