-- ==== Sys2Proof/Machine/Scheduler.lean ====
section
/-! DEFINITION. The scheduler (10 R400-R405, R410, R420-R423): who is a candidate, what a batch takes, the frames its steps
reserve (09 R365), and who is paused and resumed. -/

namespace Sys2Proof.Machine

/-- The consort holds the formation of its partition (14 R551, R553, R556). -/
def cnsHolds (p : Nat) (d : Dev) : Bool :=
  inConsort d && cnsPart d == p
    && (d.cns.state == 3 || (d.cns.state == 2 && (!d.cns.gate || (cnsSplit d && !isCnsMaster d))))

/-- Batches of a partition may be formed: no reset, barrier, suspension, drain or consort stops it. -/
def formationOpen (p : Nat) (d : Dev) : Bool :=
  enabled p d && inForce p d && !(tuneAt p d).suspended && !((tuneAt p d).load.any fun t => t.state == 3)
    && d.rst.phase == .idle && !d.rst.withdrawn && !(d.rst.subs.any fun x => subCovers x p d)
    && d.pwr.state == 0 && d.pwr.target.isNone && !d.pwr.transit && !cnsHolds p d

/-- The model has a draft model in the image. -/
def hasDraft (p model : Nat) (d : Dev) : Bool :=
  match modelRec (imgOf p d) model with
  | some r => u8 r 2 != 0xFF && (modelRec (imgOf p d) (u8 r 2)).isSome
  | none => false

/-- The draft length of the next step (R407). -/
def gammaOf (s : Stream) (d : Dev) : Nat :=
  if s.state = 3 && hasDraft s.part s.model d then min s.draft (min (s.turnLeft - 1) (s.maxlen - 2 - s.nextpos)) else 0

/-! ### At risk (R421) -/

/-- The conditions of R421 on a live stream, and a held step; a last step without tokens gives no quotient (DEDUCED, log 154). -/
def riskNow (s : Stream) (d : Dev) : Bool :=
  let ttft := s.target.toNat / 65536
  let tpot := s.target.toNat % 65536
  streamLive s &&
    (s.heldKv
      || (s.turn && !s.turnEmitted && ttft != 0 && decide (8 * ms ttft < 10 * since s.turnBegan d))
      || (tpot != 0 && s.stepToks != 0 && decide (8 * (us 100 * tpot) * s.stepToks < 10 * s.stepGap)))

def partStreams (p : Nat) (d : Dev) : List (Nat × Stream) := d.streams.filter fun e => e.2.part == p

def refreshRisk (p : Nat) (d : Dev) : Dev :=
  forEach (partStreams p d) (fun e d => if streamLive e.2 then setAtRisk e.1 (riskNow e.2 d) d else d) d

def anyEf (p : Nat) (d : Dev) : Bool := (stageRecs (imgOf p d)).any fun r => sFlag r 2

/-- SCHEDP changes, and the change is reported (R395). -/
def setSchedp (i : Nat) (v : Bool) (d : Dev) : Dev := sendStatus i (modStream i (fun s => { s with schedp := v }) d)

/-- R422: every running stream of the lowest priority present below that of a stream at risk is paused; one level per
formation. -/
def schedulerPause (p : Nat) (d : Dev) : Dev :=
  let ss := partStreams p d
  let running := ss.filter fun e => (e.2.state == 2 || e.2.state == 3) && !e.2.schedp
  let low := running.foldl (fun m e => max m e.2.prio) 0
  if ss.any (fun e => e.2.atRisk && streamLive e.2 && decide (e.2.prio < low)) then
    forEach (running.filter fun e => e.2.prio == low) (fun e d =>
      let d := setSchedp e.1 true (choice p (anyEf p d) (bump HS_SCHPAUSE d))
      if e.2.steps.isEmpty && e.2.stop = 0 then enterPause e.1 d else d) d
  else d

/-- SCHEDULER_RESUME: after 10 ms with no stream at risk the highest paused priority resumes; one level per 10 ms (R423). -/
def schedulerResume (p : Nat) (d : Dev) : Dev :=
  let ss := partStreams p d
  let k := schedAt p d
  let held := ss.filter fun e => streamLive e.2 && e.2.schedp
  if ss.any (fun e => streamLive e.2 && e.2.atRisk) || since k.calmFrom d < ms 10 || since k.resumed d < ms 10 || held.isEmpty then d
  else
    let top := held.foldl (fun m e => min m e.2.prio) 7
    forEach (held.filter fun e => e.2.prio == top) (fun e d =>
      leavePause e.1 (setSchedp e.1 false (choice p (anyEf p d) (bump HS_SCHRESUME d))))
      (modSched p (fun k => { k with resumed := d.time }) d)

/-- AT_RISK_TTFT: a turn passes 0.8 of its target time without a token (R421). -/
def atRiskTtft (i : Nat) (d : Dev) : Dev :=
  match streamAt i d with
  | some s => if riskNow s d then setAtRisk i true d else d
  | none => d

/-! ### Candidates (R401) -/

/-- A stream that would have no position to step processes its last known position again (R391 leaves this open). -/
def restep (s : Stream) : Stream :=
  if s.steps.isEmpty && s.avail ≤ s.nextpos && 0 < s.avail && (s.state = 3 || ((s.state = 1 || s.state = 2) && !s.more)) then
    { s with nextpos := s.avail - 1 }
  else s

/-- R401, HELD_KV and HELD_TOK apart; a stream whose prefix pages are still being copied takes no step (09 R363, R366). -/
def eligible (p i : Nat) (s : Stream) (d : Dev) : Bool :=
  let k := schedAt p d
  s.part == p && (s.state = 1 || s.state = 2 || s.state = 3) && !s.hostp && !s.schedp && s.turn && s.stop = 0 && s.park.isNone
    && !copiesDue i d
    && (s.steps.isEmpty
      || (s.state = 2 && s.steps.all (·.prefill) && (s.steps.getLast?.any fun x => x.batch + 1 == k.nextId)))
    && (if s.state = 3 then (s.draftDone || gammaOf s d == 0) && decide (s.nextpos < s.avail)
        else decide (s.nextpos < s.avail) && (!s.more || decide (chunkMax (imgOf p d) ≤ s.avail - s.nextpos)))

/-- Places of a home Bridge's record pool in use: records not confirmed, and those of steps in flight (R420). -/
def poolUse (b : Nat) (d : Dev) : Nat :=
  ((d.streams.filter fun e => e.2.home == b).map fun e =>
    e.2.recs + (e.2.steps.map fun x => if x.prefill then 1 else x.count).foldl (· + ·) 0).foldl (· + ·) 0

/-- A stream lacks record places for its next step, its own or its Bridge's (R420; log 125). -/
def tokShort (s : Stream) (d : Dev) : Bool :=
  decide (256 < s.recs + gammaOf s d + 1) || decide (65536 < poolUse s.home d + gammaOf s d + 1)

/-- HELD_TOK (R420): record places for the next step. -/
def refreshTok (i : Nat) (s : Stream) (d : Dev) : Dev :=
  let short := tokShort s d
  if short = s.heldTok then d
  else
    let d := if short then bump (BR_TOKHOLD s.home) d else d
    modStream i (fun s => { s with heldTok := short }) d

def candLt (a b : Nat × Stream) : Bool :=
  let ka := (b2n (a.2.state != 3), a.2.prio, a.2.admitT.toNat, a.1)
  let kb := (b2n (b.2.state != 3), b.2.prio, b.2.admitT.toNat, b.1)
  decide (ka.1 < kb.1) || (ka.1 == kb.1 && (decide (ka.2.1 < kb.2.1) || (ka.2.1 == kb.2.1 &&
    (decide (ka.2.2.1 < kb.2.2.1) || (ka.2.2.1 == kb.2.2.1 && decide (ka.2.2.2 < kb.2.2.2))))))

def candInsert (x : Nat × Stream) : List (Nat × Stream) → List (Nat × Stream)
  | [] => [x]
  | y :: r => if candLt y x then y :: candInsert x r else x :: y :: r

/-- Candidates in the order of R402: decode first, then PRIO, ADMIT_T and index. -/
def candidates (p : Nat) (d : Dev) : List (Nat × Stream) :=
  ((partStreams p d).filter fun e => eligible p e.1 e.2 d && !e.2.heldTok).foldr candInsert []

/-! ### Forming a batch (R402-R405) -/

/-- Pages that a step's positions need in both regions and no entry maps. The draft region is mapped up to the positions
that the next draft step may append. -/
def stepPages (i : Nat) (s : Stream) (pos0 n : Nat) (d : Dev) : List (Nat × Nat) :=
  let need := fun (rk cnt : Nat) => match regionAt s.home rk d with
    | some r => (pagesMissing s.home r (regRecOf r d) pos0 (min cnt (r.maxlen - pos0)) d).map fun k => (rk, k)
    | none => []
  need (regKey i false) n ++ need (regKey i true) (n + s.draftMax)

/-- The frames of a step are reserved and its MAP edits accepted, or HELD_KV is set (R365, R405). -/
def reserveStep (i : Nat) (s : Stream) (pos0 n : Nat) (d : Dev) : Option Dev :=
  let ps := stepPages i s pos0 n d
  if freeFrames s.part s.home 0 d < ps.length then none
  else some (forEach ps (fun x d => mapPage s.part s.home i x.1 x.2 d) d)

def holdKv (i : Nat) (s : Stream) (d : Dev) : Dev :=
  if s.heldKv then d
  else modStream i (fun s => { s with heldKv := true, heldFrom := some d.time }) (bump (BR_KVNOPAGE s.home) d)

/-- The first chunk of a PREFIX-mode stream with `n` positions, from the end of a handle on, falls short of PREFIX_LEN (R402, 09 R377;
DEDUCED, log 153). -/
def prefixShort (s : Stream) (n : Nat) : Bool := s.mode = 1 && s.nextpos = s.start && s.start + n < s.prefixLen

/-- The positions a candidate contributes with `room` left: none when it does not fit. -/
def contribution (img : List Byte) (room : Nat) (s : Stream) (d : Dev) : Option Nat :=
  if s.state = 3 then (let n := gammaOf s d + 1; if n ≤ room then some n else none)
  else
    let n := min (chunkMax img) (min room (s.avail - s.nextpos))
    if n = 0 || prefixShort s n then none else some n

/-- Left out for lack of room, and not for want of positions (R404). -/
def lackedRoom (img : List Byte) (s : Stream) : Bool :=
  s.state = 3 || !prefixShort s (min (chunkMax img) (s.avail - s.nextpos))

/-- The epoch of a batch of a model (R403): the last one while it has candidates, up to 8 times in a row; a held step is no
candidate (R401). -/
def batchEpoch (p model : Nat) (cs : List (Nat × Stream)) (d : Dev) : Word × Nat :=
  let own := cs.filter fun x => x.2.model == model
  let free := own.filter fun x => !x.2.heldKv
  let has := fun (e : Nat) => free.any fun x => x.2.epoch.toNat == e
  let other := fun (e : Nat) => (free.find? fun x => x.2.epoch.toNat != e).map fun x => x.2.epoch.toNat
  let first := ((free ++ own).head?.map fun x => x.2.epoch.toNat).getD 0
  match mget? (schedAt p d).runEpoch model with
  | none => (BitVec.ofNat 32 first, 1)
  | some (e, n) =>
    if has e && (n < 8 || (other e).isNone) then (BitVec.ofNat 32 e, n + 1)
    else match other e with
      | some f => (BitVec.ofNat 32 f, 1)
      | none => (BitVec.ofNat 32 first, 1)

/-- What a batch under formation has: its model with the epoch and its count in a row, once a candidate is taken, and its vectors. -/
structure Forming where
  key : Option (Nat × Word × Nat)
  vecs : List VecId
  deriving DecidableEq, Repr

/-- A candidate can enter the batch: of its model and epoch, or, while it has none, of the epoch that its own model's batch would have. -/
def batchTakes (p : Nat) (cs : List (Nat × Stream)) (b : Forming) (s : Stream) (d : Dev) : Option (Nat × Word × Nat) :=
  let k := b.key.getD (s.model, batchEpoch p s.model cs d)
  if s.model = k.1 && s.epoch == k.2.1 then some k else none

/-- Take candidates in order (R402): the first one taken gives the batch its model and epoch. -/
def takeCands (p bid : Nat) (img : List Byte) (cs : List (Nat × Stream)) : List (Nat × Stream) → Nat → Forming → Dev → Forming × Dev
  | [], _, b, d => (b, d)
  | (i, s) :: r, room, b, d =>
    match batchTakes p cs b s d with
    | none => takeCands p bid img cs r room b d
    | some k =>
      if tokShort s d then takeCands p bid img cs r room b (refreshTok i s d)
      else match contribution img room s d with
      | none => takeCands p bid img cs r room b (if lackedRoom img s then choice p (anyEf p d) d else d)
      | some n =>
        match reserveStep i s s.nextpos n d with
        | none => takeCands p bid img cs r room b (holdKv i s d)
        | some d =>
          let st : StepRec := { batch := bid, pos0 := s.nextpos, count := n, prefill := s.state != 3 }
          let d := modStream i (fun x => { x with
            steps := x.steps ++ [st], lastBatch := bid, heldKv := false, heldFrom := none,
            state := if x.state = 1 then 2 else x.state,
            nextpos := if x.state = 3 then x.nextpos else x.nextpos + n }) d
          let vs := (List.range n).map fun k => ({ stream := i, pos := s.nextpos + k, seed := s.seed } : VecId)
          takeCands p bid img cs r (room - n) { key := some k, vecs := b.vecs ++ vs } d

/-- Each Fret stage of a model gets the pass of each of its layers (R400). -/
def pushPasses (p model bid : Nat) (epoch : Word) (vs : List VecId) (d : Dev) : Dev :=
  let img := imgOf p d
  forEach ((stageRecs img).filter fun r => sModel r == model && sKind r == 0) (fun r d =>
    let qs := (stageLayers img (u8 r 0)).map fun l =>
      ({ part := p, model := model, stage := u8 r 0, layer := tagOf (lTag l) epoch, epoch := epoch, batch := bid, vecs := vs } : PassD)
    forEach (stagePlaces img (u8 r 0)) (fun x d => modSlot x.1 x.2.1 x.2.2 (fun y => { y with descs := y.descs ++ qs }) d) d) d

/-- Pages mapped for the steps of a partition are published at once on the Bridges concerned (09 R365). -/
def publishSteps (p : Nat) (d : Dev) : Dev :=
  forEach (((partStreams p d).map fun x => x.2.home).eraseDups) (fun b d => if (kvAt b d).edits.isEmpty then d else editPublish b 0 d) d

/-- The batch of the given candidates is formed, when any of them enters it. -/
def formBatch (p : Nat) (cs : List (Nat × Stream)) (d : Dev) : Dev :=
  let img := imgOf p d
  let bid := (schedAt p d).nextId
  let z := takeCands p bid img cs cs (batchMax img) { key := none, vecs := [] } d
  match z.1.key with
  | none => z.2
  | some (model, epoch, n) =>
    let vs := z.1.vecs
    let b : Batch := { id := bid, model := model, epoch := epoch, vecs := vs, begun := false }
    let d := modSched p (fun k => { k with batches := k.batches ++ [b], nextId := bid + 1,
                                           runEpoch := mput k.runEpoch model (epoch.toNat, n) }) z.2
    let d := publishSteps p (pushPasses p model bid epoch vs (bump HS_BATCHCNT d))
    if cnsServes p d && isCnsMaster d then
      cnsSendAll 11 (leBytes 4 bid ++ leBytes 1 model ++ leBytes 4 epoch.toNat
        ++ vs.flatMap fun v => leBytes 4 v.stream ++ leBytes 4 v.pos) d
    else d

/-- BATCH_FORMATION: the next batch of a partition, once every batch before it has begun (R400-R405, R420, R422). -/
def batchFormation (p : Nat) (d : Dev) : Dev :=
  if !formationOpen p d || (schedAt p d).batches.any (fun b => !b.begun) then d
  else
    let d := forEach (partStreams p d) (fun e d => modStream e.1 restep d) d
    let d := schedulerPause p (refreshRisk p d)
    let d := forEach ((partStreams p d).filter fun e => eligible p e.1 e.2 d) (fun e d => refreshTok e.1 e.2 d) d
    formBatch p (candidates p d) d

/-- KV_HOLD_TIMEOUT: a step held for frames for 2 s (R405). -/
def kvHoldTimeout (i : Nat) (d : Dev) : Dev :=
  match streamAt i d with
  | none => d
  | some s =>
    match s.heldFrom with
    | some t => if s.heldKv && decide (sec 2 ≤ since t d) then endStream i 0x16 (bump HS_KVHOLDFAIL d) else d
    | none => d

/-- Batches that no stream's step names any more are no longer in flight. -/
def settleBatches (p : Nat) (d : Dev) : Dev :=
  let named := fun (b : Batch) => d.streams.any fun e => e.2.part == p && e.2.steps.any (fun x => x.batch == b.id)
  modSched p (fun k => { k with batches := k.batches.filter named }) d

end Sys2Proof.Machine
end

