-- ==== Sys2Proof/Machine/Pick.lean ====
section
/-! DEFINITION. The Pick unit (10 R407-R416), token records (R418-R420, 12 R497), step boundaries (R392-R395), and the
events that end or move a stream (R417, R427); Bridge tensor unit passes (13 R537) and the stage timer (16 R609). -/

namespace Sys2Proof.Machine

/-! ### The final distribution (R413) -/

/-- What R413 gives for one position: an empty candidate set, the greedy token, or the candidates with their final
probabilities in order. -/
inductive PickRes where
  | empty
  | greedy (tok : Nat)
  | dist (l : List (Nat × Dy))
  deriving DecidableEq, Repr

/-- The tokens that the penalties count, oldest first: generated ones, or all (R413). -/
def penToks (s : Stream) (extra : List Nat) : List Nat :=
  let own := (s.toks.filter fun e => s.samp.penPrompt || e.2.2).map fun e => e.2.1
  let all := own ++ extra
  all.drop (all.length - 4096)

def penCounts (l : List Nat) : SMap Nat := l.foldl (fun m t => mput m t (mgetD m t 0 + 1)) []

def f32Sub (x y : Dy) : Dy := f32Add x (dyNeg y)
def f32w (w : Word) : Dy := fpVal fF32 w.toNat

/-- Penalties and biases on one logit. -/
def adjustLogit (p : Sampling) (counts : SMap Nat) (t : Nat) (z : Dy) : Dy :=
  let n := mgetD counts t 0
  let z := if n = 0 then z
    else
      let z := if 0 < z.m then f32Div z (f32w p.repPen) else f32Mul z (f32w p.repPen)
      f32Sub (f32Sub z (f32Mul (f32w p.freqPen) (dyInt n))) (f32w p.presPen)
  p.bias.foldl (fun z b => if b.1 = t then f32Add z (f32w b.2) else z) z

/-- A token-set mask allows a token (R412); without a mask area nothing has been written. -/
def maskAllows (part idx t : Nat) (d : Dev) : Bool :=
  if idx = 0xFFFF then true
  else match maskArea part d with
    | some (b, base) => bit (hbmByte b (base + 32768 * idx + t / 8) d).toNat (t % 8)
    | none => false

/-- Insert before every candidate with a smaller logit, or an equal one (its token is larger). -/
def pickInsert (x : Nat × Dy) : List (Nat × Dy) → List (Nat × Dy)
  | [] => [x]
  | y :: r => if dyLt x.2 y.2 then y :: pickInsert x r else x :: y :: r

def fSum (l : List Dy) : Dy := l.foldl f32Add dyZero

/-- The shortest prefix whose sum, in order, reaches `top`. -/
def topPrefix (top : Dy) : Dy → List (Nat × Dy) → List (Nat × Dy)
  | _, [] => []
  | acc, x :: r => let a := f32Add acc x.2; if dyLe top a then [x] else x :: topPrefix top a r

/-- R413 for the logits `z` of one position. -/
def finalDist (part : Nat) (p : Sampling) (vocab : Nat) (counts : SMap Nat) (z : List Dy) (d : Dev) : PickRes :=
  let c := ((z.take vocab).zipIdx.map fun e => (e.2, adjustLogit p counts e.2 e.1)).filter fun e => maskAllows part p.mask e.1 d
  match c.foldr pickInsert [] with
  | [] => .empty
  | best :: rest =>
    let temp := f32w p.temp
    if temp.m = 0 then .greedy best.1
    else
      let c := if 0 < p.topK then (best :: rest).take p.topK else best :: rest
      let e := c.map fun x => (x.1, expF32 (floorF (f32Div (f32Sub x.2 best.2) temp)))
      let s := fSum (e.map (·.2))
      let q := e.map fun x => (x.1, f32Div x.2 s)
      let p0 := (q.headD (0, dyZero)).2
      let minP := f32w p.minP
      let q := if 0 < minP.m then q.filter fun x => dyLe (f32Mul minP p0) x.2 else q
      let topP := f32w p.topP
      let q := if dyLt topP (dyInt 1) then topPrefix topP dyZero q else q
      let s := fSum (q.map (·.2))
      .dist (q.map fun x => (x.1, f32Div x.2 s))

/-- SELECT (R414) with the exact running sums. -/
def selectFrom (u : Nat) (last : Dy) : Dy → List (Nat × Dy) → Nat
  | _, [] => 0
  | acc, x :: r =>
    let a := dyAdd acc x.2
    if dyLt (dyMul ⟨u, 0⟩ last) (dyScale a 24) || r.isEmpty then x.1 else selectFrom u last a r

def select (l : List (Nat × Dy)) (u : Nat) : Nat := selectFrom u (dySum (l.map (·.2))) dyZero l

def pickRand (s : Stream) (pos node : Nat) : Nat := rand24 s.seed 0xFFFF pos 0 0 node

def probOf (l : List (Nat × Dy)) (t : Nat) : Dy := ((l.find? fun e => e.1 == t).map (·.2)).getD dyZero

def vocabOf (s : Stream) (d : Dev) : Nat := match modelRec (imgOf s.part d) s.model with | some r => mVocab r | none => 0

def distOf (s : Stream) (extra : List Nat) (z : List Dy) (d : Dev) : PickRes :=
  finalDist s.part s.samp (vocabOf s d) (penCounts (penToks s extra)) z d

/-- A Pick unit reads its stream's mask, over the Fingerboard where it lies in another Bridge's HBM (01 R40; 11 R453). -/
def maskRead (s : Stream) (d : Dev) : Dev :=
  match maskArea s.part d with
  | some (b, base) =>
    if s.samp.mask = 0xFFFF || b = s.home then d
    else bridgeBulk s.part b s.home 2 (hbmBytes b (base + 32768 * s.samp.mask) ((vocabOf s d + 7) / 8) d) d
  | none => d

/-! ### Draft steps (R407, R414) -/

/-- Draft tokens from the draft model's logits, each sampled by U(pos, 3); none when a candidate set is empty. -/
def draftToks (s : Stream) (d : Dev) : Nat → List Nat → List (List Dy) → Option (List DraftTok)
  | _, _, [] => some []
  | pos, before, z :: zs =>
    let r := distOf s before z d
    let t : Option DraftTok := match r with
      | .empty => none
      | .greedy t => some { tok := t, q := [(t, 0x3F800000#32)] }
      | .dist l => some { tok := select l (pickRand s pos 3), q := l.map fun e => (e.1, BitVec.ofNat 32 (fpOf fF32 e.2)) }
    match t with
    | none => none
    | some t => (draftToks s d (pos + 1) (before ++ [t.tok]) zs).map fun r => t :: r

def logitVals (l : List Word) : List Dy := l.map f32w
def logitsFinite (l : List (List Word)) : Bool := l.all fun z => z.all fun w => !fpNonFinite fF32 w.toNat

/-- The stream fails at its first sampling with no candidate (R413). -/
def pickEmpty (i home : Nat) (d : Dev) : Dev := endStream i 0x17 (bump (BR_PICKEMPTY home) d)

/-- DRAFT_STEP_DONE: the draft model's logits for the γ positions of the coming step (R407). -/
def draftStepDone (i : Nat) (logits : List (List Word)) (d : Dev) : Dev :=
  match streamAt i d with
  | none => d
  | some s =>
    let s' := restep s
    if s.state ≠ 3 || s.draftDone || !s.steps.isEmpty || gammaOf s' d = 0 || logits.length ≠ gammaOf s' d || !logitsFinite logits then d
    else match draftToks s d (s'.nextpos + 1) [] (logits.map logitVals) with
      | none => pickEmpty i s.home d
      | some l => modStream i (fun _ => { s' with drafts := l, draftDone := true }) (addCtr (BR_DRAFTTOK s.home) l.length (maskRead s d))

/-! ### Emitting tokens (R415-R419) -/

/-- The stop that a token causes: end reason and index; 0 for none (R415, R416). -/
def stopOf (s : Stream) (tok pos : Nat) : Nat × Nat :=
  match s.samp.stopTok.findIdx? (fun t => t == tok) with
  | some k => (1, k)
  | none =>
    match s.samp.stopSeq.findIdx? fun q => s.hist.take q.length == q.reverse with
    | some k => (2, k)
    | none => if s.turnLeft = 0 then (3, 0xFF) else if pos + 1 = s.maxlen then (4, 0xFF) else (0, 0xFF)

/-- A 16-byte token record (R418). -/
def tokenRecord (tok pos flags endr idx : Nat) (logp : Word) : List Byte :=
  leBytes 4 tok ++ leBytes 4 pos ++ leBytes 2 flags ++ leBytes 1 endr ++ leBytes 1 idx ++ leBytes 4 logp.toNat

/-- Emit a token: it becomes known at its position, the stop matcher sees it, and its record, with the flags of the positions
before its own (R419; log 100), leaves for the host. -/
def emitTok (i tok pos : Nat) (draft : Bool) (logp : Word) (d : Dev) : Dev :=
  let d := modStream i (fun s => { s with
    toks := mput s.toks pos (tok, true), hist := (tok :: s.hist).take 16, turnLeft := s.turnLeft - 1, emitted := s.emitted + 1,
    turnEmitted := true, recs := s.recs + 1, avail := pos + 1 }) d
  match streamAt i d with
  | none => d
  | some s =>
    let st := stopOf s tok pos
    let mine := s.pflags.filter fun e => decide (e.1 < pos)
    let flags := (mine.foldl (fun n e => n ||| e.2) s.flags) % 8 + 8 * b2n draft + 16 * b2n (st.1 != 0)
    let d := bump (BR_PICKCNT s.home) d
    let d := if draft then bump (BR_DRAFTACC s.home) d else d
    let d := if st.1 = 1 then bump (BR_STOPTOK s.home) d else if st.1 = 2 then bump (BR_STOPSEQ s.home) d else d
    modStream i (fun s => { s with
      flags := 0, pflags := s.pflags.filter (fun e => decide (pos ≤ e.1)), stop := st.1,
      outq := s.outq ++ [{ batch := s.steps.head?.map (·.batch), bytes := tokenRecord tok pos flags st.1 st.2 logp }] }) d

/-- atanh of `a / b` below 1/2 in units of 2^-256: the sum of t^(2j+1) / (2j+1). -/
def atanhSeries (t2 : Nat) : Nat → Nat → Nat → Nat
  | 0, _, _ => 0
  | fuel + 1, n, t => t / n + atanhSeries t2 fuel (n + 2) (t * t2 / 2 ^ 256)

def atanhFix (a b : Nat) : Nat :=
  let t := a * 2 ^ 256 / b
  atanhSeries (t * t / 2 ^ 256) 100 1 t

/-- -ln of `m * 2 ^ e` in units of 2^-256, for a value above 0 and at most 1: with m = f * 2^k and 1 <= f < 2,
ln = (k + e) ln 2 + 2 atanh ((f - 1) / (f + 1)), and ln 2 = 2 atanh (1 / 3). -/
def negLnFix (x : Dy) : Nat :=
  let m := x.m.natAbs
  let k := Nat.log2 m
  (-(k + x.e)).toNat * (2 * atanhFix 1 3) - 2 * atanhFix (m - 2 ^ k) (m + 2 ^ k)

/-- LOGP (R418): the FP32 natural logarithm of a probability above 0 and at most 1: 0 at 1, else one of the two FP32 values
next to the exact one; which, the spec leaves to the part (free value, Config.logRoundsUp). -/
def logpOf (x : Dy) : Word :=
  let w := BitVec.ofNat 32 (fpOf fF32 x)
  if x.m ≤ 0 then Config.logOfZero
  else if dyLe (dyInt 1) x then 0#32
  else
    let v := negLnFix x
    let q := max ((Nat.log2 v : Int) - 256 - 23) (-149)
    let n := v / 2 ^ (q + 256).toNat
    BitVec.ofNat 32 (fpOf fF32 ⟨-(if Config.logRoundsUp w then (n : Int) + 1 else n), q⟩)

/-- One sample from target logits: node 0. False when no candidate is left. -/
def samplePos (i pos : Nat) (z : List Dy) (d : Dev) : Dev × Bool :=
  match streamAt i d with
  | none => (d, true)
  | some s =>
    match distOf s [] z d with
    | .empty => (d, false)
    | .greedy t => (emitTok i t pos false 0#32 d, true)
    | .dist l => let t := select l (pickRand s pos 0); (emitTok i t pos false (logpOf (probOf l t)) d, true)

/-- The residual of R408, in the order of the target's candidates. -/
def residual (p q : List (Nat × Dy)) : List (Nat × Dy) :=
  p.map fun e => let x := f32Sub e.2 (probOf q e.1); (e.1, if x.m < 0 then dyZero else x)

/-- Test draft `x` for position `pos`: the state after, whether it was accepted, and whether candidates remained. -/
def testDraft (i pos : Nat) (x : DraftTok) (z : List Dy) (d : Dev) : Dev × Bool × Bool :=
  match streamAt i d with
  | none => (d, false, true)
  | some s =>
    match distOf s [] z d with
    | .empty => (d, false, false)
    | .greedy t => if t = x.tok then (emitTok i t pos true 0#32 d, true, true) else (emitTok i t pos false 0#32 d, false, true)
    | .dist l =>
      let q := x.q.map fun e => (e.1, f32w e.2)
      if dyLt (dyMul ⟨pickRand s pos 1, 0⟩ (probOf q x.tok)) (dyScale (probOf l x.tok) 24) then
        (emitTok i x.tok pos true (logpOf (probOf l x.tok)) d, true, true)
      else
        let r := residual l q
        let t := if r.all (fun e => e.2.m == 0) then (l.headD (0, dyZero)).1 else select r (pickRand s pos 2)
        (emitTok i t pos false (logpOf (probOf l t)) d, false, true)

/-- The verification of R408 from position `pos`: the drafts accepted, and whether candidates were always left. -/
def verifyBlock (i : Nat) : Nat → List DraftTok → List (List Dy) → Dev → Dev × Nat × Bool
  | pos, [], z :: _, d => let r := samplePos i pos z d; (r.1, 0, r.2)
  | pos, x :: xs, z :: zs, d =>
    let r := testDraft i pos x z d
    if !r.2.2 then (r.1, 0, false)
    else if !r.2.1 then (r.1, 0, true)
    else if (match streamAt i r.1 with | some s => s.stop != 0 | none => true) then (r.1, 1, true)
    else
      let t := verifyBlock i (pos + 1) xs zs r.1
      (t.1, t.2.1 + 1, t.2.2)
  | _, _, [], d => (d, 0, true)

/-- The draft length adapts after a step of `g` drafts of which `acc` were accepted (R410). -/
def adaptDraft (i home g acc : Nat) (d : Dev) : Dev :=
  if g = 0 then d
  else match streamAt i d with
    | none => d
    | some s =>
      if acc = 0 then
        let d := bump (BR_ALLREJ home) d
        if s.rejrun + 1 = 4 then bump (BR_DRAFTHALF home) (modStream i (fun s => { s with rejrun := 0, draft := max 1 (s.draft / 2) }) d)
        else modStream i (fun s => { s with rejrun := s.rejrun + 1 }) d
      else
        let n := if acc = g && g = s.draft then min s.draftMax (s.draft + 1) else s.draft
        modStream i (fun s => { s with rejrun := 0, draft := n }) d

/-- The step of a stream is known: its vectors are gone, times and risk are noted (R392, R421). -/
def stepDone (i : Nat) (st : StepRec) (n : Nat) (d : Dev) : Dev :=
  let gap := fun (s : Stream) => match s.stepEnd with | some t => since t d | none => 0
  let d := modStream i (fun s => { s with
    steps := s.steps.filter (fun x => x.batch != st.batch), drafts := [], draftDone := false, stepGap := gap s,
    stepToks := if s.stepEnd.isSome then n else 0, stepEnd := some d.time, rolled := none,
    flags := s.pflags.foldl (fun n e => n ||| e.2) s.flags, pflags := [] }) d
  match streamAt i d with
  | none => d
  | some s => settleBatches s.part (setAtRisk i (riskNow s d) d)

/-- The decode step's outcome (R408, R409). -/
def pickDecode (i : Nat) (s : Stream) (st : StepRec) (logits : List (List Dy)) (d : Dev) : Dev :=
  let g := s.drafts.length
  let r := verifyBlock i (st.pos0 + 1) s.drafts logits d
  if !r.2.2 then pickEmpty i s.home r.1
  else
    let len := st.pos0 + 1 + r.2.1
    let n := match streamAt i r.1 with | some t => t.emitted - s.emitted | none => 0
    let d := setLen s.home i len (adaptDraft i s.home g r.2.1 r.1)
    stepDone i st n (modStream i (fun s => { s with nextpos := len }) d)

/-- The last chunk's final position yields the first token of the turn. -/
def pickPrefill (i : Nat) (s : Stream) (st : StepRec) (z : List Dy) (d : Dev) : Dev :=
  let r := samplePos i s.avail z d
  if !r.2 then pickEmpty i s.home r.1 else stepDone i st 1 r.1

/-- PICK_SAMPLE: the logits of the oldest step of a stream that yields tokens reach its Pick unit, one vector for each of
its positions that does (R408, R413). -/
def pickSample (i : Nat) (logits : List (List Word)) (d : Dev) : Dev :=
  match streamAt i d with
  | none => d
  | some s =>
    match s.steps with
    | [] => d
    | st :: _ =>
      if !streamLive s || !logitsFinite logits then d
      else if st.prefill then
        match logits with
        | [z] => if st.pos0 + st.count = s.avail && !s.more then pickPrefill i s st (logitVals z) (maskRead s d) else d
        | _ => d
      else if logits.length = s.drafts.length + 1 then pickDecode i s st (logits.map logitVals) (maskRead s d)
      else d

/-! ### Step boundaries (R391-R395) -/

/-- The chunks whose attention at the last layer has ended and that yield no token leave the stream: a step without tokens ends (R392, R421). -/
def retireChunks (i : Nat) (d : Dev) : Dev :=
  match streamAt i d with
  | none => d
  | some s =>
    match s.steps with
    | st :: rest =>
      let ended := match regionAt s.home (regKey i false) d with | some r => decide (st.pos0 + st.count ≤ r.len) | none => true
      let yields := st.pos0 + st.count = s.avail && !s.more && rest.isEmpty
      if st.prefill && ended && !yields then
        let gap := fun (s : Stream) => match s.stepEnd with | some t => since t d | none => 0
        let d := settleBatches s.part (modStream i (fun s => { s with
          steps := rest, rolled := none, stepGap := gap s, stepToks := 0, stepEnd := some d.time }) d)
        match streamAt i d with
        | some s => setAtRisk i (riskNow s d) d
        | none => d
      else d
    | [] => d

/-- The stop of a step takes effect (R391, R415); when it ends the turn, a PAUSE of the step is void (R394). -/
def applyStop (i : Nat) (s : Stream) (d : Dev) : Dev :=
  if s.stop = 0 then d
  else if s.keep && s.stop ≠ 4 then
    enterPause i (modStream i (fun s => { s with turn := false, stop := 0, hostp := s.hostp && s.park.isSome }) d)
  else endStream i s.stop d

/-- What waits for a step boundary, in the order of R394, once the stop has been applied. -/
def applyBoundary (i : Nat) (d : Dev) : Dev :=
  match streamAt i d with
  | none => d
  | some s =>
    if !streamLive s then d
    else if (s.state = 2 || s.state = 3) && s.limit != BitVec.allOnes 64 && decide (s.limit.toNat ≤ d.time.toNat) then
      endStream i 0x05 (bump HS_DEADLINE d)
    else if epochExpired s.part s.model s.epoch d then retireStream i d
    else if s.park.isSome && s.state ≠ 5 then startPark i d
    else if (s.state = 2 || s.state = 3) && (s.hostp || s.schedp) then enterPause i d
    else if s.state = 2 && !promptRemains s && !s.more then modStream i (fun s => { s with state := 3 }) d
    else d

/-- STEP_BOUNDARY: a stream has no vector in any batch (R392), and what waited takes effect; an ended stream whose vectors
have left every pass lets go of what it holds (R367, R391). -/
def stepBoundary (i : Nat) (d : Dev) : Dev :=
  match streamAt i d with
  | none => d
  | some s =>
    if !streamLive s then settleBatches s.part (settleRefs (dropSteps i d))
    else
      let d := retireChunks i d
      match streamAt i d with
      | none => d
      | some s => if !s.steps.isEmpty then d else applyBoundary i (applyStop i s d)

/-! ### Deadlines, parks, records -/

/-- DEADLINE_REACHED (R417): of a stream that has no step in progress and whose turn runs; a stop that waits for its boundary comes
first (R394). -/
def deadlineReached (i : Nat) (d : Dev) : Dev :=
  match streamAt i d with
  | none => d
  | some s =>
    let due := s.limit != BitVec.allOnes 64 && decide (s.limit.toNat ≤ d.time.toNat)
    if due && !asleep d && (s.state = 1 || (s.state = 4 && s.turn) || ((s.state = 2 || s.state = 3) && s.steps.isEmpty && s.stop = 0)) then
      endStream i 0x05 (bump HS_DEADLINE d)
    else d

/-- Every stage of the pass that produced a record has released its outputs (01 R54). -/
def outReleased (i : Nat) (x : OutRec) (d : Dev) : Bool :=
  x.batch.all fun b => d.fret.courses.all fun e => e.2.slots.all fun s =>
    ([s.2.bufA, s.2.bufB].all fun y => y.st == 0 || y.slots.all fun u => u.vec.stream != i || u.batch != b)

/-- A record travels from its home Bridge to the stop of its column (01 R35), in a flit of class 0 (DESIGN CHOICE,
notes/assumptions/151.md). -/
def recordFlit (p b i : Nat) (x : OutRec) (d : Dev) : Dev :=
  if x.batch.isSome then nodeInject p b (mkFlitHdr (fbStop b) b p 0 0 0 i) (padTo 256 x.bytes) d else d

/-- The way of a Bridge's records to the Headstock is free. -/
def recordWay (b : Nat) (d : Dev) : Bool := (hopChans b (route b (fbStop b))).all fun e => chanFree e.1 d

/-- TOKEN_RECORD_ARRIVAL: the records that a home Bridge has sent are packed into a TOKENS message (12 R497); on a member of
a split consort they go to the master (14 R556). -/
def tokenRecordArrival (i : Nat) (d : Dev) : Dev :=
  match streamAt i d with
  | none => d
  | some s =>
    let l := (s.outq.takeWhile fun x => outReleased i x d && (x.batch.isNone || recordWay s.home d)).take 255
    if l.isEmpty then d
    else
      let rs := l.map (·.bytes)
      let d := forEach l (recordFlit s.part s.home i) (modStream i (fun s => { s with outq := s.outq.drop l.length }) d)
      let pay := leBytes 2 rs.length ++ [0#8, 0#8] ++ rs.flatten
      if cnsServes s.part d && !isCnsMaster d then
        tryFree i (send (.consort (cnsMasterNo d.cns.cur) 12 (leBytes 4 s.handle.toNat ++ rs.flatten)) d)
      else tryFree i (streamMsg s 0x10#8 pay d)

/-! ### Bridge tensor unit stages (13 R537) -/

/-- The bytes of a slice in a wide format, for a consort port (14 R556). -/
def portBytes (fmt : Nat) (y : List Dy) : List Byte :=
  (y.map (wideOut fmt)).flatMap fun o => leBytes (if fmt = 3 then 2 else 1) o.1

/-- A slice with a non-finite value is not sent, and its stream fails (03 R120). -/
def tensorSlice (p b stage codes : Nat) (v : VecId) (sl : Nat) (y : List (Option Dy)) (d : Dev) : Dev :=
  if y.any (·.isNone) then endStream v.stream 0x10 (bump (BR_NONFINITE b) d)
  else
    let y := y.map fun x => x.getD dyZero
    let fmt := bits codes 2 2
    let port := cnsPart d = p && (fmt = 1 || fmt = 3) && cnsPortTakes stage sl d
    let d := bridgeSlice p b stage sl codes port v y d
    if port then cnsPortSend stage sl (portBytes fmt y) d else d

/-- The input row of a position as slices of 512 values (12 R494). -/
def rowValues (fmt : Nat) (row : List Byte) : List (List (Option Dy)) :=
  let n := rowSliceBytes fmt
  (List.range (row.length / n)).map fun k =>
    let b := bytesAt row (n * k) n
    (List.range 512).map fun e => rowElem fmt b e

/-- BRIDGE_TENSOR_PASS: a Bridge tensor unit stage of partition `p` has computed a vector's outputs, as FP32 patterns; a
host-supplied row at the model's ENTRY stage is conditioned as it stands (03 R128). The batch of a vector that the ENTRY stage
has computed has begun (10 R400). -/
def bridgeTensorPass (p b stage stream pos : Nat) (vals : List Word) (d : Dev) : Dev :=
  let img := imgOf p d
  match stageRec img stage, streamAt stream d with
  | some r, some s =>
    let entry := match modelRec img (sModel r) with | some m => mEntry m == stage | none => false
    if sKind r ≠ 1 || !bit (sBridges r) b || s.part ≠ p || !streamLive s || !(s.steps.any fun x => inRange x.pos0 x.count pos) then d
    else
      let row := if entry then (mget? s.rows pos).bind fun x => s.rowsFmt.map fun f => rowValues f x else none
      let bid := (s.steps.find? fun x => inRange x.pos0 x.count pos).map fun x => x.batch
      let begin_ := fun (b : Batch) => if some b.id == bid then { b with begun := true } else b
      let d := when_ entry (modSched p (fun k => { k with batches := k.batches.map begin_ })) d
      let slices := match row with
        | some l => l
        | none => (List.range ((vals.length + 511) / 512)).map fun k =>
            let part := (vals.drop (512 * k)).take 512
            (part ++ List.replicate (512 - part.length) 0#32).map fun (w : Word) => fpDec fF32 w.toNat
      forEach slices.zipIdx (fun e d =>
        if (streamAt stream d).any streamLive then tensorSlice p b stage (u8 r 5) { stream := stream, pos := pos, seed := s.seed } e.2 e.1 d
        else d) d
  | _, _ => d

/-! ### The stage timer (16 R609) -/

/-- STAGE_PASS_TIMEOUT: no vector completed the stage for STAGE_TMO; held while a far-tier layer is landing. -/
def stagePassTimeout (f c s : Nat) (d : Dev) : Dev :=
  let x := slotAt f c s d
  match x.cur with
  | none => d
  | some q =>
    if since x.passStart d < ms (stageTmo (imgOf q.part d)) || d.loads.far.any (fun y => y.part == q.part && !y.landed) then d
    else slotFault fcSTAGE_TIMEOUT f c s none d

end Sys2Proof.Machine
end

