-- ==== Sys2Proof/Machine/TuneCheck.lean ====
section
/-! DEFINITION. The checks of a Tuning image (11 R439-R457), in the order of R456. A check answers the section and the
record of its first failure; 255 and all ones stand for none. Where a rule concerns two records, the later is named. -/

namespace Sys2Proof.Machine

abbrev noRec : Nat := 0xFFFFFFFF
abbrev noSec : Nat × Nat := (0xFF, noRec)

/-- Bytes 0 to n - 1 of a sparse byte string. -/
def denseBytes : Nat → Nat → SMap Byte → List Byte
  | 0, _, _ => []
  | n + 1, pos, [] => 0#8 :: denseBytes n (pos + 1) []
  | n + 1, pos, (k, v) :: r => if k = pos then v :: denseBytes n (pos + 1) r else 0#8 :: denseBytes n (pos + 1) ((k, v) :: r)

/-- The section of a type in image order. -/
def secIndex (img : List Byte) (ty : Nat) : Nat := ((imgSecs img).findIdx? fun s => s.ty == ty).getD 0xFF

/-- The first record of a section that `bad` names by its index and bytes. -/
def firstBad (img : List Byte) (ty : Nat) (bad : Nat → List Byte → Bool) : Option (Nat × Nat) :=
  ((secRecs img ty).zipIdx.find? fun e => bad e.2 e.1).map fun e => (secIndex img ty, e.2)

/-- The first of several findings, in image order. -/
def firstOf (l : List (Option (Nat × Nat))) : Option (Nat × Nat) := (l.filterMap id).head?

def noneIf (ok : Bool) (x : Nat × Nat) : Option (Nat × Nat) := if ok then none else some x

/-- Records before the `i`th of a section. -/
def before (img : List Byte) (ty i : Nat) : List (List Byte) := (secRecs img ty).take i

/-! ### 0x01 to 0x06 -/

def chkHeader (p : Nat) (img : List Byte) : Bool :=
  let len := imgLength img
  u32 img 0 = 0x47540001 && u16 img 4 = 1 && decide (u16 img 6 < 2) && u8 img 8 = p && decide (1 ≤ imgNsect img) && decide (imgNsect img ≤ 12)
    && decide (208 ≤ len) && decide (len ≤ 2 ^ 24) && len % 4 = 0 && allZero (bytesAt img 0x2A 22)

def imgKeyId (img : List Byte) : Word := BitVec.ofNat 32 (u32 img 0x20)

def chkSerial (p : Nat) (img : List Byte) (d : Dev) : Bool :=
  !inForce p d || decide ((imgSerial (imgOf p d)).toNat ≤ (imgSerial img).toNat)

/-- The trailer and the signature of the bytes before it under the key that KEYID names (R454, R455). -/
def chkTrailer (img pub : List Byte) : Bool :=
  let t := imgLength img - 144
  u32 img t = 0x475400FF && u16 img (t + 4) = 132 && ecdsaOk pub (img.take t) (bytesAt img (t + 8) 132)

/-! ### 0x07 BAD_SECTION -/

def secSize (ty : Nat) : Nat := [0, 16, 16, 24, 8, 12, 64, 8, 4, 12, 20, 8, 32].getD ty 0

/-- Walk the sections from byte `pos` to byte `lim`; `last` is the type before. -/
def secWalk (img : List Byte) (lim : Nat) : Nat → Nat → Nat → Nat → Option (Nat × Nat)
  | 0, _, pos, _ => noneIf (pos == lim) noSec
  | n + 1, i, pos, last =>
    let ty := u16 img pos
    let next := pos + 8 + u16 img (pos + 2) * u32 img (pos + 4)
    if lim < pos + 8 || ty ≤ last || 12 < ty || u16 img (pos + 2) != secSize ty || lim < next then some (i, noRec)
    else secWalk img lim n (i + 1) next ty

def hasSec (img : List Byte) (ty : Nat) : Bool := (imgSecs img).any fun s => s.ty == ty

def chkSections (img : List Byte) : Option (Nat × Nat) :=
  let fret := (stageRecs img).any fun r => sKind r == 0
  let att := (stageRecs img).any fun r => sKind r == 2
  let need := [1, 2, 3, 8, 9, 12] ++ (if fret then [4, 5, 7] else []) ++ if att then [10] else []
  firstOf [secWalk img (imgLength img - 144) (imgNsect img) 0 64 0, noneIf (need.all (hasSec img)) noSec,
    noneIf ((secRecs img 1).length == 1) (secIndex img 1, noRec)]

/-! ### 0x08 BAD_FIELD -/

def isFret (img : List Byte) (s : Nat) : Bool := match stageRec img s with | some r => sKind r == 0 | none => false
def hasStage (img : List Byte) (s : Nat) : Bool := (stageRec img s).isSome
def hasModel (img : List Byte) (m : Nat) : Bool := (modelRec img m).isSome
def stageIs (img : List Byte) (s kind m : Nat) : Bool :=
  match stageRec img s with | some r => sKind r == kind && sModel r == m | none => false
def anyFar (img : List Byte) : Bool := (layerRecs img).any lFar

def badServe (img r : List Byte) : Bool :=
  let ck := u32 r 0
  let tmo := u32 r 8
  !(decide (1 ≤ ck) && decide (ck ≤ 65536) && decide (max 9 ck ≤ u32 r 4) && decide (u32 r 4 ≤ 65536)
    && (tmo == 0 || (anyFar img && decide (1000 ≤ tmo) && decide (tmo ≤ 10000000))) && decide (u16 r 12 ≤ 1000) && u16 r 14 == 0)

/-- The PAIR of a MODEL record names a record of the other role that names it back (R443, R444). -/
def pairOk (img r : List Byte) : Bool :=
  match modelRec img (u8 r 2) with
  | none => isTarget r && u8 r 2 == 0xFF
  | some q => u8 q 1 == 1 - u8 r 1 && u8 q 2 == u8 r 0 && (isTarget r || (mLayout q == mLayout r && mVocab q == mVocab r))

def badModel (img : List Byte) (i : Nat) (r : List Byte) : Bool :=
  !(decide (u8 r 0 ≤ 3) && decide (u8 r 1 ≤ 1) && pairOk img r && stageIs img (mEntry r) 1 (u8 r 0) && stageIs img (mPick r) 3 (u8 r 0)
    && decide (1 ≤ mVocab r) && decide (mVocab r ≤ 262144) && allZero (bytesAt r 13 3)) || (before img 2 i).any fun q => u8 q 0 == u8 r 0

/-- The field rules of R445 for a Fret stage and for the other kinds. -/
def stageFieldsOk (r : List Byte) : Bool :=
  if sKind r = 0 then
    decide (u8 r 3 < 64) && bits (u8 r 6) 6 2 == 0 && decide (6 ≤ bits (u8 r 6) 0 4) && decide (bits (u8 r 6) 0 4 ≤ 12)
      && decide (bits (u8 r 6) 4 2 ≤ 2) && decide (bits (u8 r 7) 0 2 ≤ 2) && decide (bits (u8 r 7) 4 2 ≤ 2) && decide (u16 r 8 < 512)
  else u8 r 3 == 0 && u8 r 4 == 0 && u8 r 6 == 0 && u8 r 7 == 0 && u16 r 8 == 0 && (sKind r != 3 || u8 r 5 == 0)

/-- The layer list rules of R450 that concern a stage as a whole. -/
def stageListOk (img r : List Byte) : Bool :=
  let n := (stageLayers img (u8 r 0)).length
  decide (1 ≤ n) && (!(sKind r == 0 && sFlag r 1) || n == 1) && (sKind r != 3 || n == 1)
    && (sKind r != 2 || match kvRec img (sModel r) with | some k => n == kvLayers k | none => true)

def badStage (img : List Byte) (i : Nat) (r : List Byte) : Bool :=
  !(decide (sKind r ≤ 3) && hasModel img (sModel r) && stageFieldsOk r && decide (1 ≤ sIn r) && decide (sIn r ≤ 1024) && decide (1 ≤ sOut r)
    && decide (sOut r ≤ 32768) && u16 r 14 == 0 && decide (sBridges r < 4096) && (sKind r == 1) == (sBridges r != 0) && allZero (bytesAt r 18 6)
    && stageListOk img r) || (before img 3 i).any fun q => u8 q 0 == u8 r 0

def badCourse (img r : List Byte) : Bool :=
  !(decide (u8 r 0 ≤ 11) && decide (u8 r 1 ≤ 15) && decide (u8 r 2 ≤ 3) && isFret img (u8 r 3) && decide (u8 r 4 ≤ 16) && allZero (bytesAt r 5 3))

def badTile (img : List Byte) (i : Nat) (r : List Byte) : Bool :=
  let st := (stageRec img (tStage r)).getD []
  !(decide (u8 r 0 ≤ 11) && decide (u8 r 1 ≤ 15) && decide (u8 r 2 ≤ 31) && isFret img (tStage r) && decide (tOslice r < sOut st)
    && decide (tIslice r < sIn st) && decide (tKblock r ≤ 63) && u8 r 9 == 0 && (tMask r == 0xFFFF || decide (tMask r < (maskRecs img).length)))
    || (before img 5 i).any fun q => q.take 3 == r.take 3

def badSlice (img : List Byte) (i : Nat) (r : List Byte) : Bool :=
  let st := (stageRec img (u8 r 0)).getD []
  !(isFret img (u8 r 0) && decide (u8 r 1 / 16 ≤ 11) && decide (u16 r 2 < sOut st) && decide (1 ≤ slNk r) && decide (slNk r ≤ 64)
    && (slEfpos r == 0xFF || (decide (slEfpos r ≤ 31) && sFlag st 2 && bits (u8 st 5) 2 2 == 0)) && u16 r 6 == 0)
    || (before img 7 i).any fun q => u8 q 0 == u8 r 0 && u16 q 2 == u16 r 2

def layerModel (img r : List Byte) : Nat := match stageRec img (u8 r 0) with | some s => sModel s | none => 0xFF

def badLayer (img : List Byte) (i : Nat) (r : List Byte) : Bool :=
  let pre := before img 8 i
  !(hasStage img (u8 r 0) && decide (u8 r 1 < 2) && decide (u16 r 2 < 2 ^ 15) && (!lFar r || isFret img (u8 r 0)))
    || (pre.any (fun q => u8 q 0 == u8 r 0) && !((pre.getLast?).any fun q => u8 q 0 == u8 r 0))
    || pre.any fun q => lTag q == lTag r && layerModel img q == layerModel img r

def rUse (r : List Byte) : Nat := bits (u8 r 2) 0 2
def rWrap (r : List Byte) : Bool := bit (u8 r 2) 7
def rFirst (r : List Byte) : Nat := u16 r 4
def rCount (r : List Byte) : Nat := u16 r 6
def rDst (r : List Byte) : Nat := u16 r 8

def badRoute (img r : List Byte) : Bool :=
  !(hasStage img (u8 r 0) && hasStage img (u8 r 1) && decide (rUse r ≤ 2) && bits (u8 r 2) 2 5 == 0 && u8 r 3 == 0 && decide (1 ≤ rCount r)
    && u16 r 10 == 0)

def badKv (img : List Byte) (i : Nat) (r : List Byte) : Bool :=
  !(hasModel img (u8 r 0) && u8 r 7 == 0 && decide (u16 r 0x10 < 4096) && u16 r 0x12 == 0) || (before img 10 i).any fun q => u8 q 0 == u8 r 0

def badWindow (img : List Byte) (i : Nat) (r : List Byte) : Bool :=
  !(hasModel img (u8 r 0) && u8 r 1 == 0) || (before img 11 i).any fun q => u8 q 0 == u8 r 0 && u16 q 2 == u16 r 2

def badMem (img : List Byte) (i : Nat) (r : List Byte) : Bool :=
  let far := u8 r 0 == 8
  !(decide (1 ≤ u8 r 0) && decide (u8 r 0 ≤ 8) && (if far then u8 r 1 == 0xFF && decide (u32 r 4 < 2 ^ 24) else decide (u8 r 1 ≤ 11) && u32 r 4 == 0 && u32 r 0x18 == 0)
    && u16 r 2 == 0 && u32 r 0x1C == 0) || (before img 12 i).any fun q => q.take 2 == r.take 2

def chkFields (img : List Byte) : Option (Nat × Nat) :=
  firstOf [noneIf (decide (1 ≤ imgPower img) && decide (imgPower img ≤ 2960)) noSec,
    firstBad img 1 (fun _ r => badServe img r), firstBad img 2 (badModel img), firstBad img 3 (badStage img),
    firstBad img 4 (fun _ r => badCourse img r), firstBad img 5 (badTile img), firstBad img 6 (fun _ r => allZero r),
    firstBad img 7 (badSlice img), firstBad img 8 (badLayer img), firstBad img 9 (fun _ r => badRoute img r),
    firstBad img 10 (badKv img), firstBad img 11 (badWindow img), firstBad img 12 (badMem img)]

/-! ### 0x09 to 0x0B -/

def bridgesOwned (p n : Nat) (d : Dev) : Bool := (List.range 12).all fun b => !bit n b || ownsBridge p b d

def chkOwned (p : Nat) (img : List Byte) (d : Dev) : Option (Nat × Nat) :=
  let course := fun (_ : Nat) (r : List Byte) => !ownsCourse p (u8 r 0) (u8 r 1) d
  firstOf [firstBad img 3 (fun _ r => !bridgesOwned p (sBridges r) d), firstBad img 4 course, firstBad img 5 course,
    firstBad img 7 (fun _ r => !ownsCourse p (u8 r 1 / 16) (u8 r 1 % 16) d),
    firstBad img 10 (fun _ r => !bridgesOwned p (kvBridges r) d),
    firstBad img 12 fun _ r => if u8 r 0 = 8 then !ownsQp p (u32 r 4) d else !ownsBridge p (u8 r 1) d]

def sameCourse (q r : List Byte) : Bool := q.take 2 == r.take 2
def sameKblock (q r : List Byte) : Bool := tStage q == tStage r && tOslice q == tOslice r && tKblock q == tKblock r

def chkPlacement (img : List Byte) : Option (Nat × Nat) :=
  firstOf [firstBad img 3 (fun _ r => sKind r == 0 && match modelRec img (sModel r) with | some m => !isTarget m | none => false),
    firstBad img 4 (fun i r => (before img 4 i).any fun q => sameCourse q r && (u8 q 2 == u8 r 2 || u8 q 3 == u8 r 3)),
    firstBad img 5 fun i r => !((courseRecs img).any fun q => sameCourse q r && u8 q 3 == tStage r)
      || (before img 5 i).any (fun q => sameKblock q r && !sameCourse q r)
      || decide (16 ≤ ((before img 5 i).filter fun q => sameKblock q r).length)]

/-- Tiles of a stage as (OSLICE, ISLICE) pairs. -/
def tilePairs (img : List Byte) (s : Nat) : List (Nat × Nat) :=
  ((tileRecs img).filter fun r => tStage r == s).map fun r => (tOslice r, tIslice r)

/-- The K-block numbers of an output slice, ascending, each once. -/
def kbNumbers (img : List Byte) (s o : Nat) : List Nat :=
  (List.range 64).filter fun k => (tileRecs img).any fun r => tStage r == s && tOslice r == o && tKblock r == k

def chkCoverage (img : List Byte) : Option (Nat × Nat) :=
  let att := fun m => (stageRecs img).any fun s => sModel s == m && sKind s == 2
  firstOf [firstBad img 2 (fun _ r => att (u8 r 0) && (kvRec img (u8 r 0)).isNone),
    firstBad img 3 (fun _ r =>
      (sKind r == 3 && decide (sIn r * 512 < match modelRec img (sModel r) with | some m => mVocab m | none => 0))
        || (sKind r == 0 && (decide ((tilePairs img (u8 r 0)).eraseDups.length < sIn r * sOut r)
          || decide (((sliceRecs img).filter fun q => u8 q 0 == u8 r 0).length < sOut r)))),
    firstBad img 5 (fun i r => (before img 5 i).any fun q => tStage q == tStage r && tOslice q == tOslice r && tIslice q == tIslice r),
    firstBad img 7 fun _ r => kbNumbers img (u8 r 0) (u16 r 2) != List.range (slNk r)
      || !(tileRecs img).any fun q => tStage q == u8 r 0 && tOslice q == u16 r 2 && 16 * u8 q 0 + u8 q 1 == u8 r 1]

/-! ### 0x0C to 0x0E -/

def sInCode (r : List Byte) : Nat := bits (u8 r 5) 0 1
def sOutCode (r : List Byte) : Nat := bits (u8 r 5) 1 1
def sOutFmt (r : List Byte) : Nat := bits (u8 r 5) 2 2
def sFop (r : List Byte) (n : Nat) : Nat := bits (u8 r 7) (4 * n - 4) 2
def sOpFmt (r : List Byte) (n : Nat) : Nat := bits (u8 r 7) (4 * n - 2) 2

def badFormat (src dst r : List Byte) : Bool :=
  if rUse r = 0 then
    if sKind dst = 0 then (sKind src == 0 && sOutFmt src != 0) || sOutCode src != sInCode dst
    else (sKind dst == 2 || sKind dst == 3) && sOutFmt src == 0
  else sKind src == 3 || (sKind src == 0 && !((sOutFmt src == 1 && sOpFmt dst (rUse r) == 0) || (sOutFmt src == 3 && sOpFmt dst (rUse r) == 1)))

def routeEnds (img r : List Byte) : List Byte × List Byte := ((stageRec img (u8 r 0)).getD [], (stageRec img (u8 r 1)).getD [])

def chkFormat (img : List Byte) : Option (Nat × Nat) :=
  firstBad img 9 fun _ r => badFormat (routeEnds img r).1 (routeEnds img r).2 r

/-- Routes that bring use `u` to slice `i` of a stage. -/
def feeds (rs : List (List Byte)) (s u i : Nat) : Nat :=
  (rs.filter fun r => u8 r 1 == s && rUse r == u && inRange (rDst r) (rCount r) i).length

/-- Does this route bring a slice that an earlier one brings, or an operand that is not wanted? -/
def routeClash (img : List Byte) (i : Nat) (dst r : List Byte) : Bool :=
  let twice := (before img 9 i).any fun q => u8 q 1 == u8 r 1 && rUse q == rUse r && rangesMeet (rDst q) (rCount q) (rDst r) (rCount r)
  if rUse r = 0 then sKind dst == 0 && twice else sFop dst (rUse r) == 0 || twice

/-- Stages that routes with WRAP 0 lead to from a set, in `n` rounds. -/
def reach (img : List Byte) : Nat → List Nat → List Nat
  | 0, l => l
  | n + 1, l =>
    let more := ((routeRecs img).filter fun r => !rWrap r && l.contains (u8 r 0) && !l.contains (u8 r 1)).map fun r => u8 r 1
    if more.isEmpty then l else reach img n (l ++ more.eraseDups)

def routeCycle (img r : List Byte) : Bool := !rWrap r && (reach img 256 [u8 r 1]).contains (u8 r 0)

def chkRoutes (img : List Byte) : Option (Nat × Nat) :=
  let rs := routeRecs img
  let lacks := fun (r : List Byte) (u n : Nat) => (List.range n).any fun i => feeds rs (u8 r 0) u i == 0
  firstOf [firstBad img 3 (fun _ r => sKind r == 0
      && (lacks r 0 (sIn r) || (sFop r 1 != 0 && lacks r 1 (sOut r)) || (sFop r 2 != 0 && lacks r 2 (sOut r)))),
    firstBad img 9 fun i r =>
      let e := routeEnds img r
      decide (sOut e.1 < rFirst r + rCount r) || decide ((if rUse r = 0 then sIn e.2 else sOut e.2) < rDst r + rCount r)
        || sModel e.1 != sModel e.2 || routeClash img i e.2 r || routeCycle img r]

/-- Bytes of a tree value or of an operand (R211). -/
def treeSize (st : List Byte) : Nat := if bits (u8 st 6) 4 2 = 0 then 4 else 2
def opSize (st : List Byte) (n : Nat) : Nat := if sFop st n = 0 then 0 else [1, 2, 2, 4].getD (sOpFmt st n) 4

/-- The size of a vector slot of a stage in a course (R211). -/
def slotBytes (img : List Byte) (f c s : Nat) : Nat :=
  let st := (stageRec img s).getD []
  ((rootedSlices img f c s).map fun r => 512 * (slNk r * treeSize st + opSize st 1 + opSize st 2)).foldl (· + ·) 0

def chkBuffers (img : List Byte) : Option (Nat × Nat) :=
  firstOf [firstBad img 4 (fun i r =>
      let size := slotBytes img (u8 r 0) (u8 r 1) (u8 r 3)
      decide (16 < (((before img 4 i).filter fun q => sameCourse q r).map fun q => u8 q 4).foldl (· + ·) (u8 r 4)) || decide (32768 * u8 r 4 < size)),
    firstBad img 7 fun i r => slEfpos r != 0xFF && (before img 7 i).any fun q => u8 q 1 == u8 r 1 && slEfpos q == slEfpos r]

/-! ### 0x0F to 0x14 -/

def badKvLayout (r : List Byte) : Bool :=
  let sm := kvScale r
  !(decide (u8 r 1 ≤ 2) && decide (1 ≤ kvHeads r) && decide (kvHeads r ≤ 32) && decide (u8 r 3 ≤ 2) && decide (1 ≤ kvGroup r) && decide (kvGroup r ≤ 16)
    && decide (u8 r 6 ≤ 1) && decide (1 ≤ kvMaxlen r) && decide (kvMaxlen r ≤ 1048576) && decide (0 < sm) && decide (sm < 0x7F800000)
    && kvBridges r != 0 && decide (kvStride r ≤ 16384))

def badWinLayout (img r : List Byte) : Bool :=
  match kvRec img (u8 r 0) with
  | none => true
  | some k => !(decide (u16 r 2 < kvLayers k) && decide (1 ≤ u32 r 4) && decide (u32 r 4 ≤ kvMaxlen k))

def chkKv (img : List Byte) : Option (Nat × Nat) :=
  firstOf [firstBad img 10 (fun _ r => badKvLayout r), firstBad img 11 fun _ r => badWinLayout img r]

/-- What places a model: its tiles with each layer tag of their stage and their use masks (R456 check 0x10). -/
def placement (img : List Byte) (m : Nat) : List (List Byte × Nat × BitVec 512) :=
  ((tileRecs img).filter fun r => layerModel img [BitVec.ofNat 8 (tStage r)] == m).flatMap fun r =>
    (stageLayers img (tStage r)).map fun l => (r.take 3, lTag l, useMask img r)

def sameSet {α : Type} [BEq α] (a b : List α) : Bool := a.all b.contains && b.all a.contains

def modelSame (a b : List Byte) (m : Nat) : Bool :=
  let own := fun (ty : Nat) (img : List Byte) => (secRecs img ty).filter fun r => u8 r 0 == m
  modelRec a m == modelRec b m && kvRec a m == kvRec b m && sameSet (own 11 a) (own 11 b) && sameSet (placement a m) (placement b m)

def chkLayout (p : Nat) (img : List Byte) (d : Dev) : Option (Nat × Nat) :=
  let old := imgOf p d
  firstBad img 2 fun _ r => match modelRec old (u8 r 0) with
    | some q => mLayout q == mLayout r && !modelSame old img (u8 r 0)
    | none => false

def memBase (r : List Byte) : Nat := u64 r 8

def badPlaced (p : Nat) (img : List Byte) (d : Dev) (i : Nat) (r : List Byte) : Bool :=
  if u8 r 0 = 8 then areaSize r % 2 ^ 21 != 0
  else memBase r % 2 ^ 21 != 0 || areaSize r % 2 ^ 21 != 0 || decide (resHbmSize (resOf p d) (u8 r 1) * 2 ^ 21 < memBase r + areaSize r)
    || (before img 12 i).any fun q => u8 q 1 == u8 r 1 && rangesMeet (memBase q) (areaSize q) (memBase r) (areaSize r)

/-- Tiles of far-tier stages on a die (R457). -/
def farTiles (img : List Byte) (f : Nat) : Nat :=
  ((tileRecs img).filter fun r => u8 r 0 == f && (stageLayers img (tStage r)).any lFar).length

/-- The areas that R457 requires on Bridge `b`, as (AREA, least size). -/
def needAreas (img : List Byte) (b : Nat) : List (Nat × Nat) :=
  let kv := (kvRecs img).any fun r => bit (kvBridges r) b
  let weight := kv || (courseRecs img).any (fun r => u8 r 0 == b) || (tileRecs img).any (fun r => u8 r 0 == b) || (stageRecs img).any fun r => bit (sBridges r) b
  let far := farTiles img b
  (if weight then [(1, 0)] else []) ++ (if kv then [(3, 0), (5, 0)] else []) ++ if far = 0 then [] else [(6, roundUp (2 * far * 197888) (2 ^ 21))]

def areasOk (img : List Byte) : Bool :=
  (List.range 12).all (fun b => (needAreas img b).all fun e => match areaRec img e.1 b with | some r => decide (e.2 ≤ areaSize r) | none => false)
    && (match (memRecs img).filter fun r => u8 r 0 == 7 with | [r] => areaSize r == 32 * 2 ^ 20 | _ => false)
    && (!anyFar img || ((memRecs img).any (fun r => u8 r 0 == 8) && farTmo img != 0))

def chkMemmap (p : Nat) (img : List Byte) (d : Dev) : Option (Nat × Nat) :=
  firstOf [firstBad img 12 (badPlaced p img d), noneIf (areasOk img) (secIndex img 12, noRec)]

/-- Does an area of the image in force hold live data on its Bridge (R456)? -/
def areaLive (p : Nat) (r : List Byte) (d : Dev) : Bool :=
  let b := u8 r 1
  let base := if u8 r 0 = 8 then memBase r else areaBase p b r d
  let shards := fun (l : List (List Nat)) => !(l.getD b []).isEmpty
  match u8 r 0 with
  | 1 => d.loads.epochs.any (fun e => e.part == p && shards e.place) || d.loads.windows.any fun w => w.part == p && w.adapter.isNone && shards w.place
  | 2 => d.loads.gens.any (fun g => g.part == p && shards g.place) || d.loads.windows.any fun w => w.part == p && w.adapter.isSome && shards w.place
  | 3 => decide (0 < usedIn b 0 base (areaSize r) d)
  | 4 => decide (0 < usedIn b 1 base (areaSize r) d)
  | 5 => tablesIn b base (base + areaSize r) d
  | 7 => (tuneAt p d).maskLive
  | 8 => decide (0 < usedIn 0 (2 + p) base (areaSize r) d)
  | _ => false

def areaMoved (img r : List Byte) : Option (Nat × Nat) :=
  match (memRecs img).zipIdx.find? fun e => e.1.take 2 == r.take 2 with
  | none => some (secIndex img 12, noRec)
  | some (q, i) => noneIf (memBase q == memBase r && decide (areaSize r ≤ areaSize q)) (secIndex img 12, i)

def chkLive (p : Nat) (img : List Byte) (d : Dev) : Option (Nat × Nat) :=
  firstOf ((memRecs (imgOf p d)).map fun r => if areaLive p r d then areaMoved img r else none)

/-- The courses an image names. -/
def imgCourses (img : List Byte) : List (Nat × Nat) := ((courseRecs img).map fun r => (u8 r 0, u8 r 1)).eraseDups

def chkShortfall (img : List Byte) (d : Dev) : Option (Nat × Nat) :=
  noneIf ((imgCourses img).all fun e => decide (((tileRecs img).filter fun r => u8 r 0 == e.1 && u8 r 1 == e.2).length ≤ serviceable e.1 e.2 d)) noSec

def chkPower (p : Nat) (img : List Byte) (d : Dev) : Option (Nat × Nat) :=
  let others := ((List.range 32).filter fun q => q != p).map fun q => if inForce q d then imgPower (imgOf q d) else 0
  noneIf (decide (others.foldl (· + ·) (imgPower img) ≤ 2960)) noSec

/-! ### The whole table (R456) -/

def coded (n : Nat) (x : Option (Nat × Nat)) : Option (Nat × Nat × Nat) := x.map fun e => (n, e)

def headChecks (p : Nat) (img : List Byte) (d : Dev) : Option (Nat × Nat × Nat) :=
  if !chkHeader p img then some (1, noSec)
  else if u64 img 0x18 != 0 && BitVec.ofNat 64 (u64 img 0x18) != d.flash.serial then some (2, noSec)
  else if u8 img 9 != 0 && u8 img 9 != d.fuses.order then some (3, noSec)
  else if !chkSerial p img d then some (4, noSec)
  else match validKey (imgKeyId img) 3#8 d with
    | none => some (5, noSec)
    | some k => if chkTrailer img k.pub then none else some (6, noSec)

/-- The first check of R456 that refuses an image: its code, section and record. -/
def imageCheck (p : Nat) (img : List Byte) (d : Dev) : Option (Nat × Nat × Nat) :=
  headChecks p img d <|> coded 7 (chkSections img) <|> coded 8 (chkFields img) <|> coded 9 (chkOwned p img d)
    <|> coded 10 (chkPlacement img) <|> coded 11 (chkCoverage img) <|> coded 12 (chkFormat img) <|> coded 13 (chkRoutes img)
    <|> coded 14 (chkBuffers img) <|> coded 15 (chkKv img) <|> coded 16 (chkLayout p img d) <|> coded 17 (chkMemmap p img d)
    <|> coded 18 (chkLive p img d) <|> coded 19 (chkShortfall img d) <|> coded 20 (chkPower p img d)

/-- The checks repeated at the barrier (R459 step 5). -/
def barrierCheck (p : Nat) (img : List Byte) (d : Dev) : Option (Nat × Nat × Nat) :=
  coded 9 (chkOwned p img d) <|> coded 18 (chkLive p img d) <|> coded 19 (chkShortfall img d) <|> coded 20 (chkPower p img d)

/-- The checks that a map change can make the image in force fail (R465); `moved` is the first live area that the change
moves or shrinks. -/
def forceCheck (p : Nat) (moved : Option (Nat × Nat)) (d : Dev) : Option (Nat × Nat × Nat) :=
  let img := imgOf p d
  coded 9 (chkOwned p img d) <|> coded 17 (chkMemmap p img d) <|> coded 18 moved <|> coded 19 (chkShortfall img d)

end Sys2Proof.Machine
end

