-- ==== Sys2Proof/Machine/Tuning.lean ====
section
/-! DEFINITION. Loading a Tuning image (11 R434-R437, R458-R472): its start, its verification, the partition barrier, what
applying it does, and the RDMA writes into the staging and the mask area. -/

namespace Sys2Proof.Machine

/-! ### The end of a load (R458) -/

/-- Microseconds since a time, saturating. -/
def usSince (t : DWord) (d : Dev) : Nat := min (since t d / 100) 0xFFFFFFFF

/-- The TUNING_RESULT event of R458. -/
def tuneEvent (p code sec rec barr : Nat) (serial : DWord) (d : Dev) : Dev :=
  raiseEvent p 0x0043 ([BitVec.ofNat 8 code, BitVec.ofNat 8 sec, 0#8, 0#8, 0#8] ++ leBytes 4 rec ++ leBytes 4 barr
    ++ leBytes 8 serial.toNat ++ timeBytes d) false d

/-- A load ends: its result is in PT_TUNESTAT, PT_TUNEERR and the event; a code other than 0 counts a refusal. -/
def tuneEnd (p code sec rec barr : Nat) (d : Dev) : Dev :=
  match (tuneAt p d).load with
  | none => d
  | some l =>
    let d := modTune p (fun t => { t with load := none, code := BitVec.ofNat 8 code, sect := BitVec.ofNat 8 sec }) d
    let d := regPut (PT_TUNEERR p) (BitVec.ofNat 32 rec) d
    let d := if code = 0 then bump (PT_TUNELOADS p) d else bump (PT_TUNEREFUSE p) d
    tuneEvent p code sec rec barr (imgSerial l.bytes) d

def setBarr (p n : Nat) (d : Dev) : Dev := regPut (PT_TUNEBARR p) (BitVec.ofNat 32 n) d

/-! ### Start and verification (R435, R459, R464) -/

def tuneBusy (p : Nat) (d : Dev) : Bool := (tuneAt p d).load.isSome

/-- The image as the staging area holds it: LENGTH bytes, or the header alone when LENGTH is out of range. -/
def stagedImage (t : Tune) : List Byte :=
  let n := imgLength (denseBytes 64 0 t.staging)
  denseBytes (if 208 ≤ n ∧ n ≤ 2 ^ 24 then n else 64) 0 t.staging

/-- A write of PT_TUNECTL LOAD: verification begins. -/
def tuneLoad (p : Nat) (d : Dev) : Dev :=
  if tuneBusy p d then d
  else modTune p (fun t => { t with load := some { bytes := stagedImage t, state := 2, from_ := d.time } }) d

/-- A write of PT_TUNECTL ABORT, and what a reset does to a load (R464). -/
def tuneAbort (p : Nat) (d : Dev) : Dev := tuneEnd p 0x16 0xFF noRec 0 d

/-- TUNING_VERIFY_DONE: the checks of R456 end. -/
def tuningVerifyDone (p : Nat) (d : Dev) : Dev :=
  match (tuneAt p d).load with
  | none => d
  | some l =>
    if l.state ≠ 2 || d.rst.phase != .idle then d
    else match imageCheck p l.bytes d with
      | some (code, sec, rec) => tuneEnd p code sec rec 0 d
      | none => modTune p (fun t => { t with load := some { l with state := 3, from_ := d.time } }) d

/-! ### Applying (R460) -/

/-- The settings words of a stage slot, by register offset (02 R102, 03 R144, 04 R187, 05 R221, 06 R261, 07 R292). -/
def stgWord (st : List Byte) (stage band : Nat) (exactAll : Bool) : Nat :=
  let dly := bits (u8 st 4) 2 3
  let fold := bits (u8 st 4) 0 2
  2 ^ 31 + stage * 2 ^ 16 + min 7 (dly + bandMargin band) * 2 ^ 10 + dly * 2 ^ 7 + b2n (sFlag st 0 || exactAll) * 2 ^ 6
    + b2n (sFlag st 1) * 2 ^ 5 + fold * 4 + fold

def qWord (st : List Byte) : Nat :=
  sOutFmt st * 2 ^ 10 + sOutCode st * 2 ^ 9 + b2n (sFlag st 2) * 2 ^ 8 + bits (u8 st 5) 4 4 * 2 ^ 4 + sInCode st

def capoWord (st : List Byte) : Nat := b2n (sFlag st 4) * 2 ^ 8 + b2n (sFlag st 5)

/-- Slots per buffer and whether in single-buffer mode, of a share in 32 KiB units (05 R212). -/
def bufShape (share slot : Nat) : Nat × Bool :=
  if slot = 0 then (0, false)
  else if 4 * slot ≤ 16384 * share then (min 16 (16384 * share / slot), false)
  else (min 16 (32768 * share / slot), true)

def tpWord (img : List Byte) (f c : Nat) (st cr : List Byte) : Nat :=
  let stage := u8 st 0
  let roots := rootedSlices img f c stage
  let shape := bufShape (u8 cr 4) (slotBytes img f c stage)
  u16 st 8 % 512 * 2 ^ 23 + ((roots.map slNk).foldl max 1 - 1) * 2 ^ 17 + shape.1 * 2 ^ 12 + b2n shape.2 * 2 ^ 11 + b2n (!roots.isEmpty) * 2 ^ 10
    + bits (u8 st 6) 4 2 * 2 ^ 8 + sOpFmt st 2 * 2 ^ 6 + sFop st 2 * 2 ^ 4 + sOpFmt st 1 * 2 ^ 2 + sFop st 1

def drnWord (st : List Byte) : Nat := b2n (sFlag st 3) * 2 ^ 8 + bits (u8 st 6) 0 4

/-- The six words of a slot of a course under an image; zeros for a slot that holds no stage. -/
def slotWords (img : List Byte) (f c s band : Nat) : List Nat :=
  match courseRecOf img f c s with
  | none => [0, 0, 0, 0, 0, 0]
  | some cr =>
    match stageRec img (u8 cr 3) with
    | none => [0, 0, 0, 0, 0, 0]
    | some st => [stgWord st (u8 cr 3) band (imgExactAll img), qWord st, capoWord st, tpWord img f c st cr, bits (u8 st 4) 5 3, drnWord st]

/-- Write the settings registers of every slot of a course (R460 step 1; 16 R612 step 7). -/
def writeCourseRegs (img : List Byte) (f c : Nat) (d : Dev) : Dev :=
  forEach (List.range 4) (fun s d =>
    forEach ([CS_STGCFG0 f c, CS_QCFG0 f c, CS_CAPOPOL0 f c, CS_TPCFG0 f c, CS_HCCFG0 f c, CS_DRNCFG0 f c].zip
        (slotWords img f c s (dieAt f d).band)) (fun e d => regPut (e.1 + 4 * s) (BitVec.ofNat 32 e.2) d) d) d

/-- Set the use mask of a physical tile, if the number is one. -/
def putUse (f c t : Nat) (m : BitVec 512) (d : Dev) : Dev := if t < 33 then modTile f c t (fun x => { x with use := m }) d else d

/-- A tile that may return stands out of service of a working tile, for a self-test (06 R249). -/
def outForTest (f c w : Nat) (d : Dev) : Bool :=
  (List.range 33).any fun t => (tileAt f c t d).home == w + 1 && (tileAt f c t d).tstate != 2

/-- A working tile gets a physical tile that is not retired: a spare where its own is not there, else it is covered; with its own
retired, TILE_SHORTFALL says so (06 R251). -/
def placeTile (f c w : Nat) (d : Dev) : Dev :=
  let t := physOf f c w d
  if t < 33 && (tileAt f c t d).tstate != 2 then d
  else match freeSpare f c d with
    | some sp => setTmap f c w sp (modTile f c sp (fun x => { x with tstate := 0 }) d)
    | none =>
      let d := setTmap f c w 0x3F d
      if outForTest f c w d then d else wtileRecord 0x0066 f c (if t < 33 then t else w) (some w) false d

/-- Nothing of the old work is left in a course, but for tests and spares (R460 step 3, 13 R523); `ws` are the working
tiles that stay in use. -/
def clearCourse (f c : Nat) (ws : List Nat) (d : Dev) : Dev :=
  let d := dropSamples f c (fun _ => true) d
  let d := modCourse f c (fun k => { k with
    slots := [], plucks := [], capoOut := [], kbs := [], handed := [], leafq := [], ef := [], cov := [], covTaken := [], backlog := 0,
    assigned := k.assigned.filter fun e => ws.contains e.1, tmap := k.tmap.filter fun e => ws.contains e.1 || e.2 != 0x3F }) d
  forEach (List.range 33) (fun t d => modTile f c t (fun x =>
    { x with pa := emptyPlane, pb := emptyPlane, inq := [], farWait := false, taken := 0, next := none }) d) d

/-- A course under a new image (R460 steps 1 to 3). -/
def applyCourse (p : Nat) (img : List Byte) (f c : Nat) (d : Dev) : Dev :=
  let ws := (List.range 32).filter fun w => (tileRec img f c w).isSome
  let d := clearCourse f c ws d
  let d := forEach ws (placeTile f c) d
  let d := forEach ws (fun w d =>
    match tileRec img f c w with
    | none => d
    | some r =>
      let d := putUse f c (physOf f c w d) (useMask img r) d
      match mget? (courseAt f c d).assigned w with
      | some t => putUse f c t (useMask img r) d
      | none => d) d
  let d := forEach ((List.range 4).filter fun s => (courseRecOf img f c s).isSome) (fun s d => modSlot f c s (fun x => { x with part := p }) d) d
  writeCourseRegs img f c d

/-- Models of the image in force that the new one drops or gives another LAYOUT (R460 step 4). -/
def droppedModels (old new_ : List Byte) : List Nat :=
  ((modelRecs old).filter fun r => match modelRec new_ (u8 r 0) with | some q => mLayout q != mLayout r | none => true).map fun r => u8 r 0

def maskPlace (img : List Byte) : Option (List Byte) := ((memRecs img).find? fun r => u8 r 0 == 7).map fun r => bytesAt r 1 1 ++ bytesAt r 8 8

/-- Take an image in force (R460, R437): courses, models, mask area, image, serial and measurement. -/
def tuneApply (p : Nat) (img : List Byte) (d : Dev) : Dev :=
  let old := imgOf p d
  let d := forEach (droppedModels old img) (fun m d => layoutChange p m d) d
  let gone := droppedModels old img
  let d := { d with loads := { d.loads with far := d.loads.far.filter fun x => x.part != p || !gone.contains x.model } }
  let cs := (imgCourses old ++ imgCourses img).eraseDups.filter fun e => ownsCourse p e.1 e.2 d
  let fresh := maskPlace old != maskPlace img
  let d := modTune p (fun t => { t with image := img, meas := sha512 (img.take (imgLength img - 144)), suspended := false,
                                        maskLive := t.maskLive && !fresh }) d
  let d := forEach cs (fun e d => applyCourse p img e.1 e.2 d) d
  match fresh, maskArea p d with
  | true, some (b, base) => hbmZero b base (32 * 2 ^ 20) d
  | _, _ => d

/-- The load at its barrier: the checks repeat, and the image is applied or refused (R459 steps 5 and 6). -/
def barrierApply (p : Nat) (l : TuneLoad) (d : Dev) : Dev :=
  let n := usSince l.from_ d
  let d := setBarr p n d
  match barrierCheck p l.bytes d with
  | some (code, sec, rec) => tuneEnd p code sec rec n d
  | none => tuneEnd p 0 0xFF noRec n (tuneApply p l.bytes d)

/-- The partition's batches in flight have ended, and no accepted map change waits for the same barrier (R459, R465). -/
def atBarrier (p : Nat) (d : Dev) : Bool := (schedAt p d).batches.isEmpty && !(d.map.waiting.any fun e => e.1 == p)

/-- TUNING_BARRIER_REACHED: in a PIPELINE or TENSOR consort the load waits for a TUNE Strum (14 R552). -/
def tuningBarrierReached (p : Nat) (d : Dev) : Dev :=
  match (tuneAt p d).load with
  | none => d
  | some l => if l.state ≠ 3 || !atBarrier p d || (inConsort d && cnsSplit d && cnsPart d == p) then d else barrierApply p l d

/-- What a TUNE Strum does at T to a load that waits in BARRIER (14 R551). -/
def strumTune (p : Nat) (d : Dev) : Dev :=
  match (tuneAt p d).load with
  | none => d
  | some l => if l.state ≠ 3 || !atBarrier p d then d else barrierApply p l d

/-- TUNING_BARRIER_TIMEOUT (R462): refused after 2 s in BARRIER. -/
def tuningBarrierTimeout (p : Nat) (d : Dev) : Dev :=
  match (tuneAt p d).load with
  | none => d
  | some l =>
    if l.state ≠ 3 || since l.from_ d < sec 2 then d
    else tuneEnd p 0x15 0xFF noRec 0 (setBarr p (usSince l.from_ d) d)

/-- R465: an image in force that a map change leaves failing a check suspends its partition. -/
def suspendCheck (p : Nat) (moved : Option (Nat × Nat)) (d : Dev) : Dev :=
  if !inForce p d then d
  else match forceCheck p moved d with
    | none => d
    | some (code, sec, rec) =>
      let d := modTune p (fun t => { t with suspended := true }) d
      tuneEvent p code sec rec 0 (imgSerial (imgOf p d)) d

/-! ### RDMA writes (R434, R436, 10 R412, 13 R526) -/

/-- Store bytes in a sparse byte string. -/
def putBytes (m : SMap Byte) (off : Nat) (data : List Byte) : SMap Byte :=
  (data.zipIdx off).foldl (fun m e => mputD m e.2 e.1 0#8) m

/-- RDMA_WRITE_TUNE_STAGING: bytes of the staging area, or a NAK while a load is in progress or past its 16 MiB. -/
def rdmaWriteTuneStaging (qp p off : Nat) (ce : Bool) (data : List Byte) (d : Dev) : Dev :=
  if !d.eth.up then d
  else if !ownsQp p qp d then rdmaFirewallRefuse p qp d
  else
    let d := ceOnRdma ce qp d
    if tuneBusy p d then send (.rdmaNakAccess qp) (bump HS_LDNAK d)
    else if 2 ^ 24 < off + data.length then send (.rdmaNakAccess qp) d
    else send (.rdmaAck qp) (modTune p (fun t => { t with staging := putBytes t.staging off data }) d)

/-- RDMA_WRITE_MASK: token-set masks at 32 KiB times their index; the area then holds live data (11 R456). -/
def rdmaWriteMask (qp p off : Nat) (ce : Bool) (data : List Byte) (d : Dev) : Dev :=
  if !d.eth.up then d
  else if !ownsQp p qp d then rdmaFirewallRefuse p qp d
  else
    let d := ceOnRdma ce qp d
    match maskArea p d with
    | none => send (.rdmaNakAccess qp) d
    | some (b, base) =>
      if 32 * 2 ^ 20 < off + data.length then send (.rdmaNakAccess qp) d
      else send (.rdmaAck qp) (modTune p (fun t => { t with maskLive := true })
        (hbmCount p data.length (hbmWrite b (base + off) data (bridgeBulk p (fbStop b) b 3 data d))))

end Sys2Proof.Machine
end

