-- ==== Sys2Proof/Machine/MapApply.lean ====
section
/-! DEFINITION. The partition map in change (13 R520-R523): commit, discard, the map barrier and the end of a hand-over. -/

namespace Sys2Proof.Machine

def putMapStg (p kind : Nat) (r : List Byte) (d : Dev) : Dev :=
  { d with map := { d.map with stg := mputD d.map.stg (4 * p + kind) r zeroRec } }

def mapBusy (d : Dev) : Bool := !d.map.waiting.isEmpty

/-- A write of HS_MAPCTL COMMIT for partition `p`: validate the staged records, and accept or refuse them. -/
def mapCommit (p : Nat) (d : Dev) : Dev :=
  if mapBusy d then d
  else
    let r := mapValidate p d
    let d := { d with map := { d.map with result := BitVec.ofNat 8 r, lastPart := p } }
    if r ≠ 0 then d
    else { d with map := { d.map with waiting := [(p, [mapStg p 0 d, mapStg p 1 d, mapStg p 2 d])] } }

/-- A write of HS_MAPCTL DISCARD: the staged records become the current ones. -/
def mapDiscard (p : Nat) (d : Dev) : Dev :=
  if mapBusy d then d else forEach [0, 1, 2] (fun k d => putMapStg p k (mapCur p k d) d) d

/-- Connections of queue pairs that the change takes are reset (R523). -/
def mapQpLoss (old new_ : List Byte) (d : Dev) : Dev :=
  let o := if resEnabled old then old else zeroRec
  let n := if resEnabled new_ then new_ else zeroRec
  let lost := fun (q : Nat) => inRange (resQpBase o) (resQpCount o) q && !inRange (resQpBase n) (resQpCount n) q
  { d with eth := { d.eth with cnpAt := mfilter d.eth.cnpAt (fun q _ => !lost q), rate := mfilter d.eth.rate fun q _ => !lost q } }

/-- The Keeper's next transmit key begins its packet numbers anew (12 R476, R518). -/
def newMacKey (p : Nat) (old new_ : List Byte) (d : Dev) : Dev :=
  if bytesAt old 0xE0 64 = bytesAt new_ 0xE0 64 then d
  else { d with strand := { d.strand with macPn := mdel d.strand.macPn p } }

/-- The first live area of the image in force whose base a change of the map moves (R465, R456 check 0x12). -/
def movedArea (p : Nat) (old new_ : Dev) : Option (Nat × Nat) :=
  let img := imgOf p old
  firstBad img 12 fun _ r => u8 r 0 != 8 && areaLive p r old && areaBase p (u8 r 1) r old != areaBase p (u8 r 1) r new_

/-- MAP_BARRIER: the accepted records of a partition take effect (R522, R523, R465). -/
def mapBarrier (p : Nat) (d : Dev) : Dev :=
  match mget? d.map.waiting p with
  | none => d
  | some rs =>
    let old := mapCur p 0 d
    let new_ := rs.getD 0 zeroRec
    let cur := (rs.zipIdx).foldl (fun m e => mputD m (4 * p + e.2) e.1 zeroRec) d.map.cur
    let t := { d with map := { d.map with cur := cur, waiting := mdel d.map.waiting p,
                                          handovers := d.map.handovers ++ mapLosses p old new_ } }
    suspendCheck p (movedArea p d t) <| newMacKey p (mapCur p 1 d) (rs.getD 1 zeroRec) (mapQpLoss old new_ (mapSyncLoss old new_ t))

/-! ### The end of a hand-over (R523) -/

/-- Data of partition `p` in [lo, hi) of Bridge `b`, in the sense of MEMMAP_LIVE. -/
def liveIn (p b lo hi : Nat) (d : Dev) : Bool :=
  let shards := fun (l : List (List Nat)) => (l.getD b []).any fun a => decide (lo < a + 2 ^ 26) && decide (a < hi)
  let meets := fun (r : List Byte) => u8 r 1 == b && rangesMeet (areaBase p b r d) (areaSize r) lo (hi - lo)
  d.loads.epochs.any (fun e => e.part == p && shards e.place) || d.loads.windows.any (fun w => w.part == p && shards w.place)
    || d.loads.gens.any (fun g => g.part == p && shards g.place)
    || decide (0 < usedIn b 0 lo (hi - lo) d + usedIn b 1 lo (hi - lo) d)
    || tablesIn b lo hi d || (memRecs (imgOf p d)).any fun r => u8 r 0 == 7 && meets r && areaLive p r d

/-- Data of partition `p` anywhere on Bridge `b`. -/
def liveOn (p b : Nat) (d : Dev) : Bool :=
  (kvAt b d).regions.any (fun e => e.2.part == p) || d.prefixes.any (fun x => x.2.part == p && x.2.bridge == b)
    || liveIn p b (resHbmBase (mapCur p 0 d) b * 2 ^ 21) ((resHbmBase (mapCur p 0 d) b + resHbmSize (mapCur p 0 d) b) * 2 ^ 21) d
    || d.loads.epochs.any (fun e => e.part == p && !(e.place.getD b []).isEmpty)
    || d.loads.windows.any (fun w => w.part == p && !(w.place.getD b []).isEmpty)
    || d.loads.gens.any fun g => g.part == p && !(g.place.getD b []).isEmpty

/-- Has the losing partition let go of units `base` to `base + count - 1` of a resource? -/
def released (h : HandOver) (base count : Nat) (d : Dev) : Bool :=
  match h.kind with
  | .course => (schedAt h.loser d).batches.isEmpty
  | .bridge => !liveOn h.loser base d
  | .hbm => !liveIn h.loser h.bridge (base * 2 ^ 21) ((base + count) * 2 ^ 21) d
  | .stream => !(d.streams.any fun e => inRange base count e.1)
  | .adapter => !(d.loads.gens.any fun g => inRange base count g.slot)
      && !(d.loads.windows.any fun w => match w.adapter with | some s => inRange base count s | none => false)
  | .pfx => !(d.prefixes.any fun e => inRange base count e.1)

/-- On the hand-over of a course its planes become EMPTY and its stage slots VALID 0. -/
def courseHanded (f c : Nat) (d : Dev) : Dev :=
  forEach (List.range 4) (fun s d => regSetField (CS_STGCFG0 f c + 4 * s) 31 1 0 d) (clearCourse f c [] d)

/-- MAP_HANDOVER_END: `count` units from `base` of the `k`th hand-over pass to their new owner. -/
def mapHandoverEnd (k base count : Nat) (d : Dev) : Dev :=
  match d.map.handovers[k]? with
  | none => d
  | some h =>
    if count = 0 || base < h.base || h.base + h.count < base + count || !released h base count d then d
    else
      let rest := (rangeDiff h.base h.count base count).map fun e => { h with base := e.1, count := e.2 }
      let d := { d with map := { d.map with handovers := d.map.handovers.take k ++ rest ++ d.map.handovers.drop (k + 1) } }
      if h.kind == .course then forEach ((List.range count).map (base + ·)) (fun i d => courseHanded (i / 16) (i % 16) d) d else d

end Sys2Proof.Machine
end

