-- ==== Sys2Proof/Machine/Consort.lean ====
section
/-! DEFINITION. Consorts (14 R546-R562): joining and leaving, the time protocol, Strums, shared sync objects, the loss of a
member or of the master. -/

namespace Sys2Proof.Machine

abbrev cnsSTOPPED : Nat := 3

/-! ### Joining, stopping, leaving (R547, R553, R559) -/

/-- Count a Strum that was cancelled or ended PARTIAL, and note the result of the last one (R561, R562). -/
def strumNote (result : Nat) (d : Dev) : Dev :=
  let d := modCns (fun c => { c with last := result }) d
  if result = 1 then d else bump HS_STRUMCAN d

/-- The STRUM_RESULT event, which the master sends to its consort partition's hosts (R552). -/
def strumEvent (result : Nat) (t : DWord) (d : Dev) : Dev :=
  if isCnsMaster d then raiseEvent (cnsPart d) 0x00A8 (Config.strumRecord result t) false d else d

def strumCancel (s : Strum) (d : Dev) : Dev := strumEvent 3 s.at_ (strumNote 3 d)

/-- STOPPED (R553): pending Strums are cancelled and every consort stream fails with STAGE_FAULT; formation stops and time
runs free while the state lasts. -/
def cnsStop (d : Dev) : Dev :=
  let p := cnsPart d
  let ss := if cnsSplit d then (d.streams.filter fun e => e.2.part == p && streamLive e.2).map (·.1) else []
  let d := forEach d.cns.strums strumCancel d
  let d := modCns (fun c => { c with state := cnsSTOPPED, busy := false, strums := [], gate := false }) d
  forEach ss (fun i d => endStream i 0x18 d) d

/-- The digest of a record, with SELF taken as 0 (R547). -/
def cnsDigest (r : List Byte) : List Byte := sha512 (r.take 0xA ++ [0#8] ++ r.drop 0xB)

/-- The RESULT of a join as far as the joining module's own facts go: its serial, its consort partition (R547). -/
def selfJoin (r : List Byte) (d : Dev) : Nat :=
  let e := cnsMember r (cnsSelf r)
  if memSerial e != d.flash.serial then 2 else if !enabled (memPart e) d then 3 else 0

/-- What a member sends with its request: digest, serial, CGEN, whether PART is enabled, its STREAM_COUNT, and whether the
alignment has held for 100 ms. -/
def joinBytes (r : List Byte) (d : Dev) : List Byte :=
  let q := memPart (cnsMember r (cnsSelf r))
  cnsDigest r ++ leBytes 8 d.flash.serial.toNat ++ leBytes 4 (cnsGen r) ++ leBytes 1 (b2n (enabled q d))
    ++ leBytes 4 (resStreamCount (resOf q d)) ++ leBytes 1 (b2n (d.cns.aligned && decide (ms 100 ≤ since d.cns.alignFrom d)))

/-- FORMED once every member has joined; no batch is formed before the next GATE (R547, R551). -/
def cnsSettle (d : Dev) : Dev :=
  let n := cnsN d.cns.cur
  if d.cns.state = 1 && (List.range n).all (fun m => d.cns.joined.contains m) then modCns (fun c => { c with state := 2, gate := false }) d
  else d

/-- A write of HS_CNSCTL JOIN: the staged record becomes current, and the member asks the master. STOPPED is left only with a
record of a higher CGEN (R553). -/
def consortJoin (d : Dev) : Dev :=
  let r := d.cns.stg
  if d.cns.busy || (d.cns.state = cnsSTOPPED && cnsGen r ≤ cnsGen d.cns.cur) then d
  else
    let d := forEach d.cns.strums strumCancel { d with pins := { d.pins with ppsLast := none } }
    let d := modCns (fun c => { c with cur := r, joined := [], lost := [], strums := [], gate := false, stepped := false, meas := none }) d
    if cnsId r = 0 then modCns (fun c => { c with state := 0 }) d
    else if cnsSelf r = cnsMasterNo r then
      let k := selfJoin r d
      if k = 0 then cnsSettle (modCns (fun c => { c with state := 1, result := 0#8, joined := [cnsSelf r], offset := 0#32 }) d)
      else modCns (fun c => { c with state := 0, result := BitVec.ofNat 8 k }) d
    else
      send (.consort (cnsMasterNo r) 1 (joinBytes r d)) (modCns (fun c => { c with state := 1, busy := true, heard := d.time }) d)

/-- CONSORT_JOIN_REQUEST_RX: the master judges a member's request (R547) and answers it; once all have joined every member
learns it. -/
def consortJoinRequestRx (m : Nat) (digest : List Byte) (serial : DWord) (cgen : Nat) (partOn : Bool) (streams : Nat) (timeOk : Bool)
    (d : Dev) : Dev :=
  let r := d.cns.cur
  if !isCnsMaster d || d.cns.state = 0 || d.cns.state = cnsSTOPPED || cnsN r ≤ m || m = cnsSelf r then d
  else
    let code := if digest != cnsDigest r then 1
      else if serial != memSerial (cnsMember r m) then 2
      else if !partOn || streams != resStreamCount (resOf (cnsPart d) d) then 3
      else if !timeOk then 4
      else if cgen < cnsGen r then 5
      else 0
    if code ≠ 0 then send (.consort m 2 (leBytes 1 code)) d
    else
      let d := cnsSettle (modCns (fun c => { c with joined := m :: c.joined.filter (· != m), lost := c.lost.filter (· != m) }) d)
      let js := d.cns.joined.map fun k => BitVec.ofNat 8 k
      forEach ((cnsOthers d).filter fun k => d.cns.joined.contains k) (fun k d => send (.consort k 2 ([0#8] ++ js)) d) d

def masterHeard (d : Dev) : Dev := modCns (fun c => { c with heard := d.time }) d

/-- CONSORT_JOIN_RESULT_RX: the master's answer, with the members that have joined. -/
def consortJoinResultRx (code : Nat) (joined : List Nat) (d : Dev) : Dev :=
  if !inConsort d || isCnsMaster d || d.cns.state ≠ 1 then d
  else
    let d := masterHeard (modCns (fun c => { c with busy := false, result := BitVec.ofNat 8 code }) d)
    if code ≠ 0 then modCns (fun c => { c with state := 0 }) d
    else cnsSettle (modCns (fun c => { c with joined := joined }) d)

def zeroCnsRec : List Byte := List.replicate 1024 0#8

/-- A write of HS_CNSCTL LEAVE: a master, or a member of a PIPELINE or TENSOR consort, stops it (R559). -/
def consortLeave (d : Dev) : Dev :=
  if d.cns.busy || !inConsort d then d
  else
    let d := cnsSendAll 14 [] d
    let d := if (isCnsMaster d || cnsSplit d) && d.cns.state != 0 then cnsStop d else d
    modCns (fun c => { c with cur := zeroCnsRec, state := 0, joined := [], lost := [], strums := [], gate := false, aligned := false,
                              offset := 0#32, meas := none }) d

/-- A member is lost (R553): a Strum that was COMMITTED misses it, and in PIPELINE or TENSOR mode the consort stops. -/
def memberLost (m : Nat) (d : Dev) : Dev :=
  let d := modCns (fun c => { c with
    lost := if c.lost.contains m then c.lost else m :: c.lost,
    strums := c.strums.map fun s => if s.committed then { s with missed := true } else s }) d
  if m = cnsMasterNo d.cns.cur || m = cnsSelf d.cns.cur || cnsSplit d then cnsStop d else d

def cnsRuns (d : Dev) : Bool := inConsort d && (d.cns.state == 1 || d.cns.state == 2)

/-- MEMBER_ALIGN_LOST (R550): this member has been outside ±50 ns for 100 ms, or another member is reported to be. -/
def memberAlignLost (m : Nat) (d : Dev) : Dev :=
  if !cnsFormed d || cnsN d.cns.cur ≤ m || d.cns.lost.contains m then d
  else if m = cnsSelf d.cns.cur && (isCnsMaster d || d.cns.aligned || since d.cns.alignFrom d < ms 100) then d
  else memberLost m d

/-- MASTER_LOST (R553): no Sync and no consort message from the master for 100 ms. -/
def masterLost (d : Dev) : Dev :=
  if !cnsFormed d || isCnsMaster d || since d.cns.heard d < ms 100 then d else cnsStop d

/-- CONSORT_PORT_TIMEOUT (R557): the peer of an unanswered port write is lost. -/
def consortPortTimeout (m : Nat) (d : Dev) : Dev :=
  if !cnsFormed d || cnsN d.cns.cur ≤ m || m = cnsSelf d.cns.cur || d.cns.lost.contains m then d else memberLost m d

/-! ### Time (R548-R550) -/

def cnsDomain (d : Dev) : Nat := 128 + cnsId d.cns.cur % 112
def ptpDomain (d : Dev) : Nat := regField HS_ETHCFG 24 8 d

/-- This module is a PTP slave in a domain: a member to its master, or a master with TSRC 1 to the grandmaster. -/
def isSlave (dom : Nat) (d : Dev) : Bool :=
  cnsRuns d && (if isCnsMaster d then cnsTsrc d.cns.cur == 1 && dom == ptpDomain d else dom == cnsDomain d)

/-- A new offset, in 0.25 ns; ALIGNED while it lies within ±50 ns (R550). -/
def setOffset (o : Int) (d : Dev) : Dev :=
  let a := decide (-200 ≤ o) && decide (o ≤ 200)
  modCns (fun c => { c with offset := BitVec.ofInt 32 o, aligned := a, alignFrom := if a = c.aligned then c.alignFrom else d.time }) d

/-- The local time in 0.25 ns, `frac` of them into the current count. -/
def ptpTime (frac : Nat) (d : Dev) : Int := 40 * (d.time.toNat : Int) + (frac % 40 : Nat)

/-- PTP_SYNC_RX: a Sync with the master's time `t1`; the slave answers with Delay_Req. `f2` and `f3` are the parts of a count at
which Sync arrived and Delay_Req left. -/
def ptpSyncRx (dom : Nat) (t1 : Int) (f2 f3 : Nat) (d : Dev) : Dev :=
  if !d.eth.up || !isSlave dom d then d
  else
    let t2 := ptpTime f2 d
    let d := if isCnsMaster d then d else masterHeard d
    let d := setOffset (t2 - t1 - d.cns.delay) d
    send (.ptp dom 1 d.time) (modCns (fun c => { c with meas := some { t1 := t1, t2 := t2, t3 := ptpTime f3 d } }) d)

/-- PTP_DELAY_RESP_RX: path delay and offset are known; before its admission a joining member steps its counter once (R549). -/
def ptpDelayRespRx (dom : Nat) (t4 : Int) (d : Dev) : Dev :=
  match d.cns.meas with
  | none => d
  | some m =>
    if !d.eth.up || !isSlave dom d then d
    else
      let fwd := m.t2 - m.t1
      let back := t4 - m.t3
      let o := (fwd - back) / 2
      let d := modCns (fun c => { c with delay := (fwd + back) / 2, meas := none }) d
      if d.cns.state = 1 && !isCnsMaster d && !d.cns.stepped && !(d.cns.joined.contains (cnsSelf d.cns.cur)) then
        let k := o / 40
        let d := { d with time := d.time - BitVec.ofInt 64 k }
        setOffset (o - 40 * k) (modCns (fun c => { c with stepped := true, alignFrom := d.time, heard := d.time }) d)
      else setOffset o d

/-- PTP_DELAY_REQ_RX: the consort master answers a member with the time of arrival. -/
def ptpDelayReqRx (dom : Nat) (d : Dev) : Dev :=
  if !d.eth.up || !(cnsRuns d && isCnsMaster d) || dom ≠ cnsDomain d then d else send (.ptp dom 2 d.time) d

/-- PTP_SYNC_INTERVAL: the master sends Sync every 15.625 ms (R549). -/
def ptpSyncInterval (d : Dev) : Dev :=
  if !d.eth.up || !(cnsRuns d && isCnsMaster d) || since d.cns.synced d < 1562500 then d
  else send (.ptp (cnsDomain d) 0 d.time) (modCns (fun c => { c with synced := d.time }) d)

/-- CLOCK_SLEW: one count period in which the slave withholds a count or adds a second one (R549), at most once per 20 us. -/
def clockSlew (d : Dev) : Dev :=
  let o := d.cns.offset.toInt
  let slave := cnsRuns d && (!isCnsMaster d || cnsTsrc d.cns.cur == 1)
  if !slave || !d.timeRun || since d.cns.slewed d < us 20 || (decide (-40 < o) && decide (o < 40)) then d
  else
    let d := { d with osc := d.osc + 1, time := if 0 < o then d.time else d.time + 2#64 }
    let d := modCns (fun c => { c with slewed := d.time }) d
    setOffset (if 0 < o then o - 40 else o + 40) d

/-! ### Strums (R551, R552) -/

/-- The refusal of a write of HS_STRUMCTL: 0 for none. -/
def strumRefusal (t : DWord) (d : Dev) : Nat :=
  if !cnsFormed d || !isCnsMaster d || t.toNat < d.time.toNat + 1000000 then stBAD_PARAM
  else if 8 ≤ d.cns.strums.length then stMGMT_BUSY
  else 0

def strumBytes (action arg obj : Nat) (t : DWord) : List Byte := leBytes 1 action ++ leBytes 2 arg ++ leBytes 2 obj ++ leBytes 8 t.toNat

/-- A request that is not refused: the Strum goes to every member. -/
def strumRequest (action arg obj : Nat) (t : DWord) (d : Dev) : Dev :=
  let s : Strum := { action := action, arg := arg, obj := obj, at_ := t, acks := [], committed := false, missed := false }
  if action = 0 then d else cnsSendAll 3 (strumBytes action arg obj t) (modCns (fun c => { c with strums := c.strums ++ [s] }) d)

/-- May this member acknowledge the action now? TUNE only while its load is in BARRIER (R552). -/
def strumReady (action : Nat) (d : Dev) : Bool := action != 3 || (tuneAt (cnsPart d) d).load.any fun l => l.state == 3

/-- STRUM_RECEIVE: a member receives a Strum and acknowledges it, or the master's order to cancel it. -/
def strumReceive (cancel : Bool) (action arg obj : Nat) (t : DWord) (d : Dev) : Dev :=
  if !cnsFormed d || isCnsMaster d then d
  else
    let d := masterHeard d
    if cancel then
      match d.cns.strums.find? fun s => s.at_ == t && s.action == action with
      | none => d
      | some s => strumCancel s (modCns (fun c => { c with strums := c.strums.filter fun y => !(y.at_ == t && y.action == action) }) d)
    else
      let ok := strumReady action d
      let s : Strum := { action := action, arg := arg, obj := obj, at_ := t, acks := [], committed := ok, missed := false }
      let d := modCns (fun c => { c with strums := c.strums ++ [s] }) d
      if ok then send (.consort (cnsMasterNo d.cns.cur) 4 (leBytes 8 t.toNat)) d else d

/-- STRUM_ACK_RX: the master records a member's acknowledgement of the Strum for time `t`. -/
def strumAckRx (m : Nat) (t : DWord) (d : Dev) : Dev :=
  if !cnsFormed d || !isCnsMaster d then d
  else modCns (fun c => { c with strums := c.strums.map fun s =>
    if s.at_ == t && !s.committed && !s.acks.contains m then { s with acks := m :: s.acks } else s }) d

def strumDue (s : Strum) (before : Nat) (d : Dev) : Bool := decide (s.at_.toNat ≤ d.time.toNat + before)

/-- STRUM_ACK_DEADLINE: at T - 20,000 the master commits its Strums that every member acknowledged, and cancels the others. -/
def strumAckDeadline (d : Dev) : Dev :=
  if !cnsFormed d || !isCnsMaster d then d
  else
    let all := fun (s : Strum) => strumReady s.action d && ((cnsOthers d).filter fun m => !d.cns.lost.contains m).all s.acks.contains
    let due := fun (s : Strum) => !s.committed && strumDue s 20000 d
    let bad := d.cns.strums.filter fun s => due s && !all s
    let d := modCns (fun c => { c with
      strums := (c.strums.filter fun s => !bad.contains s).map fun s => if due s then { s with committed := true } else s }) d
    forEach bad (fun s d => strumCancel s (cnsSendAll 6 (strumBytes s.action s.arg s.obj s.at_) d)) d

/-- The action of a Strum on this member (R551). -/
def strumAct (s : Strum) (d : Dev) : Dev :=
  if s.action = 1 then
    if s.obj < cnsSyncCount d.cns.cur then
      let o := memSync (cnsMember d.cns.cur (cnsSelf d.cns.cur)) + s.obj
      syncSet o (syncVal o d + BitVec.ofNat 64 s.arg) d
    else d
  else if s.action = 2 then modCns (fun c => { c with gate := true }) d
  else strumTune (cnsPart d) d

/-- STRUM_FIRE: at T the committed Strums act; a member missed makes the result PARTIAL (R552). -/
def strumFire (d : Dev) : Dev :=
  if !cnsFormed d then d
  else
    let due := d.cns.strums.filter fun s => s.committed && strumDue s 0 d
    let d := modCns (fun c => { c with strums := c.strums.filter fun s => !(s.committed && strumDue s 0 d) }) d
    forEach due (fun s d =>
      let r := if s.missed then 2 else 1
      strumEvent r s.at_ (strumNote r (bump HS_STRUMCNT (strumAct s d)))) d

/-! ### Consort sync objects (R554) -/

/-- A host's SYNC_SIGNAL on a consort sync object: the master applies it and tells every member; a member forwards it. -/
def cnsSignal (p aid o k : Nat) (m : Dgram) (d : Dev) : Dev :=
  let op := u8 m.payload 4
  let v : DWord := BitVec.ofNat 64 (u64 m.payload 8)
  let d := sendReply aid m stOK 0 0 [] d
  if isCnsMaster d then
    let d := syncSignal p o op v m.cycle d
    cnsSendAll 8 (leBytes 2 k ++ leBytes 8 (syncVal o d).toNat) d
  else send (.consort (cnsMasterNo d.cns.cur) 7 (leBytes 2 k ++ leBytes 1 op ++ leBytes 8 v.toNat)) d

/-- SYNC_SIGNAL of either OP. -/
def doSignal (p aid : Nat) (m : Dgram) (d : Dev) : Dev :=
  match (syncHandle p (u32 m.payload 0) 16 d).bind fun o => (cnsSyncNo o d).map fun k => (o, k) with
  | some (o, k) =>
    if m.payload.length ≠ 16 || !allZero (bytesAt m.payload 5 3) || 1 < u8 m.payload 4 || cnsPart d ≠ p then doSyncSignal p aid m d
    else cnsSignal p aid o k m d
  | none => doSyncSignal p aid m d

/-- CONSORT_SYNC_UPDATE_RX: on the master an update a member forwarded, applied and distributed; on a member the master's new
value, against which its waits are met. -/
def consortSyncUpdateRx (k op : Nat) (v : DWord) (cycle : Nat) (d : Dev) : Dev :=
  if !cnsFormed d || cnsSyncCount d.cns.cur ≤ k then d
  else
    let o := memSync (cnsMember d.cns.cur (cnsSelf d.cns.cur)) + k
    if isCnsMaster d then
      let d := syncSignal (cnsPart d) o op v cycle d
      cnsSendAll 8 (leBytes 2 k ++ leBytes 8 (syncVal o d).toNat) d
    else syncSet o v (masterHeard d)

/-! ### Port data (R556, R557) -/

/-- RDMA_WRITE_CONSORT_PORT: a member's port slices arrive on its consort queue pair. -/
def rdmaWriteConsortPort (k qp : Nat) (ce : Bool) (data : List Byte) (d : Dev) : Dev :=
  let e := cnsPort d.cns.cur k
  if !d.eth.up then d
  else if !cnsFormed d || u8 d.cns.cur 0xD ≤ k || e.2.2.1 ≠ cnsSelf d.cns.cur || qp ≠ memQp (cnsMember d.cns.cur (cnsSelf d.cns.cur)) + e.1 then
    send (.rdmaNakAccess qp) (bump HS_RXDROP d)
  else
    let d := if e.1 = cnsMasterNo d.cns.cur then masterHeard d else d
    send (.rdmaAck qp) (addWrap HS_CNSRXB (data.length / 64) (ceOnRdma ce qp d))

end Sys2Proof.Machine
end

