-- ==== Sys2Proof/Machine/ResetOps.lean ====
section
/-! DEFINITION. Resets (16 R597-R621): requests and their order, what each scope clears and keeps, and the sequences of stage,
partition and die resets. -/

namespace Sys2Proof.Machine

/-! ### Scopes (R597, R627) -/

def scopeRank : Scope → Nat
  | .stage => 0
  | .partition => 1
  | .die => 2
  | .warm => 3
  | .cold => 4
  | .coldLoss => 5

/-- SCOPE of the reset events (R627) and of HS_RSTCAUSE (19 R687). -/
def scopeCode : Scope → Nat
  | .stage => 1
  | .partition => 2
  | .die => 3
  | .warm => 4
  | .cold => 5
  | .coldLoss => 6

abbrev srcPOWER_ON : Nat := 1
abbrev srcBROWN_OUT : Nat := 2
abbrev srcPIN : Nat := 3
abbrev srcWATCHDOG : Nat := 4
abbrev srcSOFTWARE : Nat := 5
abbrev srcDEBUG : Nat := 6
abbrev srcCLOCK_FAIL : Nat := 7
abbrev srcLOCKUP : Nat := 8
abbrev srcMGMT : Nat := 9
abbrev srcLINK : Nat := 10
abbrev srcESCALATE : Nat := 11

def causeBit (c : Nat) : Nat := 2 ^ (c - 1)
def addMask (m c : Nat) : Nat := if bit m (c - 1) then m else m + causeBit c

/-- Seconds of the on-module oscillator since power loss (R621). -/
def oscSec (d : Dev) : Nat := d.osc / 100000000

/-- Nothing is powered before the input holds its threshold, nor after a thermal trip (17 R652, R653). -/
def powered (d : Dev) : Bool := d.pwr.supply && !d.pwr.tripped

/-- Twice the time of a scope, in oscillator counts (R609, R611). -/
def scopeLimit : Scope → Nat
  | .stage => 200000
  | .partition => 4000000
  | .die => 60000000
  | .warm => 800000000
  | .cold => 2200000000
  | .coldLoss => 2200000000

/-! ### What a device scope keeps (R617) -/

/-- Registers kept as words that a warm reset leaves: RWS counters, choice counters and fault contexts. -/
def keptWarm (a : Nat) : Bool :=
  match locOf a with
  | none => false
  | some l =>
    (match regDefOf l with | some r => !r.ctr.isEmpty | none => false)
      || (match l with | .part _ o => inWords o 0x2C 0x38 || inWords o 0xA0 0xAC | _ => false)

/-- The fault-capture latches, which only power loss clears. -/
def keptCold (a : Nat) : Bool := match locOf a with | some (.part _ o) => inWords o 0xA0 0xAC | _ => false

def keepRegs (s : Scope) (m : SMap Word) : SMap Word :=
  match s with
  | .warm => mfilter m fun a _ => keptWarm a
  | .cold => mfilter m fun a _ => keptCold a
  | .coldLoss => []
  | _ => m

def isLoss (s : Scope) : Bool := s == .coldLoss
def isWarm (s : Scope) : Bool := s == .warm

def freeRx : Nat := 4 * 2 ^ 20

/-- The port with its link down; a transceiver stays where it is. -/
def resetEth (e : Eth) : Eth :=
  { module := e.module, lanes := 0x00#8, fec := false, up := false, rxFreeRdma := freeRx, rxFreeStrand := freeRx, xoffRdma := false,
    xoffStrand := false, pausedRdma := false, pausedStrand := false, cnpAt := [], rate := [] }

def idleUpdate : Update :=
  { state := 0, code := 0xFF#8, chunks := 0, sess := 0#32, total := 0, staged := [], last := 0#64, image := none }

/-- The Pegbox before its boot; the ring is kept until power loss, the boot count always. -/
def resetPeg (s : Scope) (p : Peg) : Peg :=
  { keys := [], keyBusy := none, keyResult := 0xFF#8, ring := if isLoss s then [] else p.ring,
    ringSeq := if isLoss s then 0#32 else p.ringSeq, logQ := [], bootCount := p.bootCount, mode := p.mode, fwOk := false, patOk := false,
    root := 0, halt := 0#8, fwSvn := 0, fwMeas := [], claimTried := false, update := idleUpdate, idBad := false, bootEvent := false }

/-- Active, with no request, throttle or warning; whether the module has its supply, is tripped or over voltage stays. -/
def resetPwr (p : Pwr) : Pwr :=
  { supply := p.supply, state := 0, transit := false, wake := 0, waking := false, target := none, drainFrom := 0#64, entryFrom := 0#64,
    wakeFrom := 0#64, heldWake := 0, result := 0xFF#8, tlevel := 0, plevel := 0, grace := none, warn := false, tstep := 0#64, below := none,
    ppeak := 0#64, pmean := 0#64, pbelow := none, thrtFrom := 0#64, alert := [], psamples := [], inRange := true, tripped := p.tripped,
    overV := p.overV, vigilLast := 0#64 }

/-- Pads are held (R603); the test port and the levels at the pins are not reset. -/
def resetPins (p : Pins) : Pins :=
  { p with padHold := true, latched := false, latchPps := false, latchAlert := false, ppsOut := false, ppsLast := none }

def zeroCns : Cns :=
  { cur := zeroCnsRec, stg := zeroCnsRec, state := 0, busy := false, aligned := false, result := 0xFF#8, joined := [], lost := [],
    alignFrom := 0#64, offset := 0#32, gate := false, strums := [], last := 0, heard := 0#64, slewed := 0#64, synced := 0#64,
    meas := none, delay := 0, stepped := false }

/-- Tiles lose their planes and work. Retired tiles stay so; observed ones too, but not through a power loss, which makes every
tile not retired active. Trim tables are kept for quick calibration after a warm reset and cleared for full calibration. -/
def resetTile (s : Scope) (t : Nat) (x : Tile) : Tile :=
  let y := freshTile t
  let y := { y with tstate := if x.tstate = 2 then 2 else if x.tstate = 1 && !isLoss s then 1 else y.tstate,
                    obsLeft := if x.tstate = 1 && !isLoss s then 360 else 0,
                    ret := if isLoss s then 0#512 else x.ret }
  if isWarm s then
    { y with lfsr := x.lfsr, base := x.base, tables := x.tables, sums := x.sums, qf := x.qf, qh := x.qh, qSeq := x.qSeq, mseF := x.mseF,
             mseH := x.mseH, nsamp := x.nsamp, qalarm := x.qalarm }
  else y

def resetFret (s : Scope) (x : Fret) : Fret :=
  { tiles := x.tiles.foldl (fun m e => mputD m e.1 (resetTile s (e.1 % 64) e.2) (freshTile (e.1 % 64))) [], courses := [], rings := [],
    dies := if isWarm s then x.dies.foldl (fun m e => mputD m e.1 { e.2 with cal := 0 } freshDie) [] else [], cmds := [] }

/-- SRAM of a Bridge through a warm or die reset: descriptors, generations, edits and references stay; work in flight goes. -/
def resetKv (k : KvBridge) : KvBridge :=
  { k with bufs := [], kvsteps := [], walks := [], cache := [], gens := k.gens.map fun g => { g with walks := 0 } }

/-- What ends at the assertion of a device scope while its records can still be made: windows, Tuning loads, a firmware update. -/
def endWork (d : Dev) : Dev :=
  let d := forEach d.loads.windows (fun w => abortWindow w 2) d
  let d := forEach (List.range 32) (fun p d => tuneAbort p d) d
  updAbort d

/-- A stream whose vectors are gone and that had ended lets go at once; live ones are rolled back when the bring-up ends. -/
def dropEnded (d : Dev) : Dev :=
  forEach (d.streams.filter fun e => !streamLive e.2) (fun e => dropSteps e.1) d

/-- The state after the assertion of a device scope (R617). -/
def clearDev (s : Scope) (d : Dev) : Dev :=
  let w := isWarm s
  let d := { d with eth := resetEth d.eth }
  let d := if isLoss s then d else if w then dropEnded (endWork d) else endWork d
  { d with
    regs := keepRegs s d.regs,
    strand := if w then
        { assocs := mmap d.strand.assocs (fun a => { a with lost := true }), nextAid := d.strand.nextAid, sessions := [], held := [],
          lastAcc := [], macPn := d.strand.macPn }
      else { assocs := [], nextAid := d.strand.nextAid, sessions := [], held := [], lastAcc := [], macPn := [] },
    map := { cur := if w then d.map.cur else [], stg := [], waiting := [], handovers := if w then d.map.handovers else [],
             result := 0xFF#8, lastPart := 0 },
    sync := { val := if w then d.sync.val else [], waits := [], lastUpd := [] },
    peg := resetPeg s d.peg,
    pwr := resetPwr d.pwr,
    pins := resetPins d.pins,
    links := { chans := [], links := [] },
    fret := resetFret s d.fret,
    mem := if isLoss s then [] else d.mem,
    poison := if isLoss s then [] else d.poison,
    loads := if w then { d.loads with windows := [], far := [] }
      else { windows := [], epochs := [], gens := [], adpLast := [], far := [] },
    tunes := if isLoss s then [] else
      (d.tunes.foldl (fun m e => mputD m e.1
        (if w then { e.2 with load := none, code := 0xFF#8, sect := 0xFF#8 } else { emptyTune with staging := e.2.staging }) emptyTune) []),
    streams := if w then d.streams else [],
    incarnation := if w then d.incarnation else [],
    prefixes := if w then d.prefixes else [],
    scheds := if w then d.scheds.foldl (fun m e => mputD m e.1 { e.2 with batches := [] } emptySched) [] else [],
    kv := if w then d.kv.foldl (fun m e => mputD m e.1 (resetKv e.2) emptyKv) [] else [],
    cns := if w then { zeroCns with cur := d.cns.cur, last := d.cns.last } else zeroCns }

/-! ### The reset history (R621) -/

/-- At the assertion of a device scope: power loss clears the history; any other scope is counted, unless WITHDRAWN. -/
def countReset (s : Scope) (r : Rst) (now : Nat) : Rst :=
  if isLoss s then { r with history := [], countedTotal := 0, withdrawn := false, willWithdraw := false, entries := 0, reinstates := 0 }
  else if r.withdrawn then { r with willWithdraw := false }
  else
    { r with history := now :: r.history, countedTotal := min 255 (r.countedTotal + 1),
             willWithdraw := match r.history[1]? with | some t => decide (now ≤ t + 900) | none => false }

/-- Counted resets asserted within the last 900 s. -/
def inWindow (d : Dev) : Nat := (d.rst.history.filter fun t => decide (oscSec d ≤ t + 900)).length

/-! ### Dump slots (R625) -/

def dumpDue (r : Rst) : Bool := !isLoss r.scope && decide (3 ≤ scopeRank r.scope)

/-- The slot that the next dump goes to: the one that does not hold the newest valid dump (true: slot 1). -/
def dumpTarget (r : Rst) : Bool := (r.dump0.ok || r.dump1.ok) && !r.newest

def noDump : Dump := { ok := false, bytes := [] }

/-- A reset while a dump is built marks its slot invalid, and the summary too. -/
def spoilDump (d : Dev) : Dev :=
  if d.rst.phase == .calibrated && dumpDue d.rst then
    { d with rst := if dumpTarget d.rst then { d.rst with dump1 := noDump } else { d.rst with dump0 := noDump },
             flash := { d.flash with summary := none } }
  else d

/-! ### Device scopes (R597-R604, R614, R615) -/

/-- Reset is asserted: time stops, and state is cleared by R617. -/
def assertReset (count : Bool) (d : Dev) : Dev :=
  let s := d.rst.scope
  let t := d.time
  let svn := if d.peg.fwOk then d.peg.fwSvn else d.rst.prevSvn
  let d := clearDev s (spoilDump d)
  let r := if count then countReset s d.rst (oscSec d) else d.rst
  let osc := if isLoss s then 0 else d.osc
  { d with
    timeRun := false, time := if isWarm s then t else 0#64, osc := osc,
    rst := { r with phase := .asserted, t0 := osc, time0 := t, prevSvn := svn, subs := [], waiting := [], nv := none,
                    dump0 := if isLoss s then noDump else r.dump0, dump1 := if isLoss s then noDump else r.dump1 } }

/-- A device scope starts: at once, or after the non-volatile write in progress (R604). -/
def startReset (s : Scope) (cause mask : Nat) (d : Dev) : Dev :=
  let d := { d with rst := { d.rst with scope := s, cause := cause, mask := mask, t0 := d.osc } }
  if d.rst.nv.isSome then bump HS_NVDELAY { d with rst := { d.rst with phase := .nvWait } } else assertReset true d

/-- Sources asserted in the oscillator cycle that chose the running reset (R599): all are in the mask, the greatest scope is
performed, and the cause is the lowest code of that scope. -/
def mergeReset (s : Scope) (cause : Nat) (d : Dev) : Dev :=
  let r := { d.rst with mask := addMask d.rst.mask cause }
  if scopeRank r.scope < scopeRank s then
    let d := { d with rst := { r with scope := s, cause := cause } }
    if r.phase == .asserted then
      let t0 := d.rst.time0
      let d := assertReset (isLoss s) d
      { d with rst := { d.rst with time0 := t0 } }
    else d
  else { d with rst := if r.scope == s then { r with cause := min r.cause cause } else r }

/-- A request of a device scope (R599, R615). -/
def deviceRequest (s : Scope) (cause : Nat) (d : Dev) : Dev :=
  if !powered d then d
  else if d.rst.phase == .idle then startReset s cause (causeBit cause) d
  else if d.osc = d.rst.t0 && (d.rst.phase == .asserted || d.rst.phase == .nvWait) then mergeReset s cause d
  else if scopeRank d.rst.scope < scopeRank s then startReset s cause (causeBit cause) d
  else bump HS_RSTDROP d

/-- A source of lesser scope asserted in the same cycle only joins the mask (R599); at any other time a device scope in progress
covers it (R615). -/
def lesserRequest (cause : Nat) (d : Dev) : Dev :=
  if d.osc = d.rst.t0 && (d.rst.phase == .asserted || d.rst.phase == .nvWait) then
    { d with rst := { d.rst with mask := addMask d.rst.mask cause } }
  else bump HS_RSTDROP d

/-- NV_WRITE_PULSE_END: a pulse ends; a reset that waited is asserted, and then no new pulse starts; else `next` starts. -/
def nvPulseEnd (next : Option NvWrite) (d : Dev) : Dev :=
  if d.rst.nv.isNone then d
  else if d.rst.phase == .nvWait then assertReset true { d with rst := { d.rst with nv := none } }
  else
    let busy := d.peg.keyBusy.isSome || d.peg.update.state == 3 || !d.peg.logQ.isEmpty
    { d with rst := { d.rst with nv := if busy then next else none } }

/-! ### Release (R601-R603, 19 R687, R688) -/

def pick2 (a b p : BitVec 2) : BitVec 2 := (a &&& b) ||| (p &&& (a ^^^ b))

/-- DEVICE_RESET_RELEASE: the last source is gone. `b0`, `c0` are the straps' levels 10 us before, `b1`, `c1` 10 us after, and
`pb`, `pc` say which of two differing levels the sample took. -/
def deviceResetRelease (b0 c0 b1 c1 pb pc : BitVec 2) (d : Dev) : Dev :=
  if !powered d || d.rst.phase != .asserted || d.rst.lines.contains srcPIN then d
  else
    let bs := pick2 b0 b1 pb
    { d with
      rst := { d.rst with phase := .released, lines := [], unstable := b0 != b1 || c0 != c1,
                          regCause := BitVec.ofNat 32 (d.rst.cause * 2 ^ 24 + scopeCode d.rst.scope * 2 ^ 21 + d.rst.mask % 2 ^ 11) },
      pins := { d.pins with bootSel := b1, clkMode := c1, bootSampled := bs, clkSampled := pick2 c0 c1 pc, pwrOk := true },
      peg := { d.peg with mode := bs } }

/-! ### Boot (15 R573-R576, R583; R613 steps 2 and 3) -/

/-- The retirement map marks its tiles retired (06 R248). -/
def readRetMap (d : Dev) : Dev :=
  forEach (retMap d) (fun k d => modTile (k / 1024) (k / 64 % 16) (k % 64) (fun x => { x with tstate := 2 }) d) d

/-- CODE of the firmware extension in flash; a region without a header fails item 1. -/
def fwCode (d : Dev) : Nat :=
  match d.flash.fw with
  | none => 1
  | some im => if im.kind != 0#8 then 1 else imageCode im d.fuses.svn d.fuses.revoked

def patValid (d : Dev) : Bool :=
  match d.flash.pat with
  | none => false
  | some im => im.kind == 1#8 && imageCode im d.fuses.svn d.fuses.revoked == 0

/-- Steps 3 to 7 of R574, and what the firmware then reads. Every die is then on its way to its calibration: full after a cold reset,
quick after a warm one (07 R274, R275; DESIGN CHOICE, notes/assumptions/146.md). -/
def bootFirmware (d : Dev) : Dev :=
  let code := fwCode d
  let d := { d with pins := { d.pins with padHold := false } }
  if code ≠ 0 then addAlert 5 { d with peg := { d.peg with halt := BitVec.ofNat 8 code } }
  else match d.flash.fw with
    | none => d
    | some im =>
      let kind := if isWarm d.rst.scope then 2 else 1
      forEach (List.range 12) (fun f => calStart f kind) <| readRetMap { d with peg := { d.peg with
        fwOk := true, root := im.root, fwSvn := im.svn, fwMeas := im.digest, patOk := patValid d, bootCount := d.peg.bootCount + 1#32,
        keys := twoCopyGet d.flash.keysA d.flash.keysB [], idBad := !d.flash.idOk, bootEvent := true } }

/-- ROOT_PLL_LOCK: TIME and MGMT are released; the ROM runs (R45, R574). In NETWORK mode it waits for an update (R583). -/
def rootPllLock (d : Dev) : Dev :=
  if !powered d || d.rst.phase != .released then d
  else
    let d := { d with timeRun := true, rst := { d.rst with phase := .booted } }
    if d.peg.mode = 1#2 then { d with pins := { d.pins with padHold := false }, peg := { d.peg with idBad := !d.flash.idOk } }
    else bootFirmware d

/-- UPDATE_PROGRAM_DONE: in network boot a successful update is booted at once, without a reset (R583). -/
def updateProgramDone (readBackOk : Bool) (d : Dev) : Dev :=
  let d := updProgrammed readBackOk d
  if d.peg.mode = 1#2 && !d.peg.fwOk && d.rst.phase == .booted && d.peg.update.state = 4 && d.peg.update.code = 0#8 then
    bootEventDue (bootFirmware d)
  else d

/-! ### Stage, partition and die resets (R607, R611, R612, R615) -/

/-- Stages of a partition with tiles on Fret die `n` or units on Bridge die `n`. -/
def dieStages (p n : Nat) (d : Dev) : List Nat :=
  ((stageRecs (imgOf p d)).filter fun r =>
    bit (sBridges r) n || (courseRecs (imgOf p d)).any fun c => u8 c 0 == n && u8 c 3 == u8 r 0).map fun r => u8 r 0

/-- Partitions that a reset affects. -/
def subParts (x : SubReset) (d : Dev) : List Nat :=
  match x.scope with
  | .stage => [x.part]
  | .partition => [x.part]
  | .die => (List.range 32).filter fun p => subCovers x p d || !(dieStages p x.die d).isEmpty
  | _ => List.range 32

/-- Does the running reset `r` cover the request `q`? -/
def subAbsorbs (r q : SubReset) (d : Dev) : Bool :=
  match r.scope, q.scope with
  | .stage, .stage => r.part == q.part && r.stage == q.stage
  | .partition, .stage => r.part == q.part
  | .partition, .partition => r.part == q.part
  | .die, .stage => (dieStages q.part r.die d).contains q.stage
  | .die, .die => r.die == q.die
  | _, _ => false

def diffDie (r q : SubReset) : Bool := r.scope == .die && q.scope == .die && r.die != q.die

/-- Registers of the two dies of a pair whose RW fields a die reset clears (R617); counters stay. -/
def clearDieRegs (n : Nat) (d : Dev) : Dev :=
  { d with regs := mfilter d.regs fun a _ =>
      match locOf a with
      | some (.br k _) => k != n || keptWarm a
      | some (.ft k _) => k != n || keptWarm a
      | some (.cs k _ _) => k != n || keptWarm a
      | some (.tile k _ _ _) => k != n || keptWarm a
      | _ => true }

/-- Links of a pair: its Neck link and the Fingerboard links of its Bridge (R612 step 4). -/
def pairLinks (n : Nat) : List Nat := (n :: (List.range 4).map fun k => linkOf (fbPort n k)).eraseDups

/-- Links in training: their senders hold what they have. -/
def trainLinks (l : List Nat) (d : Dev) : Dev := forEach l (fun k d => putLink k { state := 1, failed := 0 } d) d

/-- A link that fails resets the pairs at both its ends at once (01 R60): the other pair's reset began now too. -/
def linkTwin (n : Nat) (d : Dev) : Bool :=
  d.rst.subs.any fun r => r.scope == .die && r.die != n && r.source == srcLINK && r.t0 == d.osc

/-- Streams that a die reset rolls back beyond those with vectors in flight: every one whose home Bridge is `n`. One that the other reset
of the same link fault has just rolled back is not rolled back again. -/
def rollHome (n : Nat) (done : List Nat) (d : Dev) : Dev :=
  let again := fun (i : Nat) (s : Stream) => linkTwin n d && s.steps.isEmpty && s.rolled == some (streamLen i s d)
  forEach ((d.streams.filter fun e => e.2.home == n && streamLive e.2 && !done.contains e.1 && !again e.1 e.2).map (·.1)) rollback d

/-- The self-tests of a die are dropped by its reset; calibration and the rebuilt courses follow (06 R264; 16 R612, R617). -/
def dropTests (n : Nat) (d : Dev) : Dev :=
  forEach (List.range 16) (fun c d =>
    forEach (List.range 33) (fun t d => modTile n c t (fun x => { x with inTest := false }) d) (modCourse n c (fun k => { k with tests := [] }) d))
    { d with fret := { d.fret with cmds := mdel d.fret.cmds n } }

def startStage (p stage : Nat) (d : Dev) : Dev := resetStage p stage (discardAndSort p (fun _ => false) 0x18 d)

def startPartition (p : Nat) (d : Dev) : Dev :=
  let d := discardAndSort p (fun _ => false) 0x18 d
  let d := forEach (stageRecs (imgOf p d)) (fun r => resetStage p (u8 r 0)) d
  let d := forEach (d.loads.windows.filter fun w => w.part == p) (fun w => abortWindow w 2) d
  tuneAbort p d

/-- A die reset begins. The copies that sessions hold of the dies' RW selectors stay: they belong to the session (13 R525; DESIGN CHOICE,
notes/assumptions/147.md). -/
def startDie (n : Nat) (d : Dev) : Dev :=
  let ps := (List.range 32).filter fun p => !(dieStages p n d).isEmpty
  let done := ps.flatMap fun p => inFlight p d
  let d := forEach ps (fun p d =>
    forEach (dieStages p n d) (fun s => resetStage p s) (discardAndSort p (fun _ => false) 0x18 d)) d
  let d := rollHome n done d
  let d := modKv n resetKv d
  trainLinks (pairLinks n) (clearDieRegs n (calStart n 2 (dropTests n d)))

/-- A reset of lesser scope begins. -/
def startSub (x : SubReset) (d : Dev) : Dev :=
  let d := addSub { x with t0 := d.osc } d
  match x.scope with
  | .stage => startStage x.part x.stage d
  | .partition => startPartition x.part d
  | .die => startDie x.die d
  | _ => d

/-- May a request start now? When every reset running is of lesser scope, or is of another pair than the die asked for. -/
def mayStart (q : SubReset) (d : Dev) : Bool :=
  d.rst.subs.all fun r => decide (scopeRank r.scope < scopeRank q.scope) || diffDie r q

/-- R615 with the part awake: covered, greater, or other. A greater one abandons those that it covers. -/
def admitSub (q : SubReset) (d : Dev) : Dev :=
  if d.rst.subs.any fun r => subAbsorbs r q d then bump HS_RSTDROP d
  else if mayStart q d then
    startSub q { d with rst := { d.rst with subs := d.rst.subs.filter fun r => !subAbsorbs q r d } }
  else { d with rst := { d.rst with waiting := d.rst.waiting ++ [q] } }

/-- Resets that waited for one that has ended are asked for again, in their order. -/
def startWaiting (d : Dev) : Dev :=
  let w := d.rst.waiting
  forEach w admitSub { d with rst := { d.rst with waiting := [] } }

def subName (x y : SubReset) : Bool := x.scope == y.scope && x.part == y.part && x.stage == y.stage && x.die == y.die

/-- A reset of lesser scope ends: RESET_DONE to each affected partition, and the next one that waits starts. -/
def endSub (x : SubReset) (d : Dev) : Dev :=
  let ps := subParts x d
  let arg := (d.osc - x.t0) / 100
  let d := { d with rst := { d.rst with subs := d.rst.subs.filter fun y => !subName x y } }
  let d := match x.scope with
    | .stage => bump (PT_STGRESET x.part) d
    | .partition => bump (PT_PARTRESET x.part) d
    | _ => bump HS_DIERST d
  let d := forEach ps (fun p => rstEvent p 0x00A0 (scopeCode x.scope) x.source 0 (if x.scope == .stage then x.stage else 0xFF)
    (if x.scope == .die then x.die else 0xFF) 0xFF 0x3FFFF arg false) d
  startWaiting d

/-- Step 7 of R612: the course registers are written from the images in force, use masks too, and working tiles are placed by
R249; observed tiles start a new hour (R618). -/
def rebuildCourse (f c : Nat) (d : Dev) : Dev :=
  let p := coursePart f c d
  let img := imgOf p d
  let d := modCourse f c (fun k => { k with tmap := [], assigned := [] }) d
  let d := forEach (List.range 33) (fun t d =>
    if (tileAt f c t d).tstate = 1 then startObservation f c t d
    else if t = 32 && (tileAt f c t d).tstate = 0 then modTile f c t (fun x => { x with tstate := 3 }) d
    else d) d
  if img.isEmpty then d
  else
    let ws := (List.range 32).filter fun w => (tileRec img f c w).isSome
    let d := forEach ws (placeTile f c) d
    let d := forEach ws (fun w d =>
      match tileRec img f c w with
      | some r => putUse f c (physOf f c w d) (useMask img r) d
      | none => d) d
    let d := forEach ((List.range 4).filter fun s => (courseRecOf img f c s).isSome) (fun s d => modSlot f c s (fun x => { x with part := p }) d) d
    writeCourseRegs img f c d

def rebuildDie (f : Nat) (d : Dev) : Dev := forEach (List.range 16) (fun c => rebuildCourse f c) d

/-! ### Escalation (R614) -/

/-- The reset that an overrun of a lesser scope starts. -/
def escalateSub (x : SubReset) (d : Dev) : Dev :=
  if d.osc < x.t0 + scopeLimit x.scope then d
  else
    let d := bump HS_RSTESC d
    if x.scope == .stage then
      let d := { d with rst := { d.rst with subs := d.rst.subs.filter fun y => !subName x y } }
      admitSub { x with scope := .partition, stage := 0, source := srcESCALATE } d
    else deviceRequest .warm srcESCALATE d

/-- A device scope that overruns: warm escalates to cold; cold starts another and asserts ALERT_N. -/
def escalateDev (d : Dev) : Dev :=
  if d.rst.phase == .idle || d.rst.phase == .nvWait || d.osc < d.rst.t0 + scopeLimit d.rst.scope then d
  else
    let was := d.rst.scope
    let d := startReset .cold srcESCALATE (causeBit srcESCALATE) (bump HS_RSTESC d)
    if isWarm was then d else addAlert 4 d

/-- ESCALATE: `k` names a lesser reset in progress, none the device scope. -/
def escalate (k : Option Nat) (d : Dev) : Dev :=
  if !powered d then d
  else match k with
    | none => escalateDev d
    | some n => match d.rst.subs[n]? with
      | some x => escalateSub x d
      | none => d

end Sys2Proof.Machine
end

