-- ==== Sys2Proof/Machine/PowerOps.lean ====
section
/-! DEFINITION. Power states and the module's supply (17 R634-R644, R652-R654; 18 R670-R672): requests, entry and wake, Vigil
samples, trips, the input and the reset pin; and the events that ask for resets (16 R597). -/

namespace Sys2Proof.Machine

/-! ### Supply and pins (R652, R653; 18 R670-R672) -/

/-- Power is gone: everything that power keeps is cleared. -/
def powerOff (d : Dev) : Dev :=
  let d := assertReset true { d with rst := { d.rst with scope := .coldLoss, cause := srcPOWER_ON, mask := 1, lines := [] } }
  { d with pins := { d.pins with pwrOk := false } }

/-- POWER_ON: the input has held its threshold for 10 ms. RST_N low since before extends the reset (18 R672). -/
def powerOn (d : Dev) : Dev :=
  if d.pwr.supply || d.pwr.overV || d.pwr.tripped then d
  else
    let d := { d with pwr := { d.pwr with supply := true } }
    let d := startReset .coldLoss srcPOWER_ON (causeBit srcPOWER_ON) d
    { d with rst := { d.rst with lines := if d.pins.rstN then [srcPOWER_ON] else [srcPOWER_ON, srcPIN] } }

/-- BROWN_OUT: PWR_OK falls; a cold reset with power loss starts, after a pulse in progress (R604). A trip is cleared. -/
def brownOut (d : Dev) : Dev :=
  if !d.pwr.supply then d
  else
    let d := { d with pins := { d.pins with pwrOk := false } }
    let off := fun (d : Dev) => { d with pwr := { d.pwr with supply := false, tripped := false } }
    if d.pwr.tripped then off d
    else if d.rst.phase != .idle && d.osc = d.rst.t0 then off (mergeReset .coldLoss srcBROWN_OUT d)
    else off (startReset .coldLoss srcBROWN_OUT (causeBit srcBROWN_OUT) d)

/-- OVER_VOLTAGE: all rails off, a power loss. -/
def overVoltage (d : Dev) : Dev :=
  if !powered d then d
  else
    let d := powerOff d
    { d with pwr := { d.pwr with supply := false, overV := true } }

/-- OVER_VOLTAGE_END: the module restarts by POWER_ON. -/
def overVoltageEnd (d : Dev) : Dev := if d.pwr.overV then powerOn { d with pwr := { d.pwr with overV := false } } else d

/-- PIN_RESET: RST_N has been low for 1 us. -/
def pinReset (d : Dev) : Dev :=
  let d := { d with pins := { d.pins with rstN := false } }
  if !powered d then d
  else
    let hold := fun (d : Dev) => { d with rst := { d.rst with
      lines := if d.rst.lines.contains srcPIN then d.rst.lines else d.rst.lines ++ [srcPIN] } }
    if d.rst.lines.contains srcPOWER_ON then hold d else hold (deviceRequest .cold srcPIN d)

def pinResetRelease (d : Dev) : Dev :=
  { d with pins := { d.pins with rstN := true, extest := false, clamp := false },
           rst := { d.rst with lines := d.rst.lines.filter fun x => x != srcPIN } }

def watchdogExpiry (d : Dev) : Dev := deviceRequest .warm srcWATCHDOG d
def lockup (d : Dev) : Dev := deviceRequest .warm srcLOCKUP d

/-- CLOCK_FAIL: counted in REFLOSS_CNT (01 R46, R56). -/
def clockFail (d : Dev) : Dev := if powered d then deviceRequest .warm srcCLOCK_FAIL (addField HS_CLKSTAT 8 8 1 d) else d

def debugReset (d : Dev) : Dev := if tapUsable d then deviceRequest .cold srcDEBUG d else d

/-! ### Programming the persistent log (15 R588) -/

/-- The oldest queued entry is in flash. When the half in use fills, the other half is erased. -/
def logProgram (d : Dev) : Dev :=
  match d.peg.logQ with
  | [] => d
  | r :: q =>
    let log := d.flash.log ++ [{ bytes := r, boot := d.peg.bootCount, ok := true }]
    let n := d.flash.logHalf + 1
    let full := decide (512 ≤ n)
    { d with
      peg := { d.peg with logQ := q },
      flash := { d.flash with log := if full then log.drop (log.length - 512) else log, logHalf := if full then 0 else n } }

/-! ### Thermal trip (R652) -/

/-- The record of the reading that tripped: the fixed filter's, with its die and sensor. -/
def tripEvent (die k : Nat) (v : Half) (d : Dev) : Dev :=
  raiseEvent 255 0x0083 (leBytes 1 d.pwr.state ++ leBytes 1 (level d) ++ leBytes 1 0 ++ leBytes 1 die ++ leBytes 1 k
    ++ leBytes 2 v.toNat ++ leBytes 2 (regField 0x948 0 16 d) ++ leBytes 2 (regField 0x940 0 16 d)
    ++ leBytes 2 0 ++ leBytes 8 0 ++ timeBytes d) true d

/-- THERMAL_TRIP: a fixed filter reads 110 degrees or more. The record reaches flash, then all power is gone until the input has
fallen below the brown-out threshold. -/
def thermalTrip (die k : Nat) (v : Half) (d : Dev) : Dev :=
  if !powered d || v.toInt < 7040 then d
  else
    let d := tripEvent die k v (addAlert 3 d)
    let d := forEach (List.range 16) (fun _ d => logProgram d) d
    let d := powerOff d
    { d with pwr := { d.pwr with tripped := true } }

/-! ### Entry to Hush and Vigil (R636, R637) -/

/-- Anything that stops a request with BUSY (R636). -/
def reqBusy (d : Dev) : Bool :=
  d.rst.phase != .idle || !d.rst.subs.isEmpty || !d.rst.waiting.isEmpty || (List.range 32).any (fun p => tuneBusy p d) || mapBusy d
    || d.peg.keyBusy.isSome || d.peg.update.state == 2 || d.peg.update.state == 3

/-- The event of a change of power state, with its duration in us. -/
def pwrStateEvent (from_ : DWord) (d : Dev) : Dev := pwrEvent 255 0x86 3 (since from_ d / 100) false d

/-- A wake event (R638, R641): held during entry; asleep, the wake begins. Both planes of every tile become EMPTY for quick
calibration (07 R275). -/
def startWake (why : Nat) (d : Dev) : Dev :=
  if d.pwr.target.isSome then
    { d with pwr := { d.pwr with heldWake := if d.pwr.heldWake = 0 then why else d.pwr.heldWake } }
  else if !asleep d || d.pwr.waking then d
  else
    let d := { d with pwr := { d.pwr with waking := true, transit := true, wake := why, wakeFrom := d.time } }
    let d := { d with fret := { d.fret with
      tiles := d.fret.tiles.foldl (fun m e => mputD m e.1 { e.2 with pa := emptyPlane, pb := emptyPlane } (freshTile (e.1 % 64))) [] } }
    forEach (List.range 12) (fun f => calStart f 2) d

/-- Asleep, waking, or entering Hush: what needs a die waits and wakes the part (R638, R641). -/
def diesAway (d : Dev) : Bool := asleep d || d.pwr.target == some 2

/-- A write of HS_PWRCTL REQ for state `st` (0 Active, 2 Hush, 3 Vigil). -/
def powerReq (st : Nat) (d : Dev) : Dev :=
  let res := fun (n : Nat) (d : Dev) => { d with pwr := { d.pwr with result := BitVec.ofNat 8 n } }
  if d.pwr.target.isSome || d.pwr.transit then d
  else if reqBusy d then res 1 d
  else if st = 3 && (d.cns.state = 1 || d.cns.state = 2) then res 3 d
  else if d.pwr.state = st then res 4 d
  else if st = 0 then
    if asleep d then startWake 1 d
    else pwrStateEvent d.time (res 0 { d with pwr := { d.pwr with state := 0 } })
  else
    { d with pwr := { d.pwr with target := some st, transit := true, drainFrom := d.time, entryFrom := d.time,
                                 state := if d.pwr.state = 1 then 0 else d.pwr.state } }

def noBatches (d : Dev) : Bool := d.scheds.all fun e => e.2.batches.isEmpty

/-- Every staging buffer is written out and every pending edit published (R637 step 2). -/
def flushBridge (b : Nat) (d : Dev) : Dev :=
  let d := forEach (kvAt b d).bufs (fun s d =>
    let d := if s.st = 2 then d else flushBuf b s d
    bump (BR_STGFLUSH b) d) d
  editPublish b 0 (modKv b (fun k => { k with bufs := [] }) d)

/-- POWER_DRAIN_DONE: the batches have ended and the part powers down. `held` counts rail and clock requests held (R643). -/
def powerDrainDone (held : Nat) (d : Dev) : Dev :=
  match d.pwr.target with
  | none => d
  | some st =>
    if !noBatches d then d
    else
      let d := forEach (List.range 12) flushBridge (addCtr HS_VFHOLD held d)
      let d := { d with pwr := { d.pwr with state := st, target := none, transit := false, result := 0x00#8, vigilLast := d.time } }
      let d := pwrStateEvent d.pwr.entryFrom d
      let d := { d with pins := { d.pins with latched := true, latchPps := d.pins.ppsOut, latchAlert := !d.pwr.alert.isEmpty,
                                              ppsOut := false } }
      let d := if st = 3 then linkGone 0x00#8 false d else d
      let why := d.pwr.heldWake
      if why = 0 then d else startWake why { d with pwr := { d.pwr with heldWake := 0 } }

/-- DRAIN_TIMEOUT: batches are still in flight 2 s after the request; a wake event held is met by the state that stays. -/
def drainTimeout (d : Dev) : Dev :=
  if d.pwr.target.isNone || noBatches d || since d.pwr.drainFrom d < sec 2 then d
  else
    startWaiting { d with pwr := { d.pwr with target := none, transit := false, result := 0x02#8, heldWake := 0 } }

/-! ### Idle (R635) -/

/-- No work: the conditions of R635. -/
def workless (d : Dev) : Bool :=
  noBatches d && (List.range 32).all (fun p => (candidates p d).isEmpty && !tuneBusy p d) && d.map.handovers.isEmpty
    && d.rst.phase == .idle && d.rst.subs.isEmpty && d.rst.waiting.isEmpty
    && d.fret.tiles.all (fun e => e.2.pa.load.isNone && e.2.pb.load.isNone) && d.fret.dies.all (fun e => e.2.cal == 0)
    && d.fret.courses.all fun e => !(e.2.tests.any fun q => q.running)

/-- AUTO_IDLE_ENTER: the conditions have held for 1 ms. -/
def autoIdleEnter (d : Dev) : Dev :=
  if bit (regGet HS_PWRCTL d).toNat 28 && d.pwr.state = 0 && d.pwr.target.isNone && !d.pwr.transit && powered d && workless d then
    { d with pwr := { d.pwr with state := 1 } }
  else d

/-- IDLE_EXIT: a condition no longer holds; the part is Active again within 2 us and reports it (R640 step 9). -/
def idleExit (d : Dev) : Dev :=
  if d.pwr.state = 1 && (!workless d || !bit (regGet HS_PWRCTL d).toNat 28) then
    pwrStateEvent d.time { d with pwr := { d.pwr with state := 0 } }
  else d

/-! ### Waking (R638-R641) -/

/-- A transition that fell due while asleep. -/
inductive Due where
  | stream (i : Nat)
  | epoch (p m : Nat)
  deriving DecidableEq, Repr

def dueInsert (x : Nat × Due) : List (Nat × Due) → List (Nat × Due)
  | [] => [x]
  | y :: r => if x.1 ≤ y.1 then x :: y :: r else y :: dueInsert x r

/-- Deadlines, expiries and retire-bys that have passed, in order of due time. -/
def dueList (d : Dev) : List (Nat × Due) :=
  let ss := (d.streams.filter fun e => decide (e.2.limit.toNat ≤ d.time.toNat)).map fun e => (e.2.limit.toNat, Due.stream e.1)
  let es := (d.loads.epochs.filterMap fun e => match e.retireBy with
    | some t => if t.toNat ≤ d.time.toNat then some (t.toNat, Due.epoch e.part e.model) else none
    | none => none)
  (ss ++ es).foldr dueInsert []

def applyDue (x : Nat × Due) (d : Dev) : Dev :=
  match x.2 with
  | .stream i => parkExpiry i (deadlineReached i d)
  | .epoch p m => epochRetireBy p m d

/-- Step 9 of a wake, but for the messages that waited: Active, pads released, what fell due applied, the event, the resets asked
for while asleep. -/
def wakeEnd (held : Nat) (d : Dev) : Dev :=
  if !d.pwr.waking then d
  else
    let d := addCtr HS_VFHOLD held d
    let d := { d with
      pwr := { d.pwr with state := 0, waking := false, transit := false, result := if d.pwr.wake = 1 then 0x00#8 else d.pwr.result },
      pins := { d.pins with latched := false, padHold := false } }
    let d := forEach (dueList d) applyDue d
    startWaiting (pwrStateEvent d.pwr.wakeFrom d)

/-- A reset of lesser scope is asked for (16 R615, 17 R638): it is covered by a device scope, wakes a sleeping part and then waits,
or runs. -/
def subRequest (q : SubReset) (d : Dev) : Dev :=
  if !powered d then d
  else if d.rst.phase != .idle then lesserRequest q.source d
  else if asleep d || d.pwr.target.isSome then startWake 5 { d with rst := { d.rst with waiting := d.rst.waiting ++ [q] } }
  else admitSub q d

/-- LINK_RETRAIN_DONE: a link that fails for the third time resets the pairs at its ends (01 R26, R27, R60). -/
def linkRetrainDone (l : Nat) (ok : Bool) (d : Dev) : Dev :=
  if (linkAt l d).state ≠ 1 then d
  else
    let d := retrained l ok d
    if (linkAt l d).state = 3 then
      forEach (linkPairs l) (fun n => subRequest { scope := .die, part := 0, stage := 0, die := n, source := srcLINK, t0 := 0 }) d
    else d

/-- VIGIL_SAMPLE: `lanes` receive lanes with signal, the fixed readings of the sensors and of the input (R642). -/
def vigilSample (lanes : Nat) (temps : List Half) (vin : Half) (d : Dev) : Dev :=
  if d.pwr.state ≠ 3 || d.pwr.waking || since d.pwr.vigilLast d < ms 100 then d
  else
    let d := bump HS_VIGILSAMP { d with pwr := { d.pwr with vigilLast := d.time } }
    let tmax : Int := 64 * regField HS_THERMCFG 0 8 d
    if 4 ≤ lanes then startWake 6 d
    else if temps.any (fun t => decide (tmax ≤ t.toInt) || decide (7040 ≤ t.toInt)) || vin.toNat < 5000 || 5800 < vin.toNat then startWake 7 d
    else d

/-! ### Calibration of the bring-up, of die resets and of wakes (07 R274-R278) -/

def calOf (l : List DieCal) (f : Nat) : DieCal := (l.find? fun x => x.die == f).getD { die := f, temp := 0, fits := [], mses := [] }

/-- The commit of one die's calibration that is under way. -/
def calDie (l : List DieCal) (f : Nat) (d : Dev) : Dev :=
  let x := calOf l f
  if (dieAt f d).cal = 0 then d else calCommit f x.temp x.fits x.mses d

/-- Every link of the package. -/
def allLinks : List Nat := ((List.range 12).flatMap pairLinks).eraseDups

/-- CALIBRATION_COMMIT: full after a cold reset, quick after a warm one; quick for dies in reset, and for all of them at a wake. -/
def calibrationCommit (l : List DieCal) (d : Dev) : Dev :=
  if !powered d then d
  else if d.rst.phase == .booted then
    if !d.peg.fwOk then d
    else
      let d := forEach (List.range 12) (calDie l) (forEach allLinks linkUp d)
      { d with rst := { d.rst with phase := .calibrated } }
  else if d.rst.phase != .idle then d
  else if d.pwr.waking then forEach (List.range 12) (calDie l) d
  else forEach ((d.rst.subs.filter fun x => x.scope == .die).map fun x => x.die) (calDie l) d

end Sys2Proof.Machine
end

