-- ==== Sys2Proof/Machine/Views.lean ====
section
/-! DEFINITION. What a read of each register of management space shows (the field maps of every chapter, indexed by 19 R682): the
registers whose fields report other state are computed from it here, the rest are kept as words. -/

namespace Sys2Proof.Machine

abbrev w32 (n : Nat) : Word := BitVec.ofNat 32 n

/-- A session's copy of a selector (13 R525); its reset value 0 before it is written, and without a session. -/
def selOf (s : Option Session) (a : Nat) : Nat :=
  match s with
  | some x => (mgetD x.sel a 0#32).toNat
  | none => 0

def word4 (l : List Byte) (k : Nat) : Word := w32 (u32 l (4 * k))
def lo32 (v : DWord) : Word := w32 v.toNat
def hi32 (v : DWord) : Word := w32 (v.toNat / 2 ^ 32)

/-! ### Global registers (19 R684-R691), clock, pins, port -/

/-- Bring-up has passed the lock of the root PLL. -/
def rootLocked (d : Dev) : Bool := d.rst.phase == .booted || d.rst.phase == .calibrated || d.rst.phase == .idle

def viewPartId (d : Dev) : Word :=
  w32 (0x2524 * 2 ^ 16 + d.fuses.rev.toNat * 2 ^ 12 + b2n d.peg.idBad * 4 + d.fuses.lifecycle.toNat)

def viewOrder (d : Dev) : Word := if d.fuses.order = 2 then 0x2402#32 else 0x4001#32

/-- The module serial number; 0 when the identity region failed its check (R686). -/
def serialNo (d : Dev) : DWord := if d.peg.idBad then 0#64 else d.flash.serial

def viewStraps (d : Dev) : Word := w32 (b2n d.rst.unstable * 16 + d.pins.bootSampled.toNat * 4 + d.pins.clkSampled.toNat)

/-- STATE names the state being entered during entry, the one being left during a wake (R690). -/
def viewPwrState (d : Dev) : Word :=
  w32 (d.pwr.wake * 256 + b2n d.pwr.transit * 8 + d.pwr.target.getD d.pwr.state)

def viewWdStat (d : Dev) : Word := w32 (b2n d.rst.withdrawn * 2 ^ 31 + d.rst.entries * 256 + d.rst.reinstates)

/-- HS_CLKSTAT (01 R56); CLK_MODE 1 alone runs from REFCLK (18 R673). REF_OK is taken to be good exactly while the root PLL is locked
(DESIGN CHOICE, notes/assumptions/46.md). -/
def viewClkStat (d : Dev) : Word :=
  let r := b2n (rootLocked d)
  w32 (regField HS_CLKSTAT 8 8 d * 256 + d.pins.clkSampled.toNat * 16 + b2n (d.pins.clkSampled != 1#2) * 8 + b2n (portAwake d) * 4 + r * 2 + r)

def viewEthStat (d : Dev) : Word :=
  w32 (d.eth.lanes.toNat * 2 ^ 16 + b2n d.eth.module * 8 + b2n (d.eth.pausedRdma || d.eth.pausedStrand) * 4 + b2n d.eth.fec * 2 + b2n d.eth.up)

def viewPinStat (d : Dev) : Word :=
  w32 (b2n d.pins.trstN * 64 + b2n d.pins.ppsIn * 32 + b2n d.pins.rstN * 16 + d.pins.clkMode.toNat * 4 + d.pins.bootSel.toNat)

/-! ### Loads, adapters, streams, sync objects (08 R336-R340, 10 R431, R432, 13 R543) -/

def viewLoad (o sel : Nat) (d : Dev) : Word :=
  let p := bits sel 2 5
  let m := bits sel 0 2
  let cur := curEpoch p m d
  let old := oldEpoch p m d
  let by_ : DWord := match old with | some e => e.retireBy.getD (BitVec.allOnes 64) | none => BitVec.allOnes 64
  match o with
  | 0x2004 =>
    let w := match modelWindow p m d with
      | some w => w.state * 2 ^ 29 + (if 2 ≤ w.state then (missingShards w d).length else 0) % 2 ^ 15 * 2 ^ 10 + w.num
      | none => 0
    w32 (w + b2n (draining p m d) * 2 ^ 28 + b2n cur.isSome * 2 ^ 27 + b2n old.isSome * 2 ^ 26)
  | 0x2008 => (cur.map fun e => e.num).getD 0#32
  | 0x200C => (old.map fun e => e.num).getD 0#32
  | 0x2010 => w32 (cur.elim 0 fun e => epochRefs e d)
  | 0x2014 => w32 (old.elim 0 fun e => epochRefs e d)
  | 0x2018 => lo32 by_
  | _ => hi32 by_

def viewAdp (o slot : Nat) (d : Dev) : Word :=
  let cur := curGenOf slot d
  let old := oldGenOf slot d
  match o with
  | 0x2024 =>
    w32 (b2n cur.isSome * 2 ^ 31 + b2n old.isSome * 2 ^ 30 + b2n (slotWindow slot d).isSome * 2 ^ 29 + (adapterOwner slot d).getD 0 * 2 ^ 7
      + cur.elim 0 fun g => g.rank)
  | 0x2028 => w32 ((old.elim 0 fun g => g.gen) * 2 ^ 16 + cur.elim 0 fun g => g.gen)
  | 0x202C => w32 (cur.elim 0 fun g => genRefs g d)
  | _ => w32 (old.elim 0 fun g => genRefs g d)

/-- The bytes of a stream-table entry; a FREE one reads as zeros. -/
def tableEntry (i : Nat) (d : Dev) : List Byte :=
  match streamAt i d with
  | some s => entryBytes i s
  | none => List.replicate 64 0#8

/-! ### Map, consort, resets, power (13 R541, R542, 14 R558-R561, 16 R629-R631, 17 R657, R658) -/

def viewMapData (sel k : Nat) (d : Dev) : Word :=
  if bits sel 8 2 = 3 then 0#32 else word4 (hideKeys (bits sel 8 2) (mapStg (bits sel 0 5) (bits sel 8 2) d)) k

def viewMapStat (d : Dev) : Word :=
  w32 (b2n (mapBusy d) * 2 ^ 31 + d.map.result.toNat * 256 + b2n (!d.map.handovers.isEmpty) * 128 + d.map.lastPart)

def viewCnsStat (d : Dev) : Word :=
  w32 (b2n d.cns.busy * 2 ^ 31 + d.cns.state * 2 ^ 28 + b2n (isCnsMaster d || d.cns.aligned) * 2 ^ 27
    + b2n (isCnsMaster d) * 2 ^ 26 + d.cns.result.toNat * 2 ^ 16 + (d.cns.joined.length - 1) % 16)

def viewCnsOffs (d : Dev) : Word := if isCnsMaster d then 0#32 else d.cns.offset

def viewRstHist (d : Dev) : Word :=
  let ago := match d.rst.history with | t :: _ => min 0xFFFF (oscSec d - t) | [] => 0xFFFF
  w32 (d.rst.countedTotal * 2 ^ 24 + min 255 (inWindow d) * 2 ^ 16 + ago)

def newestDump (d : Dev) : Dump := if d.rst.newest then d.rst.dump1 else d.rst.dump0

def viewDumpStat (d : Dev) : Word :=
  w32 (b2n d.rst.dump1.ok * 2 ^ 31 + b2n d.rst.dump0.ok * 2 ^ 30 + b2n d.rst.newest * 2 ^ 29
    + b2n (d.rst.phase == .calibrated && dumpDue d.rst) * 2 ^ 28 + b2n d.flash.summary.isSome * 2 ^ 27
    + (if (newestDump d).ok then ((newestDump d).bytes.length + 1023) / 1024 else 0))

def dumpBlock (sel : Nat) (d : Dev) : List Byte :=
  let x := if bit sel 31 then d.rst.dump1 else d.rst.dump0
  if x.ok then padTo 1024 (bytesAt x.bytes (1024 * bits sel 0 17) 1024) else List.replicate 1024 0#8

def viewPwrCtl (d : Dev) : Word := w32 (regField HS_PWRCTL 28 1 d * 2 ^ 28 + d.pwr.result.toNat * 2 ^ 16)

def viewThrtStat (d : Dev) : Word :=
  w32 (level d * 2 ^ 29 + d.pwr.tlevel * 2 ^ 26 + d.pwr.plevel * 2 ^ 23 + b2n d.pwr.grace.isSome * 2 ^ 22 + b2n d.pwr.warn * 2 ^ 21
    + b2n (!d.pwr.alert.isEmpty) * 2 ^ 20 + enc 16 (tmax d))

def viewHs (s : Option Session) (o : Nat) (d : Dev) : Word :=
  if o = HS_PARTID then viewPartId d
  else if o = HS_ORDER then viewOrder d
  else if o = HS_SERIALLO then lo32 (serialNo d)
  else if o = HS_SERIALHI then hi32 (serialNo d)
  else if o = HS_MACLO then w32 (macAddr d).toNat
  else if o = HS_MACHI then w32 ((macAddr d).toNat / 2 ^ 32)
  else if o = HS_RSTCAUSE then d.rst.regCause
  else if o = HS_STRAPS then viewStraps d
  else if o = HS_TIMELO then lo32 d.time
  else if o = HS_TIMEHI then hi32 d.time
  else if o = HS_PWRSTATE then viewPwrState d
  else if o = HS_WDSTAT then viewWdStat d
  else if o = HS_CLKSTAT then viewClkStat d
  else if inWords o 0x2004 0x201C then viewLoad o (selOf s HS_LDSEL) d
  else if inWords o 0x2024 0x2030 then viewAdp o (bits (selOf s HS_ADPSEL) 0 12) d
  else if inWords o 0x2140 0x217C then word4 (tableEntry (bits (selOf s HS_STSEL) 0 18) d) ((o - 0x2140) / 4)
  else if o = HS_ETHSTAT then viewEthStat d
  else if o = HS_MAPSTAT then viewMapStat d
  else if o = HS_SYNCVALLO then lo32 (syncVal (bits (selOf s HS_SYNCSEL) 0 14) d)
  else if o = HS_SYNCVALHI then hi32 (syncVal (bits (selOf s HS_SYNCSEL) 0 14) d)
  else if inWords o 0x4400 0x47FC then viewMapData (selOf s HS_MAPSEL) ((o - 0x4400) / 4) d
  else if o = HS_CNSSTAT then viewCnsStat d
  else if o = HS_CNSOFFS then viewCnsOffs d
  else if o = HS_STRUMCTL then w32 ((regGet HS_STRUMCTL d).toNat + d.cns.last * 2 ^ 26)
  else if inWords o 0x5400 0x57FC then word4 (if bit (selOf s HS_CNSSEL) 0 then d.cns.stg else d.cns.cur) ((o - 0x5400) / 4)
  else if o = HS_RSTHIST then viewRstHist d
  else if o = HS_DUMPSTAT then viewDumpStat d
  else if inWords o 0x6400 0x67FC then word4 (dumpBlock (selOf s HS_DUMPSEL) d) ((o - 0x6400) / 4)
  else if o = HS_PWRCTL then viewPwrCtl d
  else if o = HS_THRTSTAT then viewThrtStat d
  else if o = HS_PINSTAT then viewPinStat d
  else if perSession (.hs o) then w32 (selOf s o)
  else regGet o d

/-! ### Partition windows (11 R469-R471) -/

def viewTuneStat (p : Nat) (d : Dev) : Word :=
  let t := tuneAt p d
  let st := match t.load with
    | some l => l.state
    | none => if t.image.isEmpty then 0 else if t.suspended then 5 else 1
  w32 (st * 2 ^ 28 + b2n (!t.image.isEmpty) * 2 ^ 27 + t.code.toNat * 256 + t.sect.toNat)

def tuneSerial (p : Nat) (d : Dev) : DWord := if inForce p d then imgSerial (imgOf p d) else 0#64
def tuneMeas (p : Nat) (d : Dev) : List Byte := if inForce p d then padTo 64 (tuneAt p d).meas else List.replicate 64 0#8

def viewPart (p o : Nat) (d : Dev) : Word :=
  if o = 0x04 then viewTuneStat p d
  else if o = 0x0C then Config.tuneKey p
  else if o = 0x10 then lo32 (Config.tuneVa p)
  else if o = 0x14 then hi32 (Config.tuneVa p)
  else if o = 0x18 then lo32 (tuneSerial p d)
  else if o = 0x1C then hi32 (tuneSerial p d)
  else if inWords o 0x40 0x7C then word4 (tuneMeas p d) ((o - 0x40) / 4)
  else regGet (addrPart p o) d

/-! ### Pegbox (15 R592-R595) -/

def viewBootStat (d : Dev) : Word :=
  w32 (d.peg.mode.toNat * 2 ^ 30 + b2n d.peg.fwOk * 2 ^ 29 + b2n d.peg.patOk * 2 ^ 28 + b2n (claimed d) * 2 ^ 27 + d.peg.root % 4 * 2 ^ 24
    + d.peg.halt.toNat * 2 ^ 16 + d.fuses.svn % 256 * 256 + d.peg.fwSvn % 256)

def viewUpdStat (d : Dev) : Word := w32 (d.peg.update.state * 2 ^ 29 + d.peg.update.code.toNat * 2 ^ 16 + d.peg.update.chunks % 2 ^ 16)

def viewKeyStat (d : Dev) : Word := w32 (b2n d.peg.keyBusy.isSome * 2 ^ 31 + d.peg.keyResult.toNat * 2 ^ 16 + keyUsed d)

/-- The 48 bytes of the selected ring record; zeros when the ring does not hold it. -/
def ringEntry (seq : Nat) (d : Dev) : List Byte :=
  match d.peg.ring.find? fun r => r.seq.toNat == seq with
  | some r => ringBytes r
  | none => List.replicate 48 0#8

/-- The 64 bytes of a persistent entry (R588). -/
def logBytes (e : LogEntry) : List Byte :=
  let b := e.bytes ++ leBytes 4 e.boot.toNat ++ leBytes 8 0
  b ++ leBytes 4 (crc32 b).toNat

/-- The entry selected, from the oldest surviving; zeros when its CRC fails or there is none. -/
def logEntry (k : Nat) (d : Dev) : List Byte :=
  match d.flash.log[k]? with
  | some e => if e.ok then logBytes e else List.replicate 64 0#8
  | none => List.replicate 64 0#8

def logBad (k : Nat) (d : Dev) : Bool := match d.flash.log[k]? with | some e => !e.ok | none => false

def dieWord (k : Nat) (d : Dev) : DWord := if k ≤ 24 then mgetD d.fuses.ids k 0#64 else 0#64

def viewPeg (s : Option Session) (o : Nat) (d : Dev) : Word :=
  if o = 0x0 then viewBootStat d
  else if o = 0x10 then viewUpdStat d
  else if o = 0x28 then viewKeyStat d
  else if inWords o 0x40 0x7C then word4 (padTo 64 d.peg.fwMeas) ((o - 0x40) / 4)
  else if o = 0x84 then lo32 (dieWord (bits (selOf s PG_DIESEL) 0 5) d)
  else if o = 0x88 then hi32 (dieWord (bits (selOf s PG_DIESEL) 0 5) d)
  else if inWords o 0x100 0x18C then word4 (match s with | some x => x.keybuf | none => []) ((o - 0x100) / 4)
  else if o = 0x200 then d.peg.ringSeq
  else if inWords o 0x240 0x26C then word4 (ringEntry (selOf s PG_RINGSEL) d) ((o - 0x240) / 4)
  else if inWords o 0x2C0 0x2FC then word4 (logEntry (bits (selOf s PG_LOGSEL) 0 10) d) ((o - 0x2C0) / 4)
  else if perSession (.peg o) then w32 (selOf s (0x400000 + o))
  else regGet (0x400000 + o) d

/-! ### Bridges (01 R57, 07 R297, 09 R384-R386) -/

/-- A temperature in whole degrees, rounded down, as a 10-bit field. -/
def wholeDeg (t : Option Int) : Nat := enc 10 (t.getD 0 / 64)

def viewKv (n o sel : Nat) (d : Dev) : Word :=
  let p := bits sel 2 5
  let k := kvAt n d
  match o with
  | 0x704 => match kvRec (imgOf p d) (bits sel 0 2) with
    | some r => w32 (kvStride r * 2 ^ 16 + kvEpp r)
    | none => 0#32
  | 0x708 => w32 (freeFrames p n 0 d)
  | 0x70C => w32 (freeFrames p n 1 d)
  | 0x710 => (curGen k).num
  | 0x714 => ((liveGens k).headD firstGen).num
  | _ => w32 ((liveGens k).length * 2 ^ 27 + k.bufs.length * 2 ^ 14 + k.walks.length)

def viewBr (s : Option Session) (n o : Nat) (d : Dev) : Word :=
  if o = 0x200 then
    let st := (linkAt n d).state
    w32 (regField (BR_NECKSTAT n) 16 8 d * 2 ^ 16 + st * 4 + b2n (st == 2))
  else if o = 0x500 then
    let y := dieAt (16 + n) d
    w32 (b2n y.dblref * 2 ^ 12 + wholeDeg (dieMax (16 + n) true d) * 4 + y.band)
  else if inWords o 0x704 0x718 then viewKv n o (selOf s (addrBr n 0x700)) d
  else if o = 0x700 then w32 (selOf s (addrBr n 0x700))
  else regGet (addrBr n o) d

/-! ### Fret dies, courses, tiles (02 R103-R108, 04 R188, R190, 05 R222, 06 R262-R266, 07 R293-R296) -/

/-- The mean GAIN of the current band's data-column entries over active and observed tiles, ties to even (R295). -/
def meanGain (f : Nat) (d : Dev) : Int :=
  let b := (dieAt f d).band
  let ts := (List.range 528).filter fun k => (tileAt f (k / 33) (k % 33) d).tstate < 2
  let sum := ts.foldl (fun a k => (List.range 512).foldl (fun a c => a + (trimEntry f (tileAt f (k / 33) (k % 33) d) b c d).gain) a) 0
  if ts.isEmpty then 0 else rheDiv sum (512 * ts.length)

def viewFt (n o : Nat) (d : Dev) : Word :=
  if o = 0x8014 then
    let c := mgetD d.fret.cmds n freshCmd
    w32 (b2n c.done * 2 ^ 31 + c.kat % 4 * 2 ^ 29 + c.scan % 4 * 2 ^ 27)
  else if o = 0x8020 then
    let y := dieAt n d
    w32 (y.cal * 2 ^ 30 + b2n y.hot * 2 ^ 29 + y.band * 2 ^ 27 + bandMargin y.band * 2 ^ 25 + wholeDeg (dieMax n false d) * 2 ^ 12
      + enc 12 (meanGain n d))
  else if o = 0x8024 then w32 ((mgetD d.fuses.tcGain n 0#8).toNat * 256 + (mgetD d.fuses.tcOff n 0#8).toNat)
  else regGet (addrFt n o) d

/-- An exact-mode group is in progress: terms of one wait in the Capo, or every tile of the stage has the slice of its next vector
(04 R181, R188). -/
def exactBusy (f c s : Nat) (d : Dev) : Bool :=
  (courseAt f c d).capoOut.any (fun m => m.slot == s) || match (slotAt f c s d).cur with
    | some q => !(servers f c s d).isEmpty && (servers f c s d).all fun t => match nextVec q (tileAt f c t d).taken d with
        | some (_, v) => (takeSlice v.stream (tileAt f c t d).inq).isSome
        | none => false
    | none => false

/-- CS_CAPOSTAT (04 R188). BACKLOG is the lane work pending at the last PLUCK, changed by what was added and done since (DESIGN CHOICE,
notes/assumptions/145.md). -/
def viewCapoStat (f c : Nat) (d : Dev) : Word :=
  let k := courseAt f c d
  let enco := ((List.range 4).filter fun s => decide (0 < (slotAt f c s d).encore)).map fun s => 2 ^ s
  let exact := (liveSlots f c d).any fun s => stgExact f c s d && exactBusy f c s d
  w32 (min 512 (rcqLength k) * 2 ^ 16 + min 255 (k.backlog / capoWindow f c d) * 2 ^ 8 + enco.foldl (· + ·) 0 * 16 + b2n exact * 2 + b2n (!k.samples.isEmpty))

/-- CS_TRIMDATA (R190); during a calibration the entries it covers are STALE (07 R285, R287). -/
def viewTrim (f c sel : Nat) (d : Dev) : Word :=
  let t := bits sel 10 6
  let col := bits sel 0 10
  if 32 < t || 519 < col then 0#32
  else
    let b := (dieAt f d).band
    let e := trimEntry f (tileAt f c t d) b col d
    let cal := (dieAt f d).cal
    w32 (b2n (e.stale || cal = 1 || (cal = 2 && col < 512)) * 2 ^ 31 + b * 2 ^ 26 + enc 12 e.gain * 2 ^ 14 + enc 10 e.off)

def viewTpBuf (f c s : Nat) (d : Dev) : Word :=
  let x := slotAt f c s d
  let img := courseImg f c d
  let share := if isRoot f c s d then (match courseRecOf img f c s with | some r => u8 r 4 | none => 0) else 0
  let fill := if x.bufA.st = 1 then x.bufA.slots.length else if x.bufB.st = 1 then x.bufB.slots.length else 0
  w32 (share % 32 * 2 ^ 22 + fill % 32 * 2 ^ 17 + (if single f c s d then x.bufA.st else x.bufB.st) * 16 + x.bufA.st)

def viewChkStat (f c : Nat) (d : Dev) : Word :=
  let cov := ((List.range 32).filter fun w => physOf f c w d == 0x3F).length
  let rep := (List.range 4).any fun s => !(slotAt f c s d).repair.isEmpty
  let tst := ((courseAt f c d).tests.find? fun q => q.running).elim 0x3F fun q => q.tile
  w32 (serviceable f c d * 2 ^ 16 + cov * 2 ^ 10 + b2n (freeSpare f c d).isSome * 2 ^ 9 + b2n rep * 2 ^ 8 + tst)

/-- Four entries of the tile map (R263). -/
def viewTmap (f c k : Nat) (d : Dev) : Word :=
  w32 ((List.range 4).foldl (fun a j =>
    let t := physOf f c (4 * k + j) d
    a + (b2n (t == 0x3F) * 128 + t) * 2 ^ (8 * j)) 0)

def viewCs (s : Option Session) (f c o : Nat) (d : Dev) : Word :=
  if o = 0x110 then viewCapoStat f c d
  else if o = 0x180 then w32 (selOf s (addrCs f c 0x180))
  else if o = 0x184 then viewTrim f c (selOf s (addrCs f c 0x180)) d
  else if inWords o 0x210 0x21C then viewTpBuf f c ((o - 0x210) / 4) d
  else if o = 0x250 then viewChkStat f c d
  else if inWords o 0x2C0 0x2DC then viewTmap f c ((o - 0x2C0) / 4) d
  else regGet (addrCs f c o) d

def viewTstat (f c t : Nat) (d : Dev) : Word :=
  let x := tileAt f c t d
  let busy := (courseAt f c d).plucks.any fun p => p.tile == t && !p.converted
  let hscan := (liveGroups (scanMask x)).foldl (fun a g => a + 2 ^ g) 0
  w32 (x.tstate * 2 ^ 20 + (slotOfTile f c t d).getD 0 * 2 ^ 18 + b2n busy * 2 ^ 17 + b2n x.act * 2 ^ 16 + hscan * 256
    + b2n x.pb.fp4 * 128 + x.pb.st * 16 + b2n x.pa.fp4 * 8 + x.pa.st)

def layerTag (p : Plane) : Nat := if p.st ≤ 1 then 0xFFFF else p.tag % 2 ^ 16

/-- The bands that checks use since the tile's last pluck began, at E = 64 (R228, R265); a tile of no stage makes no checks and shows none. -/
def viewBand (f c t : Nat) (second : Bool) (d : Dev) : Word :=
  let x := tileAt f c t d
  match slotOfTile f c t d with
  | none => 0#32
  | some s =>
    let k := hcK f c s d
    w32 (if second then bandC k x.bqf else x.lastStep * 2 ^ 30 + bandG k 64 x.bqf x.bqh * 2 ^ 16 + bandH k x.bqh)

def maskWord (m : BitVec 512) (k : Nat) : Word := w32 (m.toNat / 2 ^ (32 * k))

/-- The tracked statistics of a column (R108, R294): codes in 1/64 LSB. -/
def distWord (x : Tile) (col : Nat) : Word :=
  let e := mgetD x.cols col emptyStat
  let v := e.sqr
  let rms := if v.m ≤ 0 then 0
    else if 0 ≤ v.e then rneSqrt (v.m.natAbs * 2 ^ v.e.toNat * 4096) 1 else rneSqrt (v.m.natAbs * 4096) (2 ^ (-v.e).toNat)
  w32 (enc 16 (rneDy e.mean ⟨1, -6⟩) * 2 ^ 16 + rms % 2 ^ 16)

def viewTile (s : Option Session) (f c t o : Nat) (d : Dev) : Word :=
  let x := tileAt f c t d
  let col := bits (selOf s (addrTile f c t 0x100)) 0 10
  if o = 0x0 then viewTstat f c t d
  else if o = 0x4 then w32 (layerTag x.pb * 2 ^ 16 + layerTag x.pa)
  else if o = 0x8 then x.lastv
  else if o = 0x10 then
    w32 (b2n x.suspect * 2 ^ 31 + b2n x.inTest * 2 ^ 30 + x.lastRes % 4 * 2 ^ 28 + x.obsLeft * 2 ^ 16 + regField (CS_TFAULT f c t) 0 16 d)
  else if o = 0x14 then viewBand f c t false d
  else if o = 0x20 then viewBand f c t true d
  else if o = 0x18 then
    let y := dieAt f d
    w32 (b2n (y.cal != 0 || x.qSeq != y.bandSeq) * 2 ^ 31 + x.qh % 4096 * 2 ^ 16 + x.qf % 4096)
  else if o = 0x1C then (if 519 < col then 0#32 else distWord x col)
  else if inWords o 0x40 0x7C then maskWord x.use ((o - 0x40) / 4)
  else if inWords o 0x80 0xBC then maskWord x.ret ((o - 0x80) / 4)
  else if inWords o 0xC0 0xFC then maskWord (scanMask x) ((o - 0xC0) / 4)
  else if o = 0x100 then w32 col
  else if o = 0x104 then
    if 519 < col then 0#32
    else
      let e := mgetD x.cols col emptyStat
      w32 (enc 9 e.min * 2 ^ 16 + enc 9 e.max)
  else regGet (addrTile f c t o) d

/-- What a read of a register shows at this moment. -/
def view (s : Option Session) (l : Loc) (d : Dev) : Word :=
  match l with
  | .hs o => viewHs s o d
  | .part p o => viewPart p o d
  | .peg o => viewPeg s o d
  | .br n o => viewBr s n o d
  | .ft n o => viewFt n o d
  | .cs n c o => viewCs s n c o d
  | .tile n c t o => viewTile s n c t o d

end Sys2Proof.Machine
end

