-- ==== Sys2Proof/Machine/Mgmt.lean ====
section
/-! DEFINITION. Reads and writes of management space (00_scope R5-R18; 12 R508-R511; 13 R524, R525; 16 R610, R622, R623, R629):
which identity may reach which register, what reading captures, and what writing each register does. -/

namespace Sys2Proof.Machine

/-! ### Answers (12 R506, R508, R511) -/

/-- A management answer on an association: REFSEQ, a code, 2 reserved bytes, the rest; tagged in a session. -/
def mgmtAnswer (ttype : Byte) (aid : Nat) (m : Dgram) (s : Option Session) (code : Nat) (extra : List Byte) (d : Dev) : Dev :=
  let pay := leBytes 4 m.hdr.seq.toNat ++ leBytes 2 code ++ [0#8, 0#8] ++ extra
  let x := match s with
    | some s => { mkSent ttype fAUTH (destOf m) 0#32 s.num pay d with key := s.kdh }
    | none => mkSent ttype 0#8 (destOf m) 0#32 0#32 pay d
  queueMsg aid x d

def mgmtReply (aid : Nat) (m : Dgram) (s : Option Session) (extra : List Byte) (d : Dev) : Dev := mgmtAnswer 0x32#8 aid m s stOK extra d
def mgmtNack (aid : Nat) (m : Dgram) (s : Option Session) (code addr : Nat) (d : Dev) : Dev :=
  mgmtAnswer 0x3F#8 aid m s code (leBytes 4 addr) d

/-! ### Rights (13 R524, R525; 19 R683) -/

/-- Partition `p` is the consort partition of a consort master (R524, 14 R551). -/
def consortRight (p : Nat) (d : Dev) : Bool := isCnsMaster d && cnsPart d == p

/-- What a selector's value names belongs to partition `p` (R525). -/
def namesOwn (p a v : Nat) (d : Dev) : Bool :=
  if a = HS_LDSEL then bits v 2 5 == p
  else if a = HS_ADPSEL then ownsAdapter p (bits v 0 12) d
  else if a = HS_STSEL then ownsStream p (bits v 0 18) d
  else if a = HS_SYNCSEL then ownsSync p (bits v 0 14) d
  else match locOf a with
    | some (.br _ 0x700) => bits v 2 5 == p
    | _ => true

/-- The selector that a register is shown through, where its value can name what a partition does not own. -/
def selectorFor (l : Loc) : Option Nat :=
  match l with
  | .hs o =>
    if inWords o 0x2004 0x201C then some HS_LDSEL
    else if inWords o 0x2024 0x2030 then some HS_ADPSEL
    else if inWords o 0x2140 0x217C then some HS_STSEL
    else if o = HS_SYNCVALLO || o = HS_SYNCVALHI then some HS_SYNCSEL
    else none
  | .br n o => if inWords o 0x704 0x70C then some (addrBr n 0x700) else none
  | _ => none

/-- Registers of the Headstock that a partition's session may read (R524, R683). -/
def hsReadable (p o : Nat) (d : Dev) : Bool :=
  o == HS_ETHSTAT || inWords o 0x0 0x2C || o == HS_LDSEL || o == HS_ADPSEL || o == HS_STSEL || o == HS_SYNCSEL
    || (selectorFor (.hs o)).isSome || (consortRight p d && (o == HS_CNSSTAT || inWords o 0x5010 0x5018))

def readRight (s : Session) (l : Loc) (d : Dev) : Bool :=
  s.keeper ||
    ((match selectorFor l with | some a => namesOwn s.part a (selOf (some s) a) d | none => true) &&
      match l with
      | .part q _ => q == s.part
      | .cs n c _ => ownsCourse s.part n c d
      | .tile n c _ _ => ownsCourse s.part n c d
      | .ft n o => ownsFret s.part n d && o != 0x8010
      | .br n _ => ownsBridge s.part n d
      | .hs o => hsReadable s.part o d
      | .peg _ => false)

def hsWritable (p o : Nat) (d : Dev) : Bool :=
  o == HS_LDSEL || o == HS_ADPSEL || o == HS_STSEL || o == HS_SYNCSEL || (consortRight p d && inWords o 0x5010 0x5018)

def writeRight (s : Session) (a : Nat) (l : Loc) (r : RegDef) (v : Word) (d : Dev) : Bool :=
  s.keeper ||
    (namesOwn s.part a v.toNat d &&
      match l with
      | .part q o => q == s.part && (o == 0 || !r.ctr.isEmpty)
      | .cs n c o => ownsCourse s.part n c d && (o == 0x180 || !r.ctr.isEmpty)
      | .tile n c _ o => ownsCourse s.part n c d && (o == 0x100 || !r.ctr.isEmpty)
      | .br n o => ownsBridge s.part n d && o == 0x700
      | .hs o => hsWritable s.part o d
      | .ft _ _ => false
      | .peg _ => false)

/-! ### The checks of a message (12 R509) -/

/-- The die of a register, as a pair number; none for the Headstock. -/
def pairOf (l : Loc) : Option Nat :=
  match l with
  | .br n _ => some n
  | .ft n _ => some n
  | .cs n _ _ => some n
  | .tile n _ _ _ => some n
  | _ => none

/-- The register lies on a die in reset (16 R615). -/
def onResetDie (l : Loc) (d : Dev) : Bool :=
  match pairOf l with
  | none => false
  | some n => d.rst.phase != .idle && d.rst.phase != .calibrated || d.rst.subs.any fun x => x.scope == .die && x.die == n

/-- The first check that one address fails, as the code of the MGMT_NACK; 0 when it passes. `v`: the value of a write. -/
def addrCheck (s : Session) (a : Nat) (v : Option Word) (d : Dev) : Nat :=
  if a % 4 ≠ 0 then stBAD_ADDRESS
  else match locOf a with
    | none => stBAD_ADDRESS
    | some l => match regDefOf l with
      | none => stBAD_ADDRESS
      | some r => match v with
        | none =>
          if !readRight s l d then stNOT_OWNER else if onResetDie l d then stMGMT_BUSY else 0
        | some w =>
          if r.allRO then stREAD_ONLY
          else if r.keeper && !s.keeper then stNOT_KEEPER
          else if !writeRight s a l r w d then stNOT_OWNER
          else if onResetDie l d then stMGMT_BUSY
          else 0

/-- The first address that fails, with its code. -/
def firstRefused (s : Session) (l : List (Nat × Option Word)) (d : Dev) : Option (Nat × Nat) :=
  (l.map fun e => (e.1, addrCheck s e.1 e.2 d)).find? fun e => e.2 != 0

/-- A refusal, counted in PT_FWMGMT of a partition's session when it is one of rights. -/
def refuseAddr (aid : Nat) (m : Dgram) (s : Session) (e : Nat × Nat) (d : Dev) : Dev :=
  let d := if e.2 = stNOT_OWNER && !s.keeper then bump (PT_FWMGMT s.part) d else d
  mgmtNack aid m (some s) e.2 e.1 d

/-- A register of a Fret or Bridge die wakes the part from Hush (17 R638). -/
def needsDie (l : List (Nat × Option Word)) : Bool := l.any fun e => ((locOf e.1).bind pairOf).isSome

/-- Accepted, to be processed once the wake ends. -/
def holdMsg (aid : Nat) (m : Dgram) (units : Nat) (d : Dev) : Dev :=
  { d with strand := { d.strand with held := d.strand.held ++ [{ aid := aid, msg := m, units := units, at_ := d.time }] } }

/-! ### Reading (R18, 02 R111, 10 R432) -/

/-- The registers that a read of this one captures for later reads of the session. -/
def captures (a : Nat) : List Nat :=
  let next := fun (n : Nat) => (List.range n).map fun k => a + 4 + 4 * k
  match locOf a with
  | some (.hs o) =>
    if o = HS_SERIALLO || o = HS_MACLO || o = HS_TIMELO || o = 0x2018 || o = HS_SYNCVALLO || o = HS_STRUMTLO then next 1
    else if o = HS_STDATA0 then next 15
    else if o = HS_DUMPDATA0 then next 255
    else []
  | some (.part _ o) => if o = 0x10 || o = 0x18 || o = 0x2C || o = 0x34 then next 1 else if o = 0xA0 then next 3 else []
  | some (.peg o) => if o = 0x240 then next 11 else if o = 0x2C0 then next 15 else []
  | some (.cs _ _ o) => if o = 0x20 then next 1 else []
  | some (.tile _ _ _ o) => if o = 0x14 then [a + 0xC] else []
  | _ => []

/-- A word that only a read of its record's first word captures; until then the session's copy is at its reset value (10 R432, 13 R525). -/
def recordWord (a : Nat) : Bool :=
  match locOf a with
  | some (.hs o) => inWords o (HS_STDATA0 + 4) (HS_STDATA0 + 0x3C) || inWords o (HS_DUMPDATA0 + 4) (HS_DUMPDATA0 + 0x3FC)
  | some (.part _ o) => inWords o 0xA4 0xAC
  | some (.peg o) => inWords o 0x244 0x26C || inWords o 0x2C4 0x2FC
  | _ => false

def viewAt (s : Option Session) (a : Nat) (d : Dev) : Word := match locOf a with | some l => view s l d | none => 0#32

/-- One register access of a MGMT_READ. -/
def readReg (s : Session) (a : Nat) (d : Dev) : Word × Dev :=
  let s := (sessionOf s.num d).getD s
  match mget? s.cap a with
  | some v => (v, d)
  | none =>
    if recordWord a then (0#32, d)
    else
    let v := viewAt (some s) a d
    let bad := a == 0x4002C0 && logBad (bits (selOf (some s) PG_LOGSEL) 0 10) d
    let d := if bad then bump PG_LOGCRC d else d
    let cap := (captures a).foldl (fun m b => mput m b (viewAt (some s) b d)) s.cap
    (v, modSession s.num (fun x => { x with cap := cap }) d)

def readRegs (s : Session) : List Nat → Dev → List Word × Dev
  | [], d => ([], d)
  | a :: r, d =>
    let x := readReg s a d
    let y := readRegs s r x.2
    (x.1 :: y.1, y.2)

/-! ### Writing -/

/-- A 0 written to a counter field clears it; any other value leaves it (R12). -/
def clearCtrs (a : Nat) (r : RegDef) (v : Word) (d : Dev) : Dev :=
  forEach r.ctr (fun c d => if wordField v c.1 c.2 = 0 then regSetField a c.1 c.2 0 d else d) d

/-- Set the RW fields; the other bits of the word stay. -/
def writeRw (a : Nat) (r : RegDef) (v : Word) (d : Dev) : Dev := regPut a ((regGet a d &&& ~~~r.rw) ||| (v &&& r.rw)) d

def writeSel (s : Session) (a : Nat) (r : RegDef) (v : Word) (d : Dev) : Dev :=
  modSession s.num (fun x => { x with sel := mputD x.sel a (v &&& r.rw) 0#32 }) d

/-- Replace the 4 bytes of word `k`. -/
def setWord (l : List Byte) (k : Nat) (v : Word) : List Byte := l.take (4 * k) ++ leBytes 4 v.toNat ++ l.drop (4 * k + 4)

/-- TRACKER_CLEAR: the trackers of all 520 columns of a tile (02 R107); the distribution of R294 stays. -/
def trackerClear (f c t : Nat) (d : Dev) : Dev :=
  modTile f c t (fun x => { x with cols := x.cols.map fun e => (e.1, { e.2 with min := emptyStat.min, max := emptyStat.max }) }) d

/-- HS_STRUMCTL: refused in the cases of 14 R551, else the request. -/
def writeStrum (s : Session) (v : Word) (d : Dev) : Nat × Dev :=
  let t : DWord := BitVec.ofNat 64 (selOf (some s) HS_STRUMTLO + selOf (some s) HS_STRUMTHI * 2 ^ 32)
  let code := strumRefusal t d
  if code ≠ 0 then (code, d)
  else (0, strumRequest (wordField v 30 2) (wordField v 10 16) (wordField v 0 10) t (regPut HS_STRUMCTL (v &&& 0xC3FFFFFF#32) d))

/-- REINSTATE (16 R623). -/
def reinstate (d : Dev) : Dev :=
  if !d.rst.withdrawn then d
  else rstEvent 255 0x00A4 0 0 0 0xFF 0xFF 0xFF 0x3FFFF 0 true
    { d with rst := { d.rst with withdrawn := false, history := [], reinstates := min 255 (d.rst.reinstates + 1) } }

/-- HS_PWRCTL (17 R657). -/
def writePwr (v : Word) (d : Dev) : Dev :=
  let d := regSetField HS_PWRCTL 28 1 (wordField v 28 1) d
  match wordField v 29 3 with
  | 1 => powerReq 0 d
  | 3 => powerReq 2 d
  | 4 => powerReq 3 d
  | _ => d

/-- PT_TUNECTL (11 R435, R464; 16 R622). -/
def writeTune (p : Nat) (v : Word) (d : Dev) : Nat × Dev :=
  let load := v.getLsbD 31
  let abort := v.getLsbD 30
  if load && d.rst.withdrawn then (stWITHDRAWN, d)
  else if load && tuneBusy p d then (stLOAD_BUSY, d)
  else if load && abort then (0, d)
  else if load then (0, tuneLoad p d)
  else if abort then (0, tuneAbort p d)
  else (0, d)

def writeHs (s : Session) (o : Nat) (r : RegDef) (v : Word) (d : Dev) : Nat × Dev :=
  if o = HS_STRUMCTL then writeStrum s v d
  else
    (0,
      if o = HS_ETHCFG then
        let d := writeRw o (regRW (if v.toNat < 2 ^ 31 then 0xFFFFFFFF#32 else 0x00FFFFFF#32)) v d
        flushAll d
      else if o = HS_MAPCTL then
        let p := bits (selOf (some s) HS_MAPSEL) 0 5
        when_ (v.getLsbD 30) (mapDiscard p) (when_ (v.getLsbD 31) (mapCommit p) d)
      else if inWords o 0x4400 0x47FC then
        let sel := selOf (some s) HS_MAPSEL
        let p := bits sel 0 5
        let k := bits sel 8 2
        if k = 3 then d else putMapStg p k (setWord (mapStg p k d) ((o - 0x4400) / 4) v) d
      else if o = HS_CNSCTL then when_ (v.getLsbD 30) consortLeave (when_ (v.getLsbD 31) consortJoin d)
      else if inWords o 0x5400 0x57FC then
        if bit (selOf (some s) HS_CNSSEL) 0 then modCns (fun c => { c with stg := setWord c.stg ((o - 0x5400) / 4) v }) d else d
      else if o = HS_RSTCTL then when_ (v.getLsbD 0) reinstate (regSetField HS_RSTCTL 24 5 (wordField v 24 5) d)
      else if o = HS_PWRCTL then writePwr v d
      else if o = HS_THERMCFG then if 20 ≤ wordField v 0 8 ∧ wordField v 0 8 ≤ 100 then writeRw o r v d else d
      else if o = HS_SNFILT then
        writeRw o (regRW (if wordField v 4 2 = 3 then 0x3#32 else 0x33#32)) v d
      else if o = HS_PLIMIT then regPut o (w32 (max 1000 (min 3200 (wordField v 0 12)))) d
      else clearCtrs o r v (accountThrottle d))

def writePeg (s : Session) (o : Nat) (r : RegDef) (v : Word) (d : Dev) : Dev :=
  if o = 0x14 then when_ (v.getLsbD 31) updAbort d
  else if o = 0x24 then settleUpdate (keyCtl s (wordField v 30 2) d)
  else if inWords o 0x100 0x18C then
    modSession s.num (fun x => { x with keybuf := setWord (padTo 144 x.keybuf) ((o - 0x100) / 4) v }) d
  else clearCtrs (0x400000 + o) r v d

def writeFt (n o : Nat) (r : RegDef) (v : Word) (d : Dev) : Dev :=
  if o = 0x8000 then writeRw (addrFt n o) r v d
  else if o = 0x8010 then
    tileCommand n (wordField v 30 2) (wordField v 6 4) (wordField v 0 6) (regPut (addrFt n o) (v &&& 0x3FF#32) d)
  else if o = 0x8014 then
    if v.getLsbD 31 then
      let c := mgetD d.fret.cmds n freshCmd
      { d with fret := { d.fret with cmds := mputD d.fret.cmds n { c with done := false } freshCmd } }
    else d
  else clearCtrs (addrFt n o) r v d

/-- One register access of a MGMT_WRITE: 0 and the new state, or the code of a refusal that depends on the value. -/
def writeReg (s : Session) (a : Nat) (v : Word) (d : Dev) : Nat × Dev :=
  let s := (sessionOf s.num d).getD s
  match locOf a with
  | none => (0, d)
  | some l => match regDefOf l with
    | none => (0, d)
    | some r =>
      match l with
      | .hs o => if perSession l then (0, writeSel s a r v d) else writeHs s o r v d
      | .part p o => if o = 0 then writeTune p v d else (0, clearCtrs a r v d)
      | .peg o => if perSession l && !inWords o 0x100 0x18C then (0, writeSel s a r v d) else (0, writePeg s o r v d)
      | .br _ o => if o = 0x700 then (0, writeSel s a r v d) else (0, if o = 0x71C then writeRw a (regRW 0x1FFF#32) v d else clearCtrs a r v d)
      | .ft n o => (0, writeFt n o r v d)
      | .cs _ _ o => if o = 0x180 then (0, writeSel s a r v d) else (0, clearCtrs a r v d)
      | .tile f c t o =>
        if o = 0x100 then (0, when_ (v.getLsbD 31) (trackerClear f c t) (writeSel s a r v d)) else (0, clearCtrs a r v d)

/-- The writes of a message in ascending address; the first refusal by value ends them. -/
def writeRegs (s : Session) : List (Nat × Word) → Dev → Option (Nat × Nat) × Dev
  | [], d => (none, d)
  | (a, v) :: r, d =>
    let x := writeReg s a v d
    if x.1 ≠ 0 then (some (a, x.1), x.2) else writeRegs s r x.2

/-- The request of a write of HS_RSTCTL, made once the answer is on its way (16 R629). -/
def softwareReset (v : Word) (d : Dev) : Dev :=
  let die := wordField v 24 5
  match wordField v 29 3 with
  | 3 =>
    if die % 16 < 12 then subRequest { scope := .die, part := 0, stage := 0, die := die % 16, source := srcSOFTWARE, t0 := 0 } d else d
  | 4 => deviceRequest .warm srcSOFTWARE d
  | 5 => deviceRequest .cold srcSOFTWARE d
  | _ => d

/-! ### MGMT_READ and MGMT_WRITE in a session (R508, R509) -/

def addrsOf (l : List Byte) : List Nat := (List.range (u16 l 4)).map fun k => u32 l 0 + 4 * k

/-- The payload of a read, and of a write (R508). -/
def readBad (l : List Byte) : Bool := l.length != 8 || !allZero (bytesAt l 6 2)
def writeBad (l : List Byte) : Bool := l.length < 8 || l.length != 8 + 4 * u16 l 4 || !allZero (bytesAt l 6 2)
def countBad (l : List Byte) : Bool := u16 l 4 == 0 || decide (256 < u16 l 4)

/-- An earlier access of the session still waits: what follows it waits as well (R18). -/
def behindOwn (s : Session) (d : Dev) : Bool :=
  d.strand.held.any fun h => h.aid == s.aid && h.msg.hdr.session == s.num && (h.msg.hdr.ttype == 0x30#8 || h.msg.hdr.ttype == 0x31#8)

/-- An access of a session waits for the dies, which it wakes (17 R638), or behind an earlier one. -/
def accessWaits (s : Session) (items : List (Nat × Option Word)) (d : Dev) : Bool := (needsDie items && diesAway d) || behindOwn s d

def holdAccess (aid : Nat) (m : Dgram) (items : List (Nat × Option Word)) (d : Dev) : Dev :=
  let d := holdMsg aid m 0 d
  if needsDie items && diesAway d then startWake 4 d else d

def doMgmtRead (aid : Nat) (m : Dgram) (s : Session) (d : Dev) : Dev :=
  let l := m.payload
  if readBad l then mgmtNack aid m (some s) stBAD_MESSAGE 0 d
  else if countBad l then mgmtNack aid m (some s) stBAD_PARAM 0 d
  else
    let as_ := addrsOf l
    let items := as_.map fun a => (a, (none : Option Word))
    match firstRefused s items d with
    | some e => refuseAddr aid m s e d
    | none =>
      if accessWaits s items d then holdAccess aid m items d
      else
        let x := readRegs s as_ (accountThrottle d)
        mgmtReply aid m (some s) (l.take 8 ++ x.1.flatMap fun w => leBytes 4 w.toNat) x.2

/-- The addresses and values of a write. -/
def writesOf (l : List Byte) : List (Nat × Word) := (addrsOf l).zipIdx.map fun e => (e.1, w32 (u32 l (8 + 4 * e.2)))

def doMgmtWrite (aid : Nat) (m : Dgram) (s : Session) (d : Dev) : Dev :=
  let l := m.payload
  if writeBad l then mgmtNack aid m (some s) stBAD_MESSAGE 0 d
  else if countBad l then mgmtNack aid m (some s) stBAD_PARAM 0 d
  else
    let ws := writesOf l
    let items := ws.map fun e => (e.1, some e.2)
    match firstRefused s items d with
    | some e => refuseAddr aid m s e d
    | none =>
      if accessWaits s items d then holdAccess aid m items d
      else
        let x := writeRegs s ws d
        match x.1 with
        | some e => mgmtNack aid m (some s) e.2 e.1 x.2
        | none =>
          let d := mgmtReply aid m (some s) (l.take 8) x.2
          match ws.find? fun e => e.1 == HS_RSTCTL with
          | some e => softwareReset e.2 d
          | none => d

/-! ### MGMT_RESET (R508, R510) -/

def resetBad (l : List Byte) : Bool := l.length != 4 || u8 l 3 != 0

/-- The reset that a request asks for: none when a field lies outside its range. Of the fields only those that the scope uses
are ranged. -/
def doMgmtReset (aid : Nat) (m : Dgram) (s : Session) (d : Dev) : Dev :=
  let l := m.payload
  let scope := u8 l 0
  let die := u8 l 1
  let stage := u8 l 2
  let sub := fun (q : SubReset) (d : Dev) => subRequest q (mgmtReply aid m (some s) [] d)
  let nack := fun (c : Nat) => mgmtNack aid m (some s) c 0 d
  let p := s.part
  if resetBad l then nack stBAD_MESSAGE
  else if scope = 0 || 5 < scope then nack stBAD_PARAM
  else if 3 ≤ scope && !s.keeper then nack stNOT_KEEPER
  else if scope = 1 then
    if s.keeper || (stageRec (imgOf p d) stage).isNone then nack stBAD_PARAM
    else sub { scope := .stage, part := p, stage := stage, die := 0, source := srcMGMT, t0 := 0 } d
  else if scope = 2 then
    if s.keeper then nack stBAD_PARAM
    else sub { scope := .partition, part := p, stage := 0, die := 0, source := srcMGMT, t0 := 0 } d
  else if scope = 3 then
    if !(die < 12 || (16 ≤ die && die < 28)) then nack stBAD_PARAM
    else sub { scope := .die, part := 0, stage := 0, die := die % 16, source := srcMGMT, t0 := 0 } d
  else if d.peg.update.state = 3 then nack stMGMT_BUSY
  else deviceRequest (if scope = 4 then .warm else .cold) srcMGMT (mgmtReply aid m (some s) [] d)

end Sys2Proof.Machine
end

