-- ==== Sys2Proof/Machine/Dump.lean ====
section
/-! DEFINITION. The crash dump (16 R625, R626) and the end of device-scope and lesser resets (16 R612, R613, R617-R622). -/

namespace Sys2Proof.Machine

/-! ### The dump's sections (R626) -/

/-- The words of a register block, as addresses. -/
def wordsOf (base n : Nat) : List Nat := (List.range n).map fun k => base + 4 * k

/-- Every status register and every RWS counter, in ascending address. -/
def dumpAddrs : List Nat :=
  let all := wordsOf 0 0x4800 ++ wordsOf 0x400000 0x100 ++ ((List.range 12).flatMap fun n => wordsOf (addrBr n 0) 0x250)
    ++ (List.range 12).flatMap fun n => wordsOf (addrFt n 0) 0x4000 ++ (List.range 15).flatMap fun c => wordsOf (addrCs n (c + 1) 0) 0x2000
  all.filter fun a => match (locOf a).bind regDefOf with
    | some r => r.allRO || !r.ctr.isEmpty
    | none => false

def secRegisters (d : Dev) : List Byte := dumpAddrs.flatMap fun a => leBytes 4 a ++ leBytes 4 (viewAt none a d).toNat

def faultCtx (p : Nat) (d : Dev) : List Byte :=
  [PT_FAULTCTX0 p, PT_FAULTCTX1 p, PT_FAULTCTX2 p, PT_FAULTCTX3 p].flatMap fun a => leBytes 4 (regGet a d).toNat

def isFaultRec (r : RingRec) : Bool := u16 r.payload 0 == 0x00A1 || u16 r.payload 0 == 0x00A2

/-- The source mask, the reset history as its count and its oscillator seconds newest first, the fault contexts, the records. -/
def secContext (d : Dev) : List Byte :=
  leBytes 4 d.rst.mask ++ leBytes 4 d.rst.history.length ++ (d.rst.history.flatMap fun t => leBytes 4 t)
    ++ ((List.range 32).flatMap fun p => faultCtx p d) ++ (d.peg.ring.filter isFaultRec).flatMap ringBytes

def secRing (d : Dev) : List Byte := d.peg.ring.flatMap ringBytes
def secPegbox (d : Dev) : List Byte := Config.pegSram d.free
def secStreams (d : Dev) : List Byte := (List.range 262144).flatMap fun i => tableEntry i d

def secCourses (d : Dev) : List Byte :=
  (List.range 192).flatMap fun k =>
    let f := k / 16
    let c := k % 16
    ([addrCs f c 0x250] ++ wordsOf (addrCs f c 0x2C0) 8 ++ (List.range 33).map fun t => addrTile f c t 0).flatMap fun a =>
      leBytes 4 (viewAt none a d).toNat

def secLinks (d : Dev) : List Byte :=
  (List.range 12).flatMap fun n => [BR_NECKSTAT n, BR_NECKRETRY n, BR_FBRETRY n].flatMap fun a => leBytes 4 (viewAt none a d).toNat

def dumpSections (d : Dev) : List (Nat × List Byte) :=
  [(0x0001, secContext d), (0x0002, secRing d), (0x0003, secRegisters d), (0x0004, secPegbox d), (0x0005, secStreams d),
   (0x0100, secCourses d), (0x0101, secLinks d)]

/-- The directory: TYPE, FLAGS 0, OFFSET, LENGTH and CRC-32 of each section, the sections following one another from `off`. -/
def dumpDir : List (Nat × List Byte) → Nat → List Byte
  | [], _ => []
  | (t, b) :: r, off =>
    leBytes 2 t ++ leBytes 2 0 ++ leBytes 4 off ++ leBytes 4 b.length ++ leBytes 4 (crc32 b).toNat ++ dumpDir r (off + b.length)

/-- The 64-byte header with a value in its CRC field. -/
def dumpHeader (nsect len : Nat) (crc : Word) (d : Dev) : List Byte :=
  leBytes 4 0x474C4344 ++ leBytes 2 0x0003 ++ leBytes 2 0x2524 ++ leBytes 8 (serialNo d).toNat ++ leBytes 8 d.rst.time0.toNat
    ++ leBytes 4 d.peg.bootCount.toNat ++ leBytes 1 d.rst.cause ++ leBytes 1 (scopeCode d.rst.scope) ++ leBytes 2 nsect ++ leBytes 4 len
    ++ leBytes 4 crc.toNat ++ leBytes 4 d.rst.prevSvn ++ leBytes 20 0

def dumpBytes (d : Dev) : List Byte :=
  let ss := dumpSections d
  let n := ss.length
  let dir := dumpDir ss (64 + 16 * n)
  let body := dir ++ ss.flatMap fun x => x.2
  let len := 64 + body.length
  dumpHeader n len (crc32 (dumpHeader n len 0#32 d ++ body)) d ++ body

/-- The crash summary: header, directory and the first 4,032 bytes of CONTEXT. -/
def dumpSummary (b : List Byte) : List Byte :=
  let n := u16 b 0x1E
  b.take (64 + 16 * n) ++ bytesAt b (u32 b (64 + 4)) (min 4032 (u32 b (64 + 8)))

/-- Step 7 of R613: the dump goes to the slot that does not hold the newest valid one, and the summary describes it. -/
def buildDump (d : Dev) : Dev :=
  if !dumpDue d.rst then d
  else
    let x : Dump := { ok := true, bytes := dumpBytes d }
    let one := dumpTarget d.rst
    let d := { d with free := d.free + 1, flash := { d.flash with summary := some (dumpSummary x.bytes) } }
    { d with rst := { d.rst with dump0 := if one then d.rst.dump0 else x, dump1 := if one then x else d.rst.dump1, newest := one } }

/-! ### The end of a device scope (R613 steps 7 to 9) -/

/-- Warm: what R restores is in force again, and streams with vectors in flight at the assertion are rolled back (R608, R620). -/
def restoreWarm (d : Dev) : Dev :=
  let d := forEach (List.range 12) rebuildDie d
  settleRefs (forEach ((d.streams.filter fun e => streamLive e.2 && !e.2.steps.isEmpty).map (·.1)) rollback d)

/-- WITHDRAWN is entered at step 9 of the reset that meets the condition of R621. -/
def enterWithdrawn (d : Dev) : Dev :=
  if !d.rst.willWithdraw then d
  else
    rstEvent 255 0x00A3 0 0 0 0xFF 0xFF 0xFF 0x3FFFF (inWindow d) true
      { d with rst := { d.rst with withdrawn := true, willWithdraw := false, entries := min 255 (d.rst.entries + 1) } }

/-- DEVICE_RESET_DONE: bring-up reaches step 9. An overrun cold reset's alert ends with a completed one (R614). -/
def deviceResetDone (d : Dev) : Dev :=
  if !powered d || d.rst.phase != .calibrated then d
  else
    let d := buildDump d
    let d := if isWarm d.rst.scope then restoreWarm d else d
    let d := { d with rst := { d.rst with phase := .idle } }
    let d := if isWarm d.rst.scope then d else { d with pwr := { d.pwr with alert := d.pwr.alert.filter fun x => x != 4 } }
    let d := rstEvent 255 0x00A0 (scopeCode d.rst.scope) d.rst.cause 0 0xFF 0xFF 0xFF 0x3FFFF ((d.osc - d.rst.t0) / 100) true d
    enterWithdrawn d

/-! ### The ends of lesser resets (R611, R612), but for the messages that waited -/

/-- A die reset's links are trained again (step 4) and its course registers rewritten (step 7). -/
def finishDie (n : Nat) (d : Dev) : Dev := rebuildDie n (forEach (pairLinks n) linkUp d)

/-- The reset in progress that an event of the given scope ends. -/
def subNamed (sc : Scope) (p stage die : Nat) (d : Dev) : Option SubReset :=
  d.rst.subs.find? fun x => x.scope == sc && (if sc == .die then x.die == die else x.part == p && (sc == .partition || x.stage == stage))

end Sys2Proof.Machine
end

