-- ==== Sys2Proof/Machine/Attest.lean ====
section
/-! DEFINITION. Identity and sessions (12 R504-R507; 15 R572, R579, R583, R585, R586): reports, certificates, the claim, the opening
and closing of management sessions, and update chunks. -/

namespace Sys2Proof.Machine

/-! ### Reports and certificates (15 R585, R586) -/

/-- SHA-512 of the 96 current map records, keys taken as zero. -/
def mapMeasure (d : Dev) : List Byte :=
  sha512 ((List.range 32).flatMap fun p => [0, 1, 2].flatMap fun k => hideKeys k (mapCur p k d))

def partEntry (p : Nat) (d : Dev) : List Byte :=
  leBytes 1 (wordField (viewTuneStat p d) 28 3) ++ leBytes 1 (b2n (enabled p d)) ++ leBytes 6 0 ++ leBytes 8 (tuneSerial p d).toNat
    ++ tuneMeas p d

/-- Bytes 0x000 to 0xBCF of the report. -/
def reportBody (nonce : List Byte) (d : Dev) : List Byte :=
  leBytes 4 0x47410001 ++ leBytes 2 1
    ++ leBytes 1 (b2n (claimed d) + 2 * b2n d.rst.withdrawn + 4 * b2n d.peg.patOk + 8 * d.peg.mode.toNat) ++ [0#8]
    ++ leBytes 8 (serialNo d).toNat ++ leBytes 1 (if d.fuses.order = 2 then 2 else 1) ++ leBytes 3 0
    ++ leBytes 4 (if inRom d then 0xFFFFFFFF else d.peg.fwSvn) ++ timeBytes d ++ padTo 32 (nonce.take 32)
    ++ leBytes 4 Config.romVersion.toNat ++ leBytes 4 d.fuses.svn ++ (if inRom d then leBytes 64 0 else padTo 64 d.peg.fwMeas)
    ++ mapMeasure d ++ keyMeasure d.peg.keys ++ ((List.range 25).flatMap fun k => leBytes 8 (dieWord k d).toNat)
    ++ (List.range 32).flatMap fun p => partEntry p d

/-- A signature of the device identity key over a message: 132 bytes. -/
def signed (l : List Byte) : List Byte := padTo 132 ((Config.deviceSign (sha512 l)).take 132)

/-- ATTEST OP 0x0. -/
def doReport (aid : Nat) (m : Dgram) (d : Dev) : Dev :=
  let l := m.payload
  if l.length ≠ 36 || !allZero (bytesAt l 1 3) then mgmtNack aid m none stBAD_MESSAGE 0 d
  else
    let b := reportBody (bytesAt l 4 32) d
    mgmtReply aid m none (b ++ signed b) (bump PG_ATTEST d)

/-- ATTEST OP 0x4. -/
def doCerts (aid : Nat) (m : Dgram) (d : Dev) : Dev :=
  if m.payload.length ≠ 4 || !allZero (bytesAt m.payload 1 3) then mgmtNack aid m none stBAD_MESSAGE 0 d
  else mgmtReply aid m none (d.flash.devCert ++ d.flash.provCert) d

/-! ### Sessions (12 R504-R507) -/

/-- The key that a SESSION_OPEN names, if it may open a session of that role on that address; a part without a Keeper key opens
none (15 R571). -/
def openKey (role dest : Nat) (id : Word) (d : Dev) : Option KeyEntry :=
  if !claimed d then none
  else if role = 0 then validKey id 1#8 d
  else match validKey id 2#8 d with
    | some k => if k.part.toNat = dest then some k else none
    | none => none

/-- A session number that is not 0 and not in use: the free value drawn, or the lowest such number where that is not one. -/
def sessionNum (w : Word) (d : Dev) : Word :=
  if w != 0#32 && (sessionOf w d).isNone then w
  else match (List.range 9).find? fun k => (sessionOf (w32 (k + 1)) d).isNone with
    | some k => w32 (k + 1)
    | none => 1#32

/-- KHD and KDH of R505. -/
def sessionKeys (nonceH nonceD z : List Byte) (num : Word) : List Byte × List Byte :=
  let strand := [0x53#8, 0x54#8, 0x52#8, 0x41#8, 0x4E#8, 0x44#8]
  let k := hmac512 (nonceH ++ nonceD) (z ++ leBytes 4 num.toNat ++ strand)
  (hmac512 k [1#8], hmac512 k [2#8])

/-- ATTEST OP 0x1 SESSION_OPEN, signed by IDENT's key. The part's ephemeral key is a number drawn, and where EPH_H is no point of the
curve the shared secret is a free value (the spec states none; log 155). -/
def doSessionOpen (aid : Nat) (m : Dgram) (d : Dev) : Dev :=
  let l := m.payload
  let role := u8 l 1
  let id := w32 (u32 l 4)
  if hasFlag m.hdr fAUTH || l.length ≠ 308 || !allZero (bytesAt l 2 2) || !allZero (bytesAt l 0xAD 3) then
    mgmtNack aid m none stBAD_MESSAGE 0 d
  else if 1 < role || (role = 0 && m.dest < 32) || (role = 1 && 32 ≤ m.dest) then mgmtNack aid m none stBAD_PARAM 0 d
  else if !((openKey role m.dest id d).any fun k => ecdsaOk k.pub (signedBytes m.hdr l 0xB0) (l.drop 0xB0)) then
    mgmtNack aid m none stAUTH_FAIL 0 d
  else if 8 ≤ d.strand.sessions.length then mgmtNack aid m none stMGMT_BUSY 0 d
  else
    let n := d.free
    let num := sessionNum (Config.freeWord n) d
    let nonceH := bytesAt l 8 32
    let ephH := bytesAt l 0x28 133
    let nonceD := padTo 32 ((Config.freeBytes (n + 1) 32).take 32)
    let priv := bigNat (Config.freeBytes (n + 2) 66)
    let ephD := ecPublic priv
    let keys := sessionKeys nonceH nonceD (if onP521 ephH then ecShared priv ephH else Config.sharedSecret ephH (n + 2)) num
    let s : Session := { num := num, aid := aid, keeper := role == 0, part := if role = 0 then 255 else m.dest, ident := id,
                         khd := keys.1, kdh := keys.2, last := d.time, sel := [], cap := [], keybuf := [] }
    let d := { d with free := n + 3, strand := { d.strand with sessions := d.strand.sessions ++ [s] } }
    let sig := signed (ephH ++ nonceH ++ leBytes 4 num.toNat ++ nonceD ++ ephD)
    mgmtReply aid m none (leBytes 4 num.toNat ++ leBytes 4 0 ++ nonceD ++ ephD ++ [0#8, 0#8, 0#8] ++ sig) d

/-- Sessions close, and an update that one of them owned ends (R507, 15 R581). -/
def closeAll (f : Session → Bool) (d : Dev) : Dev := settleUpdate (closeSessions f d)

/-- ATTEST OP 0x2 SESSION_CLOSE. -/
def doSessionClose (aid : Nat) (m : Dgram) (s : Session) (d : Dev) : Dev :=
  if m.payload.length ≠ 4 || !allZero (bytesAt m.payload 1 3) then mgmtNack aid m (some s) stBAD_MESSAGE 0 d
  else closeAll (fun t => t.num == s.num) (mgmtReply aid m (some s) [] d)

/-- SESSION_IDLE_TIMEOUT. -/
def sessionIdleTimeout (num : Word) (d : Dev) : Dev :=
  match sessionOf num d with
  | none => d
  | some s => if since s.last d < sec 600 then d else closeAll (fun t => t.num == num) d

/-! ### The claim (15 R572) -/

/-- HBM outside the reserved region, the top 1,536 MiB of Bridge 0 (16 R624), is zeros. -/
def zeroHbm (d : Dev) : Dev :=
  let lo := hbmKey 0 (hbmSize d - 1536 * 2 ^ 20)
  let hi := hbmKey 0 (hbmSize d - 1)
  { d with mem := d.mem.filter (fun e => decide (lo ≤ e.1) && decide (e.1 ≤ hi)),
           poison := d.poison.filter fun e => decide (lo ≤ 8 * e.1) && decide (8 * e.1 ≤ hi) }

/-- What an accepted claim does, in its order. -/
def claimAccept (aid : Nat) (m : Dgram) (k : KeyEntry) (d : Dev) : Dev :=
  let d := closeAll (fun _ => true) d
  let d := { d with map := { d.map with cur := [], stg := [], waiting := [], handovers := [] } }
  let d := { d with tunes := d.tunes.foldl (fun t e => mputD t e.1 { emptyTune with staging := e.2.staging } emptyTune) [] }
  let d := zeroHbm d
  let keys := [(0, k)]
  let cp := twoCopyPut d.flash.keysA d.flash.keysB keys
  let d := { d with flash := { d.flash with keysA := cp.1, keysB := cp.2 }, peg := { d.peg with keys := keys } }
  mgmtReply aid m none [] (fwEvent 0x00C3 0#8 k.keyid.toNat (keyMeasure keys) d)

/-- ATTEST OP 0x3 CLAIM, signed by the enclosed key. -/
def doClaim (aid : Nat) (m : Dgram) (d : Dev) : Dev :=
  let l := m.payload
  let k : KeyEntry := { keyid := w32 (u32 l 4), usage := 1#8, part := 0xFF#8, state := 1#8, pub := bytesAt l 8 133 }
  if hasFlag m.hdr fAUTH || l.length ≠ 276 || !allZero (bytesAt l 1 3) || !allZero (bytesAt l 0x8D 3) then
    mgmtNack aid m none stBAD_MESSAGE 0 d
  else if d.peg.mode ≠ 2#2 || d.peg.claimTried then mgmtNack aid m none stNOT_KEEPER 0 d
  else if k.keyid = 0#32 || k.keyid = 0xFFFFFFFF#32 then mgmtNack aid m none stBAD_PARAM 0 d
  else
    let d := { d with peg := { d.peg with claimTried := true } }
    if !ecdsaOk k.pub (signedBytes m.hdr l 0x90) (l.drop 0x90) then mgmtNack aid m none stAUTH_FAIL 0 d else claimAccept aid m k d

/-! ### UPDATE_CHUNK (15 R579, R583) -/

/-- A chunk of session `sess` (0 in network boot), answered with `s`'s tag. -/
def doChunk (aid : Nat) (m : Dgram) (s : Option Session) (d : Dev) : Dev :=
  let sess := match s with | some x => x.num | none => 0#32
  match chunkRefusal sess m.payload d with
  | some c => mgmtNack aid m s c 0 d
  | none => chunkStage sess m.payload (mgmtReply aid m s [] d)

def doUpdateChunk (aid : Nat) (m : Dgram) (s : Session) (d : Dev) : Dev :=
  if !s.keeper then mgmtNack aid m (some s) stNOT_KEEPER 0 d else doChunk aid m (some s) d

end Sys2Proof.Machine
end

