-- ==== Sys2Proof/Machine/StrandRecv.lean ====
section
/-! DEFINITION. Receiving Strand (12 R479-R490, R506; 13 R526, R539; 14 R555; 16 R615, R622; 17 R638, R639): header checks, the
firewall, associations, sequence and credit, and what each message is given to. -/

namespace Sys2Proof.Machine

/-! ### The header (R479, R481) -/

/-- Payload and tag as LENGTH and AUTH divide the bytes after the header. -/
def splitDgram (m : Dgram) : Dgram :=
  let b := m.payload ++ m.tag
  let n := m.hdr.length.toNat
  { m with payload := b.take n, tag := b.drop n }

/-- A datagram that is dropped and counted in HS_STRBADHDR, whatever the state. -/
def badHeader (m : Dgram) : Bool :=
  let n := m.hdr.length.toNat
  m.hdr.version != 0x01#8 || n % 4 != 0 || decide (8128 < n) || m.payload.length + m.tag.length != n + (if hasFlag m.hdr fAUTH then 32 else 0)
    || m.hdr.rsv0 != 0#16 || m.hdr.rsv1 != 0#32 || m.hdr.part != partByte (destOf m)

def headerOnly (m : Dgram) : Bool := m.hdr.ttype == 0x00#8 && m.hdr.length == 0#16

/-- OPEN and CLOSE both set: taken into no sequence, and not answered. -/
def opensAndCloses (m : Dgram) : Bool := headerOnly m && hasFlag m.hdr fOPEN && hasFlag m.hdr fCLOSE

/-- The wake frame of 17 R639: no other flag. -/
def isWakeFrame (m : Dgram) : Bool := headerOnly m && m.hdr.flags == 0x06#8

/-! ### The end of an association (R487, R488, R507, 13 R529) -/

/-- An association is lost, or has closed: its sessions close and its waits are discarded. -/
def endAssoc (aid : Nat) (d : Dev) : Dev :=
  let d := modAssoc aid (fun a => { a with lost := true, closing := false, accepted := none, openDue := false }) d
  dropWaits (fun w => w.aid == aid) (closeAll (fun s => s.aid == aid) d)

/-- A CLOSE takes effect once every message of both directions is acknowledged. -/
def tryClose (aid : Nat) (d : Dev) : Dev :=
  match assocAt aid d with
  | none => d
  | some a =>
    if a.closing && a.unacked.isEmpty && a.queued.isEmpty && !(d.strand.held.any fun h => h.aid == aid) then
      endAssoc aid (if a.accepted.isSome then sendHeaderOnly aid 0#8 d else d)
    else d

/-! ### Acknowledgements of the part's messages (R486, R490, R497, R498) -/

/-- What the acknowledgement of one message does: records are confirmed, a final status lets its entry be freed. -/
def confirmSent (x : Sent) (d : Dev) : Dev :=
  let i := bits x.hdr.stream.toNat 0 18
  match streamAt i d with
  | none => d
  | some s =>
    if s.handle != x.hdr.stream || hasFlag x.hdr fREPLY then d
    else if x.hdr.ttype = 0x10#8 then
      let d := modStream i (fun s => { s with recs := s.recs - u16 x.payload 0 }) d
      match streamAt i d with
      | some s => refreshTok i s d
      | none => d
    else if x.hdr.ttype = 0x11#8 && (u8 x.payload 4 = 6 || u8 x.payload 4 = 7) then
      tryFree i (modStream i (fun s => { s with finalAcked := true }) d)
    else d

/-- ACK and CREDIT of a header from the host. -/
def takePeer (aid : Nat) (h : Hdr) (d : Dev) : Dev :=
  match assocAt aid d with
  | none => d
  | some a =>
    let acked := a.unacked.filter fun x => seqGe h.ack x.hdr.seq
    let a := { a with unacked := a.unacked.filter (fun x => !seqGe h.ack x.hdr.seq), rto := if acked.isEmpty then a.rto else us 50,
                      hostLimit := if seqGe h.credit a.hostLimit then h.credit else a.hostLimit }
    let d := flushAssoc aid (forEach acked confirmSent (putAssoc aid a d))
    tryClose aid d

/-! ### Opening (R482, R488, R489) -/

def openOn (dest : Nat) (d : Dev) : Nat := (d.strand.assocs.filter fun e => e.2.dest == dest && !e.2.lost).length

/-- The share of an association of an address with `n` of them. -/
def shareOf (dest n : Nat) (d : Dev) : Nat := poolUnits dest d / max 1 n

/-- Messages that a new association takes over from the old one: all but notifications of waits, which are discarded. -/
def takenOver (a : Assoc) : List Sent :=
  (a.unacked ++ a.queued).filter fun x => !(x.hdr.ttype == 0x29#8 && !hasFlag x.hdr fREPLY)

/-- A header-only OPEN. A replaced association keeps its number, so that all that names it names the new one. -/
def doOpen (m : Dgram) (d : Dev) : Dev :=
  let dest := destOf m
  let old := findAssoc m.src m.sport dest d
  let live := fun (e : Nat × Assoc) => !e.2.lost && !(old.any fun o => o.1 == e.1)
  let n := (d.strand.assocs.filter fun e => e.2.dest == dest && live e).length
  let all := (d.strand.assocs.filter live).length
  let share := shareOf dest (n + 1) d
  if 64 ≤ n || 1024 ≤ all || share < 4 || m.hdr.credit.toNat < 64 then sendReject m d
  else
    let aid := match old with | some o => o.1 | none => d.strand.nextAid
    let taken := match old with | some o => takenOver o.2 | none => []
    let d := match old with | some o => endAssoc o.1 d | none => d
    let a : Assoc := { host := m.src, port := m.sport, dest := dest, lastSeq := m.hdr.seq, mySeq := Config.freeWord d.free, limit := w32 share,
                       used := 0#32, busy := 0, hostLimit := m.hdr.credit, myUsed := 0#32, unacked := [], queued := taken, rto := us 50,
                       rtoFrom := 0#64, accepted := none, subscribe := hasFlag m.hdr fSUBSCRIBE, ece := m.ce && ecnEn d, openDue := false,
                       lost := false, closing := false }
    let d := { d with
      free := d.free + 1,
      strand := { d.strand with
        assocs := mput d.strand.assocs aid a, nextAid := if old.isSome then d.strand.nextAid else d.strand.nextAid + 1,
        held := d.strand.held.map fun h => if h.aid = aid then { h with units := 0 } else h } }
    flushAssoc aid (sendHeaderOnly aid fOPEN d)

/-- Units of a processed message return, up to the association's share (R489, R490). -/
def returnUnits (aid n : Nat) (d : Dev) : Dev :=
  match assocAt aid d with
  | none => d
  | some a =>
    let busy := a.busy - n
    let room := shareOf a.dest (openOn a.dest d) d - ((a.limit - a.used).toNat + busy)
    putAssoc aid { a with busy := busy, limit := a.limit + w32 (min n room) } d

/-! ### Work (R480, R622; 14 R555) -/

/-- A message that bears STATUS BAD_MESSAGE, whatever its type. -/
def answerBad (aid : Nat) (m : Dgram) (d : Dev) : Dev :=
  let t := m.hdr.ttype.toNat
  if isMgmt t || t = 0x32 || t = 0x3F then mgmtNack aid m none stBAD_MESSAGE 0 d else sendReply aid m stBAD_MESSAGE 0 0 [] d

/-- The work request of a partition, given to its meaning. -/
def doWork (p aid : Nat) (m : Dgram) (d : Dev) : Dev :=
  match m.hdr.ttype.toNat with
  | 0x01 => doAdmit p aid m d
  | 0x02 => doAppend p aid m d
  | 0x03 => doPause p aid m d
  | 0x04 => doResume p aid m d
  | 0x05 => doCancel p aid m d
  | 0x06 => doPark p aid m d
  | 0x07 => doUnpark p aid m d
  | 0x08 => doPrefixRegister p aid m d
  | 0x09 => doPrefixDrop p aid m d
  | 0x20 => doLoadBegin p aid m d
  | 0x21 => doLoadCommit p aid m d
  | 0x22 => doLoadAbort p aid m d
  | 0x23 => doAdapterLoad p aid m d
  | 0x24 => doTableEdit p aid m d
  | 0x28 => doSignal p aid m d
  | 0x29 => doSyncWait p aid m d
  | _ => answerBad aid m d

/-- The master of a split consort forwards every stream message but ADMIT to its members, in its order of acceptance. -/
def forwardStream (p : Nat) (m : Dgram) (d : Dev) : Dev :=
  let t := m.hdr.ttype.toNat
  if cnsServes p d && isCnsMaster d && decide (2 ≤ t) && decide (t ≤ 9) then cnsSendAll 10 (hdrBytes m.hdr ++ m.payload) d else d

/-- A work request is processed. -/
def runWork (aid : Nat) (m : Dgram) (d : Dev) : Dev :=
  if 32 ≤ m.dest then answerBad aid m d
  else if d.rst.withdrawn then sendReply aid m stWITHDRAWN 0 0 [] d
  else forwardStream m.dest m (doWork m.dest aid m d)

/-! ### Management (R504-R510) -/

/-- Management requests of a session accepted and not yet answered. -/
def inProgress (s : Session) (d : Dev) : Nat :=
  (d.strand.held.filter fun h => isMgmt h.msg.hdr.ttype.toNat && h.aid == s.aid && h.msg.hdr.session == s.num).length

def authFail (aid : Nat) (m : Dgram) (code : Nat) (d : Dev) : Dev := mgmtNack aid m none code 0 (bump HS_AUTHFAIL d)

/-- A message that needs a session, checked by R506, and then given to its meaning with that session. -/
def withSession (aid : Nat) (m : Dgram) (f : Session → Dev → Dev) (d : Dev) : Dev :=
  if !hasFlag m.hdr fAUTH then authFail aid m stAUTH_FAIL d
  else match d.strand.sessions.find? fun s => s.num == m.hdr.session && s.aid == aid with
    | none => authFail aid m stNO_SESSION d
    | some s =>
      if m.tag != macTag s.khd m.hdr m.payload then authFail aid m stAUTH_FAIL d
      else
        let d := modSession s.num (fun x => { x with last := d.time }) d
        if 4 ≤ inProgress s d then mgmtNack aid m (some s) stMGMT_BUSY 0 d else f ((sessionOf s.num d).getD s) d

def doAttest (aid : Nat) (m : Dgram) (d : Dev) : Dev :=
  if m.payload.isEmpty then answerBad aid m d
  else match u8 m.payload 0 with
    | 0 => doReport aid m d
    | 1 => doSessionOpen aid m d
    | 2 => withSession aid m (doSessionClose aid m) d
    | 3 => doClaim aid m d
    | 4 => doCerts aid m d
    | _ => answerBad aid m d

/-- Network boot: ATTEST OP 0x0 and UPDATE_CHUNK without a session, nothing else (15 R583). -/
def runRom (aid : Nat) (m : Dgram) (d : Dev) : Dev :=
  let t := m.hdr.ttype.toNat
  if hasFlag m.hdr fREPLY then answerBad aid m d
  else if t = 0x34 && u8 m.payload 0 = 0 && !m.payload.isEmpty then doReport aid m d
  else if t = 0x35 && !hasFlag m.hdr fAUTH then doChunk aid m none d
  else answerBad aid m d

def runMgmt (aid : Nat) (m : Dgram) (d : Dev) : Dev :=
  match m.hdr.ttype.toNat with
  | 0x30 => withSession aid m (doMgmtRead aid m) d
  | 0x31 => withSession aid m (doMgmtWrite aid m) d
  | 0x33 => withSession aid m (doMgmtReset aid m) d
  | 0x34 => doAttest aid m d
  | 0x35 => withSession aid m (doUpdateChunk aid m) d
  | _ => answerBad aid m d

/-- A message accepted into sequence is processed. -/
def runMsg (aid : Nat) (m : Dgram) (d : Dev) : Dev :=
  if inRom d then runRom aid m d
  else if hasFlag m.hdr fREPLY then answerBad aid m d
  else if isMgmt m.hdr.ttype.toNat then runMgmt aid m d
  else if isWork m.hdr.ttype.toNat then runWork aid m d
  else answerBad aid m d

/-! ### Waiting (16 R615, 17 R638; R484) -/

/-- A reset in progress affects the partition. -/
def inReset (p : Nat) (d : Dev) : Bool := d.rst.phase != .idle || d.rst.subs.any fun x => (subParts x d).contains p

/-- An UNPARK of a stream whose moves have not ended (10 R426). -/
def unparkEarly (m : Dgram) (d : Dev) : Bool :=
  m.hdr.ttype == 0x07#8 && (handleStream m.dest m.hdr.stream d).any fun x => x.2.moving

/-- A work request waits for the end of a reset, for a wake, for a stream's moves, or behind one of its partition that waits. -/
def mustWait (m : Dgram) (d : Dev) : Bool :=
  !inRom d && decide (m.dest < 32) && !hasFlag m.hdr fREPLY && isWork m.hdr.ttype.toNat
    && (unparkEarly m d || inReset m.dest d || (diesAway d && isDieWork m.hdr.ttype.toNat)
        || d.strand.held.any fun h => h.msg.dest == m.dest && isWork h.msg.hdr.ttype.toNat)

/-- Process a message now, its units returned first, so that its answer carries them (R490); or let it wait. -/
def serve (aid units : Nat) (m : Dgram) (d : Dev) : Dev :=
  if mustWait m d then
    let d := holdMsg aid m units d
    if diesAway d && isDieWork m.hdr.ttype.toNat then startWake 3 d else d
  else runMsg aid m (returnUnits aid units d)

/-- A message that waited is served; when it must wait again it keeps the time of its acceptance. -/
def serveAgain (h : Held) (d : Dev) : Dev :=
  let n := d.strand.held.length
  let d := tryClose h.aid (serve h.aid h.units h.msg d)
  { d with strand := { d.strand with held := d.strand.held.zipIdx.map fun e => if e.2 = n then { e.1 with at_ := h.at_ } else e.1 } }

/-- What waited is served in the order of its arrival; what still must wait is held again. -/
def serveHeld (d : Dev) : Dev :=
  forEach d.strand.held serveAgain { d with strand := { d.strand with held := [] } }

/-- After an event that may end a stream's moves, the work that waited for them is served (10 R426); management messages stay. -/
def serveWork (d : Dev) : Dev :=
  if d.strand.held.any fun h => h.msg.hdr.ttype == 0x07#8 then
    forEach d.strand.held (fun h d =>
      if isWork h.msg.hdr.ttype.toNat then serveAgain h d
      else { d with strand := { d.strand with held := d.strand.held ++ [h] } }) { d with strand := { d.strand with held := [] } }
  else d

/-! ### Sequence and credit (R483-R485, R490; 13 R539) -/

/-- Two messages of a partition accepted from two associations in one CORE cycle are a choice. -/
def noteAccept (p aid cycle : Nat) (d : Dev) : Dev :=
  let d := match mget? d.strand.lastAcc p with
    | some (t, c, a) => if t = d.time ∧ c = cycle ∧ a ≠ aid then choice p true d else d
    | none => d
  { d with strand := { d.strand with lastAcc := mput d.strand.lastAcc p (d.time, cycle, aid) } }

/-- The next message in sequence, within the host's credit. -/
def acceptMsg (aid cost : Nat) (m : Dgram) (d : Dev) : Dev :=
  let d := takePeer aid m.hdr d
  let d := modAssoc aid (fun a => { a with lastSeq := m.hdr.seq, used := a.used + w32 cost, busy := a.busy + cost,
                                           accepted := if a.accepted.isSome then a.accepted else some d.time }) d
  let d := if m.dest < 32 then noteAccept m.dest aid m.cycle d else d
  serve aid cost m d

/-- A message of an open association that is not header-only. -/
def takeMsg (aid : Nat) (a : Assoc) (m : Dgram) (d : Dev) : Dev :=
  if m.hdr.seq = a.lastSeq + 1#32 then
    let cost := msgCost m.hdr.ttype.toNat m.payload.length
    if cost ≠ 0 && !seqGe a.limit (a.used + w32 cost) then bump HS_STRNOCRED d else acceptMsg aid cost m d
  else
    let d := bump (if seqGt m.hdr.seq a.lastSeq then HS_STROOO else HS_STRDUP) d
    sendHeaderOnly aid 0#8 (takePeer aid m.hdr d)

/-- A datagram on an open association. -/
def takeOn (aid : Nat) (a : Assoc) (m : Dgram) (d : Dev) : Dev :=
  let d := if m.ce && ecnEn d then modAssoc aid (fun a => { a with ece := true }) d else d
  if headerOnly m then
    let d := if hasFlag m.hdr fCLOSE then modAssoc aid (fun a => { a with closing := true }) d else d
    takePeer aid m.hdr d
  else takeMsg aid a m d

/-! ### Everything a Strand datagram meets (R481, 13 R526) -/

/-- Counted and dropped before any association is looked at: none when the datagram goes on. A partition that is not
enabled owns nothing, so no source is bound to it (13 R519, R526). -/
def dropped (m : Dgram) (d : Dev) : Option Nat :=
  if badHeader m then some HS_STRBADHDR
  else if 32 ≤ m.dest then none
  else if inRom d then some HS_RXDROP
  else if !enabled m.dest d then some HS_RXDROP
  else if !boundSource m.dest m.src d then some (PT_FWDGRAM m.dest)
  else if isWork m.hdr.ttype.toNat && cnsServes m.dest d && !isCnsMaster d then some (PT_FWDGRAM m.dest)
  else none

/-- A Strand datagram arrives at the port. -/
def receive (m : Dgram) (d : Dev) : Dev :=
  let m := splitDgram m
  if !d.eth.up then d
  else match dropped m d with
    | some c => bump c d
    | none =>
      if opensAndCloses m then (if isWakeFrame m && (d.pwr.state = 2 || d.pwr.target == some 2) then startWake 2 d else d)
      else if headerOnly m && hasFlag m.hdr fOPEN then doOpen m d
      else match findAssoc m.src m.sport (destOf m) d with
        | none => d
        | some (aid, a) => if a.lost then d else takeOn aid a m d

/-! ### Timers of an association (R485-R487) -/

/-- ACK_TIMER. -/
def ackTimer (aid : Nat) (d : Dev) : Dev :=
  match assocAt aid d with
  | none => d
  | some a => match a.accepted with
    | none => d
    | some t => if since t d < us 10 then d else sendHeaderOnly aid 0#8 d

/-- When a message was last sent. -/
def lastSent (a : Assoc) (x : Sent) : DWord := if x.first.toNat ≤ a.rtoFrom.toNat then a.rtoFrom else x.first

/-- RETRANSMIT_TIMEOUT: the oldest unacknowledged message and every later one, in order, with RETX. -/
def retransmitTimeout (aid : Nat) (d : Dev) : Dev :=
  match assocAt aid d with
  | none => d
  | some a => match a.unacked with
    | [] => d
    | x :: _ =>
      if a.lost || strandPaused d || since (lastSent a x) d < a.rto then d
      else
        let again := a.unacked.zipIdx.map fun e =>
          let f := e.1.hdr.flags ||| fRETX
          { e.1 with hdr := { e.1.hdr with ack := a.lastSeq, credit := a.limit, flags := if a.ece && e.2 = 0 then f ||| fECE else f &&& ~~~fECE } }
        let a' := { a with unacked := again, rto := min (2 * a.rto) 1280000, rtoFrom := d.time, ece := false, accepted := none }
        let d := addCtr HS_STRRETX again.length (putAssoc aid a' d)
        forEach again (fun x => putOnWire a x.hdr x.payload x.key) d

/-- ASSOC_LOST: the oldest message has been outstanding for 1 s. -/
def assocLost (aid : Nat) (d : Dev) : Dev :=
  match assocAt aid d with
  | none => d
  | some a => match a.unacked with
    | [] => d
    | x :: _ => if a.lost || since x.first d < sec 1 then d else endAssoc aid (bump HS_STRLOST d)

/-- TOKENS_LATE. -/
def tokensLate (aid : Nat) (d : Dev) : Dev :=
  match assocAt aid d with
  | none => d
  | some a =>
    let late := fun (x : Sent) => x.hdr.ttype == 0x10#8 && !x.late && decide (ms 100 ≤ since x.first d)
    let n := (a.unacked.filter late).length
    addCtr HS_STRLATE n (putAssoc aid { a with unacked := a.unacked.map fun x => if late x then { x with late := true } else x } d)

end Sys2Proof.Machine
end

