-- ==== Sys2Proof/Machine/Ends.lean ====
section
/-! DEFINITION. Events after which waiting messages are served (16 R611-R615, 17 R640), the expiry of management commands (16 R610),
what members of a split consort receive (14 R555, R556), and the pulse per second (18 R675). -/

namespace Sys2Proof.Machine

/-! ### Ends of resets and wakes -/

/-- A lesser reset ends, and what waited is served. -/
def subDone (sc : Scope) (p stage die : Nat) (d : Dev) : Dev :=
  match subNamed sc p stage die d with
  | none => d
  | some x => serveHeld (endSub x (if sc == .die then finishDie die d else d))

def stageResetDone (p stage : Nat) (d : Dev) : Dev := subDone .stage p stage 0 d
def partitionResetDone (p : Nat) (d : Dev) : Dev := subDone .partition p 0 0 d
/-- Quick calibration is the last of the phases before a die reset ends (R612). -/
def dieResetDone (n : Nat) (d : Dev) : Dev := if (dieAt n d).cal = 0 then subDone .die 0 0 n d else d

/-- DEVICE_RESET_DONE, with the messages accepted during the bring-up. -/
def deviceResetEnd (d : Dev) : Dev :=
  if !powered d || d.rst.phase != .calibrated then d else serveHeld (deviceResetDone d)

/-- WAKE_DONE, after the commit of the calibration (17 R640); `held` counts rail and clock requests held. -/
def wakeDone (held : Nat) (d : Dev) : Dev :=
  if d.pwr.waking && d.fret.dies.all (fun e => e.2.cal == 0) then serveHeld (wakeEnd held d) else d

/-- EDIT_PUBLISH, BATCH_FORMATION and EPOCH_RETIRE_BY may end a stream's moves. -/
def editPublishDone (b wait : Nat) (d : Dev) : Dev := serveWork (editPublish b wait d)
def batchFormed (p : Nat) (d : Dev) : Dev := serveWork (batchFormation p d)
def epochRetired (p m : Nat) (d : Dev) : Dev := serveWork (epochRetireBy p m d)

/-! ### MGMT_COMMAND_TIMEOUT (R610) -/

/-- The session of a message that still authenticates. -/
def msgSession (aid : Nat) (m : Dgram) (d : Dev) : Option Session :=
  d.strand.sessions.find? fun s => s.num == m.hdr.session && s.aid == aid

/-- The `k`th waiting message, a read or write accepted 2 s ago, is abandoned with `n` registers accessed: none when it waits behind
another of its session (00 R18); what waited behind it may go on. -/
def mgmtTimeout (k n : Nat) (d : Dev) : Dev :=
  match d.strand.held[k]? with
  | none => d
  | some h =>
    let t := h.msg.hdr.ttype.toNat
    if !(t = 0x30 || t = 0x31) || since h.at_ d < sec 2 then d
    else
      let first := !((d.strand.held.take k).any fun x => x.aid == h.aid && x.msg.hdr.session == h.msg.hdr.session && isMgmt x.msg.hdr.ttype.toNat)
      let n := if first then n else 0
      let d := bump HS_MGMTTMO { d with strand := { d.strand with held := d.strand.held.eraseIdx k } }
      match msgSession h.aid h.msg d with
      | none => d
      | some s =>
        let d := if t = 0x31 then (writeRegs s ((writesOf h.msg.payload).take n) d).2 else d
        let a := (addrsOf h.msg.payload).getD n 0
        let d := mgmtNack h.aid h.msg (some s) stMGMT_BUSY a d
        serveHeld (tryClose h.aid (rstEvent (if s.keeper then 255 else s.part) 0x00A2 0 0 0 0xFF 0xFF 0xFF 0x3FFFF a false d))

/-! ### Members of a PIPELINE or TENSOR consort (14 R555, R556) -/

/-- No association has this number: what a member does for the master answers nobody. -/
def noAssoc : Nat := 2 ^ 40

/-- A member that serves the split consort's streams. -/
def cnsFollows (d : Dev) : Bool := cnsServes (cnsPart d) d && !isCnsMaster d

def byHandle (h : Word) (d : Dev) : Option Nat :=
  (d.streams.find? fun e => e.2.part == cnsPart d && e.2.handle == h).map fun e => e.1

/-- The master's entry at the same offset of this member's range, with the master's handle, SEED and time of admission. -/
def takeEntry (off : Nat) (entry payload : List Byte) (d : Dev) : Dev :=
  let p := cnsPart d
  let i := resStreamBase (resOf p d) + off
  let m : Dgram := { src := 0, sport := 0, dest := p, ce := false, cycle := 0, hdr := hdrOfBytes [], payload := payload, tag := [] }
  let z := admitLists payload
  match curEpoch p (u8 payload 0) d with
  | none => d
  | some e =>
    if !ownsStream p i d || (streamAt i d).isSome || payload.length < 0x58 || payload.length ≠ z.len then d
    else
      modStream i (fun s => { s with handle := w32 (u32 entry 0), seed := BitVec.ofNat 64 (u64 entry 0x20), admitT := w32 (u32 entry 0x3C),
                                     finalAcked := true }) (admitAccept p noAssoc i m z e d)

/-- A forwarded stream message acts on the entry whose handle it names, here named by this member's own index. -/
def takeForwarded (m : Dgram) (d : Dev) : Dev :=
  let p := cnsPart d
  let run := fun (h : Word) => doWork p noAssoc { m with dest := p, hdr := { m.hdr with stream := h } }
  match byHandle m.hdr.stream d with
  | none => if m.hdr.stream = 0#32 then run 0#32 d else d
  | some i =>
    let own := w32 i
    let d := run own (modStream i (fun s => { s with handle := own }) d)
    modStream i (fun s => if s.handle = own then { s with handle := m.hdr.stream } else s) d

/-- CONSORT_ENTRY_RX: an entry with its ADMIT's payload, or, without one, a forwarded message of types 0x02 to 0x09. -/
def consortEntryRx (off : Nat) (entry : List Byte) (m : Dgram) (d : Dev) : Dev :=
  if !cnsFollows d then d
  else
    let d := masterHeard d
    let t := m.hdr.ttype.toNat
    if entry.length = 64 then takeEntry off entry m.payload d
    else if 2 ≤ t ∧ t ≤ 9 then takeForwarded m d
    else d

/-- One stream's part of a batch description. -/
def takeStep (bid : Nat) (x : BatchEnt) (d : Dev) : List VecId × Dev :=
  let p := cnsPart d
  let i := resStreamBase (resOf p d) + x.off
  match streamAt i d with
  | none => ([], d)
  | some s =>
    if s.part ≠ p || !streamLive s then ([], d)
    else
      let d := (reserveStep i s x.pos0 x.count d).getD d
      let st : StepRec := { batch := bid, pos0 := x.pos0, count := x.count, prefill := x.prefill }
      let toks := x.toks.zipIdx.foldl (fun t e => mput t (x.pos0 + e.2) (e.1, !x.prefill)) s.toks
      let d := modStream i (fun s => { s with
        steps := s.steps ++ [st], lastBatch := bid, toks := toks, state := if s.state = 1 then 2 else s.state,
        nextpos := if x.prefill then x.pos0 + x.count else s.nextpos }) d
      ((List.range x.count).map fun k => { stream := i, pos := x.pos0 + k, seed := s.seed }, d)

def takeSteps (bid : Nat) : List BatchEnt → Dev → List VecId × Dev
  | [], d => ([], d)
  | x :: r, d =>
    let a := takeStep bid x d
    let b := takeSteps bid r a.2
    (a.1 ++ b.1, b.2)

/-- BATCH_DESCRIPTOR_RX: the member carries the master's vectors in the master's order. -/
def batchDescriptorRx (bid model : Nat) (epoch : Word) (l : List BatchEnt) (d : Dev) : Dev :=
  if !cnsFollows d then d
  else
    let p := cnsPart d
    let z := takeSteps bid l (masterHeard d)
    if z.1.isEmpty then z.2
    else
      let b : Batch := { id := bid, model := model, epoch := epoch, vecs := z.1, begun := false }
      let d := modSched p (fun k => { k with batches := k.batches ++ [b], nextId := bid + 1 }) z.2
      let d := pushPasses p model bid epoch z.1 (bump HS_BATCHCNT d)
      publishSteps p d

/-- A record of the member that holds the Pick stage: its token becomes known, and the record goes on to the host. -/
def takeRecord (i : Nat) (rec : List Byte) (d : Dev) : Dev :=
  let tok := u32 rec 0
  let pos := u32 rec 4
  modStream i (fun s => { s with
    toks := mput s.toks pos (tok, true), hist := (tok :: s.hist).take 16, turnLeft := s.turnLeft - 1, emitted := s.emitted + 1,
    turnEmitted := true, recs := s.recs + 1, avail := pos + 1, stop := u8 rec 10, outq := s.outq ++ [{ batch := none, bytes := rec }] }) d

/-- The oldest step of a stream has yielded its token. -/
def takeStepEnd (i : Nat) (d : Dev) : Dev :=
  match streamAt i d with
  | none => d
  | some s => match s.steps with
    | [] => d
    | st :: _ =>
      if st.prefill then stepDone i st 1 d
      else stepDone i st 1 (setLen s.home i (st.pos0 + 1) (modStream i (fun s => { s with nextpos := st.pos0 + 1 }) d))

/-- CONSORT_TOKEN_RECORDS_RX: on the master, records of the stream with this handle. -/
def consortTokenRecordsRx (h : Word) (recs : List (List Byte)) (d : Dev) : Dev :=
  if !(cnsServes (cnsPart d) d && isCnsMaster d) then d
  else match byHandle h d with
    | none => d
    | some i => match streamAt i d with
      | none => d
      | some s =>
        if !streamLive s || recs.isEmpty || recs.any (fun r => r.length != 16) then d
        else tokenRecordArrival i (takeStepEnd i (forEach recs (takeRecord i) d))

/-! ### PPS_IN (18 R675; 14 R548) -/

/-- The multiple of 100,000,000 counts nearest to `t`. -/
def nearestSecond (t : Nat) : Nat := (t + 50000000) / 100000000 * 100000000

/-- PPS_IN_EDGE: a rising edge after `low` ns of low level and `gap` ns after the edge before it. -/
def ppsInEdge (low gap : Nat) (d : Dev) : Dev :=
  let d := { d with pins := { d.pins with ppsIn := true } }
  if !cnsRuns d || !isCnsMaster d || cnsTsrc d.cns.cur ≠ 2 || !d.timeRun then d
  else
    let first := match d.pins.ppsLast with
      | none => true
      | some t => decide (sec 2 < since t d)
    let near := match d.pins.ppsLast with
      | none => false
      | some t => decide (99990000 ≤ since t d) && decide (since t d ≤ 100010000)
    if low < 100 || gap < 100 || !(first || near) then bump HS_PPSBAD d
    else
      let t : DWord := BitVec.ofNat 64 (nearestSecond d.time.toNat)
      { d with time := t, pins := { d.pins with ppsLast := some t } }

end Sys2Proof.Machine
end

