-- ==== Sys2Proof/Machine/Rows.lean ====
section
/-! DEFINITION. The forms that command rows give their operands: datagrams with the type, flags, operation or register access that
the row names; and commands whose operands must be well-formed. -/

namespace Sys2Proof.Machine

/-- A command whose operands name what the part does not have reaches nothing of it and changes nothing (DESIGN CHOICE,
notes/assumptions/6.md). -/
def liftWf (i : Instr) (f : Dev → Dev) (s : State) : Host.Outcome State Fault Refusal :=
  lift (if WellFormed i then f else id) s

/-- A header-only datagram with the row's flags. -/
def asHead (on off : Byte) (m : Dgram) : Dgram :=
  asFlags on (off &&& ~~~on) { m with hdr := { m.hdr with ttype := 0x00#8, length := 0#16 }, payload := [], tag := [] }

/-- A request of the row's type. -/
def asReq (t : Byte) (m : Dgram) : Dgram := asFlags 0#8 fREPLY (asType t m)

/-- A request of the row's type whose payload byte `k` is `v`. -/
def asOp (t : Byte) (k : Nat) (v : Byte) (m : Dgram) : Dgram :=
  let m := asReq t m
  { m with payload := if k < m.payload.length then m.payload.take k ++ [v] ++ m.payload.drop (k + 1) else m.payload }

/-- A request of the row's type with the row's payload. -/
def asBody (t : Byte) (pay : List Byte) (m : Dgram) : Dgram :=
  let m := asReq t m
  { m with hdr := { m.hdr with length := BitVec.ofNat 16 pay.length }, payload := pay }

/-- A MGMT_WRITE of one register, and a MGMT_READ of one. -/
def writeOne (a v : Nat) (m : Dgram) : Dgram := asBody 0x31#8 (leBytes 4 a ++ [1#8, 0#8, 0#8, 0#8] ++ leBytes 4 v) m
def readOne (a : Nat) (m : Dgram) : Dgram := asBody 0x30#8 (leBytes 4 a ++ [1#8, 0#8, 0#8, 0#8]) m

/-- STRAND_BAD_HEADER: the datagram is one of those. -/
def strandBadHeader (m : Dgram) (d : Dev) : Dev :=
  when_ (d.eth.up && dropped (splitDgram m) d == some HS_STRBADHDR) (bump HS_STRBADHDR) d

/-- UNBOUND_SOURCE_DROP: the datagram is well formed, to a partition address, and its source is not bound there. -/
def unboundSourceDrop (m : Dgram) (d : Dev) : Dev :=
  let m := splitDgram m
  match dropped m d with
  | some c => when_ (d.eth.up && !badHeader m && !boundSource m.dest m.src d) (bump c) d
  | none => d

end Sys2Proof.Machine
end

