-- ==== Sys2Proof/Machine/CmdConsort.lean ====
section
/-! DEFINITION. Meanings of the commands of consorts and of time (14 R546-R562; 18 R675, R676). -/

namespace Sys2Proof.Machine

/-- PTP_SYNC_RX (R549). -/
def execPtpSyncRx (dom : Nat) (t1 : Int) (f2 : Nat) (f3 : Nat) (s : State) : Host.Outcome State Fault Refusal :=
  liftWf (.ptpSyncRx dom t1 f2 f3) (ptpSyncRx dom t1 f2 f3) s

/-- PTP_DELAY_REQ_RX (R549). -/
def execPtpDelayReqRx (dom : Nat) (s : State) : Host.Outcome State Fault Refusal :=
  liftWf (.ptpDelayReqRx dom) (ptpDelayReqRx dom) s

/-- PTP_SYNC_INTERVAL (R549). -/
def execPtpSyncInterval (s : State) : Host.Outcome State Fault Refusal :=
  lift ptpSyncInterval s

/-- CLOCK_SLEW (R549). -/
def execClockSlew (s : State) : Host.Outcome State Fault Refusal :=
  lift clockSlew s

/-- CONSORT_JOIN (R547). -/
def execConsortJoin (m : Dgram) (s : State) : Host.Outcome State Fault Refusal :=
  lift (receive (writeOne HS_CNSCTL 0x80000000 m)) s

/-- CONSORT_JOIN_REQUEST_RX (R547). -/
def execConsortJoinRequestRx (k : Nat) (digest : List Byte) (serial : DWord) (cgen : Nat) (partOn : Bool) (streams : Nat) (timeOk : Bool) (s : State) : Host.Outcome State Fault Refusal :=
  liftWf (.consortJoinRequestRx k digest serial cgen partOn streams timeOk) (consortJoinRequestRx k digest serial cgen partOn streams timeOk) s

/-- CONSORT_LEAVE (R559). -/
def execConsortLeave (m : Dgram) (s : State) : Host.Outcome State Fault Refusal :=
  lift (receive (writeOne HS_CNSCTL 0x40000000 m)) s

/-- STRUM_SIGNAL (R551). -/
def execStrumSignal (m : Dgram) (arg : Half) (obj : BitVec 10) (s : State) : Host.Outcome State Fault Refusal :=
  lift (receive (writeOne HS_STRUMCTL (1 * 2 ^ 30 + arg.toNat * 2 ^ 10 + obj.toNat) m)) s

/-- STRUM_GATE (R551). -/
def execStrumGate (m : Dgram) (arg : Half) (obj : BitVec 10) (s : State) : Host.Outcome State Fault Refusal :=
  lift (receive (writeOne HS_STRUMCTL (2 * 2 ^ 30 + arg.toNat * 2 ^ 10 + obj.toNat) m)) s

/-- STRUM_TUNE (R551). -/
def execStrumTune (m : Dgram) (arg : Half) (obj : BitVec 10) (s : State) : Host.Outcome State Fault Refusal :=
  lift (receive (writeOne HS_STRUMCTL (3 * 2 ^ 30 + arg.toNat * 2 ^ 10 + obj.toNat) m)) s

/-- STRUM_RECEIVE (R552). -/
def execStrumReceive (cancel : Bool) (action : Nat) (arg : Half) (obj : BitVec 10) (t : DWord) (s : State) : Host.Outcome State Fault Refusal :=
  liftWf (.strumReceive cancel action arg obj t) (strumReceive cancel action arg.toNat obj.toNat t) s

/-- STRUM_ACK_DEADLINE (R552). -/
def execStrumAckDeadline (s : State) : Host.Outcome State Fault Refusal :=
  lift strumAckDeadline s

/-- STRUM_FIRE (R552). -/
def execStrumFire (s : State) : Host.Outcome State Fault Refusal :=
  lift strumFire s

/-- CONSORT_SYNC_UPDATE_RX (R554). -/
def execConsortSyncUpdateRx (k : Nat) (op : Nat) (v : DWord) (cycle : Nat) (s : State) : Host.Outcome State Fault Refusal :=
  liftWf (.consortSyncUpdateRx k op v cycle) (consortSyncUpdateRx k op v cycle) s

/-- CONSORT_ENTRY_RX (R555). -/
def execConsortEntryRx (off : Nat) (entry : List Byte) (m : Dgram) (s : State) : Host.Outcome State Fault Refusal :=
  lift (consortEntryRx off entry m) s

/-- BATCH_DESCRIPTOR_RX (R556). -/
def execBatchDescriptorRx (bid : Nat) (model : Nat) (epoch : Word) (ents : List BatchEnt) (s : State) : Host.Outcome State Fault Refusal :=
  liftWf (.batchDescriptorRx bid model epoch ents) (batchDescriptorRx bid model epoch ents) s

/-- MEMBER_ALIGN_LOST (R550). -/
def execMemberAlignLost (k : Nat) (s : State) : Host.Outcome State Fault Refusal :=
  liftWf (.memberAlignLost k) (memberAlignLost k) s

/-- MASTER_LOST (R553). -/
def execMasterLost (s : State) : Host.Outcome State Fault Refusal :=
  lift masterLost s

/-- CONSORT_PORT_TIMEOUT (R557). -/
def execConsortPortTimeout (k : Nat) (s : State) : Host.Outcome State Fault Refusal :=
  liftWf (.consortPortTimeout k) (consortPortTimeout k) s

/-- PPS_IN_EDGE (R675). -/
def execPpsInEdge (low : Nat) (gap : Nat) (s : State) : Host.Outcome State Fault Refusal :=
  lift (ppsInEdge low gap) s

/-- PPS_OUT_PULSE (R676). -/
def execPpsOutPulse (s : State) : Host.Outcome State Fault Refusal :=
  lift ppsOut s

/-- PTP_DELAY_RESP_RX (R549). -/
def execPtpDelayRespRx (dom : Nat) (t4 : Int) (s : State) : Host.Outcome State Fault Refusal :=
  liftWf (.ptpDelayRespRx dom t4) (ptpDelayRespRx dom t4) s

/-- CONSORT_JOIN_RESULT_RX (R547). -/
def execConsortJoinResultRx (code : Nat) (joined : List Nat) (s : State) : Host.Outcome State Fault Refusal :=
  liftWf (.consortJoinResultRx code joined) (consortJoinResultRx code joined) s

/-- STRUM_ACK_RX (R552). -/
def execStrumAckRx (k : Nat) (t : DWord) (s : State) : Host.Outcome State Fault Refusal :=
  liftWf (.strumAckRx k t) (strumAckRx k t) s

/-- CONSORT_TOKEN_RECORDS_RX (R556). -/
def execConsortTokenRecordsRx (h : Word) (recs : List (List Byte)) (s : State) : Host.Outcome State Fault Refusal :=
  lift (consortTokenRecordsRx h recs) s

end Sys2Proof.Machine
end

