-- ==== Sys2Proof/Machine/CmdFret.lean ====
section
/-! DEFINITION. Meanings of the commands of Fret dies and links (01 R25-R30; 02; 04-07). -/

namespace Sys2Proof.Machine

/-- FLIT_CRC_FAIL (R25). -/
def execFlitCrcFail (ch : Nat) (h : DWord) (payload : List Byte) (crc : BitVec 40) (replayed : Bool) (s : State) : Host.Outcome State Fault Refusal :=
  liftWf (.flitCrcFail ch h payload crc replayed) (flitCrcFail ch h payload crc replayed) s

/-- REPLAY_REQUEST_RX (R25). -/
def execReplayRequestRx (ch : Nat) (lseq : Nat) (s : State) : Host.Outcome State Fault Refusal :=
  liftWf (.replayRequestRx ch lseq) (replayRequestRx ch lseq) s

/-- LINK_RETRAIN_DONE (R26). -/
def execLinkRetrainDone (l : Nat) (ok : Bool) (s : State) : Host.Outcome State Fault Refusal :=
  liftWf (.linkRetrainDone l ok) (linkRetrainDone l ok) s

/-- FIREWALL_FLIT_DISCARD (R30). -/
def execFirewallFlitDiscard (b : Nat) (h : DWord) (s : State) : Host.Outcome State Fault Refusal :=
  liftWf (.firewallFlitDiscard b h) (firewallFlit b h) s

/-- SLICE_ARRIVAL (R73). -/
def execSliceArrival (f : Nat) (c : Nat) (w : Nat) (stream : Nat) (scale : Nat) (payload : List Byte) (outl : List Byte) (s : State) : Host.Outcome State Fault Refusal :=
  liftWf (.sliceArrival f c w stream scale payload outl) (sliceArrival f c w stream scale payload outl) s

/-- PASS_START (R95). -/
def execPassStart (f : Nat) (c : Nat) (sl : Nat) (stall : Nat) (s : State) : Host.Outcome State Fault Refusal :=
  liftWf (.passStart f c sl stall) (passStart f c sl stall) s

/-- PLUCK (R75). -/
def execPluck (f : Nat) (c : Nat) (go : List Nat) (convs : List ConvEv) (upsets : List Upset) (backlog : Nat) (s : State) : Host.Outcome State Fault Refusal :=
  liftWf (.pluck f c go convs upsets backlog) (pluckPeriodOf f c go convs upsets backlog) s

/-- ENCORE_PASS_END (R171). -/
def execEncorePassEnd (f : Nat) (c : Nat) (sl : Nat) (s : State) : Host.Outcome State Fault Refusal :=
  liftWf (.encorePassEnd f c sl) (encorePassEnd f c sl) s

/-- GROUP_HANDON (R162). -/
def execGroupHandon (f : Nat) (c : Nat) (t : Nat) (g : Nat) (s : State) : Host.Outcome State Fault Refusal :=
  liftWf (.groupHandon f c t g) (groupHandon f c t g) s

/-- RECONVERT_RESULT (R87). -/
def execReconvertResult (f : Nat) (c : Nat) (t : Nat) (col : Nat) (dev : Int) (unsettled : Bool) (badParity : Bool) (s : State) : Host.Outcome State Fault Refusal :=
  liftWf (.reconvertResult f c t col dev unsettled badParity) (reconvertResult f c t col dev unsettled badParity) s

/-- COLUMN_RECOMPUTE_DONE (R164). -/
def execColumnRecomputeDone (f : Nat) (c : Nat) (t : Nat) (col : Nat) (s : State) : Host.Outcome State Fault Refusal :=
  liftWf (.columnRecomputeDone f c t col) (columnRecomputeDone f c t col) s

/-- GROUP_RECOMPUTE_DONE (R230). -/
def execGroupRecomputeDone (f : Nat) (c : Nat) (t : Nat) (g : Nat) (s : State) : Host.Outcome State Fault Refusal :=
  liftWf (.groupRecomputeDone f c t g) (groupRecomputeDone f c t g) s

/-- FETCHED_ROW_ARRIVAL (R235). -/
def execFetchedRowArrival (f : Nat) (c : Nat) (w : Nat) (errs : List (Nat × Nat)) (s : State) : Host.Outcome State Fault Refusal :=
  liftWf (.fetchedRowArrival f c w errs) (fetchedRowArrival f c w errs) s

/-- REPAIR_SWAP (R236). -/
def execRepairSwap (f : Nat) (c : Nat) (t : Nat) (s : State) : Host.Outcome State Fault Refusal :=
  liftWf (.repairSwap f c t) (repairSwap f c t) s

/-- PLANE_LOAD_START (R315). -/
def execPlaneLoadStart (f : Nat) (c : Nat) (t : Nat) (errs : List (Nat × Nat)) (s : State) : Host.Outcome State Fault Refusal :=
  liftWf (.planeLoadStart f c t errs) (planeLoadStart f c t errs) s

/-- ROW_SEGMENT_ARRIVAL (R93). -/
def execRowSegmentArrival (f : Nat) (c : Nat) (t : Nat) (row : Nat) (g : Nat) (planeB : Bool) (parityOk : Bool) (errs : List (Nat × Nat)) (s : State) : Host.Outcome State Fault Refusal :=
  liftWf (.rowSegmentArrival f c t row g planeB parityOk errs) (rowSegmentArrival f c t row g planeB parityOk errs) s

/-- LOAD_END_MARKER (R93). -/
def execLoadEndMarker (f : Nat) (c : Nat) (t : Nat) (planeB : Bool) (s : State) : Host.Outcome State Fault Refusal :=
  liftWf (.loadEndMarker f c t planeB) (loadEndMarker f c t planeB) s

/-- PLANE_DRAINED (R93). -/
def execPlaneDrained (f : Nat) (c : Nat) (t : Nat) (planeB : Bool) (waited : Nat) (s : State) : Host.Outcome State Fault Refusal :=
  liftWf (.planeDrained f c t planeB waited) (planeDrained f c t planeB waited) s

/-- DRONE_SAMPLE_DONE (R177). -/
def execDroneSampleDone (f : Nat) (c : Nat) (s : State) : Host.Outcome State Fault Refusal :=
  liftWf (.droneSampleDone f c) (droneSampleDone f c) s

/-- DRONE_REFIT (R281). -/
def execDroneRefit (f : Nat) (c : Nat) (t : Nat) (band : Nat) (col : Nat) (s : State) : Host.Outcome State Fault Refusal :=
  liftWf (.droneRefit f c t band col) (droneRefit f c t band col) s

/-- QUALITY_PUBLISH (R283). -/
def execQualityPublish (f : Nat) (c : Nat) (t : Nat) (s : State) : Host.Outcome State Fault Refusal :=
  liftWf (.qualityPublish f c t) (qualityPublish f c t) s

/-- FOLD_WINDOW_END (R290). -/
def execFoldWindowEnd (f : Nat) (c : Nat) (sl : Nat) (s : State) : Host.Outcome State Fault Refusal :=
  liftWf (.foldWindowEnd f c sl) (foldWindowEnd f c sl) s

/-- PASS_END (R174). -/
def execPassEnd (f : Nat) (c : Nat) (sl : Nat) (s : State) : Host.Outcome State Fault Refusal :=
  liftWf (.passEnd f c sl) (passEnd f c sl) s

/-- TAILPIECE_TERM_ARRIVAL (R193). -/
def execTailpieceTermArrival (f : Nat) (c : Nat) (parityErr : Bool) (inside : Bool) (s : State) : Host.Outcome State Fault Refusal :=
  liftWf (.tailpieceTermArrival f c parityErr inside) (termArrival f c parityErr inside) s

/-- TAILPIECE_DATA_FLIT (R199). -/
def execTailpieceDataFlit (f : Nat) (c : Nat) (sl : Nat) (stream : Nat) (payload : List Byte) (s : State) : Host.Outcome State Fault Refusal :=
  liftWf (.tailpieceDataFlit f c sl stream payload) (dataFlit f c sl stream payload) s

/-- TREE_RESULT (R203). -/
def execTreeResult (f : Nat) (c : Nat) (sl : Nat) (slice : Nat) (col : Nat) (parityErr : Bool) (s : State) : Host.Outcome State Fault Refusal :=
  liftWf (.treeResult f c sl slice col parityErr) (treeResult f c sl slice col parityErr) s

/-- BUFFER_SEALED (R216). -/
def execBufferSealed (f : Nat) (c : Nat) (sl : Nat) (bufB : Bool) (wait : Nat) (s : State) : Host.Outcome State Fault Refusal :=
  liftWf (.bufferSealed f c sl bufB wait) (bufferSealed f c sl bufB wait) s

/-- BUFFER_DRAIN_START (R215). -/
def execBufferDrainStart (f : Nat) (c : Nat) (sl : Nat) (bufB : Bool) (par : Option Nat) (s : State) : Host.Outcome State Fault Refusal :=
  liftWf (.bufferDrainStart f c sl bufB par) (bufferDrainStart f c sl bufB par) s

/-- BUFFER_DRAIN_DONE (R215). -/
def execBufferDrainDone (f : Nat) (c : Nat) (sl : Nat) (bufB : Bool) (s : State) : Host.Outcome State Fault Refusal :=
  liftWf (.bufferDrainDone f c sl bufB) (bufferDrainDone f c sl bufB) s

/-- SELFTEST_START (R253). -/
def execSelftestStart (f : Nat) (c : Nat) (t : Nat) (s : State) : Host.Outcome State Fault Refusal :=
  liftWf (.selftestStart f c t) (selftestStart f c t) s

/-- SELFTEST_RESULT (R254). -/
def execSelftestResult (f : Nat) (c : Nat) (t : Nat) (kat : Nat) (scan : Nat) (katCol : Nat) (scanCol : Nat) (s : State) : Host.Outcome State Fault Refusal :=
  liftWf (.selftestResult f c t kat scan katCol scanCol) (selftestResult f c t kat scan katCol scanCol) s

/-- PERIODIC_SCAN_DUE (R247). -/
def execPeriodicScanDue (f : Nat) (c : Nat) (t : Nat) (s : State) : Host.Outcome State Fault Refusal :=
  liftWf (.periodicScanDue f c t) (periodicScanDue f c t) s

/-- OBSERVATION_END (R246). -/
def execObservationEnd (f : Nat) (c : Nat) (t : Nat) (s : State) : Host.Outcome State Fault Refusal :=
  liftWf (.observationEnd f c t) (observationEnd f c t) s

/-- STAGE_PASS_TIMEOUT (R609). -/
def execStagePassTimeout (f : Nat) (c : Nat) (sl : Nat) (s : State) : Host.Outcome State Fault Refusal :=
  liftWf (.stagePassTimeout f c sl) (stagePassTimeout f c sl) s

/-- EXACT_GROUP_DONE (R181). -/
def execExactGroupDone (f : Nat) (c : Nat) (sl : Nat) (stall : Nat) (s : State) : Host.Outcome State Fault Refusal :=
  liftWf (.exactGroupDone f c sl stall) (exactGroupDone f c sl stall) s

end Sys2Proof.Machine
end

