-- ==== Sys2Proof/Machine/CmdMgmt.lean ====
section
/-! DEFINITION. Meanings of the management commands: sessions, registers, updates, keys, maps, Tuning loads, the log (11 R435-R464; 12 R504-R511; 13 R520-R523; 15). -/

namespace Sys2Proof.Machine

/-- MGMT_READ (R509). -/
def execMgmtRead (m : Dgram) (s : State) : Host.Outcome State Fault Refusal :=
  lift (receive (asReq 0x30#8 m)) s

/-- MGMT_WRITE (R509). -/
def execMgmtWrite (m : Dgram) (s : State) : Host.Outcome State Fault Refusal :=
  lift (receive (asReq 0x31#8 m)) s

/-- MGMT_RESET_STAGE (R510). -/
def execMgmtResetStage (m : Dgram) (s : State) : Host.Outcome State Fault Refusal :=
  lift (receive (asOp 0x33#8 0 1#8 m)) s

/-- MGMT_RESET_PARTITION (R510). -/
def execMgmtResetPartition (m : Dgram) (s : State) : Host.Outcome State Fault Refusal :=
  lift (receive (asOp 0x33#8 0 2#8 m)) s

/-- MGMT_RESET_DIE (R510). -/
def execMgmtResetDie (m : Dgram) (s : State) : Host.Outcome State Fault Refusal :=
  lift (receive (asOp 0x33#8 0 3#8 m)) s

/-- MGMT_RESET_WARM (R510). -/
def execMgmtResetWarm (m : Dgram) (s : State) : Host.Outcome State Fault Refusal :=
  lift (receive (asOp 0x33#8 0 4#8 m)) s

/-- MGMT_RESET_COLD (R510). -/
def execMgmtResetCold (m : Dgram) (s : State) : Host.Outcome State Fault Refusal :=
  lift (receive (asOp 0x33#8 0 5#8 m)) s

/-- ATTEST_REPORT (R585). -/
def execAttestReport (m : Dgram) (s : State) : Host.Outcome State Fault Refusal :=
  lift (receive (asOp 0x34#8 0 0#8 m)) s

/-- SESSION_OPEN (R504). -/
def execSessionOpen (m : Dgram) (s : State) : Host.Outcome State Fault Refusal :=
  lift (receive (asOp 0x34#8 0 1#8 m)) s

/-- SESSION_CLOSE (R507). -/
def execSessionClose (m : Dgram) (s : State) : Host.Outcome State Fault Refusal :=
  lift (receive (asOp 0x34#8 0 2#8 m)) s

/-- CLAIM (R572). -/
def execClaim (m : Dgram) (s : State) : Host.Outcome State Fault Refusal :=
  lift (receive (asOp 0x34#8 0 3#8 m)) s

/-- CERTS (R586). -/
def execCerts (m : Dgram) (s : State) : Host.Outcome State Fault Refusal :=
  lift (receive (asOp 0x34#8 0 4#8 m)) s

/-- UPDATE_CHUNK (R579). -/
def execUpdateChunk (m : Dgram) (s : State) : Host.Outcome State Fault Refusal :=
  lift (receive (asReq 0x35#8 m)) s

/-- UPDATE_VERIFY_DONE (R580). -/
def execUpdateVerifyDone (s : State) : Host.Outcome State Fault Refusal :=
  lift updVerified s

/-- UPDATE_PROGRAM_DONE (R580). -/
def execUpdateProgramDone (readBackOk : Bool) (s : State) : Host.Outcome State Fault Refusal :=
  lift (updateProgramDone readBackOk) s

/-- UPDATE_ABORT (R581). -/
def execUpdateAbort (m : Dgram) (s : State) : Host.Outcome State Fault Refusal :=
  lift (receive (writeOne PG_UPDCTL 0x80000000 m)) s

/-- UPDATE_IDLE_TIMEOUT (R581). -/
def execUpdateIdleTimeout (s : State) : Host.Outcome State Fault Refusal :=
  lift updIdleTimeout s

/-- SESSION_IDLE_TIMEOUT (R507). -/
def execSessionIdleTimeout (num : Word) (s : State) : Host.Outcome State Fault Refusal :=
  lift (sessionIdleTimeout num) s

/-- TUNING_LOAD (R435). -/
def execTuningLoad (m : Dgram) (p : Nat) (s : State) : Host.Outcome State Fault Refusal :=
  liftWf (.tuningLoad m p) (receive (writeOne (PT_TUNECTL p) 0x80000000 m)) s

/-- TUNING_ABORT (R464). -/
def execTuningAbort (m : Dgram) (p : Nat) (s : State) : Host.Outcome State Fault Refusal :=
  liftWf (.tuningAbort m p) (receive (writeOne (PT_TUNECTL p) 0x40000000 m)) s

/-- TUNING_VERIFY_DONE (R459). -/
def execTuningVerifyDone (p : Nat) (s : State) : Host.Outcome State Fault Refusal :=
  liftWf (.tuningVerifyDone p) (tuningVerifyDone p) s

/-- TUNING_BARRIER_REACHED (R459). -/
def execTuningBarrierReached (p : Nat) (s : State) : Host.Outcome State Fault Refusal :=
  liftWf (.tuningBarrierReached p) (tuningBarrierReached p) s

/-- TUNING_BARRIER_TIMEOUT (R462). -/
def execTuningBarrierTimeout (p : Nat) (s : State) : Host.Outcome State Fault Refusal :=
  liftWf (.tuningBarrierTimeout p) (tuningBarrierTimeout p) s

/-- MAP_COMMIT (R521). -/
def execMapCommit (m : Dgram) (s : State) : Host.Outcome State Fault Refusal :=
  lift (receive (writeOne HS_MAPCTL 0x80000000 m)) s

/-- MAP_DISCARD (R520). -/
def execMapDiscard (m : Dgram) (s : State) : Host.Outcome State Fault Refusal :=
  lift (receive (writeOne HS_MAPCTL 0x40000000 m)) s

/-- MAP_BARRIER (R522). -/
def execMapBarrier (p : Nat) (s : State) : Host.Outcome State Fault Refusal :=
  liftWf (.mapBarrier p) (mapBarrier p) s

/-- MAP_HANDOVER_END (R523). -/
def execMapHandoverEnd (k : Nat) (base : Nat) (count : Nat) (s : State) : Host.Outcome State Fault Refusal :=
  lift (mapHandoverEnd k base count) s

/-- KEY_READ (R594). -/
def execKeyRead (m : Dgram) (s : State) : Host.Outcome State Fault Refusal :=
  lift (receive (writeOne PG_KEYCTL (1 * 2 ^ 30) m)) s

/-- KEY_ENROLL (R570). -/
def execKeyEnroll (m : Dgram) (s : State) : Host.Outcome State Fault Refusal :=
  lift (receive (writeOne PG_KEYCTL (2 * 2 ^ 30) m)) s

/-- KEY_REVOKE (R570). -/
def execKeyRevoke (m : Dgram) (s : State) : Host.Outcome State Fault Refusal :=
  lift (receive (writeOne PG_KEYCTL (3 * 2 ^ 30) m)) s

/-- KEY_STORE_WRITTEN (R570). -/
def execKeyStoreWritten (s : State) : Host.Outcome State Fault Refusal :=
  lift keyStoreWritten s

/-- TILE_TEST (R266). -/
def execTileTest (m : Dgram) (f : Nat) (c : Nat) (t : Nat) (s : State) : Host.Outcome State Fault Refusal :=
  liftWf (.tileTest m f c t) (receive (writeOne (FT_TILECTL f) (1 * 2 ^ 30 + c * 2 ^ 6 + t) m)) s

/-- TILE_REINSTATE (R266). -/
def execTileReinstate (m : Dgram) (f : Nat) (c : Nat) (t : Nat) (s : State) : Host.Outcome State Fault Refusal :=
  liftWf (.tileReinstate m f c t) (receive (writeOne (FT_TILECTL f) (2 * 2 ^ 30 + c * 2 ^ 6 + t) m)) s

/-- TRACKER_CLEAR (R107). -/
def execTrackerClear (m : Dgram) (f : Nat) (c : Nat) (t : Nat) (col : BitVec 10) (s : State) : Host.Outcome State Fault Refusal :=
  liftWf (.trackerClear m f c t col) (receive (writeOne (addrTile f c t 0x100) (2 ^ 31 + col.toNat) m)) s

/-- LO_CAPTURE_READ (R111). -/
def execLoCaptureRead (m : Dgram) (a : Word) (s : State) : Host.Outcome State Fault Refusal :=
  lift (receive (readOne a.toNat m)) s

/-- MULTI_WORD_CAPTURE_READ (R432). -/
def execMultiWordCaptureRead (m : Dgram) (a : Word) (s : State) : Host.Outcome State Fault Refusal :=
  lift (receive (readOne a.toNat m)) s

/-- MGMT_COMMAND_TIMEOUT (R610). -/
def execMgmtCommandTimeout (k : Nat) (n : Nat) (s : State) : Host.Outcome State Fault Refusal :=
  lift (mgmtTimeout k n) s

/-- PERSISTENT_LOG_PROGRAMMED (R588). -/
def execPersistentLogProgrammed (s : State) : Host.Outcome State Fault Refusal :=
  lift logProgram s

end Sys2Proof.Machine
end

