-- ==== Sys2Proof/Machine/CmdPort.lean ====
section
/-! DEFINITION. Meanings of the commands of the Ethernet port other than Strand (12 R473-R478; 08 R308; 11 R436; 13 R526; 14 R556). -/

namespace Sys2Proof.Machine

/-- FRAME_DROP (R474). -/
def execFrameDrop (corr : Nat) (unc : Nat) (s : State) : Host.Outcome State Fault Refusal :=
  lift (frameDrop corr unc) s

/-- RDMA_WRITE_LOAD (R308). -/
def execRdmaWriteLoad (qp : Nat) (p : Nat) (key : Word) (va : DWord) (ce : Bool) (data : List Byte)
    (s : State) : Host.Outcome State Fault Refusal :=
  liftWf (.rdmaWriteLoad qp p key va ce data) (rdmaWriteLoad qp p key va ce data) s

/-- PFC_XON_TX (R477). -/
def execPfcXonTx (strand : Bool) (low : Nat) (high : Nat) (s : State) : Host.Outcome State Fault Refusal :=
  liftWf (.pfcXonTx strand low high) (pfcBuffer strand low high) s

/-- RDMA_WRITE_TUNE_STAGING (R436). -/
def execRdmaWriteTuneStaging (qp : Nat) (p : Nat) (off : Nat) (ce : Bool) (data : List Byte) (s : State) : Host.Outcome State Fault Refusal :=
  liftWf (.rdmaWriteTuneStaging qp p off ce data) (rdmaWriteTuneStaging qp p off ce data) s

/-- RDMA_WRITE_MASK (R412). -/
def execRdmaWriteMask (qp : Nat) (p : Nat) (off : Nat) (ce : Bool) (data : List Byte) (s : State) : Host.Outcome State Fault Refusal :=
  liftWf (.rdmaWriteMask qp p off ce data) (rdmaWriteMask qp p off ce data) s

/-- RDMA_WRITE_CONSORT_PORT (R556). -/
def execRdmaWriteConsortPort (k : Nat) (qp : Nat) (ce : Bool) (data : List Byte) (s : State) : Host.Outcome State Fault Refusal :=
  liftWf (.rdmaWriteConsortPort k qp ce data) (rdmaWriteConsortPort k qp ce data) s

/-- RDMA_FIREWALL_REFUSE (R526). -/
def execRdmaFirewallRefuse (p : Nat) (qp : Nat) (s : State) : Host.Outcome State Fault Refusal :=
  liftWf (.rdmaFirewallRefuse p qp) (rdmaFirewallRefuse p qp) s

/-- CNP_RX (R473). -/
def execCnpRx (qp : Nat) (s : State) : Host.Outcome State Fault Refusal :=
  liftWf (.cnpRx qp) (cnpRx qp) s

/-- PFC_XOFF_RX (R477). -/
def execPfcXoffRx (prio : Nat) (s : State) : Host.Outcome State Fault Refusal :=
  liftWf (.pfcXoffRx prio) (pfcRx true prio) s

/-- PFC_XON_RX (R477). -/
def execPfcXonRx (prio : Nat) (s : State) : Host.Outcome State Fault Refusal :=
  liftWf (.pfcXonRx prio) (pfcRx false prio) s

/-- ARP_REQUEST (R474). -/
def execArpRequest (ip : Word) (s : State) : Host.Outcome State Fault Refusal :=
  lift (arpRequest ip) s

/-- NEIGHBOR_SOLICIT (R474). -/
def execNeighborSolicit (ip : BitVec 128) (s : State) : Host.Outcome State Fault Refusal :=
  lift (neighborSolicit ip) s

/-- ICMP_ECHO_REQUEST (R474). -/
def execIcmpEchoRequest (dst : BitVec 128) (data : List Byte) (s : State) : Host.Outcome State Fault Refusal :=
  lift (icmpEcho dst data) s

/-- TRANSCEIVER_INSERT (R667). -/
def execTransceiverInsert (s : State) : Host.Outcome State Fault Refusal :=
  lift transceiverInsert s

/-- TRANSCEIVER_REMOVE (R667). -/
def execTransceiverRemove (s : State) : Host.Outcome State Fault Refusal :=
  lift transceiverRemove s

/-- ETH_LINK_UP (R513). -/
def execEthLinkUp (s : State) : Host.Outcome State Fault Refusal :=
  lift ethLinkUp s

/-- ETH_LINK_DOWN (R513). -/
def execEthLinkDown (lanes : Byte) (fec : Bool) (s : State) : Host.Outcome State Fault Refusal :=
  lift (ethLinkDown lanes fec) s

end Sys2Proof.Machine
end

