-- ==== Sys2Proof/Machine/CmdPower.lean ====
section
/-! DEFINITION. Meanings of the commands of power, heat, pins and test access (17; 18; 06 R245). -/

namespace Sys2Proof.Machine

/-- POWER_REQ_ACTIVE (R636). -/
def execPowerReqActive (m : Dgram) (autoIdle : Bool) (s : State) : Host.Outcome State Fault Refusal :=
  lift (receive (writeOne HS_PWRCTL (1 * 2 ^ 29 + b2n autoIdle * 2 ^ 28) m)) s

/-- POWER_REQ_HUSH (R637). -/
def execPowerReqHush (m : Dgram) (autoIdle : Bool) (s : State) : Host.Outcome State Fault Refusal :=
  lift (receive (writeOne HS_PWRCTL (3 * 2 ^ 29 + b2n autoIdle * 2 ^ 28) m)) s

/-- POWER_REQ_VIGIL (R637). -/
def execPowerReqVigil (m : Dgram) (autoIdle : Bool) (s : State) : Host.Outcome State Fault Refusal :=
  lift (receive (writeOne HS_PWRCTL (4 * 2 ^ 29 + b2n autoIdle * 2 ^ 28) m)) s

/-- POWER_DRAIN_DONE (R637). -/
def execPowerDrainDone (held : Nat) (s : State) : Host.Outcome State Fault Refusal :=
  lift (powerDrainDone held) s

/-- DRAIN_TIMEOUT (R636). -/
def execDrainTimeout (s : State) : Host.Outcome State Fault Refusal :=
  lift drainTimeout s

/-- AUTO_IDLE_ENTER (R635). -/
def execAutoIdleEnter (s : State) : Host.Outcome State Fault Refusal :=
  lift autoIdleEnter s

/-- IDLE_EXIT (R635). -/
def execIdleExit (s : State) : Host.Outcome State Fault Refusal :=
  lift idleExit s

/-- WAKE_DONE (R640). -/
def execWakeDone (held : Nat) (s : State) : Host.Outcome State Fault Refusal :=
  lift (wakeDone held) s

/-- VIGIL_SAMPLE (R642). -/
def execVigilSample (lanes : Nat) (temps : List Half) (vin : Half) (s : State) : Host.Outcome State Fault Refusal :=
  liftWf (.vigilSample lanes temps vin) (vigilSample lanes temps vin) s

/-- POWER_ON (R653). -/
def execPowerOn (s : State) : Host.Outcome State Fault Refusal :=
  lift powerOn s

/-- BROWN_OUT (R597). -/
def execBrownOut (s : State) : Host.Outcome State Fault Refusal :=
  lift brownOut s

/-- OVER_VOLTAGE (R653). -/
def execOverVoltage (s : State) : Host.Outcome State Fault Refusal :=
  lift overVoltage s

/-- PIN_RESET (R672). -/
def execPinReset (s : State) : Host.Outcome State Fault Refusal :=
  lift pinReset s

/-- PIN_RESET_RELEASE (R672). -/
def execPinResetRelease (s : State) : Host.Outcome State Fault Refusal :=
  lift pinResetRelease s

/-- TAP_RESET (R677). -/
def execTapReset (level : Bool) (s : State) : Host.Outcome State Fault Refusal :=
  lift (tapReset level) s

/-- JTAG_IDCODE (R677). -/
def execJtagIdcode (s : State) : Host.Outcome State Fault Refusal :=
  lift jtagIdcode s

/-- JTAG_BYPASS (R677). -/
def execJtagBypass (tdi : List Bool) (s : State) : Host.Outcome State Fault Refusal :=
  lift (jtagBypass tdi) s

/-- JTAG_SAMPLE_PRELOAD (R677). -/
def execJtagSamplePreload (preload : List (Nat × Bool)) (s : State) : Host.Outcome State Fault Refusal :=
  lift (jtagSample preload) s

/-- JTAG_EXTEST (R677). -/
def execJtagExtest (cells : List (Nat × Bool)) (tdi : List Bool) (s : State) : Host.Outcome State Fault Refusal :=
  lift (jtagExtest cells tdi) s

/-- JTAG_CLAMP (R677). -/
def execJtagClamp (tdi : List Bool) (s : State) : Host.Outcome State Fault Refusal :=
  lift (jtagClamp tdi) s

/-- HBM_PATROL_SCRUB (R245). -/
def execHbmPatrolScrub (b : Nat) (stack : Nat) (addr : Nat) (n : Nat) (s : State) : Host.Outcome State Fault Refusal :=
  liftWf (.hbmPatrolScrub b stack addr n) (patrolScrub b stack addr n) s

/-- SENSOR_SAMPLE (R646). -/
def execSensorSample (die : Nat) (k : Nat) (v : Half) (s : State) : Host.Outcome State Fault Refusal :=
  liftWf (.sensorSample die k v) (sensorSample die k v) s

/-- POWER_SENSOR_SAMPLE (R646). -/
def execPowerSensorSample (hbms : List (Nat × Nat × Half)) (vin : Half) (iin : Half) (pin : Half) (s : State) : Host.Outcome State Fault Refusal :=
  lift (powerSensorSample hbms vin iin pin) s

/-- THERMAL_GRACE_END (R649). -/
def execThermalGraceEnd (s : State) : Host.Outcome State Fault Refusal :=
  lift graceEnd s

/-- TLEVEL_STEP (R649). -/
def execTlevelStep (held : Nat) (s : State) : Host.Outcome State Fault Refusal :=
  lift (tlevelStep held) s

/-- PLEVEL_STEP (R650). -/
def execPlevelStep (held : Nat) (s : State) : Host.Outcome State Fault Refusal :=
  lift (plevelStep held) s

/-- THERMAL_TRIP (R652). -/
def execThermalTrip (die : Nat) (k : Nat) (v : Half) (s : State) : Host.Outcome State Fault Refusal :=
  liftWf (.thermalTrip die k v) (thermalTrip die k v) s

/-- OVER_VOLTAGE_END (R653). -/
def execOverVoltageEnd (s : State) : Host.Outcome State Fault Refusal :=
  lift overVoltageEnd s

end Sys2Proof.Machine
end

