-- ==== Sys2Proof/Machine/CmdReset.lean ====
section
/-! DEFINITION. Meanings of the reset commands (16 R597-R629; 01 R45, R46). -/

namespace Sys2Proof.Machine

/-- SOFTWARE_RESET_DIE (R629). -/
def execSoftwareResetDie (m : Dgram) (die : BitVec 5) (s : State) : Host.Outcome State Fault Refusal :=
  lift (receive (writeOne HS_RSTCTL (3 * 2 ^ 29 + die.toNat * 2 ^ 24) m)) s

/-- SOFTWARE_RESET_WARM (R629). -/
def execSoftwareResetWarm (m : Dgram) (s : State) : Host.Outcome State Fault Refusal :=
  lift (receive (writeOne HS_RSTCTL (4 * 2 ^ 29) m)) s

/-- SOFTWARE_RESET_COLD (R629). -/
def execSoftwareResetCold (m : Dgram) (s : State) : Host.Outcome State Fault Refusal :=
  lift (receive (writeOne HS_RSTCTL (5 * 2 ^ 29) m)) s

/-- REINSTATE (R623). -/
def execReinstate (m : Dgram) (s : State) : Host.Outcome State Fault Refusal :=
  lift (receive (writeOne HS_RSTCTL 1 m)) s

/-- WATCHDOG_EXPIRY (R564). -/
def execWatchdogExpiry (s : State) : Host.Outcome State Fault Refusal :=
  lift watchdogExpiry s

/-- LOCKUP (R564). -/
def execLockup (s : State) : Host.Outcome State Fault Refusal :=
  lift lockup s

/-- CLOCK_FAIL (R46). -/
def execClockFail (s : State) : Host.Outcome State Fault Refusal :=
  lift clockFail s

/-- DEBUG_RESET (R597). -/
def execDebugReset (s : State) : Host.Outcome State Fault Refusal :=
  lift debugReset s

/-- ESCALATE (R614). -/
def execEscalate (k : Option Nat) (s : State) : Host.Outcome State Fault Refusal :=
  lift (escalate k) s

/-- DEVICE_RESET_RELEASE (R602). -/
def execDeviceResetRelease (b0 : BitVec 2) (c0 : BitVec 2) (b1 : BitVec 2) (c1 : BitVec 2) (pb : BitVec 2) (pc : BitVec 2) (s : State) : Host.Outcome State Fault Refusal :=
  lift (deviceResetRelease b0 c0 b1 c1 pb pc) s

/-- ROOT_PLL_LOCK (R45). -/
def execRootPllLock (s : State) : Host.Outcome State Fault Refusal :=
  lift rootPllLock s

/-- CALIBRATION_COMMIT (R278). -/
def execCalibrationCommit (l : List DieCal) (s : State) : Host.Outcome State Fault Refusal :=
  liftWf (.calibrationCommit l) (calibrationCommit l) s

/-- DEVICE_RESET_DONE (R613). -/
def execDeviceResetDone (s : State) : Host.Outcome State Fault Refusal :=
  lift deviceResetEnd s

/-- DIE_RESET_DONE (R612). -/
def execDieResetDone (n : Nat) (s : State) : Host.Outcome State Fault Refusal :=
  liftWf (.dieResetDone n) (dieResetDone n) s

/-- PARTITION_RESET_DONE (R611). -/
def execPartitionResetDone (p : Nat) (s : State) : Host.Outcome State Fault Refusal :=
  liftWf (.partitionResetDone p) (partitionResetDone p) s

/-- STAGE_RESET_DONE (R611). -/
def execStageResetDone (p : Nat) (stage : Nat) (s : State) : Host.Outcome State Fault Refusal :=
  liftWf (.stageResetDone p stage) (stageResetDone p stage) s

/-- NV_WRITE_PULSE_END (R604). -/
def execNvWritePulseEnd (next : Option NvWrite) (s : State) : Host.Outcome State Fault Refusal :=
  lift (nvPulseEnd next) s

end Sys2Proof.Machine
end

