-- ==== Sys2Proof/Machine/CmdServe.lean ====
section
/-! DEFINITION. Meanings of the commands of streams, weights and KV (08-10; 13 R537). -/

namespace Sys2Proof.Machine

/-- TOKEN_RECORD_ARRIVAL (R497). -/
def execTokenRecordArrival (i : Nat) (s : State) : Host.Outcome State Fault Refusal :=
  liftWf (.tokenRecordArrival i) (tokenRecordArrival i) s

/-- BRIDGE_TENSOR_PASS (R537). -/
def execBridgeTensorPass (p : Nat) (b : Nat) (stage : Nat) (stream : Nat) (pos : Nat) (vals : List Word) (s : State) : Host.Outcome State Fault Refusal :=
  liftWf (.bridgeTensorPass p b stage stream pos vals) (bridgeTensorPass p b stage stream pos vals) s

/-- KV_APPEND_PIECE (R372). -/
def execKvAppendPiece (b : Nat) (i : Nat) (draft : Bool) (l : Nat) (pos : Nat) (kind : Nat) (head : Nat) (bf16 : Bool) (data : List Byte) (errs : List (Nat × Nat)) (s : State) : Host.Outcome State Fault Refusal :=
  liftWf (.kvAppendPiece b i draft l pos kind head bf16 data errs) (kvAppendPiece b i draft l pos kind head bf16 data errs) s

/-- ATTENTION_STEP (R374). -/
def execAttentionStep (b : Nat) (i : Nat) (lk : Nat) (appends : Bool) (s : State) : Host.Outcome State Fault Refusal :=
  liftWf (.attentionStep b i lk appends) (attentionStep b i lk appends) s

/-- ATTENTION_OUTPUT (R375). -/
def execAttentionOutput (b : Nat) (i : Nat) (lk : Nat) (errs : List (Nat × Nat)) (words : List (Nat × Nat)) (s : State) : Host.Outcome State Fault Refusal :=
  liftWf (.attentionOutput b i lk errs words) (attentionOutput b i lk errs words) s

/-- STAGING_FLUSH_ACK (R370). -/
def execStagingFlushAck (b : Nat) (i : Nat) (lk : Nat) (first : Nat) (s : State) : Host.Outcome State Fault Refusal :=
  liftWf (.stagingFlushAck b i lk first) (stagingFlushAck b i lk first) s

/-- EDIT_PUBLISH (R360). -/
def execEditPublish (b : Nat) (wait : Nat) (s : State) : Host.Outcome State Fault Refusal :=
  liftWf (.editPublish b wait) (editPublishDone b wait) s

/-- GENERATION_END (R361). -/
def execGenerationEnd (b : Nat) (s : State) : Host.Outcome State Fault Refusal :=
  liftWf (.generationEnd b) (generationEnd b) s

/-- BATCH_FORMATION (R402). -/
def execBatchFormation (p : Nat) (s : State) : Host.Outcome State Fault Refusal :=
  liftWf (.batchFormation p) (batchFormed p) s

/-- STEP_BOUNDARY (R392). -/
def execStepBoundary (i : Nat) (s : State) : Host.Outcome State Fault Refusal :=
  liftWf (.stepBoundary i) (stepBoundary i) s

/-- DRAFT_STEP_DONE (R407). -/
def execDraftStepDone (i : Nat) (logits : List (List Word)) (s : State) : Host.Outcome State Fault Refusal :=
  liftWf (.draftStepDone i logits) (draftStepDone i logits) s

/-- PICK_SAMPLE (R413). -/
def execPickSample (i : Nat) (logits : List (List Word)) (s : State) : Host.Outcome State Fault Refusal :=
  liftWf (.pickSample i logits) (pickSample i logits) s

/-- DEADLINE_REACHED (R417). -/
def execDeadlineReached (i : Nat) (s : State) : Host.Outcome State Fault Refusal :=
  liftWf (.deadlineReached i) (deadlineReached i) s

/-- PARK_EXPIRY (R427). -/
def execParkExpiry (i : Nat) (s : State) : Host.Outcome State Fault Refusal :=
  liftWf (.parkExpiry i) (parkExpiry i) s

/-- KV_HOLD_TIMEOUT (R405). -/
def execKvHoldTimeout (i : Nat) (s : State) : Host.Outcome State Fault Refusal :=
  liftWf (.kvHoldTimeout i) (kvHoldTimeout i) s

/-- SCHEDULER_RESUME (R423). -/
def execSchedulerResume (p : Nat) (s : State) : Host.Outcome State Fault Refusal :=
  liftWf (.schedulerResume p) (schedulerResume p) s

/-- FAR_PREFETCH_START (R320). -/
def execFarPrefetchStart (p : Nat) (model : Nat) (e : Word) (tag : Nat) (s : State) : Host.Outcome State Fault Refusal :=
  liftWf (.farPrefetchStart p model e tag) (farPrefetchStart p model e tag) s

/-- FAR_LAYER_LANDED (R321). -/
def execFarLayerLanded (shards : List (Nat × List Byte)) (s : State) : Host.Outcome State Fault Refusal :=
  lift (farLayerLanded shards) s

/-- FAR_READ_TIMEOUT (R322). -/
def execFarReadTimeout (b : Nat) (exhausted : Bool) (s : State) : Host.Outcome State Fault Refusal :=
  liftWf (.farReadTimeout b exhausted) (farReadTimeout b exhausted) s

/-- EPOCH_RETIRE_BY (R326). -/
def execEpochRetireBy (p : Nat) (model : Nat) (s : State) : Host.Outcome State Fault Refusal :=
  liftWf (.epochRetireBy p model) (epochRetired p model) s

/-- WINDOW_IDLE_TIMEOUT (R314). -/
def execWindowIdleTimeout (n : Nat) (s : State) : Host.Outcome State Fault Refusal :=
  liftWf (.windowIdleTimeout n) (windowIdleTimeout n) s

/-- LOAD_COMMIT_RESULT (R310). -/
def execLoadCommitResult (n : Nat) (nonFinite : Bool) (s : State) : Host.Outcome State Fault Refusal :=
  liftWf (.loadCommitResult n nonFinite) (loadCommitResult n nonFinite) s

/-- AT_RISK_TTFT (R421). -/
def execAtRiskTtft (i : Nat) (s : State) : Host.Outcome State Fault Refusal :=
  liftWf (.atRiskTtft i) (atRiskTtft i) s

/-- EDIT_DATA_TRANSFER_DONE (R358). -/
def execEditDataTransferDone (b : Nat) (data : List Byte) (s : State) : Host.Outcome State Fault Refusal :=
  liftWf (.editDataTransferDone b data) (editDataTransferDone b data) s

end Sys2Proof.Machine
end

