-- ==== Sys2Proof/Machine/CmdStrand.lean ====
section
/-! DEFINITION. Meanings of the Strand commands: datagrams that arrive, and the timers of associations (12 R474-R503). -/

namespace Sys2Proof.Machine

/-- STRAND_BAD_HEADER (R481). -/
def execStrandBadHeader (m : Dgram) (s : State) : Host.Outcome State Fault Refusal :=
  lift (strandBadHeader m) s

/-- UNBOUND_SOURCE_DROP (R526). -/
def execUnboundSourceDrop (m : Dgram) (s : State) : Host.Outcome State Fault Refusal :=
  lift (unboundSourceDrop m) s

/-- ASSOC_OPEN (R482). -/
def execAssocOpen (m : Dgram) (s : State) : Host.Outcome State Fault Refusal :=
  lift (receive (asHead fOPEN (fCLOSE ||| fREPLY ||| fREJECT ||| fAUTH) m)) s

/-- ASSOC_CLOSE (R488). -/
def execAssocClose (m : Dgram) (s : State) : Host.Outcome State Fault Refusal :=
  lift (receive (asHead fCLOSE (fOPEN ||| fREPLY ||| fREJECT ||| fAUTH) m)) s

/-- HEADER_ACK (R486). -/
def execHeaderAck (m : Dgram) (s : State) : Host.Outcome State Fault Refusal :=
  lift (receive (asHead 0#8 (fOPEN ||| fCLOSE ||| fREPLY ||| fREJECT ||| fAUTH) m)) s

/-- WAKE_FRAME (R639). -/
def execWakeFrame (m : Dgram) (s : State) : Host.Outcome State Fault Refusal :=
  lift (receive (asHead (fOPEN ||| fCLOSE) 0xFF#8 m)) s

/-- ADMIT (R397). -/
def execAdmit (m : Dgram) (s : State) : Host.Outcome State Fault Refusal :=
  lift (receive (asReq 0x01#8 m)) s

/-- APPEND (R399). -/
def execAppend (m : Dgram) (s : State) : Host.Outcome State Fault Refusal :=
  lift (receive (asReq 0x02#8 m)) s

/-- PAUSE (R391). -/
def execPause (m : Dgram) (s : State) : Host.Outcome State Fault Refusal :=
  lift (receive (asReq 0x03#8 m)) s

/-- RESUME (R424). -/
def execResume (m : Dgram) (s : State) : Host.Outcome State Fault Refusal :=
  lift (receive (asReq 0x04#8 m)) s

/-- CANCEL (R393). -/
def execCancel (m : Dgram) (s : State) : Host.Outcome State Fault Refusal :=
  lift (receive (asReq 0x05#8 m)) s

/-- PARK (R425). -/
def execPark (m : Dgram) (s : State) : Host.Outcome State Fault Refusal :=
  lift (receive (asReq 0x06#8 m)) s

/-- UNPARK (R426). -/
def execUnpark (m : Dgram) (s : State) : Host.Outcome State Fault Refusal :=
  lift (receive (asReq 0x07#8 m)) s

/-- PREFIX_REGISTER (R428). -/
def execPrefixRegister (m : Dgram) (s : State) : Host.Outcome State Fault Refusal :=
  lift (receive (asReq 0x08#8 m)) s

/-- PREFIX_DROP (R366). -/
def execPrefixDrop (m : Dgram) (s : State) : Host.Outcome State Fault Refusal :=
  lift (receive (asReq 0x09#8 m)) s

/-- LOAD_BEGIN (R305). -/
def execLoadBegin (m : Dgram) (s : State) : Host.Outcome State Fault Refusal :=
  lift (receive (asReq 0x20#8 m)) s

/-- LOAD_COMMIT (R310). -/
def execLoadCommit (m : Dgram) (s : State) : Host.Outcome State Fault Refusal :=
  lift (receive (asReq 0x21#8 m)) s

/-- LOAD_ABORT (R502). -/
def execLoadAbort (m : Dgram) (s : State) : Host.Outcome State Fault Refusal :=
  lift (receive (asReq 0x22#8 m)) s

/-- ADAPTER_LOAD_OPEN (R332). -/
def execAdapterLoadOpen (m : Dgram) (s : State) : Host.Outcome State Fault Refusal :=
  lift (receive (asOp 0x23#8 2 0#8 m)) s

/-- ADAPTER_LOAD_REMOVE (R334). -/
def execAdapterLoadRemove (m : Dgram) (s : State) : Host.Outcome State Fault Refusal :=
  lift (receive (asOp 0x23#8 2 1#8 m)) s

/-- TABLE_EDIT (R364). -/
def execTableEdit (m : Dgram) (s : State) : Host.Outcome State Fault Refusal :=
  lift (receive (asReq 0x24#8 m)) s

/-- SYNC_SIGNAL_ADD (R528). -/
def execSyncSignalAdd (m : Dgram) (s : State) : Host.Outcome State Fault Refusal :=
  lift (receive (asOp 0x28#8 4 0#8 m)) s

/-- SYNC_SIGNAL_SET (R528). -/
def execSyncSignalSet (m : Dgram) (s : State) : Host.Outcome State Fault Refusal :=
  lift (receive (asOp 0x28#8 4 1#8 m)) s

/-- SYNC_WAIT_NOTIFY (R529). -/
def execSyncWaitNotify (m : Dgram) (s : State) : Host.Outcome State Fault Refusal :=
  lift (receive (asReq 0x29#8 m)) s

/-- ACK_TIMER (R485). -/
def execAckTimer (aid : Nat) (s : State) : Host.Outcome State Fault Refusal :=
  lift (ackTimer aid) s

/-- RETRANSMIT_TIMEOUT (R486). -/
def execRetransmitTimeout (aid : Nat) (s : State) : Host.Outcome State Fault Refusal :=
  lift (retransmitTimeout aid) s

/-- ASSOC_LOST (R487). -/
def execAssocLost (aid : Nat) (s : State) : Host.Outcome State Fault Refusal :=
  lift (assocLost aid) s

/-- TOKENS_LATE (R487). -/
def execTokensLate (aid : Nat) (s : State) : Host.Outcome State Fault Refusal :=
  lift (tokensLate aid) s

end Sys2Proof.Machine
end

