-- ==== Sys2Proof/Machine/Dispatch.lean ====
section
/-! DEFINITION. Every command to its meaning, one arm each. -/

namespace Sys2Proof.Machine

def exec (i : Instr) (s : State) : Host.Outcome State Fault Refusal :=
  match i with
  | .frameDrop corr unc => Sys2Proof.Machine.execFrameDrop corr unc s
  | .strandBadHeader m => Sys2Proof.Machine.execStrandBadHeader m s
  | .unboundSourceDrop m => Sys2Proof.Machine.execUnboundSourceDrop m s
  | .assocOpen m => Sys2Proof.Machine.execAssocOpen m s
  | .assocClose m => Sys2Proof.Machine.execAssocClose m s
  | .headerAck m => Sys2Proof.Machine.execHeaderAck m s
  | .wakeFrame m => Sys2Proof.Machine.execWakeFrame m s
  | .admitStream m => Sys2Proof.Machine.execAdmit m s
  | .append m => Sys2Proof.Machine.execAppend m s
  | .pause m => Sys2Proof.Machine.execPause m s
  | .resume m => Sys2Proof.Machine.execResume m s
  | .cancel m => Sys2Proof.Machine.execCancel m s
  | .park m => Sys2Proof.Machine.execPark m s
  | .unpark m => Sys2Proof.Machine.execUnpark m s
  | .prefixRegister m => Sys2Proof.Machine.execPrefixRegister m s
  | .prefixDrop m => Sys2Proof.Machine.execPrefixDrop m s
  | .loadBegin m => Sys2Proof.Machine.execLoadBegin m s
  | .loadCommit m => Sys2Proof.Machine.execLoadCommit m s
  | .loadAbort m => Sys2Proof.Machine.execLoadAbort m s
  | .adapterLoadOpen m => Sys2Proof.Machine.execAdapterLoadOpen m s
  | .adapterLoadRemove m => Sys2Proof.Machine.execAdapterLoadRemove m s
  | .tableEdit m => Sys2Proof.Machine.execTableEdit m s
  | .syncSignalAdd m => Sys2Proof.Machine.execSyncSignalAdd m s
  | .syncSignalSet m => Sys2Proof.Machine.execSyncSignalSet m s
  | .syncWaitNotify m => Sys2Proof.Machine.execSyncWaitNotify m s
  | .mgmtRead m => Sys2Proof.Machine.execMgmtRead m s
  | .mgmtWrite m => Sys2Proof.Machine.execMgmtWrite m s
  | .mgmtResetStage m => Sys2Proof.Machine.execMgmtResetStage m s
  | .mgmtResetPartition m => Sys2Proof.Machine.execMgmtResetPartition m s
  | .mgmtResetDie m => Sys2Proof.Machine.execMgmtResetDie m s
  | .mgmtResetWarm m => Sys2Proof.Machine.execMgmtResetWarm m s
  | .mgmtResetCold m => Sys2Proof.Machine.execMgmtResetCold m s
  | .attestReport m => Sys2Proof.Machine.execAttestReport m s
  | .sessionOpen m => Sys2Proof.Machine.execSessionOpen m s
  | .sessionClose m => Sys2Proof.Machine.execSessionClose m s
  | .claim m => Sys2Proof.Machine.execClaim m s
  | .certs m => Sys2Proof.Machine.execCerts m s
  | .updateChunk m => Sys2Proof.Machine.execUpdateChunk m s
  | .updateVerifyDone => Sys2Proof.Machine.execUpdateVerifyDone s
  | .updateProgramDone readBackOk => Sys2Proof.Machine.execUpdateProgramDone readBackOk s
  | .updateAbort m => Sys2Proof.Machine.execUpdateAbort m s
  | .updateIdleTimeout => Sys2Proof.Machine.execUpdateIdleTimeout s
  | .rdmaWriteLoad qp p key va ce data => Sys2Proof.Machine.execRdmaWriteLoad qp p key va ce data s
  | .pfcXonTx strand low high => Sys2Proof.Machine.execPfcXonTx strand low high s
  | .rdmaWriteTuneStaging qp p off ce data => Sys2Proof.Machine.execRdmaWriteTuneStaging qp p off ce data s
  | .rdmaWriteMask qp p off ce data => Sys2Proof.Machine.execRdmaWriteMask qp p off ce data s
  | .rdmaWriteConsortPort k qp ce data => Sys2Proof.Machine.execRdmaWriteConsortPort k qp ce data s
  | .rdmaFirewallRefuse p qp => Sys2Proof.Machine.execRdmaFirewallRefuse p qp s
  | .cnpRx qp => Sys2Proof.Machine.execCnpRx qp s
  | .pfcXoffRx prio => Sys2Proof.Machine.execPfcXoffRx prio s
  | .pfcXonRx prio => Sys2Proof.Machine.execPfcXonRx prio s
  | .arpRequest ip => Sys2Proof.Machine.execArpRequest ip s
  | .neighborSolicit ip => Sys2Proof.Machine.execNeighborSolicit ip s
  | .icmpEchoRequest dst data => Sys2Proof.Machine.execIcmpEchoRequest dst data s
  | .ptpSyncRx dom t1 f2 f3 => Sys2Proof.Machine.execPtpSyncRx dom t1 f2 f3 s
  | .ptpDelayReqRx dom => Sys2Proof.Machine.execPtpDelayReqRx dom s
  | .ptpSyncInterval => Sys2Proof.Machine.execPtpSyncInterval s
  | .clockSlew => Sys2Proof.Machine.execClockSlew s
  | .transceiverInsert => Sys2Proof.Machine.execTransceiverInsert s
  | .transceiverRemove => Sys2Proof.Machine.execTransceiverRemove s
  | .ackTimer aid => Sys2Proof.Machine.execAckTimer aid s
  | .retransmitTimeout aid => Sys2Proof.Machine.execRetransmitTimeout aid s
  | .assocLost aid => Sys2Proof.Machine.execAssocLost aid s
  | .tokensLate aid => Sys2Proof.Machine.execTokensLate aid s
  | .sessionIdleTimeout num => Sys2Proof.Machine.execSessionIdleTimeout num s
  | .tokenRecordArrival x => Sys2Proof.Machine.execTokenRecordArrival x s
  | .tuningLoad m p => Sys2Proof.Machine.execTuningLoad m p s
  | .tuningAbort m p => Sys2Proof.Machine.execTuningAbort m p s
  | .tuningVerifyDone p => Sys2Proof.Machine.execTuningVerifyDone p s
  | .tuningBarrierReached p => Sys2Proof.Machine.execTuningBarrierReached p s
  | .tuningBarrierTimeout p => Sys2Proof.Machine.execTuningBarrierTimeout p s
  | .mapCommit m => Sys2Proof.Machine.execMapCommit m s
  | .mapDiscard m => Sys2Proof.Machine.execMapDiscard m s
  | .mapBarrier p => Sys2Proof.Machine.execMapBarrier p s
  | .mapHandoverEnd k base count => Sys2Proof.Machine.execMapHandoverEnd k base count s
  | .consortJoin m => Sys2Proof.Machine.execConsortJoin m s
  | .consortJoinRequestRx k digest serial cgen partOn streams timeOk => Sys2Proof.Machine.execConsortJoinRequestRx k digest serial cgen partOn streams timeOk s
  | .consortLeave m => Sys2Proof.Machine.execConsortLeave m s
  | .strumSignal m arg obj => Sys2Proof.Machine.execStrumSignal m arg obj s
  | .strumGate m arg obj => Sys2Proof.Machine.execStrumGate m arg obj s
  | .strumTune m arg obj => Sys2Proof.Machine.execStrumTune m arg obj s
  | .strumReceive cancel action arg obj t => Sys2Proof.Machine.execStrumReceive cancel action arg obj t s
  | .strumAckDeadline => Sys2Proof.Machine.execStrumAckDeadline s
  | .strumFire => Sys2Proof.Machine.execStrumFire s
  | .consortSyncUpdateRx k op v cycle => Sys2Proof.Machine.execConsortSyncUpdateRx k op v cycle s
  | .consortEntryRx off entry m => Sys2Proof.Machine.execConsortEntryRx off entry m s
  | .batchDescriptorRx bid model epoch ents => Sys2Proof.Machine.execBatchDescriptorRx bid model epoch ents s
  | .memberAlignLost k => Sys2Proof.Machine.execMemberAlignLost k s
  | .masterLost => Sys2Proof.Machine.execMasterLost s
  | .consortPortTimeout k => Sys2Proof.Machine.execConsortPortTimeout k s
  | .softwareResetDie m die => Sys2Proof.Machine.execSoftwareResetDie m die s
  | .softwareResetWarm m => Sys2Proof.Machine.execSoftwareResetWarm m s
  | .softwareResetCold m => Sys2Proof.Machine.execSoftwareResetCold m s
  | .reinstate m => Sys2Proof.Machine.execReinstate m s
  | .powerReqActive m autoIdle => Sys2Proof.Machine.execPowerReqActive m autoIdle s
  | .powerReqHush m autoIdle => Sys2Proof.Machine.execPowerReqHush m autoIdle s
  | .powerReqVigil m autoIdle => Sys2Proof.Machine.execPowerReqVigil m autoIdle s
  | .powerDrainDone held => Sys2Proof.Machine.execPowerDrainDone held s
  | .drainTimeout => Sys2Proof.Machine.execDrainTimeout s
  | .autoIdleEnter => Sys2Proof.Machine.execAutoIdleEnter s
  | .idleExit => Sys2Proof.Machine.execIdleExit s
  | .wakeDone held => Sys2Proof.Machine.execWakeDone held s
  | .vigilSample lanes temps vin => Sys2Proof.Machine.execVigilSample lanes temps vin s
  | .keyRead m => Sys2Proof.Machine.execKeyRead m s
  | .keyEnroll m => Sys2Proof.Machine.execKeyEnroll m s
  | .keyRevoke m => Sys2Proof.Machine.execKeyRevoke m s
  | .keyStoreWritten => Sys2Proof.Machine.execKeyStoreWritten s
  | .tileTest m f c t => Sys2Proof.Machine.execTileTest m f c t s
  | .tileReinstate m f c t => Sys2Proof.Machine.execTileReinstate m f c t s
  | .trackerClear m f c t col => Sys2Proof.Machine.execTrackerClear m f c t col s
  | .loCaptureRead m a => Sys2Proof.Machine.execLoCaptureRead m a s
  | .multiWordCaptureRead m a => Sys2Proof.Machine.execMultiWordCaptureRead m a s
  | .powerOn => Sys2Proof.Machine.execPowerOn s
  | .brownOut => Sys2Proof.Machine.execBrownOut s
  | .overVoltage => Sys2Proof.Machine.execOverVoltage s
  | .pinReset => Sys2Proof.Machine.execPinReset s
  | .pinResetRelease => Sys2Proof.Machine.execPinResetRelease s
  | .watchdogExpiry => Sys2Proof.Machine.execWatchdogExpiry s
  | .lockup => Sys2Proof.Machine.execLockup s
  | .clockFail => Sys2Proof.Machine.execClockFail s
  | .debugReset => Sys2Proof.Machine.execDebugReset s
  | .tapReset level => Sys2Proof.Machine.execTapReset level s
  | .jtagIdcode => Sys2Proof.Machine.execJtagIdcode s
  | .jtagBypass tdi => Sys2Proof.Machine.execJtagBypass tdi s
  | .jtagSamplePreload preload => Sys2Proof.Machine.execJtagSamplePreload preload s
  | .jtagExtest cells tdi => Sys2Proof.Machine.execJtagExtest cells tdi s
  | .jtagClamp tdi => Sys2Proof.Machine.execJtagClamp tdi s
  | .escalate k => Sys2Proof.Machine.execEscalate k s
  | .deviceResetRelease b0 c0 b1 c1 pb pc => Sys2Proof.Machine.execDeviceResetRelease b0 c0 b1 c1 pb pc s
  | .rootPllLock => Sys2Proof.Machine.execRootPllLock s
  | .calibrationCommit l => Sys2Proof.Machine.execCalibrationCommit l s
  | .deviceResetDone => Sys2Proof.Machine.execDeviceResetDone s
  | .dieResetDone n => Sys2Proof.Machine.execDieResetDone n s
  | .partitionResetDone p => Sys2Proof.Machine.execPartitionResetDone p s
  | .stageResetDone p stage => Sys2Proof.Machine.execStageResetDone p stage s
  | .ppsInEdge low gap => Sys2Proof.Machine.execPpsInEdge low gap s
  | .ppsOutPulse => Sys2Proof.Machine.execPpsOutPulse s
  | .flitCrcFail ch h payload crc replayed => Sys2Proof.Machine.execFlitCrcFail ch h payload crc replayed s
  | .replayRequestRx ch lseq => Sys2Proof.Machine.execReplayRequestRx ch lseq s
  | .linkRetrainDone l ok => Sys2Proof.Machine.execLinkRetrainDone l ok s
  | .firewallFlitDiscard b h => Sys2Proof.Machine.execFirewallFlitDiscard b h s
  | .sliceArrival f c w stream scale payload outl => Sys2Proof.Machine.execSliceArrival f c w stream scale payload outl s
  | .passStart f c sl stall => Sys2Proof.Machine.execPassStart f c sl stall s
  | .pluck f c go convs upsets backlog => Sys2Proof.Machine.execPluck f c go convs upsets backlog s
  | .encorePassEnd f c sl => Sys2Proof.Machine.execEncorePassEnd f c sl s
  | .groupHandon f c t g => Sys2Proof.Machine.execGroupHandon f c t g s
  | .reconvertResult f c t col dev unsettled badParity => Sys2Proof.Machine.execReconvertResult f c t col dev unsettled badParity s
  | .columnRecomputeDone f c t col => Sys2Proof.Machine.execColumnRecomputeDone f c t col s
  | .groupRecomputeDone f c t g => Sys2Proof.Machine.execGroupRecomputeDone f c t g s
  | .fetchedRowArrival f c w errs => Sys2Proof.Machine.execFetchedRowArrival f c w errs s
  | .repairSwap f c t => Sys2Proof.Machine.execRepairSwap f c t s
  | .planeLoadStart f c t errs => Sys2Proof.Machine.execPlaneLoadStart f c t errs s
  | .rowSegmentArrival f c t row g planeB parityOk errs => Sys2Proof.Machine.execRowSegmentArrival f c t row g planeB parityOk errs s
  | .loadEndMarker f c t planeB => Sys2Proof.Machine.execLoadEndMarker f c t planeB s
  | .planeDrained f c t planeB waited => Sys2Proof.Machine.execPlaneDrained f c t planeB waited s
  | .droneSampleDone f c => Sys2Proof.Machine.execDroneSampleDone f c s
  | .droneRefit f c t band col => Sys2Proof.Machine.execDroneRefit f c t band col s
  | .qualityPublish f c t => Sys2Proof.Machine.execQualityPublish f c t s
  | .foldWindowEnd f c sl => Sys2Proof.Machine.execFoldWindowEnd f c sl s
  | .passEnd f c sl => Sys2Proof.Machine.execPassEnd f c sl s
  | .tailpieceTermArrival f c parityErr inside => Sys2Proof.Machine.execTailpieceTermArrival f c parityErr inside s
  | .tailpieceDataFlit f c sl stream payload => Sys2Proof.Machine.execTailpieceDataFlit f c sl stream payload s
  | .treeResult f c sl slice col parityErr => Sys2Proof.Machine.execTreeResult f c sl slice col parityErr s
  | .bufferSealed f c sl bufB wait => Sys2Proof.Machine.execBufferSealed f c sl bufB wait s
  | .bufferDrainStart f c sl bufB par => Sys2Proof.Machine.execBufferDrainStart f c sl bufB par s
  | .bufferDrainDone f c sl bufB => Sys2Proof.Machine.execBufferDrainDone f c sl bufB s
  | .bridgeTensorPass p b stage stream pos vals => Sys2Proof.Machine.execBridgeTensorPass p b stage stream pos vals s
  | .selftestStart f c t => Sys2Proof.Machine.execSelftestStart f c t s
  | .selftestResult f c t kat scan katCol scanCol => Sys2Proof.Machine.execSelftestResult f c t kat scan katCol scanCol s
  | .periodicScanDue f c t => Sys2Proof.Machine.execPeriodicScanDue f c t s
  | .observationEnd f c t => Sys2Proof.Machine.execObservationEnd f c t s
  | .hbmPatrolScrub b stack addr n => Sys2Proof.Machine.execHbmPatrolScrub b stack addr n s
  | .sensorSample die k v => Sys2Proof.Machine.execSensorSample die k v s
  | .powerSensorSample hbms vin iin pin => Sys2Proof.Machine.execPowerSensorSample hbms vin iin pin s
  | .thermalGraceEnd => Sys2Proof.Machine.execThermalGraceEnd s
  | .tlevelStep held => Sys2Proof.Machine.execTlevelStep held s
  | .plevelStep held => Sys2Proof.Machine.execPlevelStep held s
  | .thermalTrip die k v => Sys2Proof.Machine.execThermalTrip die k v s
  | .kvAppendPiece b x draft l pos kind head bf16 data errs => Sys2Proof.Machine.execKvAppendPiece b x draft l pos kind head bf16 data errs s
  | .attentionStep b x lk appends => Sys2Proof.Machine.execAttentionStep b x lk appends s
  | .attentionOutput b x lk errs words => Sys2Proof.Machine.execAttentionOutput b x lk errs words s
  | .stagingFlushAck b x lk first => Sys2Proof.Machine.execStagingFlushAck b x lk first s
  | .editPublish b wait => Sys2Proof.Machine.execEditPublish b wait s
  | .generationEnd b => Sys2Proof.Machine.execGenerationEnd b s
  | .batchFormation p => Sys2Proof.Machine.execBatchFormation p s
  | .stepBoundary x => Sys2Proof.Machine.execStepBoundary x s
  | .draftStepDone x logits => Sys2Proof.Machine.execDraftStepDone x logits s
  | .pickSample x logits => Sys2Proof.Machine.execPickSample x logits s
  | .deadlineReached x => Sys2Proof.Machine.execDeadlineReached x s
  | .parkExpiry x => Sys2Proof.Machine.execParkExpiry x s
  | .kvHoldTimeout x => Sys2Proof.Machine.execKvHoldTimeout x s
  | .schedulerResume p => Sys2Proof.Machine.execSchedulerResume p s
  | .stagePassTimeout f c sl => Sys2Proof.Machine.execStagePassTimeout f c sl s
  | .mgmtCommandTimeout k n => Sys2Proof.Machine.execMgmtCommandTimeout k n s
  | .farPrefetchStart p model e tag => Sys2Proof.Machine.execFarPrefetchStart p model e tag s
  | .farLayerLanded shards => Sys2Proof.Machine.execFarLayerLanded shards s
  | .farReadTimeout b exhausted => Sys2Proof.Machine.execFarReadTimeout b exhausted s
  | .epochRetireBy p model => Sys2Proof.Machine.execEpochRetireBy p model s
  | .windowIdleTimeout n => Sys2Proof.Machine.execWindowIdleTimeout n s
  | .ethLinkUp => Sys2Proof.Machine.execEthLinkUp s
  | .ethLinkDown lanes fec => Sys2Proof.Machine.execEthLinkDown lanes fec s
  | .ptpDelayRespRx dom t4 => Sys2Proof.Machine.execPtpDelayRespRx dom t4 s
  | .consortJoinResultRx code joined => Sys2Proof.Machine.execConsortJoinResultRx code joined s
  | .strumAckRx k t => Sys2Proof.Machine.execStrumAckRx k t s
  | .consortTokenRecordsRx h recs => Sys2Proof.Machine.execConsortTokenRecordsRx h recs s
  | .loadCommitResult n nonFinite => Sys2Proof.Machine.execLoadCommitResult n nonFinite s
  | .atRiskTtft x => Sys2Proof.Machine.execAtRiskTtft x s
  | .editDataTransferDone b data => Sys2Proof.Machine.execEditDataTransferDone b data s
  | .persistentLogProgrammed => Sys2Proof.Machine.execPersistentLogProgrammed s
  | .nvWritePulseEnd next => Sys2Proof.Machine.execNvWritePulseEnd next s
  | .overVoltageEnd => Sys2Proof.Machine.execOverVoltageEnd s
  | .exactGroupDone f c sl stall => Sys2Proof.Machine.execExactGroupDone f c sl stall s

end Sys2Proof.Machine
end

