-- ==== Sys2Proof/Machine/Step.lean ====
section
/-! DEFINITION. One step: the command at the front of the queue, or, with none waiting, one count of the clock. -/

namespace Sys2Proof.Machine

/-- An empty queue: one count of the oscillator and, while it runs, of the time counter (R689) goes by; a pulse on PPS_OUT ends when
its 1 us is over. -/
def tick (s : State) : State :=
  let d := s.dev
  let d := { d with tx := [], osc := d.osc + 1, time := if d.timeRun then d.time + 1#64 else d.time }
  { s with dev := ppsFall d }

/-- Take the command at the front of the queue and run it with the queue's rest. -/
def step (s : State) : Host.Outcome State Fault Refusal :=
  match s.pending with
  | [] => .next (tick s)
  | c :: r => exec c { s with pending := r }

/-- The command that a word spells put at the front of the queue. -/
def State.withFetchWord (s : State) (nbits w : Nat) : State :=
  match decodeTableWord nbits w with
  | some c => { s with pending := c :: s.pending }
  | none => s

end Sys2Proof.Machine
end

