-- ==== Sys2Proof/Safety.lean ====
section
/-! DEFINITION. What claims about the machine are stated in: the canonical forms that every step keeps, one-time fuses, how a command
completes, and when a Strand datagram is accepted and processed. -/

namespace Sys2Proof.Machine

/-! ### Canonical forms -/

/-- Keys rise strictly and no entry holds what an unlisted key reads as. -/
def canonBy {α : Type} [DecidableEq α] (dflt : Nat → α) (m : SMap α) : Bool := SMapWf m && m.all fun e => decide (e.2 ≠ dflt e.1)

/-- HBM lists no byte that reads as an unlisted one does, and every address once, in rising order. -/
abbrev Memory.wf (m : SMap Byte) : Bool := canonBy (fun _ => 0#8) m

/-- The management registers kept as words: none is listed at its reset value. -/
abbrev Registers.wf (m : SMap Word) : Bool := canonBy regReset m

/-- The canonical form of the block: two blocks that read alike are equal data. -/
def Canon (d : Dev) : Prop := Registers.wf d.regs = true ∧ Memory.wf d.mem = true ∧ SMapWf d.poison = true

/-! ### Fuses (15 R580, R584) -/

/-- A fuse once blown stays blown: revocation bits, the SVN count, the lifecycle, the identity and the Drone's die trims. -/
def FusesGrow (a b : Fuses) : Prop :=
  a.svn ≤ b.svn ∧ a.revoked &&& b.revoked = a.revoked ∧ a.lifecycle.toNat ≤ b.lifecycle.toNat ∧ a.rev = b.rev ∧ a.order = b.order
    ∧ a.ids = b.ids ∧ a.roots = b.roots ∧ a.tcGain = b.tcGain ∧ a.tcOff = b.tcOff

/-! ### Frames -/

/-- Which fields of the block may change. -/
structure Allow where
  time : Bool := false
  timeRun : Bool := false
  osc : Bool := false
  free : Bool := false
  regs : Bool := false
  fuses : Bool := false
  flash : Bool := false
  strand : Bool := false
  eth : Bool := false
  map : Bool := false
  sync : Bool := false
  peg : Bool := false
  rst : Bool := false
  pwr : Bool := false
  pins : Bool := false
  links : Bool := false
  fret : Bool := false
  mem : Bool := false
  poison : Bool := false
  loads : Bool := false
  tunes : Bool := false
  streams : Bool := false
  incarnation : Bool := false
  prefixes : Bool := false
  scheds : Bool := false
  kv : Bool := false
  cns : Bool := false
  tx : Bool := false

/-- `d` is `b` but for the fields that `a` allows. -/
def Same (a : Allow) (b d : Dev) : Prop :=
  (a.time = true ∨ d.time = b.time)
    ∧ (a.timeRun = true ∨ d.timeRun = b.timeRun)
    ∧ (a.osc = true ∨ d.osc = b.osc)
    ∧ (a.free = true ∨ d.free = b.free)
    ∧ (a.regs = true ∨ d.regs = b.regs)
    ∧ (a.fuses = true ∨ d.fuses = b.fuses)
    ∧ (a.flash = true ∨ d.flash = b.flash)
    ∧ (a.strand = true ∨ d.strand = b.strand)
    ∧ (a.eth = true ∨ d.eth = b.eth)
    ∧ (a.map = true ∨ d.map = b.map)
    ∧ (a.sync = true ∨ d.sync = b.sync)
    ∧ (a.peg = true ∨ d.peg = b.peg)
    ∧ (a.rst = true ∨ d.rst = b.rst)
    ∧ (a.pwr = true ∨ d.pwr = b.pwr)
    ∧ (a.pins = true ∨ d.pins = b.pins)
    ∧ (a.links = true ∨ d.links = b.links)
    ∧ (a.fret = true ∨ d.fret = b.fret)
    ∧ (a.mem = true ∨ d.mem = b.mem)
    ∧ (a.poison = true ∨ d.poison = b.poison)
    ∧ (a.loads = true ∨ d.loads = b.loads)
    ∧ (a.tunes = true ∨ d.tunes = b.tunes)
    ∧ (a.streams = true ∨ d.streams = b.streams)
    ∧ (a.incarnation = true ∨ d.incarnation = b.incarnation)
    ∧ (a.prefixes = true ∨ d.prefixes = b.prefixes)
    ∧ (a.scheds = true ∨ d.scheds = b.scheds)
    ∧ (a.kv = true ∨ d.kv = b.kv)
    ∧ (a.cns = true ∨ d.cns = b.cns)
    ∧ (a.tx = true ∨ d.tx = b.tx)

/-! ### Completion -/

/-- The command answers a next state whose waiting commands are those of `s` and whose block satisfies `post`. -/
def Completes (i : Instr) (s : State) (post : Dev → Prop) : Prop :=
  ∃ d, exec i s = .next { s with dev := d } ∧ post d

/-- The block as a command finds it: what the command before it sent is gone. -/
def State.found (s : State) : Dev := { s.dev with tx := [] }

/-- A counter of 32 bits that saturates (01 R16). -/
def satAdd (w : Word) (k : Nat) : Word := BitVec.ofNat 32 (min (w.toNat + k) 0xFFFFFFFF)

/-- Only the registers named in `l` may differ. -/
def RegsBut (l : List Nat) (a b : Dev) : Prop := ∀ r, r ∉ l → regGet r b = regGet r a

/-! ### A Strand message accepted and processed (12 R481-R490, R506) -/

/-- What accepting the next message of an association does before the message itself acts: a congestion mark is remembered, the host's
acknowledgement and credit are taken, the message is counted against its credit, and its units return (R483-R490). -/
def accepted (aid : Nat) (m : Dgram) (d : Dev) : Dev :=
  let cost := msgCost m.hdr.ttype.toNat m.payload.length
  let d := if m.ce && ecnEn d then modAssoc aid (fun a => { a with ece := true }) d else d
  let d := takePeer aid m.hdr d
  let d := modAssoc aid (fun a => { a with lastSeq := m.hdr.seq, used := a.used + w32 cost, busy := a.busy + cost,
                                           accepted := if a.accepted.isSome then a.accepted else some d.time }) d
  if m.dest < 32 then noteAccept m.dest aid m.cycle d else d

/-- The block on which an accepted message acts. -/
def heardOn (aid : Nat) (m : Dgram) (d : Dev) : Dev := returnUnits aid (msgCost m.hdr.ttype.toNat m.payload.length) (accepted aid m d)

/-- The datagram `m`, split as its header says, is the next message of the open association `aid`, within its credit. -/
structure InSequence (m : Dgram) (aid : Nat) (d : Dev) : Prop where
  up : d.eth.up = true
  kept : dropped m d = none
  body : headerOnly m = false
  next : ∃ a, findAssoc m.src m.sport (destOf m) d = some (aid, a) ∧ assocAt aid d = some a ∧ a.lost = false
    ∧ m.hdr.seq = a.lastSeq + 1#32
    ∧ (msgCost m.hdr.ttype.toNat m.payload.length = 0
        ∨ seqGe a.limit (a.used + w32 (msgCost m.hdr.ttype.toNat m.payload.length)) = true)

/-- The message is accepted and processed at once, by firmware that runs from flash: it waits for no reset, wake or earlier message of
its partition. -/
structure Takes (m : Dgram) (aid : Nat) (d : Dev) : Prop extends InSequence m aid d where
  now : mustWait m (accepted aid m d) = false
  firmware : inRom (heardOn aid m d) = false

/-- A work request to a partition address, processed at once while the device serves (R480, R622). -/
structure TakesWork (m : Dgram) (aid : Nat) (d : Dev) : Prop extends Takes m aid d where
  toPart : m.dest < 32
  serving : (heardOn aid m d).rst.withdrawn = false

/-- A message of the association that is kept until acknowledged. -/
def Retained (aid : Nat) (x : Sent) (d : Dev) : Prop := ∃ a, assocAt aid d = some a ∧ x ∈ a.unacked ++ a.queued

/-- The request `m` has its reply, with this status and index and the bytes that follow them (R491, R492). -/
def Replied (aid : Nat) (m : Dgram) (st idx : Nat) (extra : List Byte) (d : Dev) : Prop :=
  ∃ x, Retained aid x d ∧ x.hdr.ttype = m.hdr.ttype ∧ hasFlag x.hdr fREPLY = true ∧ x.hdr.stream = m.hdr.stream
    ∧ x.payload.take 8 = leBytes 2 st ++ leBytes 2 idx ++ leBytes 4 m.hdr.seq.toNat ∧ x.payload.drop 16 = extra

/-- The management request `m` has its answer: a MGMT_REPLY for code 0, else a MGMT_NACK (R508, R511). -/
def Answered (aid : Nat) (m : Dgram) (code : Nat) (extra : List Byte) (d : Dev) : Prop :=
  ∃ x, Retained aid x d ∧ x.hdr.ttype = (if code = 0 then 0x32#8 else 0x3F#8)
    ∧ x.payload = leBytes 4 m.hdr.seq.toNat ++ leBytes 2 code ++ [0#8, 0#8] ++ extra

/-- An accepted management message that the session `x` authenticates, with fewer than four of that session in progress (R506, R509). -/
structure Managed (m : Dgram) (aid : Nat) (x : Session) (d : Dev) : Prop extends Takes m aid d where
  auth : hasFlag m.hdr fAUTH = true
  named : (heardOn aid m d).strand.sessions.find? (fun s => s.num == m.hdr.session && s.aid == aid) = some x
  tag : m.tag = macTag x.khd m.hdr m.payload
  room : inProgress x (heardOn aid m d) < 4

/-- The block on which a command of the session `x` acts, its time of last use noted. -/
def commandOn (aid : Nat) (m : Dgram) (x : Session) (d : Dev) : Dev :=
  modSession x.num (fun s => { s with last := (heardOn aid m d).time }) (heardOn aid m d)

/-- The session as the command finds it. -/
def commander (aid : Nat) (m : Dgram) (x : Session) (d : Dev) : Session := (sessionOf x.num (commandOn aid m x d)).getD x

/-- A managed write of `v` to the register at `a`, which the session may make and which neither a sleep of the dies nor an
earlier access of the session delays (R18, R509, R524, R525). -/
structure MayWrite (m : Dgram) (aid : Nat) (x : Session) (a : Nat) (v : Word) (d : Dev) : Prop extends Managed m aid x d where
  right : addrCheck (commander aid m x d) a (some v) (commandOn aid m x d) = 0
  awake : accessWaits (commander aid m x d) [(a, some v)] (commandOn aid m x d) = false

/-- A managed read of the register at `a` (R509, R524). -/
structure MayRead (m : Dgram) (aid : Nat) (x : Session) (a : Nat) (d : Dev) : Prop extends Managed m aid x d where
  right : addrCheck (commander aid m x d) a none (commandOn aid m x d) = 0
  awake : accessWaits (commander aid m x d) [(a, none)] (commandOn aid m x d) = false

/-! ### Forming batches (10 R400-R403, R420-R422) -/

/-- The block as batch formation sees it: who is at risk, who is paused and who is held for token records has been settled. -/
def readyToForm (p : Nat) (d : Dev) : Dev :=
  let d := forEach (partStreams p d) (fun e d => modStream e.1 restep d) d
  let d := schedulerPause p (refreshRisk p d)
  forEach ((partStreams p d).filter fun e => eligible p e.1 e.2 d) (fun e d => refreshTok e.1 e.2 d) d

/-- A stream ended with a reason of R395: DONE below 0x10, FAILED from there; it may have become FREE. -/
def Ended (i reason : Nat) (d : Dev) : Prop :=
  ∀ y, streamAt i d = some y → y.state = (if reason < 0x10 then 6 else 7) ∧ y.endr = reason ∧ y.turn = false

/-- Every stream but `i` is as it was. -/
def OtherStreams (i : Nat) (b d : Dev) : Prop := ∀ j, j ≠ i → streamAt j d = streamAt j b

/-! ### Fret dies (01 R47, 02 R62) -/

/-- Every tile of the part but this one is as it was, and so are all courses, the dies' bands and the Keeper's results. -/
def OnlyTile (f c t : Nat) (b d : Dev) : Prop :=
  (∀ k, k ≠ tileKey f c t → mget? d.fret.tiles k = mget? b.fret.tiles k) ∧ d.fret.courses = b.fret.courses
    ∧ d.fret.dies = b.fret.dies ∧ d.fret.cmds = b.fret.cmds

/-- Every course but this one is as it was, and so are all tiles, the dies' bands and the Keeper's results. -/
def OnlyCourse (f c : Nat) (b d : Dev) : Prop :=
  (∀ k, k ≠ courseKey f c → mget? d.fret.courses k = mget? b.fret.courses k) ∧ d.fret.tiles = b.fret.tiles
    ∧ d.fret.dies = b.fret.dies ∧ d.fret.cmds = b.fret.cmds

/-- Of a Fret die only one stage slot of one course differs. -/
def OnlySlot (f c s : Nat) (b d : Dev) : Prop :=
  OnlyCourse f c b d ∧ (∀ k, k ≠ s → slotAt f c k d = slotAt f c k b)
    ∧ { courseAt f c d with slots := [] } = { courseAt f c b with slots := [] }

/-- A stage fault of partition `p` was met: counted, with its context kept, every batch of the partition discarded and the stage in reset
(16 R605-R607). -/
def StageFaulted (p stage cause : Nat) (b d : Dev) : Prop :=
  regGet (PT_STGFAULT p) d = satAdd (regGet (PT_STGFAULT p) b) 1 ∧ regField (PT_FAULTCTX0 p) 24 8 d = cause
    ∧ regField (PT_FAULTCTX0 p) 16 8 d = stage % 256 ∧ regGet (PT_FAULTCTX2 p) d = BitVec.ofNat 32 b.time.toNat
    ∧ (∃ x, x ∈ d.rst.subs ∧ x.scope = .stage ∧ x.part = p ∧ x.stage = stage) ∧ (schedAt p d).batches = [] ∧ d.mem = b.mem

/-- The pluck numbered `id` of a course, whose number no other pluck has. -/
def ThePluck (f c id : Nat) (p : Pluck) (d : Dev) : Prop :=
  pluckAt f c id d = some p ∧ ∀ q, q ∈ (courseAt f c d).plucks → q.id = id → q = p

/-- What happens in Fret dies and in Bridge tensor units: slices, passes, plucks, checks, plane loads, the Tailpiece, the Drone and
self-tests (02-07). -/
def fretEvent : Instr → Bool
  | .sliceArrival .. | .passStart .. | .pluck .. | .encorePassEnd .. | .groupHandon .. | .reconvertResult .. | .columnRecomputeDone ..
  | .groupRecomputeDone .. | .fetchedRowArrival .. | .repairSwap .. | .planeLoadStart .. | .rowSegmentArrival .. | .loadEndMarker ..
  | .planeDrained .. | .droneSampleDone .. | .droneRefit .. | .qualityPublish .. | .foldWindowEnd .. | .passEnd ..
  | .tailpieceTermArrival .. | .tailpieceDataFlit .. | .treeResult .. | .bufferSealed .. | .bufferDrainStart .. | .bufferDrainDone ..
  | .bridgeTensorPass .. | .selftestStart .. | .selftestResult .. | .periodicScanDue .. | .observationEnd .. | .stagePassTimeout ..
  | .exactGroupDone .. => true
  | _ => false

/-- What comes over the Ethernet port, or happens to its link while it is up (12 R473-R479). -/
def overThePort : Instr → Bool
  | .frameDrop .. | .strandBadHeader .. | .unboundSourceDrop .. | .assocOpen .. | .assocClose .. | .headerAck .. | .wakeFrame ..
  | .admitStream .. | .append .. | .pause .. | .resume .. | .cancel .. | .park .. | .unpark .. | .prefixRegister .. | .prefixDrop ..
  | .loadBegin .. | .loadCommit .. | .loadAbort .. | .adapterLoadOpen .. | .adapterLoadRemove .. | .tableEdit .. | .syncSignalAdd ..
  | .syncSignalSet .. | .syncWaitNotify .. | .mgmtRead .. | .mgmtWrite .. | .mgmtResetStage .. | .mgmtResetPartition ..
  | .mgmtResetDie .. | .mgmtResetWarm .. | .mgmtResetCold .. | .attestReport .. | .sessionOpen .. | .sessionClose .. | .claim ..
  | .certs .. | .updateChunk .. | .updateAbort .. | .rdmaWriteLoad .. | .pfcXonTx .. | .rdmaWriteTuneStaging .. | .rdmaWriteMask ..
  | .rdmaWriteConsortPort .. | .rdmaFirewallRefuse .. | .cnpRx .. | .pfcXoffRx .. | .pfcXonRx .. | .arpRequest .. | .neighborSolicit .. | .icmpEchoRequest ..
  | .ptpSyncRx .. | .ptpDelayReqRx .. | .tuningLoad .. | .tuningAbort .. | .mapCommit .. | .mapDiscard .. | .consortJoin ..
  | .consortLeave .. | .strumSignal .. | .strumGate .. | .strumTune .. | .softwareResetDie .. | .softwareResetWarm ..
  | .softwareResetCold .. | .reinstate .. | .powerReqActive .. | .powerReqHush .. | .powerReqVigil .. | .keyRead .. | .keyEnroll ..
  | .keyRevoke .. | .tileTest .. | .tileReinstate .. | .trackerClear .. | .loCaptureRead .. | .multiWordCaptureRead ..
  | .ethLinkDown .. | .ptpDelayRespRx .. => true
  | _ => false

end Sys2Proof.Machine
end

