-- ==== Sys2Proof/Certificates/Slice0/Obligations.lean ====
section
/-! DEFINITION. The statements for the provers. Each says what the docstring says, citing the spec's rule; a clause that rests on a choice of
the model names its log entry. -/

open Sys2Proof Sys2Proof.Machine

/-! ### The machine as a whole -/

/-- A step with a command at the front of the queue is `exec` of that command on the state with the queue's rest; with none waiting the
block's clock counts once (DESIGN CHOICE, log 2). -/
def Obligations.StepRunsFront : Prop :=
  (∀ (c : Instr) (r : List Instr) (s : State), s.pending = c :: r → step s = exec c { s with pending := r })
    ∧ ∀ s : State, s.pending = [] → step s = .next (tick s)

/-- Every command, whatever its operands and from any state, answers a next state with the queue as it was; one whose operands name
something that the part does not have changes nothing (DESIGN CHOICE, log 6). -/
def Obligations.NothingStops : Prop :=
  ∀ (i : Instr) (s : State),
    (∃ d, exec i s = .next { s with dev := d }) ∧ (WellFormed i = false → exec i s = .next { s with dev := s.found })

/-- What every command and every idle count keeps, from any state in canonical form: the canonical forms, blown fuses, and the count of
free values drawn. -/
def Obligations.StepKeepsCanon : Prop :=
  ∀ s t : State, Canon s.dev → step s = .next t →
    Canon t.dev ∧ FusesGrow s.dev.fuses t.dev.fuses ∧ s.dev.free ≤ t.dev.free

/-- The state after reset is in canonical form, with no command waiting, power-on reset asserted (16 R597), time stopped at 0 (19 R689),
pads held (16 R603) and no HBM byte listed. -/
def Obligations.ResetState : Prop :=
  Canon State.reset.dev ∧ State.reset.pending = [] ∧ State.reset.dev.rst.phase = .asserted ∧ State.reset.dev.rst.lines = [1]
    ∧ State.reset.dev.rst.scope = .coldLoss ∧ State.reset.dev.time = 0#64 ∧ State.reset.dev.timeRun = false
    ∧ State.reset.dev.pins.padHold = true ∧ State.reset.dev.pins.pwrOk = false ∧ State.reset.dev.mem = []
    ∧ (∀ a, regGet a State.reset.dev = regReset a)

/-- The 32 bytes of a Strand header read back as that header, field for field (12 R479). -/
def Obligations.HeaderRoundTrip : Prop :=
  ∀ h : Hdr, (hdrBytes h).length = 32 ∧ hdrOfBytes (hdrBytes h) = h

/-! ### The Ethernet port (12 R473-R478, R513; 18 R667) -/

/-- A frame with a bad check sequence or of other traffic is dropped and counted, with the FEC's corrected and uncorrected codewords
(R474); a request for an address of the part is answered, and one for another address is dropped and counted (R474, R475); a transceiver
comes and goes without a stream ending (R667).

The link comes up, with all lanes aligned, where a transceiver is and the port is awake, and then the BOOT event of the last boot is
written if it is due (15 R574); it goes down with the lanes and the lock it has left. While it is down nothing that comes over it does
anything. -/
def Obligations.EthernetPort : Prop :=
  ((∀ (corr unc : Nat) (s : State), s.dev.eth.up = true →
      Completes (.frameDrop corr unc) s fun d =>
        regGet HS_RXDROP d = satAdd (regGet HS_RXDROP s.dev) 1 ∧ regGet HS_FECCORR d = satAdd (regGet HS_FECCORR s.dev) corr
          ∧ regGet HS_FECUNC d = satAdd (regGet HS_FECUNC s.dev) unc ∧ RegsBut [HS_RXDROP, HS_FECCORR, HS_FECUNC] s.dev d
          ∧ d = { s.found with regs := d.regs })
    ∧ (∀ (ip : Word) (s : State), s.dev.eth.up = true → Completes (.arpRequest ip) s fun d =>
        (isOwnIp4 ip s.dev = true → d = { s.found with tx := [.arpReply ip] })
          ∧ (isOwnIp4 ip s.dev = false → regGet HS_RXDROP d = satAdd (regGet HS_RXDROP s.dev) 1 ∧ RegsBut [HS_RXDROP] s.dev d
              ∧ d = { s.found with regs := d.regs }))
    ∧ (∀ (ip : BitVec 128) (s : State), s.dev.eth.up = true → Completes (.neighborSolicit ip) s fun d =>
        (isOwnIp6 ip s.dev = true → d = { s.found with tx := [.naReply ip] })
          ∧ (isOwnIp6 ip s.dev = false → regGet HS_RXDROP d = satAdd (regGet HS_RXDROP s.dev) 1 ∧ RegsBut [HS_RXDROP] s.dev d
              ∧ d = { s.found with regs := d.regs }))
    ∧ (∀ (dst : BitVec 128) (data : List Byte) (s : State), s.dev.eth.up = true → Completes (.icmpEchoRequest dst data) s fun d =>
        (isOwnIp dst s.dev = true → d = { s.found with tx := [.echoReply dst data] })
          ∧ (isOwnIp dst s.dev = false → regGet HS_RXDROP d = satAdd (regGet HS_RXDROP s.dev) 1 ∧ RegsBut [HS_RXDROP] s.dev d
              ∧ d = { s.found with regs := d.regs }))
    ∧ (∀ s : State, Completes .transceiverInsert s fun d => d = { s.found with eth := { s.dev.eth with module := true } })
    ∧ (∀ s : State, Completes .transceiverRemove s fun d =>
        d = { s.found with eth := { s.dev.eth with module := false, lanes := 0x00#8, fec := false, up := false } }))
  ∧ ((∀ s : State, s.dev.eth.module = true → portAwake s.dev = true →
      Completes .ethLinkUp s fun d =>
        d.eth = { s.dev.eth with lanes := 0xFF#8, fec := true, up := true } ∧ d.peg.bootEvent = false
          ∧ (s.dev.peg.bootEvent = true → ∃ r, r ∈ d.peg.ring ∧ u16 r.payload 0 = 0x00C0)
          ∧ (s.dev.peg.bootEvent = false → d = { s.found with eth := d.eth })
          ∧ d.streams = s.dev.streams ∧ d.mem = s.dev.mem ∧ d.time = s.dev.time)
    ∧ (∀ s : State, s.dev.eth.module = false ∨ portAwake s.dev = false → Completes .ethLinkUp s fun d => d = s.found)
    ∧ (∀ (lanes : Byte) (fec : Bool) (s : State), s.dev.eth.up = true →
      Completes (.ethLinkDown lanes fec) s fun d =>
        d = { s.found with eth := { s.dev.eth with lanes := lanes, fec := fec, up := false } }))
  ∧ ∀ (i : Instr) (s : State), overThePort i = true → s.dev.eth.up = false → Completes i s fun d => d = s.found

/-- Priority flow control and congestion notification (R473, R477): each PFC frame counts; where flow control is enabled XOFF stops and XON
resumes the priority that it names; XOFF is sent when the free buffer falls below 512 KiB, and XON when after an XOFF it rises above 1 MiB;
a CNP gives its queue pair a rate nobody can predict. -/
def Obligations.FlowControl : Prop :=
  (∀ (prio : Nat) (s : State), prio < 8 → s.dev.eth.up = true →
    Completes (.pfcXoffRx prio) s fun d =>
      regGet HS_PFCRX d = satAdd (regGet HS_PFCRX s.dev) 1 ∧ RegsBut [HS_PFCRX] s.dev d
        ∧ d.eth.pausedStrand = (s.dev.eth.pausedStrand || (pfcEn s.dev && prio == prioStrand s.dev))
        ∧ d.eth.pausedRdma = (s.dev.eth.pausedRdma || (pfcEn s.dev && prio == prioRdma s.dev))
        ∧ d = { s.found with regs := d.regs, eth := { s.dev.eth with pausedStrand := d.eth.pausedStrand, pausedRdma := d.eth.pausedRdma } })
  ∧ (∀ (prio : Nat) (s : State), prio < 8 → s.dev.eth.up = true →
    Completes (.pfcXonRx prio) s fun d =>
      regGet HS_PFCRX d = satAdd (regGet HS_PFCRX s.dev) 1 ∧ RegsBut [HS_PFCRX] s.dev d
        ∧ d.eth.pausedStrand = (s.dev.eth.pausedStrand && !(pfcEn s.dev && prio == prioStrand s.dev))
        ∧ d.eth.pausedRdma = (s.dev.eth.pausedRdma && !(pfcEn s.dev && prio == prioRdma s.dev))
        ∧ (pfcEn s.dev = false → d = { s.found with regs := d.regs })
        ∧ Same { regs := true, strand := true, eth := true, tx := true } s.found d)
  ∧ (∀ (strand : Bool) (low high : Nat) (s : State), low ≤ 4194304 → high ≤ 4194304 → s.dev.eth.up = true →
      let prio := if strand then prioStrand s.dev else prioRdma s.dev
      let x := if strand then s.dev.eth.xoffStrand else s.dev.eth.xoffRdma
      let off := pfcEn s.dev && !x && decide (low < 524288)
      let on := (x || off) && decide (1048576 < high)
    Completes (.pfcXonTx strand low high) s fun d =>
      regGet HS_PFCTX d = satAdd (satAdd (regGet HS_PFCTX s.dev) (b2n off)) (b2n on) ∧ RegsBut [HS_PFCTX] s.dev d
        ∧ d.tx = (if off then [.pfc prio true] else []) ++ (if on then [.pfc prio false] else [])
        ∧ d = { s.found with regs := d.regs, tx := d.tx,
                             eth := if strand then { s.dev.eth with rxFreeStrand := high, xoffStrand := (x || off) && !on }
                               else { s.dev.eth with rxFreeRdma := high, xoffRdma := (x || off) && !on } })
  ∧ ∀ (qp : Nat) (s : State), qp < 4096 → s.dev.eth.up = true →
    Completes (.cnpRx qp) s fun d =>
      mget? d.eth.rate qp = some (Config.dcqcnRate s.dev.free) ∧ (∀ q, q ≠ qp → mget? d.eth.rate q = mget? s.dev.eth.rate q)
        ∧ d = { s.found with free := s.dev.free + 1, eth := { s.dev.eth with rate := d.eth.rate } }

/-! ### RoCEv2 (08 R308, 11 R436, 10 R412, 14 R556, 13 R526) -/

/-- A write by the key of an open load window lands in HBM at the place of the shard and byte that its address names (R306, R308), is
acknowledged, and changes no other byte; the key of a window number that is not open gets a NAK and counts (R307); a write to the mask area
or the staging area of the partition lands likewise; a packet that claims what its partition does not own is refused and counted (13
R526). -/
def Obligations.RdmaWrites : Prop :=
  (∀ (qp p : Nat) (key : Word) (va : DWord) (ce : Bool) (data : List Byte) (w : Window) (s : State),
      qp < 4096 → p < 32 → s.dev.eth.up = true → ownsQp p qp s.dev = true → keyWindow key s.dev = some w →
      w.part = p → w.state = 2 →
      let o := (va - Config.windowVa w.num).toNat
      let b := o / 2 ^ 40; let j := o / 2 ^ 26 % 2 ^ 14; let off := o % 2 ^ 26
      let at_ := (w.place.getD b []).getD j 0 + off
      b < 12 → j < w.counts.getD b 0 → off + data.length ≤ 0x4000000 → off % 65536 = 0 → at_ + data.length ≤ 2 ^ 37 →
    Completes (.rdmaWriteLoad qp p key va ce data) s fun d =>
      (∀ i, i < data.length → hbmByte b (at_ + i) d = data.getD i 0#8)
        ∧ (∀ c x, ¬ (hbmKey b at_ ≤ hbmKey c x ∧ hbmKey c x < hbmKey b at_ + data.length) → hbmByte c x d = hbmByte c x s.dev)
        ∧ .rdmaAck qp ∈ d.tx ∧ RegsBut [HS_CNPTX, PT_HBMBYTES p, PT_FBBYTES p] s.dev d
        ∧ regGet (PT_HBMBYTES p) d = regGet (PT_HBMBYTES p) s.dev + BitVec.ofNat 32 ((data.length + 63) / 64)
        ∧ Same { eth := true, links := true, loads := true, mem := true, poison := true, regs := true, tx := true } s.found d)
  ∧ (∀ (qp p : Nat) (key : Word) (va : DWord) (ce : Bool) (data : List Byte) (s : State),
      qp < 4096 → p < 32 → s.dev.eth.up = true → ownsQp p qp s.dev = true → keyWindow key s.dev = none → closedKey key = true →
    Completes (.rdmaWriteLoad qp p key va ce data) s fun d =>
      .rdmaNakAccess qp ∈ d.tx ∧ regGet HS_LDNAK d = satAdd (regGet HS_LDNAK s.dev) 1 ∧ RegsBut [HS_CNPTX, HS_LDNAK] s.dev d
        ∧ Same { eth := true, regs := true, tx := true } s.found d)
  ∧ (∀ (qp p off : Nat) (ce : Bool) (data : List Byte) (b base : Nat) (s : State),
      qp < 4096 → p < 32 → s.dev.eth.up = true → ownsQp p qp s.dev = true → maskArea p s.dev = some (b, base) →
      off + data.length ≤ 32 * 2 ^ 20 → base + off + data.length ≤ 2 ^ 37 →
    Completes (.rdmaWriteMask qp p off ce data) s fun d =>
      (∀ i, i < data.length → hbmByte b (base + off + i) d = data.getD i 0#8)
        ∧ (∀ c x, ¬ (hbmKey b (base + off) ≤ hbmKey c x ∧ hbmKey c x < hbmKey b (base + off) + data.length) →
            hbmByte c x d = hbmByte c x s.dev)
        ∧ .rdmaAck qp ∈ d.tx ∧ RegsBut [HS_CNPTX, PT_HBMBYTES p, PT_FBBYTES p] s.dev d
        ∧ regGet (PT_HBMBYTES p) d = regGet (PT_HBMBYTES p) s.dev + BitVec.ofNat 32 ((data.length + 63) / 64)
        ∧ Same { eth := true, links := true, mem := true, poison := true, regs := true, tunes := true, tx := true } s.found d)
  ∧ (∀ (qp p off : Nat) (ce : Bool) (data : List Byte) (s : State),
      qp < 4096 → p < 32 → s.dev.eth.up = true → ownsQp p qp s.dev = true → tuneBusy p s.dev = false → off + data.length ≤ 2 ^ 24 →
    Completes (.rdmaWriteTuneStaging qp p off ce data) s fun d =>
      (tuneAt p d).staging = putBytes (tuneAt p s.dev).staging off data ∧ .rdmaAck qp ∈ d.tx
        ∧ RegsBut [HS_CNPTX] s.dev d ∧ Same { tunes := true, eth := true, regs := true, tx := true } s.found d)
  ∧ (∀ (k qp : Nat) (ce : Bool) (data : List Byte) (s : State), qp < 4096 → s.dev.eth.up = true → cnsFormed s.dev = true →
      k < u8 s.dev.cns.cur 0xD → (cnsPort s.dev.cns.cur k).2.2.1 = cnsSelf s.dev.cns.cur →
      qp = memQp (cnsMember s.dev.cns.cur (cnsSelf s.dev.cns.cur)) + (cnsPort s.dev.cns.cur k).1 →
    Completes (.rdmaWriteConsortPort k qp ce data) s fun d =>
      .rdmaAck qp ∈ d.tx ∧ regGet HS_CNSRXB d = regGet HS_CNSRXB s.dev + BitVec.ofNat 32 (data.length / 64)
        ∧ RegsBut [HS_CNPTX, HS_CNSRXB] s.dev d ∧ Same { cns := true, eth := true, regs := true, tx := true } s.found d)
  ∧ ∀ (p qp : Nat) (s : State), qp < 4096 → p < 32 → s.dev.eth.up = true →
    Completes (.rdmaFirewallRefuse p qp) s fun d =>
      d.tx = [.rdmaNakAccess qp]
        ∧ regGet (if enabled p s.dev then PT_FWRDMA p else HS_RXDROP) d
            = satAdd (regGet (if enabled p s.dev then PT_FWRDMA p else HS_RXDROP) s.dev) 1
        ∧ RegsBut [if enabled p s.dev then PT_FWRDMA p else HS_RXDROP] s.dev d
        ∧ d = { s.found with regs := d.regs, tx := d.tx }

/-! ### Test access and the pulse per second (18 R674-R678) -/

/-- The JTAG instructions, with power and TRST_N high; without them they do nothing. EXTEST and CLAMP take hold of the pins only while RST_N is low; otherwise they
act as BYPASS. The bypass register captures 0 (PRESUMED, log 23). -/
def Obligations.TestAccess : Prop :=
  (∀ (level : Bool) (s : State), Completes (.tapReset level) s fun d =>
      d = { s.found with pins := { s.dev.pins with trstN := level, tap := 0, extest := false, clamp := false } })
  ∧ (∀ s : State, tapUsable s.dev = true → Completes .jtagIdcode s fun d =>
      (∃ bits : List Bool, d.tx = [.tdo bits] ∧ bits.length = 32 ∧ ∀ k, k < 32 → bits.getD k false = bit (idcode s.dev) k)
        ∧ d = { s.found with pins := { s.dev.pins with tap := 1 }, tx := d.tx })
  ∧ (∀ (tdi : List Bool) (s : State), tapUsable s.dev = true → Completes (.jtagBypass tdi) s fun d =>
      d = { s.found with pins := { s.dev.pins with tap := 2, extest := false, clamp := false, bypass := tdi.getLastD false },
                         tx := [.tdo ((false :: tdi).take tdi.length)] })
  ∧ (∀ (cells : List (Nat × Bool)) (s : State), tapUsable s.dev = true → Completes (.jtagSamplePreload cells) s fun d =>
      d = { s.found with pins := { s.dev.pins with tap := 3, extest := false, clamp := false, boundary := loadCells cells s.dev },
                         tx := [.tdo ((pinLevels s.dev).map (·.2))] })
  ∧ (∀ (cells : List (Nat × Bool)) (tdi : List Bool) (s : State), tapUsable s.dev = true → s.dev.pins.rstN = false →
    Completes (.jtagExtest cells tdi) s fun d =>
      d = { s.found with pins := { s.dev.pins with tap := 4, extest := true, clamp := false, boundary := loadCells cells s.dev } })
  ∧ (∀ (tdi : List Bool) (s : State), tapUsable s.dev = true → s.dev.pins.rstN = false →
    Completes (.jtagClamp tdi) s fun d =>
      d = { s.found with pins := { s.dev.pins with tap := 5, clamp := true, extest := false, bypass := tdi.getLastD false },
                         tx := [.tdo ((false :: tdi).take tdi.length)] })
  ∧ (∀ (cells : List (Nat × Bool)) (tdi : List Bool) (s : State), tapUsable s.dev = true → s.dev.pins.rstN = true →
    (Completes (.jtagExtest cells tdi) s fun d =>
        d = { s.found with pins := { s.dev.pins with tap := 4, bypass := tdi.getLastD false }, tx := [.tdo ((false :: tdi).take tdi.length)] })
      ∧ Completes (.jtagClamp tdi) s fun d =>
        d = { s.found with pins := { s.dev.pins with tap := 5, bypass := tdi.getLastD false }, tx := [.tdo ((false :: tdi).take tdi.length)] })
  ∧ ∀ (i : Instr) (cells : List (Nat × Bool)) (tdi : List Bool) (s : State),
      i ∈ [Instr.jtagIdcode, .jtagBypass tdi, .jtagSamplePreload cells, .jtagExtest cells tdi, .jtagClamp tdi] → tapUsable s.dev = false →
    Completes i s fun d => d = s.found


/-! ### The pulse per second (18 R675, R676) -/

/-- An edge of PPS_IN on a master with TSRC 2 that runs: accepted, it sets time to the nearest second; any other such edge is
counted; elsewhere an edge moves only the pin's level. How far time moves at an edge is the model's choice (DESIGN CHOICE, log 32).
PPS_OUT rises at whole seconds while pads are neither held nor latched. -/
def Obligations.PulsePerSecond : Prop :=
  (∀ (low gap : Nat) (s : State), cnsRuns s.dev = true → isCnsMaster s.dev = true → cnsTsrc s.dev.cns.cur = 2 →
      s.dev.timeRun = true → 100 ≤ low → 100 ≤ gap →
      (∀ t, s.dev.pins.ppsLast = some t →
        sec 2 < since t s.dev ∨ (99990000 ≤ since t s.dev ∧ since t s.dev ≤ 100010000)) →
    Completes (.ppsInEdge low gap) s fun d =>
      d.time = BitVec.ofNat 64 (nearestSecond s.dev.time.toNat)
        ∧ d = { s.found with time := d.time, pins := { s.dev.pins with ppsIn := true, ppsLast := some d.time } })
  ∧ (∀ (low gap : Nat) (s : State), cnsRuns s.dev = true → isCnsMaster s.dev = true → cnsTsrc s.dev.cns.cur = 2 →
      s.dev.timeRun = true →
      (low < 100 ∨ gap < 100 ∨ ∃ t, s.dev.pins.ppsLast = some t ∧ since t s.dev ≤ sec 2
        ∧ (since t s.dev < 99990000 ∨ 100010000 < since t s.dev)) →
    Completes (.ppsInEdge low gap) s fun d =>
      regGet HS_PPSBAD d = satAdd (regGet HS_PPSBAD s.dev) 1 ∧ RegsBut [HS_PPSBAD] s.dev d
        ∧ d = { s.found with regs := d.regs, pins := { s.dev.pins with ppsIn := true } })
  ∧ (∀ (low gap : Nat) (s : State),
      (isCnsMaster s.dev = false ∨ cnsTsrc s.dev.cns.cur ≠ 2 ∨ cnsRuns s.dev = false ∨ s.dev.timeRun = false) →
    Completes (.ppsInEdge low gap) s fun d => d = { s.found with pins := { s.dev.pins with ppsIn := true } })
  ∧ ∀ s : State, s.dev.time.toNat % 100000000 = 0 → s.dev.timeRun = true → s.dev.pwr.supply = true →
      s.dev.pins.padHold = false → s.dev.pins.latched = false →
    Completes .ppsOutPulse s fun d => d = { s.found with pins := { s.dev.pins with ppsOut := true } }

/-! ### Links (01 R24-R30, R57-R60; 13 R526) -/

/-- The receiver of a flit whose CRC fails discards it and what follows, counts the replay and asks for it by LSEQ; the sixteenth
failure of one flit in a row retrains its link; the sender replays from the named flit, in the original order, or once the link is up
again where it is not.

A retraining that succeeds brings its link up, and what its two senders held goes; the first and the second that fail start another; the third leaves it FAILED and
starts the die-level reset of each pair at its ends. A Bridge discards and counts a flit of a partition that owns
neither the course nor the unit it names. -/
def Obligations.LinkEvents : Prop :=
  ((∀ (ch : Nat) (h : DWord) (payload : List Byte) (crc : BitVec 40) (rep : Bool) (s : State),
        okChan ch = true → payload.length = 256 → crc40 h payload ≠ crc → (linkAt (linkOf ch) s.dev).state = 2 →
        ((chanAt ch s.dev).discard = none ∨ rep = true) →
      Completes (.flitCrcFail ch h payload crc rep) s fun d =>
        (chanAt ch d).discard = some (fLseq h) ∧ (chanAt ch d).fails = 1 ∧ (chanAt ch d).next = (chanAt ch s.dev).next
          ∧ (chanAt ch d).buf = (chanAt ch s.dev).buf ∧ d.tx = [.replayRequest ch (fLseq h)]
          ∧ (∀ c, c ≠ ch → chanAt c d = chanAt c s.dev) ∧ d.links.links = s.dev.links.links
          ∧ Same { regs := true, links := true, tx := true } s.found d)
    ∧ (∀ (ch : Nat) (h : DWord) (payload : List Byte) (crc : BitVec 40) (s : State),
        okChan ch = true → payload.length = 256 → crc40 h payload ≠ crc → (linkAt (linkOf ch) s.dev).state = 2 →
        (chanAt ch s.dev).discard = some (fLseq h) →
      Completes (.flitCrcFail ch h payload crc false) s fun d =>
        d.tx = [.replayRequest ch (fLseq h)] ∧ (chanAt ch d).discard = some (fLseq h)
          ∧ (chanAt ch d).fails = (if (chanAt ch s.dev).fails + 1 = 16 then 0 else (chanAt ch s.dev).fails + 1)
          ∧ (linkAt (linkOf ch) d).state = (if (chanAt ch s.dev).fails + 1 = 16 then 1 else 2)
          ∧ Same { regs := true, links := true, tx := true } s.found d)
    ∧ (∀ (ch : Nat) (h : DWord) (payload : List Byte) (crc : BitVec 40) (q : Nat) (s : State),
        okChan ch = true → payload.length = 256 → crc40 h payload ≠ crc → (chanAt ch s.dev).discard = some q → q ≠ fLseq h →
      Completes (.flitCrcFail ch h payload crc false) s fun d => d = s.found)
    ∧ ∀ (ch lseq : Nat) (s : State), okChan ch = true → lseq < 4096 →
      ((linkAt (linkOf ch) s.dev).state = 2 → Completes (.replayRequestRx ch lseq) s fun d =>
        d = { s.found with tx := d.tx } ∧ d.tx = ((chanAt ch s.dev).buf.dropWhile fun f => fLseq f.hdr != lseq).map fun f =>
          .flit ch f.hdr f.payload (crc40 f.hdr f.payload))
      ∧ ((linkAt (linkOf ch) s.dev).state ≠ 2 → Completes (.replayRequestRx ch lseq) s fun d =>
        chanAt ch d = { chanAt ch s.dev with replay := some lseq } ∧ (∀ c, c ≠ ch → chanAt c d = chanAt c s.dev)
          ∧ d.links.links = s.dev.links.links ∧ d = { s.found with links := d.links }))
  ∧ ((∀ (l : Nat) (s : State), okLink l = true → (linkAt l s.dev).state = 1 →
      Completes (.linkRetrainDone l true) s fun d =>
        linkAt l d = { state := 2, failed := 0 } ∧ (∀ k, k ≠ l → linkAt k d = linkAt k s.dev)
          ∧ (∀ ch, ch ∈ linkChans l → (chanAt ch d).held = [] ∧ (chanAt ch d).replay = none
              ∧ ∀ x, x ∈ (chanAt ch s.dev).held → ∃ h crc, Tx.flit ch h x.flit.payload crc ∈ d.tx)
          ∧ Same { links := true, tx := true } s.found d)
    ∧ (∀ (l : Nat) (s : State), okLink l = true → (linkAt l s.dev).state = 1 → (linkAt l s.dev).failed < 2 →
      Completes (.linkRetrainDone l false) s fun d =>
        linkAt l d = { state := 1, failed := (linkAt l s.dev).failed + 1 } ∧ (∀ k, k ≠ l → linkAt k d = linkAt k s.dev)
          ∧ Same { links := true, regs := true } s.found d)
    ∧ (∀ (l n : Nat) (s : State), okLink l = true → (linkAt l s.dev).state = 1 → 2 ≤ (linkAt l s.dev).failed → powered s.dev = true →
        s.dev.rst.phase = .idle → s.dev.rst.subs = [] → s.dev.pwr.state < 2 → s.dev.pwr.target = none → n ∈ linkPairs l →
      Completes (.linkRetrainDone l false) s fun d =>
        ∃ x, x ∈ d.rst.subs ∧ x.scope = .die ∧ x.die = n ∧ x.source = srcLINK ∧ x.t0 = s.dev.osc)
    ∧ ∀ (b : Nat) (h : DWord) (s : State), b < 12 → flitAllowed b h s.dev = false →
      Completes (.firewallFlitDiscard b h) s fun d =>
        regGet (if enabled (fPart h) s.dev then PT_FWFLIT (fPart h) else HS_RXDROP) d
            = satAdd (regGet (if enabled (fPart h) s.dev then PT_FWFLIT (fPart h) else HS_RXDROP) s.dev) 1
          ∧ RegsBut [if enabled (fPart h) s.dev then PT_FWFLIT (fPart h) else HS_RXDROP] s.dev d ∧ d = { s.found with regs := d.regs })

/-! ### HBM patrol (06 R243-R245) -/

/-- The patrol reads a word of a stack: one or two errors are corrected and counted, more poison the word and count as uncorrectable; a word
that was poisoned before counts in BR_POISONRD, unless it is uncorrectable now (R243, R244). No byte of HBM changes. -/
def Obligations.PatrolScrub : Prop :=
  ∀ (b stack addr n : Nat) (s : State), b < 12 → stack < 2 →
    addr / 4096 * 8192 + stack * 4096 + addr % 4096 < hbmSize s.dev →
    let a := addr / 4096 * 8192 + stack * 4096 + addr % 4096
    let w := hbmKey b a / 8
    let old := (mget? s.dev.poison w).isSome
    Completes (.hbmPatrolScrub b stack addr n) s fun d =>
      d.mem = s.dev.mem ∧ (∀ k, k ≠ w → mget? d.poison k = mget? s.dev.poison k)
        ∧ regGet (BR_POISONRD b) d = satAdd (regGet (BR_POISONRD b) s.dev) (b2n (old && decide (n < 3)))
        ∧ (n < 3 → regGet (BR_HBMCE0 b + 4 * stack) d = satAdd (regGet (BR_HBMCE0 b + 4 * stack) s.dev) (min n 1)
            ∧ RegsBut [BR_HBMCE0 b + 4 * stack, BR_POISONRD b] s.dev d ∧ d = { s.found with regs := d.regs })
        ∧ (3 ≤ n → mget? d.poison w = some true
            ∧ regGet (BR_HBMUE0 b + 4 * stack) d = satAdd (regGet (BR_HBMUE0 b + 4 * stack) s.dev) 1
            ∧ Same { peg := true, poison := true, regs := true, strand := true, tx := true } s.found d)

/-! ### Heat and power (17 R646-R655) -/

/-- Samples reach their registers; a reading of 95 degrees with TLEVEL at L0 and no grace running warns once, asserts ALERT_N and starts
the grace.

The end of the grace, each millisecond of heat, each 10 ms of cool, and each power sample that is too high or low mean for 10 ms,
move the throttle levels by R649 and R650, within L0 to L7. -/
def Obligations.HeatLevels : Prop :=
  ((∀ (die k : Nat) (v : Half) (s : State), okDieCode die = true → k < 8 →
      Completes (.sensorSample die k v) s fun d =>
        snTemp die k d = v.toInt ∧ snValid die k d = true
          ∧ (6080 ≤ v.toInt → s.dev.pwr.tlevel = 0 → s.dev.pwr.grace = none →
              d.pwr.grace = some s.dev.time ∧ d.pwr.warn = true ∧ 1 ∈ d.pwr.alert ∧ d.pwr.tlevel = 0
                ∧ regGet HS_THRTWARN d = satAdd (regGet HS_THRTWARN s.dev) 1)
          ∧ Same { regs := true, fret := true, pwr := true, peg := true, strand := true, tx := true } s.found d)
    ∧ ∀ (hbms : List (Nat × Nat × Half)) (vin iin pin : Half) (s : State),
      Completes (.powerSensorSample hbms vin iin pin) s fun d =>
        regField 0x940 0 16 d = vin.toNat ∧ regField 0x944 0 16 d = iin.toNat ∧ regField 0x948 0 16 d = pin.toNat
          ∧ d.pwr.psamples = (pin.toNat :: s.dev.pwr.psamples).take 100
          ∧ Same { regs := true, fret := true, pwr := true, peg := true, strand := true, tx := true } s.found d)
  ∧ ((∀ (t : DWord) (s : State), s.dev.pwr.grace = some t → ms 5 ≤ since t s.dev →
      Completes .thermalGraceEnd s fun d =>
        d.pwr.grace = none
          ∧ (6080 ≤ tmax s.dev → d.pwr.tlevel = 1 ∧ d.pwr.alert = s.dev.pwr.alert)
          ∧ (tmax s.dev < 6080 → d.pwr.tlevel = s.dev.pwr.tlevel ∧ d.pwr.warn = false ∧ 1 ∉ d.pwr.alert)
          ∧ Same { regs := true, pwr := true, peg := true, strand := true, tx := true } s.found d)
    ∧ (∀ (held : Nat) (s : State), 0 < s.dev.pwr.tlevel → s.dev.pwr.tlevel < 7 → 6080 ≤ tmax s.dev → ms 1 ≤ since s.dev.pwr.tstep s.dev →
      Completes (.tlevelStep held) s fun d =>
        d.pwr.tlevel = s.dev.pwr.tlevel + 1 ∧ d.pwr.tstep = s.dev.time ∧ d.pwr.alert = s.dev.pwr.alert
          ∧ Same { regs := true, pwr := true, peg := true, strand := true, tx := true } s.found d)
    ∧ (∀ (held : Nat) (t : DWord) (s : State), 0 < s.dev.pwr.tlevel → tmax s.dev < 6080 → s.dev.pwr.below = some t → ms 10 ≤ since t s.dev →
      Completes (.tlevelStep held) s fun d =>
        d.pwr.tlevel = s.dev.pwr.tlevel - 1 ∧ (s.dev.pwr.tlevel = 1 → d.pwr.warn = false ∧ 1 ∉ d.pwr.alert)
          ∧ Same { regs := true, pwr := true, peg := true, strand := true, tx := true } s.found d)
    ∧ (∀ (held : Nat) (s : State), s.dev.pwr.plevel ≤ 7 → 3600 < s.dev.pwr.psamples.headD 0 → us 100 ≤ since s.dev.pwr.ppeak s.dev →
      Completes (.plevelStep held) s fun d =>
        d.pwr.plevel = min (s.dev.pwr.plevel + 1) 7 ∧ d.pwr.ppeak = s.dev.time ∧ d.pwr.tlevel = s.dev.pwr.tlevel
          ∧ Same { regs := true, pwr := true, peg := true, strand := true, tx := true } s.found d)
    ∧ (∀ (held : Nat) (s : State), s.dev.pwr.plevel ≤ 7 → s.dev.pwr.psamples.headD 0 ≤ 3600 → s.dev.pwr.psamples.length = 100 →
        effLimit s.dev < s.dev.pwr.psamples.foldl (· + ·) 0 → ms 1 ≤ since s.dev.pwr.pmean s.dev →
      Completes (.plevelStep held) s fun d =>
        d.pwr.plevel = min (s.dev.pwr.plevel + 1) 7 ∧ d.pwr.pmean = s.dev.time ∧ d.pwr.tlevel = s.dev.pwr.tlevel
          ∧ Same { regs := true, pwr := true, peg := true, strand := true, tx := true } s.found d)
    ∧ ∀ (held : Nat) (t : DWord) (s : State), 0 < s.dev.pwr.plevel → s.dev.pwr.psamples.headD 0 ≤ 3600 →
        (s.dev.pwr.psamples.length = 100 → s.dev.pwr.psamples.foldl (· + ·) 0 ≤ effLimit s.dev) →
        s.dev.pwr.pbelow = some t → ms 10 ≤ since t s.dev →
      Completes (.plevelStep held) s fun d =>
        d.pwr.plevel = s.dev.pwr.plevel - 1 ∧ d.pwr.tlevel = s.dev.pwr.tlevel
          ∧ Same { regs := true, pwr := true, peg := true, strand := true, tx := true } s.found d)

/-- At 110 degrees on a fixed filter the part trips: its record is in the flash log, PWR_OK falls, HBM contents are lost and the trip
is latched; no pin reset, watchdog or power-on then starts anything.

What every power loss leaves: nothing in HBM, registers at their reset values, the reset history and time cleared, pads
held, and fuses as they were. -/
def Obligations.TripAndSupply : Prop :=
  ((∀ (die k : Nat) (v : Half) (s : State), okDieCode die = true → k < 10 → powered s.dev = true → 7040 ≤ v.toInt →
      Completes (.thermalTrip die k v) s fun d =>
        d.pwr.tripped = true ∧ powered d = false ∧ d.pins.pwrOk = false ∧ d.pins.padHold = true ∧ d.mem = [] ∧ d.poison = []
          ∧ d.rst.phase = .asserted ∧ d.rst.scope = .coldLoss ∧ d.timeRun = false ∧ d.time = 0#64 ∧ d.fuses = s.dev.fuses
          ∧ (s.dev.peg.logQ.length < 16 → ∃ e, e ∈ d.flash.log ∧ e.ok = true ∧ u16 e.bytes 16 = 0x0083))
    ∧ ∀ s : State, s.dev.pwr.tripped = true →
        (Completes .powerOn s fun d => d = s.found)
          ∧ (Completes .watchdogExpiry s fun d => d = s.found)
          ∧ Completes .pinReset s fun d => d = { s.found with pins := { s.dev.pins with rstN := false } })
  ∧ ((∀ s : State, s.dev.pwr.supply = false → s.dev.pwr.overV = false → s.dev.pwr.tripped = false → s.dev.rst.nv = none →
      Completes .powerOn s fun d =>
        d.pwr.supply = true ∧ d.rst.phase = .asserted ∧ d.rst.scope = .coldLoss ∧ d.rst.cause = 1
          ∧ d.rst.lines = (if s.dev.pins.rstN then [1] else [1, 3])
          ∧ d.regs = [] ∧ d.mem = [] ∧ d.streams = [] ∧ d.map.cur = [] ∧ d.rst.history = [] ∧ d.rst.withdrawn = false
          ∧ d.osc = 0 ∧ d.time = 0#64 ∧ d.timeRun = false ∧ d.pins.padHold = true ∧ d.fuses = s.dev.fuses)
    ∧ (∀ s : State, powered s.dev = true → s.dev.rst.phase = .idle → s.dev.rst.nv = none →
      Completes .brownOut s fun d =>
        d.pwr.supply = false ∧ d.pins.pwrOk = false ∧ d.rst.phase = .asserted ∧ d.rst.scope = .coldLoss ∧ d.rst.cause = 2
          ∧ d.mem = [] ∧ d.rst.history = [] ∧ d.timeRun = false ∧ d.fuses = s.dev.fuses)
    ∧ (∀ s : State, powered s.dev = true → s.dev.rst.phase = .idle → s.dev.rst.nv.isSome = true →
      Completes .brownOut s fun d =>
        d.rst.phase = .nvWait ∧ d.rst.scope = .coldLoss ∧ d.pins.pwrOk = false ∧ d.mem = s.dev.mem ∧ d.flash = s.dev.flash
          ∧ regGet HS_NVDELAY d = satAdd (regGet HS_NVDELAY s.dev) 1)
    ∧ (∀ s : State, s.dev.pwr.supply = true → s.dev.pwr.tripped = true →
      Completes .brownOut s fun d => d.pwr.tripped = false ∧ d.pwr.supply = false ∧ d.pins.pwrOk = false)
    ∧ (∀ s : State, powered s.dev = true →
      Completes .overVoltage s fun d =>
        d.pwr.supply = false ∧ d.pwr.overV = true ∧ d.pins.pwrOk = false ∧ d.rst.phase = .asserted ∧ d.rst.scope = .coldLoss
          ∧ d.mem = [] ∧ d.timeRun = false ∧ d.fuses = s.dev.fuses)
    ∧ ∀ s : State, s.dev.pwr.overV = true → s.dev.pwr.supply = false → s.dev.pwr.tripped = false → s.dev.rst.nv = none →
      Completes .overVoltageEnd s fun d =>
        d.pwr.overV = false ∧ d.pwr.supply = true ∧ d.rst.phase = .asserted ∧ d.rst.cause = 1)

/-! ### The supply (17 R653; 16 R597, R598, R604, R617) -/

/-! ### Power states (17 R634-R642) -/

/-- Idle is entered and left by R635; a drain that ends enters the state asked for and latches the pins; one that lasts 2 s leaves the
part as it was with RESULT 0x02; a Vigil sample with signal on four lanes wakes; a wake ends in Active once no die calibrates. -/
def Obligations.PowerStates : Prop :=
  (∀ s : State, bit (regGet HS_PWRCTL s.dev).toNat 28 = true → s.dev.pwr.state = 0 → s.dev.pwr.target = none →
      s.dev.pwr.transit = false → powered s.dev = true → workless s.dev = true →
    Completes .autoIdleEnter s fun d => d = { s.found with pwr := { s.dev.pwr with state := 1 } })
  ∧ (∀ s : State, s.dev.pwr.state = 1 →
      (workless s.dev = false ∨ bit (regGet HS_PWRCTL s.dev).toNat 28 = false) →
    Completes .idleExit s fun d =>
      d.pwr = { s.dev.pwr with state := 0 } ∧ Same { pwr := true, regs := true, peg := true, strand := true, tx := true } s.found d)
  ∧ (∀ (held st : Nat) (s : State), s.dev.pwr.target = some st → noBatches s.dev = true → s.dev.pwr.heldWake = 0 →
    Completes (.powerDrainDone held) s fun d =>
      d.pwr.state = st ∧ d.pwr.target = none ∧ d.pwr.transit = false ∧ d.pwr.result = 0x00#8 ∧ d.pins.latched = true
        ∧ d.pins.latchPps = s.dev.pins.ppsOut ∧ d.pins.latchAlert = !s.dev.pwr.alert.isEmpty
        ∧ (st = 3 → d.eth.up = false) ∧ (st ≠ 3 → d.eth = s.dev.eth) ∧ d.time = s.dev.time ∧ d.tunes = s.dev.tunes)
  ∧ (∀ s : State, s.dev.pwr.target.isSome = true → noBatches s.dev = false → sec 2 ≤ since s.dev.pwr.drainFrom s.dev →
    Completes .drainTimeout s fun d =>
      d.pwr.result = 0x02#8 ∧ d.pwr.target = none ∧ d.pwr.transit = false ∧ d.pwr.state = s.dev.pwr.state)
  ∧ (∀ (lanes : Nat) (temps : List Half) (vin : Half) (s : State), 4 ≤ lanes → lanes ≤ 8 → s.dev.pwr.state = 3 → s.dev.pwr.waking = false →
      s.dev.pwr.target = none → ms 100 ≤ since s.dev.pwr.vigilLast s.dev →
    Completes (.vigilSample lanes temps vin) s fun d =>
      d.pwr.waking = true ∧ d.pwr.transit = true ∧ d.pwr.wake = 6 ∧ d.pwr.wakeFrom = s.dev.time ∧ d.pwr.vigilLast = s.dev.time
        ∧ regGet HS_VIGILSAMP d = satAdd (regGet HS_VIGILSAMP s.dev) 1 ∧ Same { pwr := true, regs := true, fret := true } s.found d)
  ∧ (∀ (lanes : Nat) (temps : List Half) (vin : Half) (s : State), lanes < 4 → s.dev.pwr.state = 3 → s.dev.pwr.waking = false →
      ms 100 ≤ since s.dev.pwr.vigilLast s.dev → 5000 ≤ vin.toNat → vin.toNat ≤ 5800 →
      (∀ t, t ∈ temps → t.toInt < 64 * (regField HS_THERMCFG 0 8 s.dev : Int) ∧ t.toInt < 7040) →
    Completes (.vigilSample lanes temps vin) s fun d =>
      d.pwr = { s.dev.pwr with vigilLast := s.dev.time } ∧ Same { pwr := true, regs := true } s.found d)
  ∧ (∀ (held : Nat) (s : State), s.dev.pwr.waking = false ∨ (s.dev.fret.dies.all fun e => e.2.cal == 0) = false →
    Completes (.wakeDone held) s fun d => d = s.found)
  ∧ ∀ (held : Nat) (s : State), s.dev.pwr.waking = true → (s.dev.fret.dies.all fun e => e.2.cal == 0) = true →
    Completes (.wakeDone held) s fun d =>
      let b := wakeEnd held s.found
      d = serveHeld b ∧ b.pwr.state = 0 ∧ b.pwr.waking = false ∧ b.pwr.transit = false ∧ b.pins.latched = false
        ∧ b.pins.padHold = false ∧ b.time = s.dev.time ∧ b.eth = s.dev.eth

/-! ### Resets (16 R597-R621) -/

/-- With no reset in progress and no non-volatile write: the watchdog, a lockup, a lost clock, the debug port and RST_N each start the
reset of their scope at once. HBM, fuses and, after a warm reset, the map, the count of time and its value stay; time stops.

The bring-up: the straps are sampled at the release, a level that changed around it by the sample taken; the root PLL starts
time and the ROM's checks; calibration brings the links up; and step 9 ends the reset, entering WITHDRAWN where it is due. -/
def Obligations.ResetsBegin : Prop :=
  ((∀ s : State, powered s.dev = true → s.dev.rst.phase = .idle → s.dev.rst.nv = none →
        ∀ i c, (i = .watchdogExpiry ∧ c = 4) ∨ (i = .lockup ∧ c = 8) ∨ (i = .clockFail ∧ c = 7) →
      Completes i s fun d =>
        d.rst.phase = .asserted ∧ d.rst.scope = .warm ∧ d.rst.cause = c ∧ d.rst.mask = causeBit c ∧ d.timeRun = false ∧ d.time = s.dev.time
          ∧ d.mem = s.dev.mem ∧ d.fuses = s.dev.fuses ∧ d.map.cur = s.dev.map.cur ∧ d.pins.padHold = true ∧ d.eth.up = false
          ∧ (s.dev.rst.withdrawn = false → d.rst.history = oscSec s.dev :: s.dev.rst.history))
    ∧ (∀ s : State, powered s.dev = true → tapUsable s.dev = true → s.dev.rst.phase = .idle → s.dev.rst.nv = none →
      Completes .debugReset s fun d =>
        d.rst.phase = .asserted ∧ d.rst.scope = .cold ∧ d.rst.cause = 6 ∧ d.timeRun = false ∧ d.time = 0#64 ∧ d.mem = s.dev.mem
          ∧ d.fuses = s.dev.fuses ∧ d.map.cur = [] ∧ d.streams = [] ∧ d.pins.padHold = true)
    ∧ (∀ s : State, powered s.dev = true → s.dev.rst.phase = .idle → s.dev.rst.nv = none → 1 ∉ s.dev.rst.lines →
      Completes .pinReset s fun d =>
        d.rst.phase = .asserted ∧ d.rst.scope = .cold ∧ d.rst.cause = 3 ∧ 3 ∈ d.rst.lines ∧ d.pins.rstN = false ∧ d.timeRun = false
          ∧ d.mem = s.dev.mem ∧ d.fuses = s.dev.fuses ∧ d.map.cur = [])
    ∧ ∀ s : State, Completes .pinResetRelease s fun d =>
        d = { s.found with pins := { s.dev.pins with rstN := true, extest := false, clamp := false },
                           rst := { s.dev.rst with lines := s.dev.rst.lines.filter fun x => x != 3 } })
  ∧ ((∀ (b0 c0 b1 c1 pb pc : BitVec 2) (s : State), powered s.dev = true → s.dev.rst.phase = .asserted → 3 ∉ s.dev.rst.lines →
      Completes (.deviceResetRelease b0 c0 b1 c1 pb pc) s fun d =>
        d.rst.phase = .released ∧ d.rst.lines = [] ∧ (d.rst.unstable = true ↔ b0 ≠ b1 ∨ c0 ≠ c1)
          ∧ (b0 = b1 → d.pins.bootSampled = b1) ∧ (c0 = c1 → d.pins.clkSampled = c1) ∧ d.peg.mode = d.pins.bootSampled
          ∧ d.pins.pwrOk = true ∧ d.timeRun = s.dev.timeRun ∧ Same { rst := true, pins := true, peg := true } s.found d)
    ∧ (∀ s : State, powered s.dev = true → s.dev.rst.phase = .released → s.dev.peg.mode ≠ 1#2 →
      Completes .rootPllLock s fun d =>
        d.timeRun = true ∧ d.rst.phase = .booted ∧ d.pins.padHold = false
          ∧ (fwCode s.dev = 0 → d.peg.fwOk = true ∧ d.peg.bootCount = s.dev.peg.bootCount + 1#32
              ∧ d.peg.keys = twoCopyGet s.dev.flash.keysA s.dev.flash.keysB [])
          ∧ (fwCode s.dev ≠ 0 → d.peg.halt = BitVec.ofNat 8 (fwCode s.dev) ∧ 5 ∈ d.pwr.alert ∧ d.peg.fwOk = s.dev.peg.fwOk)
          ∧ Same { timeRun := true, rst := true, pins := true, peg := true, pwr := true, fret := true } s.found d)
    ∧ (∀ s : State, powered s.dev = true → s.dev.rst.phase = .released → s.dev.peg.mode = 1#2 →
      Completes .rootPllLock s fun d =>
        d.timeRun = true ∧ d.rst.phase = .booted ∧ d.peg.fwOk = s.dev.peg.fwOk ∧ d.peg.keys = s.dev.peg.keys)
    ∧ (∀ (l : List DieCal) (s : State), (l.all fun x => okCal x) = true → powered s.dev = true → s.dev.rst.phase = .booted →
        s.dev.peg.fwOk = true →
      Completes (.calibrationCommit l) s fun d =>
        d.rst.phase = .calibrated ∧ (∀ k, k ∈ allLinks → linkAt k d = { state := 2, failed := 0 }) ∧ d.mem = s.dev.mem ∧ d.time = s.dev.time
          ∧ d.fuses = s.dev.fuses)
    ∧ ∀ s : State, powered s.dev = true → s.dev.rst.phase = .calibrated →
      Completes .deviceResetDone s fun d =>
        let b := deviceResetDone s.found
        d = serveHeld b ∧ b.rst.phase = .idle ∧ b.rst.withdrawn = (s.dev.rst.withdrawn || s.dev.rst.willWithdraw)
          ∧ (∃ r, r ∈ b.peg.ring ∧ u16 r.payload 0 = 0x00A0 ∧ u8 r.payload 4 = s.dev.rst.cause % 256)
          ∧ b.time = s.dev.time ∧ b.mem = s.dev.mem)

/-- A reset of stage, partition or die scope ends: it leaves the list, is counted, and what waited is served; a reset that overruns
its time escalates; a pulse that ends lets a reset that waited be asserted. -/
def Obligations.ResetEnds : Prop :=
  (∀ (p stage : Nat) (x : SubReset) (s : State), p < 32 → subNamed .stage p stage 0 s.dev = some x → s.dev.rst.waiting = [] →
    Completes (.stageResetDone p stage) s fun d =>
      let b := endSub x s.found
      d = serveHeld b ∧ b.rst.subs = s.dev.rst.subs.filter (fun y => !subName x y) ∧ b.rst.waiting = []
        ∧ regGet (PT_STGRESET x.part) b = satAdd (regGet (PT_STGRESET x.part) s.dev) 1)
  ∧ (∀ (p : Nat) (x : SubReset) (s : State), p < 32 → subNamed .partition p 0 0 s.dev = some x → s.dev.rst.waiting = [] →
    Completes (.partitionResetDone p) s fun d =>
      let b := endSub x s.found
      d = serveHeld b ∧ b.rst.subs = s.dev.rst.subs.filter (fun y => !subName x y) ∧ b.rst.waiting = []
        ∧ regGet (PT_PARTRESET x.part) b = satAdd (regGet (PT_PARTRESET x.part) s.dev) 1)
  ∧ (∀ (n : Nat) (x : SubReset) (s : State), n < 12 → (dieAt n s.dev).cal = 0 → subNamed .die 0 0 n s.dev = some x →
      s.dev.rst.waiting = [] →
    Completes (.dieResetDone n) s fun d =>
      let b := endSub x (finishDie n s.found)
      d = serveHeld b ∧ b.rst.subs = s.dev.rst.subs.filter (fun y => !subName x y) ∧ b.rst.waiting = []
        ∧ (∀ k, k ∈ pairLinks n → linkAt k b = { state := 2, failed := 0 }) ∧ b.mem = s.dev.mem)
  ∧ (∀ (x : SubReset) (s : State), powered s.dev = true → s.dev.rst.subs = [x] → x.scope = .stage →
      x.t0 + scopeLimit .stage ≤ s.dev.osc →
    Completes (.escalate (some 0)) s fun d =>
      (∃ y, y ∈ d.rst.subs ∧ y.scope = .partition ∧ y.part = x.part ∧ y.source = 11 ∧ y.t0 = s.dev.osc)
        ∧ d.mem = s.dev.mem ∧ d.time = s.dev.time ∧ d.rst.phase = s.dev.rst.phase)
  ∧ (∀ (n : Nat) (x : SubReset) (s : State), powered s.dev = true → s.dev.rst.phase = .idle → s.dev.rst.nv = none →
      s.dev.rst.subs[n]? = some x → (x.scope = .partition ∨ x.scope = .die) → x.t0 + scopeLimit x.scope ≤ s.dev.osc →
    Completes (.escalate (some n)) s fun d =>
      d.rst.phase = .asserted ∧ d.rst.scope = .warm ∧ d.rst.cause = 11 ∧ d.rst.subs = [])
  ∧ (∀ s : State, powered s.dev = true → (s.dev.rst.phase ≠ .idle ∧ s.dev.rst.phase ≠ .nvWait) → s.dev.rst.nv = none →
      s.dev.rst.t0 + scopeLimit s.dev.rst.scope ≤ s.dev.osc →
    Completes (.escalate none) s fun d =>
      d.rst.phase = .asserted ∧ d.rst.scope = .cold ∧ d.rst.cause = 11
        ∧ (s.dev.rst.scope ≠ .warm → 4 ∈ d.pwr.alert))
  ∧ (∀ (next : Option NvWrite) (s : State), s.dev.rst.nv.isSome = true → s.dev.rst.phase = .nvWait →
    Completes (.nvWritePulseEnd next) s fun d =>
      d.rst.phase = .asserted ∧ d.rst.nv = none ∧ d.rst.scope = s.dev.rst.scope ∧ d.timeRun = false ∧ d.fuses = s.dev.fuses)
  ∧ ∀ (next : Option NvWrite) (s : State), s.dev.rst.nv.isSome = true → s.dev.rst.phase ≠ .nvWait →
    Completes (.nvWritePulseEnd next) s fun d =>
      d = { s.found with rst := { s.dev.rst with nv := d.rst.nv } } ∧ (d.rst.nv = next ∨ d.rst.nv = none)

/-! ### Flash, keys and updates in service (15 R566-R594) -/

/-- A firmware update is verified, programmed, or given up; an image with COMMIT_SVN raises the fused SVN and no other does.

The write of a key store change ends in the copy not in force, one generation on; the oldest queued entry of the persistent log is in
flash; a session idle for 600 s is closed. -/
def Obligations.UpdatesAndFlash : Prop :=
  ((∀ (s : State), s.dev.peg.update.state = 2 →
        let im := parseImage s.dev.fuses.roots (stagedBytes s.dev.peg.update.staged s.dev.peg.update.total)
        let code := if im.length = s.dev.peg.update.total && !(inRom s.dev && im.kind != 0#8)
          then imageCode im s.dev.fuses.svn s.dev.fuses.revoked else 1
      Completes .updateVerifyDone s fun d =>
        (code ≠ 0 → d.peg.update.state = 4 ∧ d.peg.update.code = BitVec.ofNat 8 code ∧ d.flash = s.dev.flash
            ∧ regGet PG_UPDFAIL d = satAdd (regGet PG_UPDFAIL s.dev) 1)
          ∧ (code = 0 → d.peg.update.state = 3 ∧ d.rst.nv = some .erase ∧ d.regs = s.dev.regs
            ∧ (im.kind = 0#8 → d.flash = { s.dev.flash with fw := none }) ∧ (im.kind ≠ 0#8 → d.flash = { s.dev.flash with pat := none }))
          ∧ d.fuses = s.dev.fuses ∧ d.mem = s.dev.mem)
    ∧ (∀ (im : FwImage) (s : State), s.dev.peg.update.state = 3 → s.dev.peg.update.image = some im →
      Completes (.updateProgramDone true) s fun d =>
        d.peg.update.state = 4 ∧ d.peg.update.code = 0#8 ∧ d.rst.nv = none
          ∧ (im.kind = 0#8 → d.flash = { s.dev.flash with fw := some im }) ∧ (im.kind ≠ 0#8 → d.flash = { s.dev.flash with pat := some im })
          ∧ d.fuses = { s.dev.fuses with svn := if im.commitSvn then max s.dev.fuses.svn im.svn else s.dev.fuses.svn })
    ∧ (∀ (im : FwImage) (s : State), s.dev.peg.update.state = 3 → s.dev.peg.update.image = some im →
      Completes (.updateProgramDone false) s fun d =>
        d.peg.update.state = 4 ∧ d.peg.update.code = 7#8 ∧ d.flash = s.dev.flash ∧ d.fuses = s.dev.fuses
          ∧ regGet PG_UPDFAIL d = satAdd (regGet PG_UPDFAIL s.dev) 1)
    ∧ ∀ s : State, (s.dev.peg.update.state = 1 ∨ s.dev.peg.update.state = 2) → sec 600 ≤ since s.dev.peg.update.last s.dev →
      Completes .updateIdleTimeout s fun d =>
        d.peg.update.state = 4 ∧ d.peg.update.code = 8#8 ∧ regGet PG_UPDFAIL d = satAdd (regGet PG_UPDFAIL s.dev) 1
          ∧ Same { peg := true, regs := true, strand := true, tx := true } s.found d)
  ∧ ((∀ (code : Byte) (id : Word) (s : State), s.dev.peg.keyBusy = some (code, id) →
      Completes .keyStoreWritten s fun d =>
        (d.flash.keysA, d.flash.keysB) = twoCopyPut s.dev.flash.keysA s.dev.flash.keysB s.dev.peg.keys
          ∧ twoCopyGet d.flash.keysA d.flash.keysB [] = s.dev.peg.keys ∧ d.peg.keyBusy = none ∧ d.peg.keys = s.dev.peg.keys ∧ d.rst.nv = none
          ∧ (∃ r, r ∈ d.peg.ring ∧ u16 r.payload 0 = 0x00C2 ∧ r.payload.getD 3 0#8 = code)
          ∧ Same { flash := true, peg := true, rst := true, strand := true, regs := true, tx := true } s.found d)
    ∧ (∀ (r : List Byte) (q : List (List Byte)) (s : State), s.dev.peg.logQ = r :: q →
      Completes .persistentLogProgrammed s fun d =>
        d.peg.logQ = q ∧ d.flash.log.getLast? = some { bytes := r, boot := s.dev.peg.bootCount, ok := true }
          ∧ d.peg.keys = s.dev.peg.keys ∧ d.flash.fw = s.dev.flash.fw ∧ Same { flash := true, peg := true } s.found d)
    ∧ ∀ (num : Word) (x : Session) (s : State), sessionOf num s.dev = some x → sec 600 ≤ since x.last s.dev →
      Completes (.sessionIdleTimeout num) s fun d =>
        sessionOf num d = none ∧ (∀ y, y ≠ num → sessionOf y d = sessionOf y s.dev)
          ∧ Same { strand := true, peg := true, regs := true, tx := true } s.found d)

/-! ### Tuning loads and the partition map (11 R458-R465; 13 R520-R523) -/

/-- Verification ends with the first check that fails, or in BARRIER; at the barrier the image comes in force; after 2 s in BARRIER the load
is refused with code 0x15.

At the map barrier the three accepted records become current and no other partition's do; a hand-over ends for the units that the
loser has let go of. -/
def Obligations.TuningAndMapEvents : Prop :=
  ((∀ (p : Nat) (l : TuneLoad) (code sec rec : Nat) (s : State), p < 32 → (tuneAt p s.dev).load = some l → l.state = 2 →
        s.dev.rst.phase = .idle → imageCheck p l.bytes s.found = some (code, sec, rec) → code ≠ 0 →
      Completes (.tuningVerifyDone p) s fun d =>
        (tuneAt p d).load = none ∧ (tuneAt p d).code = BitVec.ofNat 8 code ∧ (tuneAt p d).sect = BitVec.ofNat 8 sec
          ∧ (tuneAt p d).image = (tuneAt p s.dev).image ∧ regGet (PT_TUNEERR p) d = BitVec.ofNat 32 rec
          ∧ regGet (PT_TUNEREFUSE p) d = satAdd (regGet (PT_TUNEREFUSE p) s.dev) 1 ∧ (∀ q, q ≠ p → tuneAt q d = tuneAt q s.dev)
          ∧ Same { tunes := true, regs := true, peg := true, strand := true, tx := true } s.found d)
    ∧ (∀ (p : Nat) (l : TuneLoad) (s : State), p < 32 → (tuneAt p s.dev).load = some l → l.state = 2 →
        s.dev.rst.phase = .idle → imageCheck p l.bytes s.found = none →
      Completes (.tuningVerifyDone p) s fun d =>
        (tuneAt p d).load = some { l with state := 3, from_ := s.dev.time } ∧ (tuneAt p d).image = (tuneAt p s.dev).image
          ∧ d = { s.found with tunes := d.tunes })
    ∧ (∀ (p : Nat) (l : TuneLoad) (s : State), p < 32 → (tuneAt p s.dev).load = some l → l.state = 3 → atBarrier p s.dev = true →
        (inConsort s.dev && cnsSplit s.dev && cnsPart s.dev == p) = false →
        barrierCheck p l.bytes (setBarr p (usSince l.from_ s.dev) s.found) = none →
      Completes (.tuningBarrierReached p) s fun d =>
        (tuneAt p d).load = none ∧ (tuneAt p d).code = 0#8 ∧ (tuneAt p d).image = l.bytes ∧ (tuneAt p d).suspended = false
          ∧ d.time = s.dev.time ∧ d.map = s.dev.map)
    ∧ ∀ (p : Nat) (l : TuneLoad) (s : State), p < 32 → (tuneAt p s.dev).load = some l → l.state = 3 → sec 2 ≤ since l.from_ s.dev →
      Completes (.tuningBarrierTimeout p) s fun d =>
        (tuneAt p d).load = none ∧ (tuneAt p d).code = 0x15#8 ∧ (tuneAt p d).image = (tuneAt p s.dev).image
          ∧ regGet (PT_TUNEREFUSE p) d = satAdd (regGet (PT_TUNEREFUSE p) s.dev) 1
          ∧ Same { tunes := true, regs := true, peg := true, strand := true, tx := true } s.found d)
  ∧ ((∀ (p : Nat) (r0 r1 r2 : List Byte) (s : State), p < 32 → mget? s.dev.map.waiting p = some [r0, r1, r2] →
      Completes (.mapBarrier p) s fun d =>
        mapCur p 0 d = r0 ∧ mapCur p 1 d = r1 ∧ mapCur p 2 d = r2 ∧ (∀ q k, q ≠ p → k < 4 → mapCur q k d = mapCur q k s.dev)
          ∧ d.map.handovers = s.dev.map.handovers ++ mapLosses p (mapCur p 0 s.dev) r0
          ∧ Same { map := true, eth := true, sync := true, tunes := true, regs := true, peg := true, strand := true, tx := true } s.found d)
    ∧ ∀ (k base count : Nat) (h : HandOver) (s : State), s.dev.map.handovers[k]? = some h → 0 < count → h.base ≤ base →
        base + count ≤ h.base + h.count → released h base count s.dev = true →
      Completes (.mapHandoverEnd k base count) s fun d =>
        d.map.handovers = s.dev.map.handovers.take k
            ++ (rangeDiff h.base h.count base count).map (fun e => { h with base := e.1, count := e.2 }) ++ s.dev.map.handovers.drop (k + 1)
          ∧ d.map.cur = s.dev.map.cur ∧ (h.kind ≠ .course → d.fret = s.dev.fret ∧ d.regs = s.dev.regs)
          ∧ Same { map := true, fret := true, regs := true } s.found d)

/-! ### Time in a consort (14 R548-R550) -/

/-- A Sync gives a slave its offset and is answered with Delay_Req; the master answers Delay_Req and sends Sync; Delay_Resp gives the
path delay; time is stepped only once, before admission, and else only slewed by one count in 20 us. -/
def Obligations.TimeProtocol : Prop :=
  (∀ (dom : Nat) (t1 : Int) (f2 f3 : Nat) (s : State), dom < 256 → s.dev.eth.up = true → isSlave dom s.dev = true →
      let o := ptpTime f2 s.dev - t1 - s.dev.cns.delay
    Completes (.ptpSyncRx dom t1 f2 f3) s fun d =>
      d.cns.offset = BitVec.ofInt 32 o ∧ d.cns.aligned = (decide (-200 ≤ o) && decide (o ≤ 200))
        ∧ d.cns.meas = some { t1 := t1, t2 := ptpTime f2 s.dev, t3 := ptpTime f3 s.dev } ∧ d.tx = [.ptp dom 1 s.dev.time]
        ∧ d.cns.state = s.dev.cns.state ∧ d = { s.found with cns := d.cns, tx := d.tx })
  ∧ (∀ (dom : Nat) (s : State), dom < 256 → s.dev.eth.up = true → cnsRuns s.dev = true → isCnsMaster s.dev = true → dom = cnsDomain s.dev →
    Completes (.ptpDelayReqRx dom) s fun d => d = { s.found with tx := [.ptp dom 2 s.dev.time] })
  ∧ (∀ s : State, s.dev.eth.up = true → cnsRuns s.dev = true → isCnsMaster s.dev = true → 1562500 ≤ since s.dev.cns.synced s.dev →
    Completes .ptpSyncInterval s fun d =>
      d = { s.found with cns := { s.dev.cns with synced := s.dev.time }, tx := [.ptp (cnsDomain s.dev) 0 s.dev.time] })
  ∧ (∀ (dom : Nat) (t4 : Int) (m : PtpMeas) (s : State), dom < 256 → s.dev.eth.up = true → isSlave dom s.dev = true →
      s.dev.cns.meas = some m →
      (s.dev.cns.state ≠ 1 ∨ isCnsMaster s.dev = true ∨ s.dev.cns.stepped = true ∨ cnsSelf s.dev.cns.cur ∈ s.dev.cns.joined) →
    Completes (.ptpDelayRespRx dom t4) s fun d =>
      d.time = s.dev.time ∧ d.cns.delay = ((m.t2 - m.t1) + (t4 - m.t3)) / 2
        ∧ d.cns.offset = BitVec.ofInt 32 (((m.t2 - m.t1) - (t4 - m.t3)) / 2) ∧ d.cns.meas = none ∧ d = { s.found with cns := d.cns })
  ∧ (∀ (dom : Nat) (t4 : Int) (m : PtpMeas) (s : State), dom < 256 → s.dev.eth.up = true → isSlave dom s.dev = true →
      s.dev.cns.meas = some m → s.dev.cns.state = 1 → isCnsMaster s.dev = false → s.dev.cns.stepped = false →
      cnsSelf s.dev.cns.cur ∉ s.dev.cns.joined →
    Completes (.ptpDelayRespRx dom t4) s fun d =>
      d.time = s.dev.time - BitVec.ofInt 64 (((m.t2 - m.t1) - (t4 - m.t3)) / 2 / 40) ∧ d.cns.stepped = true
        ∧ d.cns.delay = ((m.t2 - m.t1) + (t4 - m.t3)) / 2 ∧ d = { s.found with time := d.time, cns := d.cns })
  ∧ ∀ s : State, cnsRuns s.dev = true → (isCnsMaster s.dev = false ∨ cnsTsrc s.dev.cns.cur = 1) → s.dev.timeRun = true →
      us 20 ≤ since s.dev.cns.slewed s.dev → (s.dev.cns.offset.toInt ≤ -40 ∨ 40 ≤ s.dev.cns.offset.toInt) →
    Completes .clockSlew s fun d =>
      d.time = (if 0 < s.dev.cns.offset.toInt then s.dev.time else s.dev.time + 2#64) ∧ d.cns.slewed = d.time ∧ d.osc = s.dev.osc + 1
        ∧ d = { s.found with time := d.time, osc := d.osc, cns := d.cns }

/-! ### Members of a consort (14 R547, R550, R553, R557) -/

/-- The master admits a member that meets R547 and refuses another with its code; a member takes the master's answer; FORMED once all have
joined; a member lost stops a PIPELINE or TENSOR consort, and the loss of the master stops every one. -/
def Obligations.ConsortMembers : Prop :=
  (∀ (m : Nat) (serial : DWord) (cgen streams : Nat) (s : State), isCnsMaster s.dev = true → s.dev.cns.state = 1 ∨ s.dev.cns.state = 2 →
      m < 16 → m < cnsN s.dev.cns.cur → m ≠ cnsSelf s.dev.cns.cur → (cnsDigest s.dev.cns.cur).length = 64 →
      serial = memSerial (cnsMember s.dev.cns.cur m) → streams = resStreamCount (resOf (cnsPart s.dev) s.dev) → cnsGen s.dev.cns.cur ≤ cgen →
    Completes (.consortJoinRequestRx m (cnsDigest s.dev.cns.cur) serial cgen true streams true) s fun d =>
      m ∈ d.cns.joined ∧ m ∉ d.cns.lost ∧ (∀ k, k ∈ s.dev.cns.joined → k ∈ d.cns.joined) ∧ d.cns.cur = s.dev.cns.cur
        ∧ (s.dev.cns.state = 1 → (∀ k, k < cnsN s.dev.cns.cur → k = m ∨ k ∈ s.dev.cns.joined) → d.cns.state = 2)
        ∧ d = { s.found with cns := d.cns, tx := d.tx })
  ∧ (∀ (m : Nat) (digest : List Byte) (serial : DWord) (cgen streams : Nat) (partOn timeOk : Bool) (s : State),
      isCnsMaster s.dev = true → s.dev.cns.state = 1 ∨ s.dev.cns.state = 2 → m < 16 → m < cnsN s.dev.cns.cur → m ≠ cnsSelf s.dev.cns.cur →
      digest.length = 64 → digest ≠ cnsDigest s.dev.cns.cur →
    Completes (.consortJoinRequestRx m digest serial cgen partOn streams timeOk) s fun d =>
      d = { s.found with tx := [.consort m 2 (leBytes 1 1)] })
  ∧ (∀ (code : Nat) (joined : List Nat) (s : State), code < 6 → (joined.all fun k => decide (k < 16)) = true → inConsort s.dev = true →
      isCnsMaster s.dev = false → s.dev.cns.state = 1 →
    Completes (.consortJoinResultRx code joined) s fun d =>
      d.cns.busy = false ∧ d.cns.result = BitVec.ofNat 8 code ∧ (code ≠ 0 → d.cns.state = 0) ∧ (code = 0 → d.cns.joined = joined)
        ∧ (code = 0 → (∀ k, k < cnsN s.dev.cns.cur → k ∈ joined) → d.cns.state = 2) ∧ d = { s.found with cns := d.cns })
  ∧ (∀ (i : Instr) (m : Nat) (s : State), i = .memberAlignLost m ∨ i = .consortPortTimeout m → cnsFormed s.dev = true →
      m < 16 → m < cnsN s.dev.cns.cur → m ≠ cnsSelf s.dev.cns.cur → m ∉ s.dev.cns.lost →
    Completes i s fun d =>
      m ∈ d.cns.lost
        ∧ (cnsSplit s.dev = true ∨ m = cnsMasterNo s.dev.cns.cur → d.cns.state = 3 ∧ d.cns.strums = [] ∧ d.cns.gate = false)
        ∧ (cnsSplit s.dev = false → m ≠ cnsMasterNo s.dev.cns.cur →
            d.cns.strums = s.dev.cns.strums.map (fun x => if x.committed then { x with missed := true } else x)
              ∧ d = { s.found with cns := d.cns })
        ∧ d.time = s.dev.time ∧ d.mem = s.dev.mem ∧ d.cns.cur = s.dev.cns.cur)
  ∧ ∀ s : State, cnsFormed s.dev = true → isCnsMaster s.dev = false → ms 100 ≤ since s.dev.cns.heard s.dev →
    Completes .masterLost s fun d =>
      d.cns.state = 3 ∧ d.cns.strums = [] ∧ d.cns.gate = false ∧ d.cns.cur = s.dev.cns.cur ∧ d.time = s.dev.time
        ∧ (cnsSplit s.dev = false → d.streams = s.dev.streams)

/-! ### Strums and what consorts share (14 R551-R556) -/

/-- A member holds and acknowledges a Strum, or drops it when told; the master notes acknowledgements, commits what all acknowledged, and
cancels the rest; at T a GATE opens the gate and a SIGNAL adds to its object; the master's values of shared objects reach members. -/
def Obligations.Strums : Prop :=
  (∀ (action : Nat) (arg : Half) (obj : BitVec 10) (t : DWord) (s : State), 1 ≤ action → action ≤ 3 → cnsFormed s.dev = true →
      isCnsMaster s.dev = false →
    Completes (.strumReceive false action arg obj t) s fun d =>
      d.cns.strums = s.dev.cns.strums ++ [⟨action, arg.toNat, obj.toNat, t, [], strumReady action s.dev, false⟩]
        ∧ d.tx = (if strumReady action s.dev then [.consort (cnsMasterNo s.dev.cns.cur) 4 (leBytes 8 t.toNat)] else [])
        ∧ d.cns.heard = s.dev.time ∧ d = { s.found with cns := d.cns, tx := d.tx })
  ∧ (∀ (action : Nat) (arg : Half) (obj : BitVec 10) (t : DWord) (x : Strum) (s : State), 1 ≤ action → action ≤ 3 →
      cnsFormed s.dev = true → isCnsMaster s.dev = false → x ∈ s.dev.cns.strums → x.at_ = t → x.action = action →
    Completes (.strumReceive true action arg obj t) s fun d =>
      x ∉ d.cns.strums ∧ (∀ y, y ∈ s.dev.cns.strums → y.at_ ≠ t → y ∈ d.cns.strums) ∧ d.cns.last = 3
        ∧ regGet HS_STRUMCAN d = satAdd (regGet HS_STRUMCAN s.dev) 1 ∧ d.cns.state = s.dev.cns.state)
  ∧ (∀ (m : Nat) (t : DWord) (s : State), m < 16 → cnsFormed s.dev = true → isCnsMaster s.dev = true →
    Completes (.strumAckRx m t) s fun d =>
      (∀ x, x ∈ d.cns.strums → x.at_ = t → x.committed = false → m ∈ x.acks) ∧ d.cns.strums.length = s.dev.cns.strums.length
        ∧ d = { s.found with cns := { s.dev.cns with strums := d.cns.strums } })
  ∧ (∀ s : State, cnsFormed s.dev = true → isCnsMaster s.dev = true →
    Completes .strumAckDeadline s fun d =>
      (∀ x, x ∈ d.cns.strums → strumDue x 20000 s.dev = true → x.committed = true)
        ∧ ((∀ x, x ∈ s.dev.cns.strums → x.committed = true ∨ strumDue x 20000 s.dev = false
              ∨ (strumReady x.action s.dev = true ∧ ∀ m, m ∈ cnsOthers s.dev → m ∉ s.dev.cns.lost → m ∈ x.acks)) →
            d.cns.strums.length = s.dev.cns.strums.length ∧ d.cns.last = s.dev.cns.last ∧ d.tx = [])
        ∧ Same { cns := true, regs := true, peg := true, strand := true, tx := true } s.found d)
  ∧ (∀ (x : Strum) (s : State), cnsFormed s.dev = true → s.dev.cns.strums = [x] → x.committed = true → x.at_.toNat ≤ s.dev.time.toNat → x.action = 1 ∨ x.action = 2 →
    Completes .strumFire s fun d =>
      d.cns.strums = [] ∧ d.cns.last = (if x.missed then 2 else 1)
        ∧ regGet HS_STRUMCNT d = satAdd (regGet HS_STRUMCNT s.dev) 1
        ∧ (x.action = 2 → d.cns.gate = true ∧ d.sync = s.dev.sync)
        ∧ (x.action = 1 → x.obj < cnsSyncCount s.dev.cns.cur →
            let o := memSync (cnsMember s.dev.cns.cur (cnsSelf s.dev.cns.cur)) + x.obj
            syncVal o d = syncVal o s.dev + BitVec.ofNat 64 x.arg ∧ d.cns.gate = s.dev.cns.gate)
        ∧ d.time = s.dev.time ∧ d.mem = s.dev.mem)
  ∧ ∀ (k op : Nat) (v : DWord) (cycle : Nat) (s : State), k < 1024 → op < 2 → cnsFormed s.dev = true → k < cnsSyncCount s.dev.cns.cur →
    Completes (.consortSyncUpdateRx k op v cycle) s fun d =>
      let o := memSync (cnsMember s.dev.cns.cur (cnsSelf s.dev.cns.cur)) + k
      (isCnsMaster s.dev = false → syncVal o d = v) ∧ (isCnsMaster s.dev = true → syncVal o d = if op = 0 then syncVal o s.dev + v else v)
        ∧ (∀ q, q ≠ o → syncVal q d = syncVal q s.dev) ∧ (∀ w, w ∈ d.sync.waits → w.obj = o → (syncVal o d).toNat < w.threshold.toNat)
        ∧ Same { cns := true, regs := true, strand := true, sync := true, tx := true } s.found d

/-- A member of a PIPELINE or TENSOR consort keeps the master's entries with the master's handle and SEED, acts on forwarded messages by
handle, carries the master's batches, and the master takes the records of the member that holds the Pick stage. Which of its own
entries a member uses is the model's reading (DEDUCED, log 33). -/
def Obligations.SplitConsort : Prop :=
  (∀ (off : Nat) (entry : List Byte) (m : Dgram) (e : Epoch) (s : State), cnsFollows s.dev = true → entry.length = 64 →
      let p := cnsPart s.dev
      let i := resStreamBase (resOf p s.dev) + off
      curEpoch p (u8 m.payload 0) s.dev = some e → ownsStream p i s.dev = true → streamAt i s.dev = none → 0x58 ≤ m.payload.length →
      m.payload.length = (admitLists m.payload).len →
    Completes (.consortEntryRx off entry m) s fun d =>
      (∃ x, streamAt i d = some x ∧ x.handle = w32 (u32 entry 0) ∧ x.seed = BitVec.ofNat 64 (u64 entry 0x20) ∧ x.part = p
        ∧ x.epoch = e.num ∧ x.steps = []) ∧ d.cns.heard = s.dev.time)
  ∧ (∀ (off : Nat) (entry : List Byte) (m : Dgram) (s : State), cnsFollows s.dev = true → entry.length ≠ 64 →
      2 ≤ m.hdr.ttype.toNat → m.hdr.ttype.toNat ≤ 9 →
    Completes (.consortEntryRx off entry m) s fun d => d = takeForwarded m (masterHeard s.found) ∧ d.cns.heard = s.dev.time)
  ∧ (∀ (bid model : Nat) (epoch : Word) (x : BatchEnt) (st : Stream) (s : State), model < 4 → cnsFollows s.dev = true → 0 < x.count →
      let p := cnsPart s.dev
      streamAt (resStreamBase (resOf p s.dev) + x.off) s.dev = some st → st.part = p → streamLive st = true →
    Completes (.batchDescriptorRx bid model epoch [x]) s fun d =>
      (∃ b, b ∈ (schedAt p d).batches ∧ b.id = bid ∧ b.model = model ∧ b.epoch = epoch ∧ b.vecs.length = x.count)
        ∧ d.cns.heard = s.dev.time ∧ d.time = s.dev.time)
  ∧ ∀ (h : Word) (recs : List (List Byte)) (i : Nat) (st : Stream) (s : State), cnsServes (cnsPart s.dev) s.dev = true →
      isCnsMaster s.dev = true → byHandle h s.dev = some i → streamAt i s.dev = some st → streamLive st = true → recs ≠ [] →
      (∀ r, r ∈ recs → r.length = 16) →
    Completes (.consortTokenRecordsRx h recs) s fun d =>
      let b := forEach recs (takeRecord i) s.found
      d = tokenRecordArrival i (takeStepEnd i b)
        ∧ ∃ x, streamAt i b = some x ∧ x.emitted = st.emitted + recs.length ∧ x.outq = st.outq ++ recs.map (fun r => { batch := none, bytes := r }) ∧ x.recs = st.recs + recs.length

/-! ### Strand: headers, associations, timers (12 R481-R490; 13 R526; 17 R639) -/

/-- A datagram whose header breaks a rule of R481 is dropped and counted, and one from an address that is not bound to the partition it
names is dropped and counted for that partition (R526): neither changes anything else.

A header-only message takes no sequence number; its ACK removes what it acknowledges and its CREDIT raises the part's limit and never
lowers it (R483, R486, R490).

The wake frame of R639, a header-only datagram with OPEN and CLOSE and no other flag, wakes a sleeping part and is not answered. -/
def Obligations.DatagramsWithoutWork : Prop :=
  ((∀ (m : Dgram) (s : State), s.dev.eth.up = true →
        (m.hdr.version ≠ 0x01#8 ∨ m.hdr.length.toNat % 4 ≠ 0 ∨ 8128 < m.hdr.length.toNat
          ∨ m.payload.length + m.tag.length ≠ m.hdr.length.toNat + (if hasFlag m.hdr fAUTH then 32 else 0)
          ∨ m.hdr.rsv0 ≠ 0#16 ∨ m.hdr.rsv1 ≠ 0#32 ∨ m.hdr.part ≠ partByte (destOf m)) →
      Completes (.strandBadHeader m) s fun d =>
        regGet HS_STRBADHDR d = satAdd (regGet HS_STRBADHDR s.dev) 1 ∧ RegsBut [HS_STRBADHDR] s.dev d
          ∧ d = { s.found with regs := d.regs })
    ∧ ∀ (m : Dgram) (s : State), s.dev.eth.up = true → badHeader (splitDgram m) = false → m.dest < 32 → inRom s.dev = false →
        enabled m.dest s.dev = true → boundSource m.dest m.src s.dev = false →
      Completes (.unboundSourceDrop m) s fun d =>
        regGet (PT_FWDGRAM m.dest) d = satAdd (regGet (PT_FWDGRAM m.dest) s.dev) 1 ∧ RegsBut [PT_FWDGRAM m.dest] s.dev d
          ∧ d = { s.found with regs := d.regs })
  ∧ (∀ (m0 : Dgram) (aid : Nat) (a : Assoc) (s : State),
        let m := splitDgram (asHead 0#8 (fOPEN ||| fCLOSE ||| fREPLY ||| fREJECT ||| fAUTH) m0);
        s.dev.eth.up = true → dropped m s.found = none → findAssoc m.src m.sport (destOf m) s.dev = some (aid, a) →
        assocAt aid s.dev = some a → a.lost = false → a.closing = false →
      (Completes (.headerAck m0) s fun d =>
        ∃ b, assocAt aid d = some b ∧ b.lastSeq = a.lastSeq ∧ b.used = a.used ∧ b.limit = a.limit
          ∧ b.hostLimit = (if seqGe m.hdr.credit a.hostLimit then m.hdr.credit else a.hostLimit)
          ∧ ∀ x, x ∈ a.unacked → seqGe m.hdr.ack x.hdr.seq = false → x ∈ b.unacked)
      ∧ (a.queued = [] → (∀ x, x ∈ a.unacked → hasFlag x.hdr fREPLY = true) →
        Completes (.headerAck m0) s fun d =>
          ∃ b, assocAt aid d = some b ∧ b.unacked = a.unacked.filter (fun x => !seqGe m.hdr.ack x.hdr.seq) ∧ b.queued = []
            ∧ Same { strand := true, tx := true } s.found d))
  ∧ (∀ (m0 : Dgram) (s : State), s.dev.eth.up = true → dropped (splitDgram (asHead (fOPEN ||| fCLOSE) 0xFF#8 m0)) s.found = none →
        s.dev.pwr.state = 2 → s.dev.pwr.target = none → s.dev.pwr.waking = false →
      Completes (.wakeFrame m0) s fun d =>
        d.pwr = { s.dev.pwr with waking := true, transit := true, wake := 2, wakeFrom := s.dev.time } ∧ d.tx = []
          ∧ Same { pwr := true, fret := true } s.found d)

/-- A header-only OPEN of a host without an association (R482, R489): with room it begins one whose next message is SEQ plus 1, with the
share of its address as credit and a first sequence number nobody can predict, and it is answered with OPEN; without room it is
answered with OPEN and REJECT. An OPEN of a host that has an association replaces it and closes its sessions (R487, R488).

A header-only CLOSE (R488): with nothing unacknowledged, queued or waiting the association ends, its sessions close and its waits go;
with a message still unacknowledged it stays until that is acknowledged. -/
def Obligations.AssociationsOpenAndClose : Prop :=
  ((∀ (m0 : Dgram) (s : State), let m := splitDgram (asHead fOPEN (fCLOSE ||| fREPLY ||| fREJECT ||| fAUTH) m0);
        let dest := destOf m; let n := openOn dest s.dev;
        s.dev.eth.up = true → dropped m s.found = none → findAssoc m.src m.sport dest s.dev = none → strandPaused s.dev = false →
        macSpent dest s.dev = false → n < 64 → (s.dev.strand.assocs.filter fun e => !e.2.lost).length < 1024 → 4 ≤ shareOf dest (n + 1) s.dev → 64 ≤ m.hdr.credit.toNat →
      Completes (.assocOpen m0) s fun d =>
        (∃ a, findAssoc m.src m.sport dest d = some (s.dev.strand.nextAid, a) ∧ a.lastSeq = m.hdr.seq
          ∧ a.mySeq = Config.freeWord s.dev.free ∧ a.limit = w32 (shareOf dest (n + 1) s.dev) ∧ a.used = 0#32
          ∧ a.hostLimit = m.hdr.credit ∧ a.unacked = [] ∧ a.queued = [] ∧ a.subscribe = hasFlag m.hdr fSUBSCRIBE
          ∧ a.lost = false ∧ a.closing = false)
        ∧ (∃ h, d.tx = [.msg m.src m.sport dest h [] []] ∧ h.ttype = 0x00#8 ∧ hasFlag h fOPEN = true ∧ hasFlag h fREJECT = false
            ∧ h.seq = Config.freeWord s.dev.free ∧ h.ack = m.hdr.seq ∧ h.credit = w32 (shareOf dest (n + 1) s.dev))
        ∧ d.free = s.dev.free + 1 ∧ d.strand.sessions = s.dev.strand.sessions
        ∧ Same { free := true, strand := true, tx := true } s.found d)
    ∧ (∀ (m0 : Dgram) (s : State), let m := splitDgram (asHead fOPEN (fCLOSE ||| fREPLY ||| fREJECT ||| fAUTH) m0);
        let dest := destOf m; let n := openOn dest s.dev;
        s.dev.eth.up = true → dropped m s.found = none → findAssoc m.src m.sport dest s.dev = none → macSpent dest s.dev = false →
        64 ≤ n ∨ 1024 ≤ (s.dev.strand.assocs.filter fun e => !e.2.lost).length ∨ shareOf dest (n + 1) s.dev < 4 ∨ m.hdr.credit.toNat < 64 →
      Completes (.assocOpen m0) s fun d =>
        ∃ h, d = { countPn dest s.found with tx := [.msg m.src m.sport dest h [] []] } ∧ h.flags = fOPEN ||| fREJECT ∧ h.ack = m.hdr.seq
          ∧ h.ttype = 0x00#8)
    ∧ ∀ (m0 : Dgram) (aid : Nat) (old : Assoc) (s : State), let m := splitDgram (asHead fOPEN (fCLOSE ||| fREPLY ||| fREJECT ||| fAUTH) m0);
        let dest := destOf m; let k := b2n (!old.lost); let n := openOn dest s.dev - k;
        s.dev.eth.up = true → dropped m s.found = none → findAssoc m.src m.sport dest s.dev = some (aid, old) →
        n < 64 → (s.dev.strand.assocs.filter fun e => !e.2.lost).length - k < 1024 → 4 ≤ shareOf dest (n + 1) s.dev →
        64 ≤ m.hdr.credit.toNat →
      Completes (.assocOpen m0) s fun d =>
        (∃ a, assocAt aid d = some a ∧ a.host = m.src ∧ a.port = m.sport ∧ a.dest = dest ∧ a.lastSeq = m.hdr.seq ∧ a.lost = false
          ∧ a.closing = false ∧ ∀ x, x ∈ takenOver old → ∃ y, y ∈ a.unacked ++ a.queued ∧ y.payload = x.payload ∧ y.hdr.stream = x.hdr.stream)
        ∧ (∀ x, x ∈ d.strand.sessions → x.aid ≠ aid) ∧ (∀ w, w ∈ d.sync.waits → w.aid ≠ aid))
  ∧ (∀ (m0 : Dgram) (aid : Nat) (a : Assoc) (s : State), let m := splitDgram (asHead fCLOSE (fOPEN ||| fREPLY ||| fREJECT ||| fAUTH) m0);
        s.dev.eth.up = true → dropped m s.found = none → findAssoc m.src m.sport (destOf m) s.dev = some (aid, a) →
        assocAt aid s.dev = some a → a.lost = false →
      (a.unacked = [] → a.queued = [] → (∀ h, h ∈ s.dev.strand.held → h.aid ≠ aid) →
        Completes (.assocClose m0) s fun d =>
          (∃ b, assocAt aid d = some b ∧ b.lost = true) ∧ (∀ x, x ∈ d.strand.sessions → x.aid ≠ aid)
            ∧ (∀ w, w ∈ d.sync.waits → w.aid ≠ aid)
            ∧ Same { regs := true, strand := true, sync := true, peg := true, scheds := true, streams := true, tx := true } s.found d)
      ∧ ∀ x, x ∈ a.unacked → seqGe m.hdr.ack x.hdr.seq = false →
        Completes (.assocClose m0) s fun d => ∃ b, assocAt aid d = some b ∧ b.lost = false ∧ b.closing = true ∧ x ∈ b.unacked

)

/-- The timers of an association: the acknowledgement that is due after 10 us (R485), the retransmission of everything outstanding with
the time-out doubled up to 12.8 ms (R486), the loss after 1 s with its sessions and waits (R487), and late token records. A datagram leaves under a key with packet numbers left
(R476; log 123). -/
def Obligations.AssociationTimers : Prop :=
  (∀ (aid : Nat) (a : Assoc) (t : DWord) (s : State), assocAt aid s.dev = some a → a.lost = false → a.accepted = some t →
      us 10 ≤ since t s.dev → strandPaused s.dev = false → s.dev.eth.up = true → macSpent a.dest s.dev = false →
    Completes (.ackTimer aid) s fun d =>
      (∃ h, d.tx = [.msg a.host a.port a.dest h [] []] ∧ h.ttype = 0x00#8 ∧ h.length = 0#16 ∧ h.seq = a.mySeq ∧ h.ack = a.lastSeq
        ∧ h.credit = a.limit ∧ hasFlag h fECE = a.ece ∧ hasFlag h fOPEN = false)
      ∧ assocAt aid d = some { a with ece := false, accepted := none } ∧ (∀ k, k ≠ aid → assocAt k d = assocAt k s.dev)
      ∧ d = { s.found with strand := { (countPn a.dest s.dev).strand with assocs := d.strand.assocs }, tx := d.tx })
  ∧ (∀ (aid : Nat) (a : Assoc) (x : Sent) (r : List Sent) (s : State), assocAt aid s.dev = some a → a.lost = false → a.unacked = x :: r →
      strandPaused s.dev = false → a.rto ≤ since (lastSent a x) s.dev → s.dev.eth.up = true →
      (macCounted a.dest s.dev = true → mgetD s.dev.strand.macPn a.dest 0 + a.unacked.length < 2 ^ 32) →
    Completes (.retransmitTimeout aid) s fun d =>
      (∃ b, assocAt aid d = some b ∧ b.rto = min (2 * a.rto) (us 12800) ∧ b.rtoFrom = s.dev.time
        ∧ b.unacked.map (fun y => (y.hdr.seq, y.payload)) = a.unacked.map (fun y => (y.hdr.seq, y.payload))
        ∧ (∀ y, y ∈ b.unacked → hasFlag y.hdr fRETX = true ∧ y.hdr.ack = a.lastSeq ∧ y.hdr.credit = a.limit) ∧ b.queued = a.queued)
      ∧ d.tx.length = a.unacked.length ∧ regGet HS_STRRETX d = satAdd (regGet HS_STRRETX s.dev) a.unacked.length
      ∧ RegsBut [HS_STRRETX] s.dev d
      ∧ d = { s.found with regs := d.regs, strand := { s.dev.strand with assocs := d.strand.assocs, macPn := d.strand.macPn }, tx := d.tx })
  ∧ (∀ (aid : Nat) (a : Assoc) (x : Sent) (r : List Sent) (s : State), assocAt aid s.dev = some a → a.lost = false → a.unacked = x :: r →
      sec 1 ≤ since x.first s.dev →
    Completes (.assocLost aid) s fun d =>
      regGet HS_STRLOST d = satAdd (regGet HS_STRLOST s.dev) 1 ∧ (∃ b, assocAt aid d = some b ∧ b.lost = true)
        ∧ (∀ y, y ∈ d.strand.sessions → y.aid ≠ aid) ∧ (∀ w, w ∈ d.sync.waits → w.aid ≠ aid) ∧ d.streams = s.dev.streams
        ∧ Same { regs := true, strand := true, sync := true, peg := true, tx := true } s.found d)
  ∧ ∀ (aid : Nat) (a : Assoc) (s : State), assocAt aid s.dev = some a →
    Completes (.tokensLate aid) s fun d =>
      regGet HS_STRLATE d
          = satAdd (regGet HS_STRLATE s.dev)
              (a.unacked.filter fun x => x.hdr.ttype == 0x10#8 && !x.late && decide (ms 100 ≤ since x.first s.dev)).length
        ∧ RegsBut [HS_STRLATE] s.dev d
        ∧ (∃ b, assocAt aid d = some b ∧ ∀ x, x ∈ b.unacked → x.hdr.ttype = 0x10#8 → ms 100 ≤ since x.first s.dev → x.late = true)
        ∧ d = { s.found with regs := d.regs, strand := { s.dev.strand with assocs := d.strand.assocs } }

/-! ### Work requests: streams (10 R391-R399, R424-R428; 12 R493-R496; 09 R366) -/

/-- An ADMIT that passes the checks of R397 takes the partition's lowest free entry: the stream is ADMITTED with the handle, home,
epoch, seed and parameters that R398 gives it, is answered with its handle and home Bridge, and is counted; with no free entry it is
answered BUSY.

An APPEND that R399 lets pass adds its positions after AVAIL and sets MORE, and the limit where it names one; every other stream is
as it was. -/
def Obligations.StreamsSupplied : Prop :=
  ((∀ (m0 : Dgram) (aid i : Nat) (e : Epoch) (s : State), let m := splitDgram (asReq 0x01#8 m0); let b := heardOn aid m s.found;
        let l := m.payload; let z := admitLists l;
        TakesWork m aid s.found → 0x58 ≤ l.length → l.length = z.len → z.padOk = true → u8 l 3 < 64 → u8 l 0x13 = 0 → u32 l 0x54 = 0 →
        freeEntry m.dest b = some i → admitStatus m.dest l z i b = 0 → curEpoch m.dest (u8 l 0) b = some e →
      Completes (.admitStream m0) s fun d =>
        (∃ x, streamAt i d = some x ∧ x.handle = BitVec.ofNat 32 ((mgetD b.incarnation i 0 + 1) % 16384 * 2 ^ 18 + i) ∧ x.state = 1
          ∧ x.part = m.dest ∧ x.model = u8 l 0 ∧ x.prio = u8 l 1 ∧ x.mode = u8 l 2 ∧ x.home = homeBridge m.dest (u8 l 0) b
          ∧ x.epoch = e.num ∧ x.adapter = u16 l 0x10 ∧ x.maxlen = u32 l 4 ∧ x.turnLeft = u32 l 0x14 ∧ x.host = m.src ∧ x.port = m.sport
          ∧ x.turn = true ∧ x.endr = 0
          ∧ (u64 l 0x18 ≠ 0 → x.seed = BitVec.ofNat 64 (u64 l 0x18))
          ∧ (u32 l 0x0C = 0xFFFFFFFF → bit (u8 l 3) 3 = false → x.avail = z.data.length / 4)
          ∧ Replied aid m stOK 0 (leBytes 4 x.handle.toNat ++ leBytes 1 x.home ++ [0#8, 0#8, 0#8]) d)
        ∧ mgetD d.incarnation i 0 = (mgetD b.incarnation i 0 + 1) % 16384 ∧ regGet HS_ADMITOK d = satAdd (regGet HS_ADMITOK b) 1
        ∧ (∀ j, j ≠ i → streamAt j d = streamAt j b)
        ∧ Same { free := true, incarnation := true, kv := true, mem := true, poison := true, regs := true, strand := true, streams := true,
                 tx := true } b d)
    ∧ ∀ (m0 : Dgram) (aid : Nat) (s : State), let m := splitDgram (asReq 0x01#8 m0); let b := heardOn aid m s.found;
        let l := m.payload; let z := admitLists l;
        TakesWork m aid s.found → 0x58 ≤ l.length → l.length = z.len → z.padOk = true → u8 l 3 < 64 → u8 l 0x13 = 0 → u32 l 0x54 = 0 →
        freeEntry m.dest b = none →
      Completes (.admitStream m0) s fun d =>
        Replied aid m stBUSY 0 [] d ∧ regGet HS_ADMITBUSY d = satAdd (regGet HS_ADMITBUSY b) 1 ∧ RegsBut [HS_ADMITBUSY] b d
          ∧ Same { regs := true, strand := true, tx := true } b d)
  ∧ (∀ (m0 : Dgram) (aid i : Nat) (x : Stream) (s : State), let m := splitDgram (asReq 0x02#8 m0); let b := heardOn aid m s.found;
        let l := m.payload; let nd := u32 l 0x10; let nm := u32 l 0x14;
        TakesWork m aid s.found → l.length = 0x18 + pad4 nd + pad4 nm → u8 l 0 < 32 → u8 l 1 = 0 →
        allZero (bytesAt l (0x18 + nd) (pad4 nd - nd)) = true → allZero (bytesAt l (0x18 + pad4 nd + nm) (pad4 nm - nm)) = true →
        handleStream m.dest m.hdr.stream b = some (i, x) → appendStatus l x b = 0 →
      Completes (.append m0) s fun d =>
        Replied aid m stOK 0 [] d
          ∧ (∃ y, streamAt i d = some y ∧ y.more = bit (u8 l 0) 0 ∧ (bit (u8 l 0) 2 = true → y.limit = BitVec.ofNat 64 (u64 l 8))
              ∧ (bit (u8 l 0) 3 = true → y.turnLeft = u32 l 4)
              ∧ (x.rowsFmt = none → y.avail = x.avail + nd / 4
                  ∧ ∀ k, k < nd / 4 → mget? y.toks (x.avail + k) = some (u32 l (0x18 + 4 * k), false)))
          ∧ (∀ j, j ≠ i → streamAt j d = streamAt j b) ∧ (nm = 0 → d.mem = b.mem)
          ∧ Same { kv := true, mem := true, strand := true, streams := true, tx := true } b d)

/-- PAUSE, RESUME and CANCEL of a live stream (R391-R394, R424): PAUSE sets HOSTP and, at a step boundary, the state PAUSED; RESUME
clears HOSTP; CANCEL ends the stream with reason 0x06. Each is answered OK and touches no other stream. -/
def Obligations.StreamsPausedAndCancelled : Prop :=
  (∀ (m0 : Dgram) (aid i : Nat) (x : Stream) (s : State), let m := splitDgram (asReq 0x03#8 m0); let b := heardOn aid m s.found;
      TakesWork m aid s.found → m.payload = [] → handleStream m.dest m.hdr.stream b = some (i, x) → 1 ≤ x.state → x.state < 5 →
    Completes (.pause m0) s fun d =>
      Replied aid m stOK 0 [] d
        ∧ (∃ y, streamAt i d = some y ∧ y.hostp = true
            ∧ y.state = (if x.state = 1 ∨ ((x.state = 2 ∨ x.state = 3) ∧ x.steps = [] ∧ x.stop = 0) then 4 else x.state))
        ∧ (∀ j, j ≠ i → streamAt j d = streamAt j b) ∧ Same { strand := true, streams := true, tx := true } b d)
  ∧ (∀ (m0 : Dgram) (aid i : Nat) (x : Stream) (s : State), let m := splitDgram (asReq 0x04#8 m0); let b := heardOn aid m s.found;
      TakesWork m aid s.found → m.payload = [] → handleStream m.dest m.hdr.stream b = some (i, x) → 1 ≤ x.state → x.state < 6 →
    Completes (.resume m0) s fun d =>
      Replied aid m stOK 0 [] d
        ∧ (∃ y, streamAt i d = some y ∧ y.hostp = false
            ∧ (x.state = 4 → x.turn = true → x.schedp = false → y.state = 2 ∨ y.state = 3)
            ∧ (x.state ≠ 4 ∨ x.turn = false ∨ x.schedp = true → y = { x with hostp := false }))
        ∧ (∀ j, j ≠ i → streamAt j d = streamAt j b) ∧ Same { strand := true, streams := true, tx := true } b d)
  ∧ ∀ (m0 : Dgram) (aid i : Nat) (x : Stream) (s : State), let m := splitDgram (asReq 0x05#8 m0); let b := heardOn aid m s.found;
      TakesWork m aid s.found → m.payload = [] → handleStream m.dest m.hdr.stream b = some (i, x) → streamLive x = true →
    Completes (.cancel m0) s fun d =>
      Replied aid m stOK 0 [] d ∧ (∀ y, streamAt i d = some y → y.state = 6 ∧ y.endr = 0x06 ∧ y.turn = false)
        ∧ (∀ j, j ≠ i → streamAt j d = streamAt j b) ∧ d.mem = b.mem
        ∧ Same { kv := true, loads := true, peg := true, regs := true, scheds := true, strand := true, streams := true, tx := true } b d

/-- PARK moves a stream at a step boundary out of HBM, its staging written and freed first (09 R367; log 122), or parks it at once when it
has no pages; away from a boundary it waits for one, and a stream that the flush ended is not parked. UNPARK moves it back and leaves it
PAUSED; one that arrives before the moves of the PARK have ended waits (R425, R426).

PREFIX_REGISTER gives the partition's lowest free handle to the first positions of a stream (R428); PREFIX_DROP gives one up (09
R366). -/
def Obligations.ParksAndPrefixes : Prop :=
  ((∀ (m0 : Dgram) (aid i : Nat) (x : Stream) (s : State), let m := splitDgram (asReq 0x06#8 m0); let b := heardOn aid m s.found;
        let l := m.payload;
        let e := modStream i (fun s => { s with park := some (u8 l 0, u32 l 4), hostp := s.hostp || s.state != 4 })
          (sendReply aid m stOK 0 0 [] b);
        let c := settleBufs x.home i e;
        let ts := moveTransfers x.home i (locCode x.part (u8 l 0 + 1)) (fun _ => true) c;
        TakesWork m aid s.found → l.length = 8 → allZero (bytesAt l 1 3) = true →
        handleStream m.dest m.hdr.stream b = some (i, x) → parkStatus l i x b = 0 → x.unpark = false →
      Completes (.park m0) s fun d =>
        Replied aid m stOK 0 [] d
          ∧ (x.steps ≠ [] ∨ x.stop ≠ 0 → ∃ y, streamAt i d = some y ∧ y.park = some (u8 l 0, u32 l 4) ∧ y.state = x.state
              ∧ y.hostp = (x.hostp || x.state != 4) ∧ Same { strand := true, streams := true, tx := true } b d)
          ∧ (x.steps = [] → x.stop = 0 → (∀ f, f ∈ (kvAt x.home d).bufs → f.stream ≠ i)
              ∧ ((streamAt i c).any streamLive = true → (∃ y, streamAt i d = some y ∧ y.state = 5 ∧ y.moving = !ts.isEmpty
                    ∧ (ts = [] → y.limit = b.time + BitVec.ofNat 64 (sec (u32 l 4))))
                  ∧ (kvAt x.home d).transfers = (kvAt x.home c).transfers ++ ts ∧ d.mem = c.mem ∧ d.poison = c.poison ∧ d.regs = c.regs)
              ∧ ((streamAt i c).any streamLive = false → d = c))
          ∧ (∀ j, j ≠ i → streamAt j d = streamAt j b)
          ∧ Same { kv := true, loads := true, mem := true, peg := true, poison := true, regs := true, scheds := true, strand := true,
                   streams := true, tx := true } b d)
    ∧ (∀ (m0 : Dgram) (aid i : Nat) (x : Stream) (s : State), let m := splitDgram (asReq 0x07#8 m0); let b := heardOn aid m s.found;
        let ts := moveTransfers x.home i 0 (fun e => e.loc != 0) b;
        TakesWork m aid s.found → m.payload = [] → handleStream m.dest m.hdr.stream b = some (i, x) → unparkStatus i x b = 0 →
        x.moving = false →
      Completes (.unpark m0) s fun d =>
        Replied aid m stOK 0 [] d
          ∧ (∃ y, streamAt i d = some y
              ∧ (ts = [] → y.state = 4 ∧ y.moving = false ∧ y.limit = BitVec.allOnes 64)
              ∧ (ts ≠ [] → y.state = x.state ∧ y.moving = true ∧ (kvAt x.home d).transfers = (kvAt x.home b).transfers ++ ts))
          ∧ (∀ j, j ≠ i → streamAt j d = streamAt j b) ∧ Same { kv := true, strand := true, streams := true, tx := true } b d)
    ∧ ∀ (m0 : Dgram) (aid i : Nat) (x : Stream) (s : State), let m := splitDgram (asReq 0x07#8 m0); let b := accepted aid m s.found;
        InSequence m aid s.found → m.dest < 32 → hasFlag m.hdr fREPLY = false → inRom b = false → diesAway b = false →
        handleStream m.dest m.hdr.stream b = some (i, x) → x.moving = true →
      Completes (.unpark m0) s fun d =>
        d.strand.held = b.strand.held ++ [⟨aid, m, msgCost 0x07 m.payload.length, s.dev.time⟩]
          ∧ d = { b with strand := { b.strand with held := d.strand.held } })
  ∧ ((∀ (m0 : Dgram) (aid i h : Nat) (x : Stream) (s : State), let m := splitDgram (asReq 0x08#8 m0); let b := heardOn aid m s.found;
        TakesWork m aid s.found → m.payload.length = 4 → handleStream m.dest m.hdr.stream b = some (i, x) →
        registerStatus m.dest (u32 m.payload 0) i x b = 0 → freePrefix m.dest b = some h →
      Completes (.prefixRegister m0) s fun d =>
        Replied aid m stOK 0 (leBytes 4 h) d
          ∧ (∃ f, mget? d.prefixes h = some f ∧ f.part = m.dest ∧ f.model = x.model ∧ f.bridge = x.home ∧ f.epoch = x.epoch
              ∧ f.adapter = x.adapter ∧ f.adpgen = x.adpgen ∧ f.len = u32 m.payload 0)
          ∧ (∀ k, k ≠ h → mget? d.prefixes k = mget? b.prefixes k)
          ∧ RegsBut [PT_HBMBYTES m.dest, BR_POISONRD x.home] b d
          ∧ Same { kv := true, mem := true, poison := true, prefixes := true, regs := true, strand := true, tx := true } b d)
    ∧ ∀ (m0 : Dgram) (aid : Nat) (f : Prefix) (s : State), let m := splitDgram (asReq 0x09#8 m0); let b := heardOn aid m s.found;
        TakesWork m aid s.found → m.payload.length = 4 → m.hdr.stream = 0#32 → mget? b.prefixes (u32 m.payload 0) = some f → f.part = m.dest →
      Completes (.prefixDrop m0) s fun d =>
        Replied aid m stOK 0 [] d ∧ mget? d.prefixes (u32 m.payload 0) = none
          ∧ (∀ k, k ≠ u32 m.payload 0 → mget? d.prefixes k = mget? b.prefixes k) ∧ d.streams = b.streams ∧ d.mem = b.mem
          ∧ Same { kv := true, loads := true, peg := true, prefixes := true, regs := true, strand := true, tx := true } b d)

/-! ### Work requests: images, adapters, tables and sync objects (08 R305-R334; 09 R364; 12 R502, R503; 13 R527-R531) -/

/-- LOAD_BEGIN opens a window for the model's next epoch; with DRAIN_FIRST the current epoch retires at once (R305, R306, R329).
LOAD_COMMIT makes the window COMMITTING and answers later (R310); LOAD_ABORT gives it up (R502).

ADAPTER_LOAD opens a window for a slot, or with OP 1 removes the slot's current generation (R332, R334). -/
def Obligations.WeightAndAdapterWindows : Prop :=
  ((∀ (m0 : Dgram) (aid n : Nat) (s : State), let m := splitDgram (asReq 0x20#8 m0); let b := heardOn aid m s.found; let l := m.payload;
        TakesWork m aid s.found → l.length = 40 → u8 l 1 < 2 → allZero (bytesAt l 2 2) = true →
        loadBeginStatus m.dest l b = stOK → freeWindow b = some n →
      Completes (.loadBegin m0) s fun d =>
        Replied aid m stOK 0 (windowReply n) d
          ∧ (∃ w, windowAt n d = some w ∧ w.part = m.dest ∧ w.model = u8 l 0 ∧ w.adapter = none ∧ w.epoch = BitVec.ofNat 32 (u32 l 4)
              ∧ w.counts = payloadCounts l ∧ w.drain = bit (u8 l 1) 0 ∧ (bit (u8 l 1) 0 = false → w.state = 2))
          ∧ (bit (u8 l 1) 0 = true → curEpoch m.dest (u8 l 0) d = none)
          ∧ (bit (u8 l 1) 0 = false → d.loads.epochs = b.loads.epochs) ∧ d.streams = b.streams ∧ d.mem = b.mem
          ∧ Same { loads := true, peg := true, regs := true, strand := true, tx := true } b d)
    ∧ (∀ (m0 : Dgram) (aid : Nat) (w : Window) (s : State), let m := splitDgram (asReq 0x21#8 m0); let b := heardOn aid m s.found;
        TakesWork m aid s.found → m.payload.length = 4 → allZero (m.payload.drop 2) = true → windowAt (u16 m.payload 0) b = some w →
        w.part = m.dest → w.state = 2 →
      Completes (.loadCommit m0) s fun d =>
        windowAt (u16 m.payload 0) d = some { w with state := 3, last := b.time, reply := some (aid, m) } ∧ d = { b with loads := d.loads })
    ∧ ∀ (m0 : Dgram) (aid : Nat) (w : Window) (s : State), let m := splitDgram (asReq 0x22#8 m0); let b := heardOn aid m s.found;
        TakesWork m aid s.found → m.payload.length = 4 → allZero (m.payload.drop 2) = true → windowAt (u16 m.payload 0) b = some w →
        w.part = m.dest → w.state ≠ 3 →
      Completes (.loadAbort m0) s fun d =>
        Replied aid m stOK 0 [] d ∧ windowAt (u16 m.payload 0) d = none ∧ regGet HS_LDABORT d = satAdd (regGet HS_LDABORT b) 1
          ∧ d.streams = b.streams ∧ d.mem = b.mem
          ∧ Same { loads := true, peg := true, regs := true, strand := true, tx := true } b d)
  ∧ ((∀ (m0 : Dgram) (aid n : Nat) (s : State), let m := splitDgram (asOp 0x23#8 2 0#8 m0); let b := heardOn aid m s.found; let l := m.payload;
        TakesWork m aid s.found → adapterMalformed l = false → u8 l 2 = 0 → adapterStatus m.dest l b = stOK → freeWindow b = some n →
      Completes (.adapterLoadOpen m0) s fun d =>
        Replied aid m stOK 0 (windowReply n) d
          ∧ (∃ w, windowAt n d = some w ∧ w.part = m.dest ∧ w.adapter = some (u16 l 0) ∧ w.model = u8 l 3 ∧ w.rank = u8 l 8
              ∧ w.counts = payloadCounts l ∧ w.state = 2)
          ∧ (∀ k, k ≠ n → windowAt k d = windowAt k b) ∧ d.loads.gens = b.loads.gens
          ∧ Same { loads := true, strand := true, tx := true } b d)
    ∧ ∀ (m0 : Dgram) (aid : Nat) (s : State), let m := splitDgram (asOp 0x23#8 2 1#8 m0); let b := heardOn aid m s.found; let l := m.payload;
        TakesWork m aid s.found → adapterMalformed l = false → u8 l 2 = 1 → adapterStatus m.dest l b = stOK →
      Completes (.adapterLoadRemove m0) s fun d =>
        Replied aid m stOK 0 [] d ∧ curGenOf (u16 l 0) d = none
          ∧ (∀ k, k ≠ u16 l 0 → curGenOf k d = curGenOf k b) ∧ d.streams = b.streams
          ∧ Same { loads := true, peg := true, regs := true, strand := true, tx := true } b d)

/-- A TABLE_EDIT takes effect only when every record passes (R364): then each record's TRUNCATE is pending on its stream's home Bridge,
its staging is gone and the copies of pages beyond the cut are not wanted any more; otherwise the first record that fails is named and nothing
changes. -/
def Obligations.TableEdits : Prop :=
  ∀ (m0 : Dgram) (aid : Nat) (s : State), let m := splitDgram (asReq 0x24#8 m0); let b := heardOn aid m s.found; let l := m.payload;
      let n := u16 l 0; let recs := chunks 16 n (l.drop 4);
      TakesWork m aid s.found → l.length = 4 + 16 * n → u16 l 2 = 0 → 1 ≤ n → n ≤ 64 →
    (recs.findIdx? (fun r => truncStatus m.dest r b != 0) = none →
      Completes (.tableEdit m0) s fun d =>
        d = forEach recs (fun r e => match streamAt (u32 r 4) e with
            | some x => acceptTruncate x.home (u32 r 4) (u32 r 8) e
            | none => e) (sendReply aid m stOK 0 0 [] b)
          ∧ ((∀ r, r ∈ recs → ∀ x, streamAt (u32 r 4) b = some x → ∀ f, f ∈ (kvAt x.home b).bufs → f.stream = u32 r 4 → f.st ≠ 1) →
            Replied aid m stOK 0 [] d
              ∧ (∀ r, r ∈ recs → ∀ x, streamAt (u32 r 4) b = some x →
                  (∃ e, e ∈ (kvAt x.home d).edits ∧ e.op = 6 ∧ e.stream = u32 r 4 ∧ e.region = regKey (u32 r 4) false ∧ e.arg = u32 r 8)
                  ∧ (∀ f, f ∈ (kvAt x.home d).bufs → f.stream ≠ u32 r 4)
                  ∧ ∀ draft g, regionAt x.home (regKey (u32 r 4) draft) b = some g → ∀ t, t ∈ (kvAt x.home d).transfers → t.op = 4 →
                      t.region = regKey (u32 r 4) draft → pageBeyond g (regRecOf g b) (u32 r 8) t.page = false)
              ∧ RegsBut (recs.filterMap fun r => (streamAt (u32 r 4) b).map fun x => BR_STGFLUSH x.home) b d
              ∧ Same { kv := true, regs := true, strand := true, tx := true } b d))
    ∧ ∀ k, recs.findIdx? (fun r => truncStatus m.dest r b != 0) = some k →
      Completes (.tableEdit m0) s fun d =>
        Replied aid m (truncStatus m.dest (recs.getD k []) b) k [] d ∧ Same { strand := true, tx := true } b d

/-- SYNC_SIGNAL adds to or sets the object's value modulo 2^64 and meets every wait at or below it, each with a notification on its
association (R528, R529); one on a consort sync object goes to the master, which tells the members (14 R554). SYNC_WAIT_NOTIFY registers a
wait, or is notified at once (R529). A handle without the right is refused NO_SYNC (R527), a wait too many SYNC_FULL (R530). -/
def Obligations.SyncObjects : Prop :=
  (∀ (i : Instr) (op : Nat) (m0 : Dgram) (aid : Nat) (s : State),
      (i = .syncSignalAdd m0 ∧ op = 0) ∨ (i = .syncSignalSet m0 ∧ op = 1) →
      let m := splitDgram (asOp 0x28#8 4 (BitVec.ofNat 8 op) m0); let b := heardOn aid m s.found; let l := m.payload;
      TakesWork m aid s.found → l.length = 16 → allZero (bytesAt l 5 3) = true → u8 l 4 = op →
    (∀ o, syncHandle m.dest (u32 l 0) 16 b = some o → cnsSyncNo o b = none ∨ cnsPart b ≠ m.dest ∨ isCnsMaster b = true →
      Completes i s fun d =>
        let v := if op = 0 then syncVal o b + BitVec.ofNat 64 (u64 l 8) else BitVec.ofNat 64 (u64 l 8)
        let met := b.sync.waits.filter fun w => w.obj == o && decide (w.threshold.toNat ≤ v.toNat)
        Replied aid m stOK 0 [] d ∧ syncVal o d = v ∧ (∀ k, k ≠ o → syncVal k d = syncVal k b)
          ∧ (∀ w, w ∈ d.sync.waits ↔ w ∈ b.sync.waits ∧ ¬ (w.obj = o ∧ w.threshold.toNat ≤ v.toNat))
          ∧ (∀ w, w ∈ met → (assocAt w.aid b).isSome = true → ∃ x, Retained w.aid x d ∧ x.hdr.ttype = 0x29#8
              ∧ x.payload = leBytes 4 w.handle.toNat ++ leBytes 4 0 ++ leBytes 8 v.toNat ++ leBytes 8 w.cookie.toNat)
          ∧ regGet (PT_SYNCSIG m.dest) d = satAdd (regGet (PT_SYNCSIG m.dest) b) 1
          ∧ (cnsSyncNo o b ≠ none → cnsPart b = m.dest → ∀ k, k ∈ cnsOthers b → b.cns.lost.contains k = false →
              ∃ n, cnsSyncNo o b = some n ∧ .consort k 8 (leBytes 2 n ++ leBytes 8 v.toNat) ∈ d.tx)
          ∧ Same { regs := true, strand := true, sync := true, tx := true } b d)
    ∧ (∀ o n, syncHandle m.dest (u32 l 0) 16 b = some o → cnsSyncNo o b = some n → cnsPart b = m.dest → isCnsMaster b = false →
      Completes i s fun d =>
        Replied aid m stOK 0 [] d
          ∧ .consort (cnsMasterNo b.cns.cur) 7 (leBytes 2 n ++ leBytes 1 op ++ leBytes 8 (u64 l 8)) ∈ d.tx
          ∧ Same { strand := true, tx := true } b d)
    ∧ (syncHandle m.dest (u32 l 0) 16 b = none →
      Completes i s fun d => Replied aid m stNO_SYNC 0 [] d ∧ Same { strand := true, tx := true } b d))
  ∧ ∀ (m0 : Dgram) (aid : Nat) (s : State), let m := splitDgram (asReq 0x29#8 m0); let b := heardOn aid m s.found; let l := m.payload;
      TakesWork m aid s.found → l.length = 24 → allZero (bytesAt l 4 4) = true →
      let full := 8192 ≤ b.sync.waits.length ∨ 512 ≤ (b.sync.waits.filter fun w => w.part == m.dest).length
    (∀ o, syncHandle m.dest (u32 l 0) 17 b = some o → ¬ full → Completes (.syncWaitNotify m0) s fun d =>
      Replied aid m stOK 0 [] d
        ∧ ((syncVal o b).toNat < u64 l 8 →
            (∃ w, d.sync.waits = b.sync.waits ++ [w] ∧ w.obj = o ∧ w.part = m.dest ∧ w.aid = aid ∧ w.handle.toNat = u32 l 0
              ∧ w.threshold.toNat = u64 l 8 ∧ w.cookie.toNat = u64 l 16)
            ∧ d.regs = b.regs)
        ∧ (u64 l 8 ≤ (syncVal o b).toNat →
            d.sync.waits = b.sync.waits ∧ regGet (PT_SYNCNOTE m.dest) d = satAdd (regGet (PT_SYNCNOTE m.dest) b) 1
              ∧ ∃ x, Retained aid x d ∧ x.hdr.ttype = 0x29#8 ∧ hasFlag x.hdr fREPLY = false
                  ∧ x.payload = leBytes 4 (u32 l 0) ++ leBytes 4 0 ++ leBytes 8 (syncVal o b).toNat ++ leBytes 8 (u64 l 16))
        ∧ d.sync.val = b.sync.val ∧ Same { regs := true, strand := true, sync := true, tx := true } b d)
    ∧ (∀ o, syncHandle m.dest (u32 l 0) 17 b = some o → full →
      Completes (.syncWaitNotify m0) s fun d => Replied aid m stSYNC_FULL 0 [] d ∧ Same { strand := true, tx := true } b d)
    ∧ (syncHandle m.dest (u32 l 0) 17 b = none →
      Completes (.syncWaitNotify m0) s fun d => Replied aid m stNO_SYNC 0 [] d ∧ Same { strand := true, tx := true } b d)

/-! ### Management: identity and sessions (12 R504-R507; 15 R572, R579, R585, R586) -/

/-- ATTEST without a session: the report over the caller's nonce and the two certificates (R585, R586).

SESSION_OPEN with the key of its role on its address and a signature that verifies under it opens a session with a number that is not 0 and
not in use, and with any other signature or key opens none (R504); SESSION_CLOSE closes the session that sends it and no other (R507). -/
def Obligations.IdentityAndSessions : Prop :=
  ((∀ (m0 : Dgram) (aid : Nat) (s : State), let m := splitDgram (asOp 0x34#8 0 0#8 m0); let b := heardOn aid m s.found; let l := m.payload;
        Takes m aid s.found → l.length = 36 → u8 l 0 = 0 → allZero (bytesAt l 1 3) = true →
      Completes (.attestReport m0) s fun d =>
        (let r := reportBody (bytesAt l 4 32) b; Answered aid m 0 (r ++ signed r) d)
          ∧ regGet PG_ATTEST d = satAdd (regGet PG_ATTEST b) 1 ∧ RegsBut [PG_ATTEST] b d
          ∧ Same { regs := true, strand := true, tx := true } b d)
    ∧ ∀ (m0 : Dgram) (aid : Nat) (s : State), let m := splitDgram (asOp 0x34#8 0 4#8 m0); let b := heardOn aid m s.found; let l := m.payload;
        Takes m aid s.found → l.length = 4 → u8 l 0 = 4 → allZero (bytesAt l 1 3) = true →
      Completes (.certs m0) s fun d =>
        Answered aid m 0 (b.flash.devCert ++ b.flash.provCert) d ∧ Same { strand := true, tx := true } b d)
  ∧ ((∀ (m0 : Dgram) (aid : Nat) (s : State), let m := splitDgram (asOp 0x34#8 0 1#8 m0); let b := heardOn aid m s.found;
        let l := m.payload; let role := u8 l 1;
        let good := (openKey role m.dest (w32 (u32 l 4)) b).any fun k => ecdsaOk k.pub (signedBytes m.hdr l 0xB0) (l.drop 0xB0);
        Takes m aid s.found → hasFlag m.hdr fAUTH = false → l.length = 308 → u8 l 0 = 1 → allZero (bytesAt l 2 2) = true →
        allZero (bytesAt l 0xAD 3) = true → (role = 0 ∧ 32 ≤ m.dest) ∨ (role = 1 ∧ m.dest < 32) →
      (good = true → b.strand.sessions.length < 8 → Completes (.sessionOpen m0) s fun d =>
        ∃ y e, d.strand.sessions = b.strand.sessions ++ [y] ∧ y.num ≠ 0#32 ∧ sessionOf y.num b = none ∧ y.aid = aid
          ∧ y.keeper = decide (role = 0) ∧ y.part = (if role = 0 then 255 else m.dest) ∧ y.ident = w32 (u32 l 4) ∧ y.last = b.time
          ∧ y.sel = [] ∧ y.cap = [] ∧ y.keybuf = [] ∧ Answered aid m 0 e d ∧ e.take 4 = leBytes 4 y.num.toNat ∧ d.free = b.free + 3
          ∧ Same { free := true, strand := true, tx := true } b d)
      ∧ (good = true → 8 ≤ b.strand.sessions.length → Completes (.sessionOpen m0) s fun d =>
        Answered aid m stMGMT_BUSY (leBytes 4 0) d ∧ d.strand.sessions = b.strand.sessions ∧ Same { strand := true, tx := true } b d)
      ∧ (good = false → Completes (.sessionOpen m0) s fun d =>
        Answered aid m stAUTH_FAIL (leBytes 4 0) d ∧ d.strand.sessions = b.strand.sessions ∧ Same { strand := true, tx := true } b d))
    ∧ ∀ (m0 : Dgram) (aid : Nat) (x : Session) (s : State), let m := splitDgram (asOp 0x34#8 0 2#8 m0); let b := commandOn aid m x s.found;
        Managed m aid x s.found → m.payload.length = 4 → u8 m.payload 0 = 2 → allZero (bytesAt m.payload 1 3) = true →
      Completes (.sessionClose m0) s fun d =>
        Answered aid m 0 [] d ∧ sessionOf x.num d = none ∧ (∀ n, n ≠ x.num → sessionOf n d = sessionOf n b)
          ∧ Same { peg := true, regs := true, strand := true, tx := true } b d)

/-- An accepted CLAIM (R572): the Keeper key is the only key, in the store and in flash; all sessions close; the map and the images of
every partition go; every byte of HBM outside the reserved region of Bridge 0 reads 0 and that region keeps its contents. A claim whose
signature does not verify under the enclosed key changes nothing but that a claim was tried. -/
def Obligations.ClaimAccepted : Prop :=
  ∀ (m0 : Dgram) (aid : Nat) (s : State), let m := splitDgram (asOp 0x34#8 0 3#8 m0); let b := heardOn aid m s.found; let l := m.payload;
      let k : KeyEntry := ⟨w32 (u32 l 4), 1#8, 0xFF#8, 1#8, bytesAt l 8 133⟩;
      Takes m aid s.found → hasFlag m.hdr fAUTH = false → l.length = 276 → u8 l 0 = 3 → allZero (bytesAt l 1 3) = true →
      allZero (bytesAt l 0x8D 3) = true → b.peg.mode = 2#2 → b.peg.claimTried = false → k.keyid ≠ 0#32 → k.keyid ≠ 0xFFFFFFFF#32 →
    (ecdsaOk k.pub (signedBytes m.hdr l 0x90) (l.drop 0x90) = true → Completes (.claim m0) s fun d =>
      d.peg.keys = [(0, k)] ∧ (d.flash.keysA, d.flash.keysB) = twoCopyPut b.flash.keysA b.flash.keysB [(0, k)] ∧ d.strand.sessions = []
        ∧ d.map.cur = [] ∧ d.map.stg = [] ∧ d.map.handovers = [] ∧ (∀ p, (tuneAt p d).image = [] ∧ (tuneAt p d).load = none)
        ∧ d.peg.claimTried = true
        ∧ (∀ c a, if hbmKey 0 (hbmSize b - 1536 * 2 ^ 20) ≤ hbmKey c a ∧ hbmKey c a ≤ hbmKey 0 (hbmSize b - 1)
            then hbmByte c a d = hbmByte c a b else hbmByte c a d = 0#8)
        ∧ Answered aid m 0 [] d ∧ d.fuses = b.fuses ∧ d.streams = b.streams
        ∧ Same { flash := true, map := true, mem := true, peg := true, poison := true, regs := true, strand := true, tunes := true,
                 tx := true } b d)
    ∧ (ecdsaOk k.pub (signedBytes m.hdr l 0x90) (l.drop 0x90) = false → Completes (.claim m0) s fun d =>
      Answered aid m stAUTH_FAIL (leBytes 4 0) d ∧ d.peg = { b.peg with claimTried := true }
        ∧ Same { peg := true, strand := true, tx := true } b d)

/-! ### Management: registers (00 R12-R18; 02 R107, R111; 12 R508, R509; 13 R524, R525; 16 R610) -/

/-- A MGMT_READ answers with the values of its registers in ascending address, or, when some address fails a check, with a MGMT_NACK that
names the first such address and its code; a read of a register that begins a group captures the group's other words for the
session's later reads (R18, R111), a record's words read 0 until its first is read (10 R432, 13 R525), and a read that sleeping dies or an
earlier access of its session delays waits (R18, 17 R638). -/
def Obligations.ManagementReads : Prop :=
  (∀ (m0 : Dgram) (aid : Nat) (x : Session) (s : State), let m := splitDgram (asReq 0x30#8 m0); let b := commandOn aid m x s.found;
      let c := commander aid m x s.found; let as_ := addrsOf m.payload; let items := as_.map fun a => (a, (none : Option Word));
      Managed m aid x s.found → readBad m.payload = false → countBad m.payload = false → firstRefused c items b = none →
    (accessWaits c items b = false → Completes (.mgmtRead m0) s fun d =>
      Answered aid m 0 (m.payload.take 8 ++ (readRegs c as_ (accountThrottle b)).1.flatMap fun w => leBytes 4 w.toNat) d
        ∧ Same { pwr := true, regs := true, strand := true, tx := true } b d)
    ∧ (accessWaits c items b = true → Completes (.mgmtRead m0) s fun d =>
      d.strand.held = b.strand.held ++ [⟨aid, m, 0, b.time⟩] ∧ d.regs = b.regs ∧ d.tx = b.tx
        ∧ Same { fret := true, pwr := true, strand := true } b d))
  ∧ (∀ (m0 : Dgram) (aid a code : Nat) (x : Session) (s : State), let m := splitDgram (asReq 0x30#8 m0); let b := commandOn aid m x s.found;
      let c := commander aid m x s.found;
      Managed m aid x s.found → readBad m.payload = false → countBad m.payload = false →
      firstRefused c ((addrsOf m.payload).map fun a => (a, none)) b = some (a, code) →
    Completes (.mgmtRead m0) s fun d =>
      Answered aid m code (leBytes 4 a) d
        ∧ (code = stNOT_OWNER → c.keeper = false → regGet (PT_FWMGMT c.part) d = satAdd (regGet (PT_FWMGMT c.part) b) 1)
        ∧ RegsBut [PT_FWMGMT c.part] b d ∧ Same { regs := true, strand := true, tx := true } b d)
  ∧ (∀ (i : Instr) (m0 : Dgram) (aid : Nat) (a : Word) (x : Session) (s : State), i = .loCaptureRead m0 a ∨ i = .multiWordCaptureRead m0 a →
      let m := splitDgram (readOne a.toNat m0); let b := accountThrottle (commandOn aid m x s.found); let c := commander aid m x s.found;
      MayRead m aid x a.toNat s.found → mget? c.cap a.toNat = none →
    Completes i s fun d =>
      Answered aid m 0 (m.payload.take 8 ++ leBytes 4 (if recordWord a.toNat then 0 else (viewAt (some c) a.toNat b).toNat)) d
        ∧ (recordWord a.toNat = false →
            ∃ y, sessionOf x.num d = some y ∧ ∀ k, k ∈ captures a.toNat → mget? y.cap k = some (viewAt (some c) k b))
        ∧ Same { regs := true, strand := true, tx := true } b d)
  ∧ ∀ (i : Instr) (m0 : Dgram) (aid : Nat) (a v : Word) (x : Session) (s : State), i = .loCaptureRead m0 a ∨ i = .multiWordCaptureRead m0 a →
      let m := splitDgram (readOne a.toNat m0); let b := commandOn aid m x s.found; let c := commander aid m x s.found;
      MayRead m aid x a.toNat s.found → mget? c.cap a.toNat = some v →
    Completes i s fun d => Answered aid m 0 (m.payload.take 8 ++ leBytes 4 v.toNat) d ∧ d.peg = b.peg ∧ d.mem = b.mem

/-- A MGMT_WRITE writes its registers in ascending address, up to one that its value refuses, and is answered, and a write of HS_RSTCTL then
makes its request (16 R629). When some address fails a check it writes none of them and the answer is a MGMT_NACK that names the first such
address (R508, R509). One that sleeping dies or an earlier access of its session delays waits (R18, 17 R638), and after 2 s the registers not yet
accessed are given up (R610). -/
def Obligations.ManagementWrites : Prop :=
  (∀ (m0 : Dgram) (aid : Nat) (x : Session) (s : State), let m := splitDgram (asReq 0x31#8 m0); let b := commandOn aid m x s.found;
      let c := commander aid m x s.found; let ws := writesOf m.payload; let items := ws.map fun e => (e.1, some e.2);
      let w := writeRegs c ws b;
      Managed m aid x s.found →
    (writeBad m.payload = true → Completes (.mgmtWrite m0) s fun d =>
      Answered aid m stBAD_MESSAGE (leBytes 4 0) d ∧ Same { strand := true, tx := true } b d)
    ∧ (writeBad m.payload = false → countBad m.payload = true → Completes (.mgmtWrite m0) s fun d =>
      Answered aid m stBAD_PARAM (leBytes 4 0) d ∧ Same { strand := true, tx := true } b d)
    ∧ (writeBad m.payload = false → countBad m.payload = false → firstRefused c items b = none → accessWaits c items b = false →
      (w.1 = none → ws.find? (fun e => e.1 == HS_RSTCTL) = none → Completes (.mgmtWrite m0) s fun d =>
        ((assocAt aid w.2).isSome = true → Answered aid m 0 (m.payload.take 8) d) ∧ Same { strand := true, tx := true } w.2 d)
      ∧ (∀ e, w.1 = none → ws.find? (fun e => e.1 == HS_RSTCTL) = some e → Completes (.mgmtWrite m0) s fun d =>
        d = softwareReset e.2 (mgmtReply aid m (some c) (m.payload.take 8) w.2))
      ∧ ∀ e, w.1 = some e → Completes (.mgmtWrite m0) s fun d =>
        ((assocAt aid w.2).isSome = true → Answered aid m e.2 (leBytes 4 e.1) d) ∧ Same { strand := true, tx := true } w.2 d)
    ∧ (writeBad m.payload = false → countBad m.payload = false → firstRefused c items b = none → accessWaits c items b = true →
      Completes (.mgmtWrite m0) s fun d =>
        d.strand.held = b.strand.held ++ [⟨aid, m, 0, b.time⟩] ∧ d.regs = b.regs ∧ d.tx = b.tx
          ∧ Same { fret := true, pwr := true, strand := true } b d))
  ∧ (∀ (m0 : Dgram) (aid a code : Nat) (x : Session) (s : State), let m := splitDgram (asReq 0x31#8 m0); let b := commandOn aid m x s.found;
      let c := commander aid m x s.found;
      Managed m aid x s.found → writeBad m.payload = false → countBad m.payload = false →
      firstRefused c ((writesOf m.payload).map fun e => (e.1, some e.2)) b = some (a, code) →
    Completes (.mgmtWrite m0) s fun d =>
      Answered aid m code (leBytes 4 a) d
        ∧ (code = stNOT_OWNER → c.keeper = false → regGet (PT_FWMGMT c.part) d = satAdd (regGet (PT_FWMGMT c.part) b) 1)
        ∧ RegsBut [PT_FWMGMT c.part] b d ∧ Same { regs := true, strand := true, tx := true } b d)
  ∧ (∀ (k n : Nat) (h : Held) (x : Session) (s : State), s.dev.strand.held[k]? = some h →
      h.msg.hdr.ttype = 0x30#8 ∨ h.msg.hdr.ttype = 0x31#8 → msgSession h.aid h.msg s.dev = some x →
      let first := !((s.dev.strand.held.take k).any fun y => y.aid == h.aid && y.msg.hdr.session == h.msg.hdr.session
        && isMgmt y.msg.hdr.ttype.toNat)
      let done := if first then n else 0
      let b := bump HS_MGMTTMO { s.found with strand := { s.dev.strand with held := s.dev.strand.held.eraseIdx k } }
      let w := if h.msg.hdr.ttype = 0x31#8 then (writeRegs x ((writesOf h.msg.payload).take done) b).2 else b
      let e := mgmtNack h.aid h.msg (some x) stMGMT_BUSY ((addrsOf h.msg.payload).getD done 0) w
    (since h.at_ s.dev < sec 2 → Completes (.mgmtCommandTimeout k n) s fun d => d = s.found)
    ∧ (sec 2 ≤ since h.at_ s.dev → Completes (.mgmtCommandTimeout k n) s fun d =>
      d = serveHeld (tryClose h.aid (rstEvent (if x.keeper then 255 else x.part) 0x00A2 0 0 0 0xFF 0xFF 0xFF 0x3FFFF
          ((addrsOf h.msg.payload).getD done 0) false e))
        ∧ ∀ a, s.dev.strand.held = [h] → h.msg.hdr.ttype = 0x30#8 → assocAt h.aid s.dev = some a → a.closing = false →
          d.strand.held = [] ∧ regGet HS_MGMTTMO d = satAdd (regGet HS_MGMTTMO s.dev) 1
            ∧ Answered h.aid h.msg stMGMT_BUSY (leBytes 4 ((addrsOf h.msg.payload).getD done 0)) d
            ∧ (∃ r, r ∈ d.peg.ring ∧ u16 r.payload 0 = 0x00A2)
            ∧ Same { peg := true, regs := true, strand := true, tx := true } s.found d))
  ∧ ∀ (m0 : Dgram) (aid f c t : Nat) (col : BitVec 10) (x : Session) (s : State),
      let m := splitDgram (writeOne (addrTile f c t 0x100) (2 ^ 31 + col.toNat) m0); let b := commandOn aid m x s.found;
      f < 12 → c < 16 → t < 33 → MayWrite m aid x (addrTile f c t 0x100) (w32 (2 ^ 31 + col.toNat)) s.found →
    Completes (.trackerClear m0 f c t col) s fun d =>
      Answered aid m 0 (m.payload.take 8) d
        ∧ (∀ e, e ∈ (tileAt f c t d).cols → e.2.min = emptyStat.min ∧ e.2.max = emptyStat.max)
        ∧ (∀ f' c' t', tileKey f' c' t' ≠ tileKey f c t → tileAt f' c' t' d = tileAt f' c' t' b)
        ∧ Same { fret := true, strand := true, tx := true } b d

/-! ### Management: the commands behind registers -/

/-- PT_TUNECTL: LOAD starts the verification of what the staging area holds, and is refused LOAD_BUSY while a load runs; ABORT ends a load
with code 0x16 (11 R435, R464).

HS_MAPCTL: COMMIT validates the three staged records of the selected partition and, only if every check passes, has them wait for the
barrier; DISCARD makes the staged records the current ones (13 R520, R521). Neither changes a current record. -/
def Obligations.TuningAndMapControl : Prop :=
  ((∀ (m0 : Dgram) (aid p : Nat) (x : Session) (s : State), let m := splitDgram (writeOne (PT_TUNECTL p) 0x80000000 m0);
        let b := commandOn aid m x s.found;
        p < 32 → MayWrite m aid x (PT_TUNECTL p) 0x80000000#32 s.found → b.rst.withdrawn = false →
      (tuneBusy p b = false → Completes (.tuningLoad m0 p) s fun d =>
        (tuneAt p d).load = some { bytes := stagedImage (tuneAt p b), state := 2, from_ := b.time }
          ∧ (tuneAt p d).image = (tuneAt p b).image ∧ (∀ q, q ≠ p → tuneAt q d = tuneAt q b)
          ∧ Answered aid m 0 (m.payload.take 8) d ∧ Same { tunes := true, strand := true, tx := true } b d)
      ∧ (tuneBusy p b = true → Completes (.tuningLoad m0 p) s fun d =>
        Answered aid m stLOAD_BUSY (leBytes 4 (PT_TUNECTL p)) d ∧ Same { strand := true, tx := true } b d))
    ∧ ∀ (m0 : Dgram) (aid p : Nat) (x : Session) (s : State), let m := splitDgram (writeOne (PT_TUNECTL p) 0x40000000 m0);
        let b := commandOn aid m x s.found;
        p < 32 → MayWrite m aid x (PT_TUNECTL p) 0x40000000#32 s.found → tuneBusy p b = true →
      Completes (.tuningAbort m0 p) s fun d =>
        (tuneAt p d).load = none ∧ (tuneAt p d).code = 0x16#8 ∧ (tuneAt p d).image = (tuneAt p b).image
          ∧ (∀ q, q ≠ p → tuneAt q d = tuneAt q b) ∧ regGet (PT_TUNEREFUSE p) d = satAdd (regGet (PT_TUNEREFUSE p) b) 1
          ∧ Answered aid m 0 (m.payload.take 8) d
          ∧ Same { tunes := true, regs := true, peg := true, strand := true, tx := true } b d)
  ∧ ((∀ (m0 : Dgram) (aid : Nat) (x : Session) (s : State), let m := splitDgram (writeOne HS_MAPCTL 0x80000000 m0);
        let b := commandOn aid m x s.found; let p := bits (selOf (some (commander aid m x s.found)) HS_MAPSEL) 0 5;
        MayWrite m aid x HS_MAPCTL 0x80000000#32 s.found → mapBusy b = false →
      Completes (.mapCommit m0) s fun d =>
        d.map.result = BitVec.ofNat 8 (mapValidate p b)
          ∧ d.map.waiting = (if mapValidate p b = 0 then [(p, [mapStg p 0 b, mapStg p 1 b, mapStg p 2 b])] else [])
          ∧ d.map.cur = b.map.cur ∧ d.map.stg = b.map.stg ∧ Answered aid m 0 (m.payload.take 8) d
          ∧ Same { map := true, strand := true, tx := true } b d)
    ∧ ∀ (m0 : Dgram) (aid : Nat) (x : Session) (s : State), let m := splitDgram (writeOne HS_MAPCTL 0x40000000 m0);
        let b := commandOn aid m x s.found; let p := bits (selOf (some (commander aid m x s.found)) HS_MAPSEL) 0 5;
        MayWrite m aid x HS_MAPCTL 0x40000000#32 s.found → mapBusy b = false →
      Completes (.mapDiscard m0) s fun d =>
        (∀ k, k < 3 → mapStg p k d = mapCur p k b) ∧ (∀ q k, q ≠ p → k < 4 → mapStg q k d = mapStg q k b) ∧ d.map.cur = b.map.cur
          ∧ d.map.waiting = b.map.waiting ∧ Answered aid m 0 (m.payload.take 8) d ∧ Same { map := true, strand := true, tx := true } b d)

/-- HS_CNSCTL and HS_STRUMCTL (14 R547, R551, R559): JOIN makes the staged record current and a member asks the master; LEAVE clears the
record; a Strum that R551 does not refuse waits at the master with nothing acknowledged, and one that it refuses changes nothing. -/
def Obligations.ConsortControl : Prop :=
  (∀ (m0 : Dgram) (aid : Nat) (x : Session) (s : State), let m := splitDgram (writeOne HS_CNSCTL 0x80000000 m0);
      let b := commandOn aid m x s.found;
      MayWrite m aid x HS_CNSCTL 0x80000000#32 s.found → b.cns.busy = false →
      (b.cns.state ≠ 3 ∨ cnsGen b.cns.cur < cnsGen b.cns.stg) →
    Completes (.consortJoin m0) s fun d =>
      d.cns.cur = b.cns.stg ∧ d.cns.strums = [] ∧ d.cns.gate = false ∧ d.cns.lost = []
        ∧ (cnsId b.cns.stg = 0 → d.cns.state = 0)
        ∧ (cnsId b.cns.stg ≠ 0 → cnsSelf b.cns.stg ≠ cnsMasterNo b.cns.stg →
            d.cns.state = 1 ∧ d.cns.busy = true ∧ d.cns.joined = [] ∧ d.cns.heard = b.time)
        ∧ (cnsId b.cns.stg ≠ 0 → cnsSelf b.cns.stg = cnsMasterNo b.cns.stg →
            (d.cns.joined = [cnsSelf b.cns.stg] ∧ d.cns.result = 0#8 ∧ (d.cns.state = 1 ∨ d.cns.state = 2))
              ∨ (d.cns.state = 0 ∧ d.cns.result ≠ 0#8))
        ∧ Answered aid m 0 (m.payload.take 8) d ∧ d.streams = b.streams ∧ d.time = b.time
        ∧ Same { cns := true, peg := true, pins := true, regs := true, strand := true, tx := true } b d)
  ∧ (∀ (m0 : Dgram) (aid : Nat) (x : Session) (s : State), let m := splitDgram (writeOne HS_CNSCTL 0x40000000 m0);
      let b := commandOn aid m x s.found;
      MayWrite m aid x HS_CNSCTL 0x40000000#32 s.found → b.cns.busy = false → inConsort b = true →
    Completes (.consortLeave m0) s fun d =>
      d.cns.cur = zeroCnsRec ∧ d.cns.state = 0 ∧ d.cns.joined = [] ∧ d.cns.strums = [] ∧ d.cns.gate = false
        ∧ Answered aid m 0 (m.payload.take 8) d ∧ d.mem = b.mem ∧ d.time = b.time)
  ∧ ∀ (i : Instr) (action : Nat) (m0 : Dgram) (aid : Nat) (arg : Half) (obj : BitVec 10) (x : Session) (s : State),
      (i = .strumSignal m0 arg obj ∧ action = 1) ∨ (i = .strumGate m0 arg obj ∧ action = 2) ∨ (i = .strumTune m0 arg obj ∧ action = 3) →
      let v := action * 2 ^ 30 + arg.toNat * 2 ^ 10 + obj.toNat; let m := splitDgram (writeOne HS_STRUMCTL v m0);
      let b := commandOn aid m x s.found; let c := commander aid m x s.found;
      let t : DWord := BitVec.ofNat 64 (selOf (some c) HS_STRUMTLO + selOf (some c) HS_STRUMTHI * 2 ^ 32);
      MayWrite m aid x HS_STRUMCTL (w32 v) s.found →
    (strumRefusal t b = 0 → Completes i s fun d =>
      d.cns.strums = b.cns.strums ++ [⟨action, arg.toNat, obj.toNat, t, [], false, false⟩] ∧ d.cns.state = b.cns.state
        ∧ Answered aid m 0 (m.payload.take 8) d ∧ Same { cns := true, regs := true, strand := true, tx := true } b d)
    ∧ (strumRefusal t b ≠ 0 → Completes i s fun d =>
      Answered aid m (strumRefusal t b) (leBytes 4 HS_STRUMCTL) d ∧ Same { strand := true, tx := true } b d)

/-- PG_KEYCTL (15 R570, R594): READ puts the selected entry into the session's buffer; ENROLL puts the buffered key into the lowest empty
entry, or is refused with the RESULT of its fault; REVOKE marks a valid key revoked and closes the sessions it opened, but never the last valid
Keeper key. A change of the store starts its flash write, and while it runs the command is ignored.

UPDATE_CHUNK of a Keeper session, or in network boot of no session (R583), stages its bytes; with LAST a complete image goes to verification and
an incomplete one ends the update with code 6; a chunk that a check refuses stages nothing. PG_UPDCTL ABORT ends an update that is received or verified with code 8 (15 R579-R581). -/
def Obligations.KeyAndUpdateControl : Prop :=
  ((∀ (m0 : Dgram) (aid : Nat) (x : Session) (s : State), let m := splitDgram (writeOne PG_KEYCTL (1 * 2 ^ 30) m0);
        let b := commandOn aid m x s.found; let c := commander aid m x s.found;
        MayWrite m aid x PG_KEYCTL (w32 (1 * 2 ^ 30)) s.found → b.peg.keyBusy = none →
      Completes (.keyRead m0) s fun d =>
        (∃ y, sessionOf c.num d = some y ∧ y.keybuf = keyBytes (keyAt b.peg.keys ((mgetD c.sel PG_KEYSEL 0#32).toNat % 64)))
          ∧ d.peg.keyResult = 0#8 ∧ d.peg.keys = b.peg.keys ∧ Answered aid m 0 (m.payload.take 8) d)
    ∧ (∀ (m0 : Dgram) (aid i : Nat) (x : Session) (s : State), let m := splitDgram (writeOne PG_KEYCTL (2 * 2 ^ 30) m0);
        let b := commandOn aid m x s.found; let k := { keyOfBytes (commander aid m x s.found).keybuf with state := 1#8 };
        MayWrite m aid x PG_KEYCTL (w32 (2 * 2 ^ 30)) s.found → b.peg.keyBusy = none →
        (b.peg.keys.any fun e => e.2.state != 0#8 && e.2.keyid == k.keyid) = false →
        ((List.range 64).find? fun i => (keyAt b.peg.keys i).state == 0#8) = some i → usageBad k = false → onP521 k.pub = true →
      Completes (.keyEnroll m0) s fun d =>
        keyAt d.peg.keys i = k ∧ (∀ j, j ≠ i → keyAt d.peg.keys j = keyAt b.peg.keys j) ∧ d.peg.keyBusy = some (1#8, k.keyid)
          ∧ d.peg.keyResult = 0#8 ∧ d.rst.nv = some .pageProgram ∧ d.flash = b.flash ∧ Answered aid m 0 (m.payload.take 8) d)
    ∧ (∀ (m0 : Dgram) (aid : Nat) (x : Session) (s : State), let m := splitDgram (writeOne PG_KEYCTL (2 * 2 ^ 30) m0);
        let b := commandOn aid m x s.found; let k := { keyOfBytes (commander aid m x s.found).keybuf with state := 1#8 };
        let held := b.peg.keys.any fun e => e.2.state != 0#8 && e.2.keyid == k.keyid;
        let free := (List.range 64).find? fun i => (keyAt b.peg.keys i).state == 0#8;
        MayWrite m aid x PG_KEYCTL (w32 (2 * 2 ^ 30)) s.found → b.peg.keyBusy = none →
        (held = true ∨ free = none ∨ usageBad k = true ∨ onP521 k.pub = false) →
      Completes (.keyEnroll m0) s fun d =>
        d.peg.keyResult = (if held then 1#8 else if free = none then 2#8 else 3#8) ∧ d.peg.keys = b.peg.keys ∧ d.peg.keyBusy = none
          ∧ d.rst = b.rst ∧ Answered aid m 0 (m.payload.take 8) d)
    ∧ (∀ (i : Instr) (op : Nat) (m0 : Dgram) (aid : Nat) (x : Session) (s : State),
        (i = .keyRead m0 ∧ op = 1) ∨ (i = .keyEnroll m0 ∧ op = 2) ∨ (i = .keyRevoke m0 ∧ op = 3) →
        let m := splitDgram (writeOne PG_KEYCTL (op * 2 ^ 30) m0); let b := commandOn aid m x s.found;
        MayWrite m aid x PG_KEYCTL (w32 (op * 2 ^ 30)) s.found → b.peg.keyBusy.isSome = true →
      Completes i s fun d => d.peg.keys = b.peg.keys ∧ d.peg.keyBusy = b.peg.keyBusy ∧ d.peg.keyResult = b.peg.keyResult
        ∧ Answered aid m 0 (m.payload.take 8) d)
    ∧ (∀ (m0 : Dgram) (aid : Nat) (x : Session) (s : State), let m := splitDgram (writeOne PG_KEYCTL (3 * 2 ^ 30) m0);
        let b := commandOn aid m x s.found; let id := (keyOfBytes (commander aid m x s.found).keybuf).keyid;
        MayWrite m aid x PG_KEYCTL (w32 (3 * 2 ^ 30)) s.found → b.peg.keyBusy = none →
        b.peg.keys.find? (fun e => e.2.keyid == id && e.2.state == 1#8) = none →
      Completes (.keyRevoke m0) s fun d =>
        d.peg.keyResult = 5#8 ∧ d.peg.keys = b.peg.keys ∧ d.peg.keyBusy = none ∧ Answered aid m 0 (m.payload.take 8) d)
    ∧ (∀ (m0 : Dgram) (aid i : Nat) (k : KeyEntry) (x : Session) (s : State), let m := splitDgram (writeOne PG_KEYCTL (3 * 2 ^ 30) m0);
        let b := commandOn aid m x s.found; let id := (keyOfBytes (commander aid m x s.found).keybuf).keyid;
        MayWrite m aid x PG_KEYCTL (w32 (3 * 2 ^ 30)) s.found → b.peg.keyBusy = none →
        (b.peg.keys.find? fun e => e.2.keyid == id && e.2.state == 1#8) = some (i, k) →
      (k.usage ≠ 1#8 ∨ 1 < (b.peg.keys.filter fun e => e.2.usage == 1#8 && e.2.state == 1#8).length →
        Completes (.keyRevoke m0) s fun d =>
          keyAt d.peg.keys i = { k with state := 2#8 } ∧ (∀ j, j ≠ i → keyAt d.peg.keys j = keyAt b.peg.keys j)
            ∧ d.peg.keyBusy = some (2#8, id) ∧ d.rst.nv = some .pageProgram
            ∧ (k.usage ≠ 3#8 → ∀ y, y ∈ d.strand.sessions → y.ident ≠ id) ∧ Answered aid m 0 (m.payload.take 8) d)
      ∧ (k.usage = 1#8 → (b.peg.keys.filter fun e => e.2.usage == 1#8 && e.2.state == 1#8).length ≤ 1 →
        Completes (.keyRevoke m0) s fun d =>
          d.peg.keys = b.peg.keys ∧ d.peg.keyResult = 4#8 ∧ d.peg.keyBusy = none ∧ Answered aid m 0 (m.payload.take 8) d)))
  ∧ ((∀ (m0 : Dgram) (aid : Nat) (sess : Word) (b : Dev) (s : State), let m := splitDgram (asReq 0x35#8 m0); let l := m.payload;
        let staged := (u32 l 0, bytesAt l 12 (u16 l 8)) :: (if b.peg.update.state = 1 then b.peg.update.staged else []);
        (∃ x, Managed m aid x s.found ∧ b = commandOn aid m x s.found ∧ (commander aid m x s.found).keeper = true
            ∧ sess = (commander aid m x s.found).num)
          ∨ (InSequence m aid s.found ∧ b = heardOn aid m s.found ∧ inRom (accepted aid m s.found) = true ∧ inRom b = true
            ∧ hasFlag m.hdr fAUTH = false ∧ sess = 0#32) →
      (chunkRefusal sess l b = none → Completes (.updateChunk m0) s fun d =>
        Answered aid m 0 [] d ∧ d.peg.update.sess = sess ∧ d.peg.update.last = b.time ∧ d.peg.update.total = u32 l 4
          ∧ (bit (u16 l 10) 0 = false → d.peg.update.state = 1 ∧ d.peg.update.staged = staged
              ∧ Same { peg := true, strand := true, tx := true } b d)
          ∧ (bit (u16 l 10) 0 = true → allStaged staged (u32 l 4) = true → d.peg.update.state = 2 ∧ d.peg.update.staged = staged
              ∧ Same { peg := true, strand := true, tx := true } b d)
          ∧ (bit (u16 l 10) 0 = true → allStaged staged (u32 l 4) = false → d.peg.update.state = 4 ∧ d.peg.update.code = 6#8
              ∧ d.peg.update.staged = [] ∧ regGet PG_UPDFAIL d = satAdd (regGet PG_UPDFAIL b) 1
              ∧ Same { peg := true, regs := true, strand := true, tx := true } b d))
      ∧ ∀ code, chunkRefusal sess l b = some code → Completes (.updateChunk m0) s fun d =>
        Answered aid m code (leBytes 4 0) d ∧ Same { strand := true, tx := true } b d)
    ∧ (∀ (m0 : Dgram) (aid : Nat) (x : Session) (s : State), let m := splitDgram (asReq 0x35#8 m0); let b := commandOn aid m x s.found;
        Managed m aid x s.found → (commander aid m x s.found).keeper = false →
      Completes (.updateChunk m0) s fun d => Answered aid m stNOT_KEEPER (leBytes 4 0) d ∧ Same { strand := true, tx := true } b d)
    ∧ ∀ (m0 : Dgram) (aid : Nat) (x : Session) (s : State), let m := splitDgram (writeOne PG_UPDCTL 0x80000000 m0);
        let b := commandOn aid m x s.found;
        MayWrite m aid x PG_UPDCTL 0x80000000#32 s.found → b.peg.update.state = 1 ∨ b.peg.update.state = 2 →
      Completes (.updateAbort m0) s fun d =>
        d.peg.update.state = 4 ∧ d.peg.update.code = 8#8 ∧ regGet PG_UPDFAIL d = satAdd (regGet PG_UPDFAIL b) 1
          ∧ Answered aid m 0 (m.payload.take 8) d ∧ Same { peg := true, regs := true, strand := true, tx := true } b d)

/-- MGMT_RESET and HS_RSTCTL (12 R510; 16 R599, R629): with the part awake and no reset in progress a stage, partition or die scope begins
and leaves memory and time as they are, and a device scope is asserted at once: a cold one zeroes time and the map, a warm one keeps
both. -/
def Obligations.ResetRequests : Prop :=
  (∀ (m0 : Dgram) (aid : Nat) (x : Session) (s : State), let m := splitDgram (asOp 0x33#8 0 1#8 m0); let b := commandOn aid m x s.found;
      let c := commander aid m x s.found; let l := m.payload;
      Managed m aid x s.found → resetBad l = false → u8 l 0 = 1 → c.keeper = false → (stageRec (imgOf c.part b) (u8 l 2)).isSome = true →
      powered b = true → b.rst.phase = .idle → asleep b = false → b.pwr.target = none → b.rst.subs = [] →
    Completes (.mgmtResetStage m0) s fun d =>
      (∃ y, y ∈ d.rst.subs ∧ y.scope = .stage ∧ y.part = c.part ∧ y.stage = u8 l 2 ∧ y.source = srcMGMT ∧ y.t0 = b.osc)
        ∧ Answered aid m 0 [] d ∧ d.rst.phase = .idle ∧ d.mem = b.mem ∧ d.time = b.time ∧ d.map = b.map)
  ∧ (∀ (m0 : Dgram) (aid : Nat) (x : Session) (s : State), let m := splitDgram (asOp 0x33#8 0 2#8 m0); let b := commandOn aid m x s.found;
      let c := commander aid m x s.found; let l := m.payload;
      Managed m aid x s.found → resetBad l = false → u8 l 0 = 2 → c.keeper = false →
      powered b = true → b.rst.phase = .idle → asleep b = false → b.pwr.target = none → b.rst.subs = [] →
    Completes (.mgmtResetPartition m0) s fun d =>
      (∃ y, y ∈ d.rst.subs ∧ y.scope = .partition ∧ y.part = c.part ∧ y.source = srcMGMT ∧ y.t0 = b.osc) ∧ Answered aid m 0 [] d
        ∧ (tuneAt c.part d).load = none ∧ (∀ w, w ∈ d.loads.windows → w.part ≠ c.part) ∧ d.rst.phase = .idle ∧ d.mem = b.mem
        ∧ d.time = b.time ∧ d.map = b.map)
  ∧ (∀ (m0 : Dgram) (aid : Nat) (x : Session) (s : State), let m := splitDgram (asOp 0x33#8 0 3#8 m0); let b := commandOn aid m x s.found;
      let c := commander aid m x s.found; let l := m.payload;
      Managed m aid x s.found → resetBad l = false → u8 l 0 = 3 → c.keeper = true → (u8 l 1 < 12 ∨ (16 ≤ u8 l 1 ∧ u8 l 1 < 28)) →
      powered b = true → b.rst.phase = .idle → asleep b = false → b.pwr.target = none → b.rst.subs = [] →
    Completes (.mgmtResetDie m0) s fun d =>
      (∃ y, y ∈ d.rst.subs ∧ y.scope = .die ∧ y.die = u8 l 1 % 16 ∧ y.source = srcMGMT ∧ y.t0 = b.osc) ∧ Answered aid m 0 [] d
        ∧ (∀ k, k ∈ pairLinks (u8 l 1 % 16) → (linkAt k d).state = 1) ∧ d.rst.phase = .idle ∧ d.mem = b.mem ∧ d.time = b.time
        ∧ d.map = b.map)
  ∧ (∀ (i : Instr) (k : Byte) (sc : Scope) (m0 : Dgram) (aid : Nat) (x : Session) (s : State),
      (i = .mgmtResetWarm m0 ∧ k = 4#8 ∧ sc = .warm) ∨ (i = .mgmtResetCold m0 ∧ k = 5#8 ∧ sc = .cold) →
      let m := splitDgram (asOp 0x33#8 0 k m0); let b := commandOn aid m x s.found; let c := commander aid m x s.found; let l := m.payload;
      Managed m aid x s.found → resetBad l = false → u8 l 0 = k.toNat → c.keeper = true → b.peg.update.state ≠ 3 →
      powered b = true → b.rst.phase = .idle → b.rst.nv = none →
    Completes i s fun d =>
      d.rst.phase = .asserted ∧ d.rst.scope = sc ∧ d.rst.cause = srcMGMT ∧ d.timeRun = false
        ∧ d.time = (if sc = .warm then b.time else 0#64) ∧ d.map.cur = (if sc = .warm then b.map.cur else [])
        ∧ d.mem = b.mem ∧ d.fuses = b.fuses ∧ d.pins.padHold = true ∧ d.eth.up = false)
  ∧ (∀ (m0 : Dgram) (die : BitVec 5) (aid : Nat) (x : Session) (s : State), let v := 3 * 2 ^ 29 + die.toNat * 2 ^ 24;
      let m := splitDgram (writeOne HS_RSTCTL v m0); let b := commandOn aid m x s.found;
      MayWrite m aid x HS_RSTCTL (w32 v) s.found → die.toNat % 16 < 12 →
      powered b = true → b.rst.phase = .idle → asleep b = false → b.pwr.target = none → b.rst.subs = [] →
    Completes (.softwareResetDie m0 die) s fun d =>
      (∃ y, y ∈ d.rst.subs ∧ y.scope = .die ∧ y.die = die.toNat % 16 ∧ y.source = srcSOFTWARE ∧ y.t0 = b.osc)
        ∧ Answered aid m 0 (m.payload.take 8) d ∧ d.rst.phase = .idle ∧ d.mem = b.mem ∧ d.time = b.time ∧ d.map = b.map)
  ∧ (∀ (i : Instr) (k : Nat) (sc : Scope) (m0 : Dgram) (aid : Nat) (x : Session) (s : State),
      (i = .softwareResetWarm m0 ∧ k = 4 ∧ sc = .warm) ∨ (i = .softwareResetCold m0 ∧ k = 5 ∧ sc = .cold) →
      let m := splitDgram (writeOne HS_RSTCTL (k * 2 ^ 29) m0); let b := commandOn aid m x s.found;
      MayWrite m aid x HS_RSTCTL (w32 (k * 2 ^ 29)) s.found → powered b = true → b.rst.phase = .idle → b.rst.nv = none →
    Completes i s fun d =>
      d.rst.phase = .asserted ∧ d.rst.scope = sc ∧ d.rst.cause = srcSOFTWARE ∧ d.timeRun = false
        ∧ d.time = (if sc = .warm then b.time else 0#64) ∧ d.map.cur = (if sc = .warm then b.map.cur else [])
        ∧ d.mem = b.mem ∧ d.fuses = b.fuses ∧ d.pins.padHold = true ∧ d.eth.up = false)
  ∧ ∀ (m0 : Dgram) (aid : Nat) (x : Session) (s : State), let m := splitDgram (writeOne HS_RSTCTL 1 m0); let b := commandOn aid m x s.found;
      MayWrite m aid x HS_RSTCTL 1#32 s.found → b.rst.withdrawn = true →
    Completes (.reinstate m0) s fun d =>
      d.rst.withdrawn = false ∧ d.rst.history = [] ∧ d.rst.reinstates = min 255 (b.rst.reinstates + 1)
        ∧ (∃ r, r ∈ d.peg.ring ∧ u16 r.payload 0 = 0x00A4) ∧ Answered aid m 0 (m.payload.take 8) d

/-- HS_PWRCTL REQ (17 R636, R637) and FT_TILECTL (06 R266): with nothing that stops it a request of Hush or Vigil begins to drain, a request
of Active ends Idle at once or wakes a sleeping part; a tile command queues the test of its tile behind those it waits for and clears the
results. -/
def Obligations.PowerAndTileRequests : Prop :=
  (∀ (m0 : Dgram) (auto : Bool) (aid : Nat) (x : Session) (s : State), let v := 1 * 2 ^ 29 + b2n auto * 2 ^ 28;
      let m := splitDgram (writeOne HS_PWRCTL v m0); let b := commandOn aid m x s.found;
      MayWrite m aid x HS_PWRCTL (w32 v) s.found → b.pwr.target = none → b.pwr.transit = false → reqBusy b = false →
    (b.pwr.state = 1 → Completes (.powerReqActive m0 auto) s fun d =>
      d.pwr = { b.pwr with state := 0, result := 0#8 } ∧ regField HS_PWRCTL 28 1 d = b2n auto ∧ Answered aid m 0 (m.payload.take 8) d
        ∧ d.mem = b.mem)
    ∧ (2 ≤ b.pwr.state → b.pwr.waking = false → Completes (.powerReqActive m0 auto) s fun d =>
      d.pwr = { b.pwr with waking := true, transit := true, wake := 1, wakeFrom := b.time } ∧ regField HS_PWRCTL 28 1 d = b2n auto
        ∧ Answered aid m 0 (m.payload.take 8) d ∧ d.mem = b.mem))
  ∧ (∀ (i : Instr) (k st : Nat) (m0 : Dgram) (auto : Bool) (aid : Nat) (x : Session) (s : State),
      (i = .powerReqHush m0 auto ∧ k = 3 ∧ st = 2) ∨ (i = .powerReqVigil m0 auto ∧ k = 4 ∧ st = 3) →
      let v := k * 2 ^ 29 + b2n auto * 2 ^ 28; let m := splitDgram (writeOne HS_PWRCTL v m0); let b := commandOn aid m x s.found;
      MayWrite m aid x HS_PWRCTL (w32 v) s.found → b.pwr.target = none → b.pwr.transit = false → reqBusy b = false →
      b.pwr.state ≠ st → (st = 3 → b.cns.state ≠ 1 ∧ b.cns.state ≠ 2) →
    Completes i s fun d =>
      d.pwr.target = some st ∧ d.pwr.transit = true ∧ d.pwr.drainFrom = b.time ∧ d.pwr.entryFrom = b.time
        ∧ d.pwr.state = (if b.pwr.state = 1 then 0 else b.pwr.state) ∧ regField HS_PWRCTL 28 1 d = b2n auto
        ∧ Answered aid m 0 (m.payload.take 8) d ∧ d.mem = b.mem ∧ d.streams = b.streams)
  ∧ (∀ (m0 : Dgram) (f c t aid : Nat) (x : Session) (s : State), let v := 1 * 2 ^ 30 + c * 2 ^ 6 + t;
      let m := splitDgram (writeOne (FT_TILECTL f) v m0); let b := commandOn aid m x s.found;
      f < 12 → c < 16 → t < 33 → MayWrite m aid x (FT_TILECTL f) (w32 v) s.found →
    Completes (.tileTest m0 f c t) s fun d =>
      (courseAt f c d).tests = (courseAt f c b).tests ++ [{ tile := t, keeper := 1, periodic := false, running := false }]
        ∧ mget? d.fret.cmds f = some { done := false, kat := 3, scan := 3 }
        ∧ Answered aid m 0 (m.payload.take 8) d ∧ Same { fret := true, regs := true, strand := true, tx := true } b d)
  ∧ ∀ (m0 : Dgram) (f c t aid : Nat) (x : Session) (s : State), let v := 2 * 2 ^ 30 + c * 2 ^ 6 + t;
      let m := splitDgram (writeOne (FT_TILECTL f) v m0); let b := commandOn aid m x s.found;
      f < 12 → c < 16 → t < 33 → MayWrite m aid x (FT_TILECTL f) (w32 v) s.found →
    Completes (.tileReinstate m0 f c t) s fun d =>
      ((tileAt f c t b).tstate = 2 →
          (courseAt f c d).tests = (courseAt f c b).tests ++ [{ tile := t, keeper := 2, periodic := false, running := false }]
            ∧ mget? d.fret.cmds f = some { done := false, kat := 3, scan := 3 })
        ∧ ((tileAt f c t b).tstate ≠ 2 → mget? d.fret.cmds f = some { done := true, kat := 3, scan := 3 }
            ∧ (courseAt f c d).tests = (courseAt f c b).tests)
        ∧ Answered aid m 0 (m.payload.take 8) d ∧ Same { fret := true, regs := true, strand := true, tx := true } b d

/-! ### Streams (10 R391-R427; 13 R537) -/

/-- The records at the front of a stream's queue whose vectors the Bridge has released, and whose way to the Headstock is up (01 R26, R54), at
most 255 of them, leave as one TOKENS message to the stream's host (R419, 12 R497), or, on a member of a split consort, to the master (14
R556); the others wait. -/
def Obligations.TokenRecords : Prop :=
  ∀ (i : Nat) (x : Stream) (s : State), i < 262144 → streamAt i s.dev = some x →
    let l := (x.outq.takeWhile fun y => outReleased i y s.dev && (y.batch.isNone || recordWay x.home s.dev)).take 255
    (l = [] → Completes (.tokenRecordArrival i) s fun d => d = s.found)
    ∧ (∀ (aid : Nat) (a : Assoc), l ≠ [] → (cnsServes x.part s.dev && !isCnsMaster s.dev) = false →
        findAssoc x.host x.port x.part s.dev = some (aid, a) → assocAt aid s.dev = some a →
      Completes (.tokenRecordArrival i) s fun d =>
        (∃ y, Retained aid y d ∧ y.hdr.ttype = 0x10#8 ∧ y.hdr.stream = x.handle
          ∧ y.payload = leBytes 2 l.length ++ [0#8, 0#8] ++ (l.map (·.bytes)).flatten)
        ∧ (∀ y, streamAt i d = some y → y = { x with outq := x.outq.drop l.length }) ∧ OtherStreams i s.dev d
        ∧ Same { links := true, regs := true, scheds := true, strand := true, streams := true, tx := true } s.found d)
    ∧ (l ≠ [] → cnsServes x.part s.dev = true → isCnsMaster s.dev = false →
      Completes (.tokenRecordArrival i) s fun d =>
        .consort (cnsMasterNo s.dev.cns.cur) 12 (leBytes 4 x.handle.toNat ++ (l.map (·.bytes)).flatten) ∈ d.tx
          ∧ (∀ y, streamAt i d = some y → y = { x with outq := x.outq.drop l.length }) ∧ OtherStreams i s.dev d
          ∧ Same { links := true, regs := true, scheds := true, streams := true, tx := true } s.found d)

/-- A step's logits at the Pick unit: the greedy or sampled token becomes known at its position with one record more and one token less to
go, whose record tells what was noted of the positions before its own (R419), a decode step commits the accepted drafts (R408), a draft step keeps its drafts (R407), and a stream with no candidate left fails
with reason 0x17 (R413). -/
def Obligations.Sampling : Prop :=
  (∀ (i : Nat) (x : Stream) (l : List DraftTok) (logits : List (List Word)) (s : State), i < 262144 → streamAt i s.dev = some x →
      x.state = 3 → x.draftDone = false → x.steps = [] → gammaOf (restep x) s.dev ≠ 0 → logits.length = gammaOf (restep x) s.dev →
      logitsFinite logits = true → draftToks x s.found ((restep x).nextpos + 1) [] (logits.map logitVals) = some l →
    Completes (.draftStepDone i logits) s fun d =>
      let b := maskRead x s.found
      streamAt i d = some { restep x with drafts := l, draftDone := true } ∧ l.length = logits.length
        ∧ regGet (BR_DRAFTTOK x.home) d = satAdd (regGet (BR_DRAFTTOK x.home) s.dev) l.length ∧ RegsBut [BR_DRAFTTOK x.home] b d
        ∧ OtherStreams i s.dev d ∧ d = { b with regs := d.regs, streams := d.streams })
  ∧ (∀ (i tok : Nat) (lp : Word) (x : Stream) (st : StepRec) (r : List StepRec) (z : List Word) (s : State), i < 262144 →
      streamAt i s.dev = some x → streamLive x = true → x.steps = st :: r → st.prefill = true → st.pos0 + st.count = x.avail →
      x.more = false → logitsFinite [z] = true →
      let b := maskRead x s.found
      ((∃ best, distOf x [] (logitVals z) b = .greedy best ∧ tok = best ∧ lp = 0#32)
        ∨ ∃ l, distOf x [] (logitVals z) b = .dist l ∧ tok = select l (pickRand x x.avail 0) ∧ lp = logpOf (probOf l tok)) →
    Completes (.pickSample i [z]) s fun d =>
      (∃ y rec, streamAt i d = some y ∧ mget? y.toks x.avail = some (tok, true) ∧ y.avail = x.avail + 1 ∧ y.turnLeft = x.turnLeft - 1
        ∧ y.emitted = x.emitted + 1 ∧ y.recs = x.recs + 1 ∧ y.outq = x.outq ++ [rec] ∧ rec.batch = some st.batch ∧ rec.bytes.length = 16
        ∧ rec.bytes.take 8 = leBytes 4 tok ++ leBytes 4 x.avail ∧ rec.bytes.drop 12 = leBytes 4 lp.toNat
        ∧ u16 rec.bytes 8 % 8 = ((x.pflags.filter fun e => decide (e.1 < x.avail)).foldl (fun n e => n ||| e.2) x.flags) % 8
        ∧ y.flags = (x.pflags.filter fun e => decide (x.avail ≤ e.1)).foldl (fun n e => n ||| e.2) 0 ∧ y.pflags = [] ∧ y.state = x.state
        ∧ (∀ q, q ∈ y.steps → q.batch ≠ st.batch))
      ∧ regGet (BR_PICKCNT x.home) d = satAdd (regGet (BR_PICKCNT x.home) s.dev) 1 ∧ OtherStreams i s.dev d ∧ d.kv = s.dev.kv
      ∧ Same { links := true, regs := true, scheds := true, strand := true, streams := true, tx := true } s.found d)
  ∧ (∀ (i : Nat) (x : Stream) (st : StepRec) (r : List StepRec) (logits : List (List Word)) (s : State), i < 262144 →
      streamAt i s.dev = some x → streamLive x = true → x.steps = st :: r → st.prefill = false → logitsFinite logits = true →
      logits.length = x.drafts.length + 1 →
      let v := verifyBlock i (st.pos0 + 1) x.drafts (logits.map logitVals) (maskRead x s.found)
      v.2.2 = true →
    Completes (.pickSample i logits) s fun d =>
      (∃ y, streamAt i d = some y ∧ y.nextpos = st.pos0 + 1 + v.2.1 ∧ y.drafts = [] ∧ y.draftDone = false ∧ v.2.1 ≤ x.drafts.length
        ∧ (∀ q, q ∈ y.steps → q.batch ≠ st.batch))
      ∧ (∀ g, regionAt x.home (regKey i false) d = some g → g.len = st.pos0 + 1 + v.2.1) ∧ OtherStreams i s.dev d ∧ d.mem = s.dev.mem)
  ∧ ∀ (i : Nat) (x : Stream) (st : StepRec) (r : List StepRec) (z : List Word) (s : State), i < 262144 → streamAt i s.dev = some x →
      streamLive x = true → x.steps = st :: r → st.prefill = true → st.pos0 + st.count = x.avail → x.more = false →
      logitsFinite [z] = true → distOf x [] (logitVals z) (maskRead x s.found) = .empty →
    Completes (.pickSample i [z]) s fun d =>
      Ended i 0x17 d ∧ regGet (BR_PICKEMPTY x.home) d = satAdd (regGet (BR_PICKEMPTY x.home) s.dev) 1 ∧ OtherStreams i s.dev d

/-- Batch formation: with formation closed, or a batch that has not begun, nothing happens (R400); else at most one batch is formed, numbered
next, of candidates of one model and epoch, with at most the image's count of vectors, each covered by a step of its stream (R402-R404); then
an UNPARK that waited for moves that have ended so is served (R426). Resuming takes the highest priority that is paused (R423); a stream at
risk is marked, in any live state (R421); a step held for frames for 2 s fails its stream (R405). -/
def Obligations.Scheduling : Prop :=
  (∀ (p : Nat) (s : State), p < 32 → (formationOpen p s.dev = false ∨ ∃ x, x ∈ (schedAt p s.dev).batches ∧ x.begun = false) →
    Completes (.batchFormation p) s fun d => d = serveWork s.found
      ∧ ((∀ h, h ∈ s.dev.strand.held → h.msg.hdr.ttype ≠ 0x07#8) → d = s.found))
  ∧ (∀ (p : Nat) (s : State), p < 32 → formationOpen p s.dev = true → (∀ x, x ∈ (schedAt p s.dev).batches → x.begun = true) →
    Completes (.batchFormation p) s fun d =>
      let c := readyToForm p s.found
      ∃ e bs, d = serveWork e ∧ ((∀ h, h ∈ e.strand.held → h.msg.hdr.ttype ≠ 0x07#8) → d = e)
        ∧ (schedAt p e).batches = (schedAt p c).batches ++ bs ∧ bs.length ≤ 1 ∧ (candidates p c = [] → bs = [] ∧ e = c)
        ∧ (∀ x, x ∈ bs → x.id = (schedAt p c).nextId ∧ (schedAt p e).nextId = x.id + 1 ∧ x.begun = false ∧ x.vecs ≠ []
            ∧ x.vecs.length ≤ batchMax (imgOf p s.dev)
            ∧ ∀ v, v ∈ x.vecs → (∃ y, y ∈ candidates p c ∧ y.1 = v.stream ∧ y.2.model = x.model ∧ y.2.epoch = x.epoch)
                ∧ ∃ y st, streamAt v.stream e = some y ∧ st ∈ y.steps ∧ st.batch = x.id ∧ st.pos0 ≤ v.pos ∧ v.pos < st.pos0 + st.count)
        ∧ Same { fret := true, kv := true, mem := true, poison := true, regs := true, scheds := true, strand := true, streams := true,
                 tx := true } s.found e)
  ∧ (∀ (p : Nat) (s : State), p < 32 →
      let held := (partStreams p s.dev).filter fun e => streamLive e.2 && e.2.schedp
      let top := held.foldl (fun m e => min m e.2.prio) 7
      (∀ e, e ∈ partStreams p s.dev → streamLive e.2 = true → e.2.atRisk = false) → ms 10 ≤ since (schedAt p s.dev).calmFrom s.dev →
      ms 10 ≤ since (schedAt p s.dev).resumed s.dev → held ≠ [] →
    Completes (.schedulerResume p) s fun d =>
      (∀ e, e ∈ held → e.2.prio = top → ∃ y, streamAt e.1 d = some y ∧ y.schedp = false)
        ∧ (∀ j, (∀ e, e ∈ held → e.2.prio = top → e.1 ≠ j) → streamAt j d = streamAt j s.dev)
        ∧ regGet HS_SCHRESUME d = satAdd (regGet HS_SCHRESUME s.dev) (held.filter fun e => e.2.prio == top).length
        ∧ (schedAt p d).resumed = s.dev.time
        ∧ Same { regs := true, scheds := true, strand := true, streams := true, tx := true } s.found d)
  ∧ (∀ (i : Nat) (x : Stream) (s : State), i < 262144 → streamAt i s.dev = some x → riskNow x s.dev = true →
    Completes (.atRiskTtft i) s fun d =>
      streamAt i d = some { x with atRisk := true } ∧ OtherStreams i s.dev d ∧ d.regs = s.dev.regs
        ∧ Same { strand := true, streams := true, tx := true } s.found d)
  ∧ (∀ (i : Nat) (s : State), i < 262144 → (∀ x, streamAt i s.dev = some x → riskNow x s.dev = false) →
    Completes (.atRiskTtft i) s fun d => d = s.found)
  ∧ ∀ (i : Nat) (x : Stream) (t : DWord) (s : State), i < 262144 → streamAt i s.dev = some x → x.heldKv = true → x.heldFrom = some t →
      sec 2 ≤ since t s.dev → streamLive x = true →
    Completes (.kvHoldTimeout i) s fun d =>
      Ended i 0x16 d ∧ regGet HS_KVHOLDFAIL d = satAdd (regGet HS_KVHOLDFAIL s.dev) 1 ∧ OtherStreams i s.dev d ∧ d.mem = s.dev.mem

/-- At a step boundary a stop ends the stream or, with KEEP, pauses it at the end of its turn; then a deadline, the retire-by of its epoch, a
PARK and a pause take hold, in that order; a finished prompt goes on to DECODE (R391, R394, R415). A limit that is reached with no stop pending
ends a stream with reason 0x05 (R417), a park that expires with 0x07 (R427). -/
def Obligations.Boundaries : Prop :=
  (∀ (i : Nat) (x : Stream) (s : State), i < 262144 → streamAt i s.dev = some x → streamLive x = true → x.steps = [] → x.stop ≠ 0 →
      x.keep = false ∨ x.stop = 4 →
    Completes (.stepBoundary i) s fun d => Ended i x.stop d ∧ OtherStreams i s.dev d ∧ d.mem = s.dev.mem)
  ∧ (∀ (i : Nat) (x : Stream) (s : State), i < 262144 → streamAt i s.dev = some x → streamLive x = true → x.steps = [] → x.park = none →
      epochExpired x.part x.model x.epoch s.dev = false →
    (x.stop ≠ 0 → x.keep = true → x.stop ≠ 4 → Completes (.stepBoundary i) s fun d =>
      streamAt i d = some { x with turn := false, stop := 0, hostp := false, state := 4 } ∧ OtherStreams i s.dev d
        ∧ Same { strand := true, streams := true, tx := true } s.found d)
    ∧ ((x.state = 2 ∨ x.state = 3) → x.stop = 0 → (x.limit = BitVec.allOnes 64 ∨ s.dev.time.toNat < x.limit.toNat) →
        (x.hostp = true ∨ x.schedp = true → Completes (.stepBoundary i) s fun d =>
          streamAt i d = some { x with state := 4 } ∧ OtherStreams i s.dev d
            ∧ Same { strand := true, streams := true, tx := true } s.found d)
        ∧ (x.hostp = false → x.schedp = false → x.state = 2 → promptRemains x = false → x.more = false →
          Completes (.stepBoundary i) s fun d =>
            streamAt i d = some { x with state := 3 } ∧ d = { s.found with streams := d.streams })))
  ∧ (∀ (i : Nat) (x : Stream) (s : State), i < 262144 → streamAt i s.dev = some x → streamLive x = true → x.steps = [] → x.stop = 0 →
      let due := (x.state = 2 ∨ x.state = 3) ∧ x.limit ≠ BitVec.allOnes 64 ∧ x.limit.toNat ≤ s.dev.time.toNat
    (due → Completes (.stepBoundary i) s fun d =>
      Ended i 0x05 d ∧ regGet HS_DEADLINE d = satAdd (regGet HS_DEADLINE s.dev) 1 ∧ OtherStreams i s.dev d)
    ∧ (¬ due → epochExpired x.part x.model x.epoch s.dev = true → Completes (.stepBoundary i) s fun d =>
      Ended i 0x15 d ∧ regGet HS_EPOCHRET d = satAdd (regGet HS_EPOCHRET s.dev) 1 ∧ OtherStreams i s.dev d)
    ∧ (¬ due → epochExpired x.part x.model x.epoch s.dev = false → x.park ≠ none → x.state ≠ 5 → Completes (.stepBoundary i) s fun d =>
      d = startPark i s.found ∧ OtherStreams i s.dev d))
  ∧ (∀ (i : Nat) (x : Stream) (s : State), i < 262144 → streamAt i s.dev = some x → x.limit ≠ BitVec.allOnes 64 →
      x.limit.toNat ≤ s.dev.time.toNat → asleep s.dev = false →
      (x.state = 1 ∨ (x.state = 4 ∧ x.turn = true) ∨ ((x.state = 2 ∨ x.state = 3) ∧ x.steps = [] ∧ x.stop = 0)) →
    Completes (.deadlineReached i) s fun d =>
      Ended i 0x05 d ∧ regGet HS_DEADLINE d = satAdd (regGet HS_DEADLINE s.dev) 1 ∧ OtherStreams i s.dev d ∧ d.mem = s.dev.mem)
  ∧ ∀ (i : Nat) (x : Stream) (s : State), i < 262144 → streamAt i s.dev = some x → x.state = 5 → x.moving = false → asleep s.dev = false →
      x.limit ≠ BitVec.allOnes 64 → x.limit.toNat ≤ s.dev.time.toNat →
    Completes (.parkExpiry i) s fun d =>
      Ended i 0x07 d ∧ regGet HS_PARKEXP d = satAdd (regGet HS_PARKEXP s.dev) 1 ∧ OtherStreams i s.dev d ∧ d.mem = s.dev.mem

/-! ### Attention on a Bridge (09 R351-R381; 13 R537) -/

/-- A query piece is kept for its step; a key or value piece goes, in the storage format, into the open staging buffer of its entries, or
straight to HBM when no buffer is free (R369, R372); an attention step that has all it needs starts a walk of the current generation,
or fails the stream where the mask row is missing (R374, R375, R378); a walk that ends lets its generation go, and fails its stream on a
translation fault, or on poison or an uncorrectable staging word (R354, R373, R375), and the walk of a stream that has ended reads on but sends
nothing; a flushed buffer is free once acknowledged (R370). -/
def Obligations.Attention : Prop :=
  (∀ (b i l pos kind head : Nat) (draft bf16 : Bool) (data : List Byte) (errs : List (Nat × Nat)) (x : Stream) (r : Region) (st : StepRec)
      (s : State), b < 12 → i < 262144 → streamAt i s.dev = some x → regionAt b (regKey i draft) s.dev = some r →
      let lay := regRecOf r s.dev; let w := if bf16 then 2 else 1; let f := if bf16 then fBF16 else fE4M3
      let raw := (List.range (kvDim lay)).map fun e => leNat (bytesAt data (w * e) w)
      let lk := 2 * l + b2n draft; let first := st.pos0 + (pos - st.pos0) / kvEs lay * kvEs lay
      x.home = b → streamLive x = true → l < kvLayers lay → pos < r.maxlen → data.length = w * kvDim lay →
      (∀ v, v ∈ raw → fpNonFinite f v = false) → stepFor x draft pos = some st →
    (kind = 2 → head < kvHeads lay * kvGroup lay → Completes (.kvAppendPiece b i draft l pos kind head bf16 data errs) s fun d =>
      mget? (kvStepAt b i lk st d).queries (1024 * pos + head) = some (BitVec.ofNat 8 w :: data) ∧ d = { s.found with kv := d.kv })
    ∧ (kind < 2 → head < kvHeads lay →
        let c := kvConvert lay f raw
        let isOpen := (kvAt b s.dev).bufs.any fun y => y.stream == i && y.layer == lk && y.first == first && y.st == 1
        ((kvStepAt b i lk st s.dev).direct.contains first = false → isOpen = true ∨ (kvAt b s.dev).bufs.length < 4096 →
          Completes (.kvAppendPiece b i draft l pos kind head bf16 data errs) s fun d =>
            (∃ y, y ∈ (kvAt b d).bufs ∧ y.stream = i ∧ y.layer = lk ∧ y.first = first ∧ y.st = 1
              ∧ (∀ e, e < c.1.length →
                  mget? y.bytes ((pos - first) * kvStride lay + (headOff lay kind head + e)) = some (c.1.getD e 0#8)))
            ∧ (kvStepAt b i lk st d).appended.contains (pieceCode pos kind head) = true ∧ d = { s.found with kv := d.kv, regs := d.regs })
        ∧ ((kvStepAt b i lk st s.dev).direct.contains first = true ∨ (isOpen = false ∧ 4096 ≤ (kvAt b s.dev).bufs.length) →
          (∀ a, xlate b (curRoot b r s.dev) lay (posVa r lay l pos) true s.dev = some a → a + kvStride lay ≤ 2 ^ 37 →
            Completes (.kvAppendPiece b i draft l pos kind head bf16 data errs) s fun d =>
              (∀ e, e < c.1.length → headOff lay kind head + e < kvStride lay →
                  hbmByte b (a + (headOff lay kind head + e)) d = c.1.getD e 0#8)
              ∧ (∀ q y, ¬ (hbmKey b a ≤ hbmKey q y ∧ hbmKey q y < hbmKey b a + 2 * kvHeads lay * headBytes lay + 2 * kvHeads lay) →
                  hbmByte q y d = hbmByte q y s.dev)
              ∧ d.streams = s.dev.streams
              ∧ Same { kv := true, mem := true, peg := true, poison := true, regs := true, strand := true, tx := true } s.found d)
          ∧ (xlate b (curRoot b r s.dev) lay (posVa r lay l pos) true s.dev = none →
            Completes (.kvAppendPiece b i draft l pos kind head bf16 data errs) s fun d =>
              Ended i 0x12 d ∧ regGet (BR_KVFAULT b) d = satAdd (regGet (BR_KVFAULT b) s.dev) 1 ∧ OtherStreams i s.dev d
                ∧ d.mem = s.dev.mem))))
  ∧ (∀ (b i lk : Nat) (appends : Bool) (r : Region) (x : Stream) (k : KvStep) (s : State), b < 12 → i < 262144 →
      regionAt b (regKey i (lk % 2 == 1)) s.dev = some r → streamAt i s.dev = some x → streamLive x = true →
      let lay := regRecOf r s.dev
      let ready := fun (q : KvStep) => q.stream == i && q.layer == lk && queriesWhole (kvHeads lay * kvGroup lay) q
        && (if appends then (List.range q.count).all (fun j => entryWhole (kvHeads lay) (q.pos0 + j) q) else q.appended.isEmpty)
      (kvAt b s.dev).kvsteps.find? ready = some k → (kvAt b s.dev).walks.length < 256 →
    (r.mode ≠ 2 ∨ (k.pos0 + k.count - 1) / 64 < r.rows → Completes (.attentionStep b i lk appends) s fun d =>
      (∃ w, (kvAt b d).walks = (kvAt b s.dev).walks ++ [w] ∧ w.stream = i ∧ w.layer = lk ∧ w.pos0 = k.pos0 ∧ w.count = k.count
        ∧ w.gen = (curGen (kvAt b s.dev)).num ∧ w.gone = false ∧ w.kend = (if appends then k.pos0 + k.count else r.len))
      ∧ (kvAt b d).gens = (kvAt b s.dev).gens.map (fun g => if g.num = (curGen (kvAt b s.dev)).num then { g with walks := g.walks + 1 } else g)
      ∧ d = { s.found with kv := d.kv })
    ∧ (r.mode = 2 → r.rows ≤ (k.pos0 + k.count - 1) / 64 → Completes (.attentionStep b i lk appends) s fun d =>
      Ended i 0x14 d ∧ regGet (BR_MASKMISS b) d = satAdd (regGet (BR_MASKMISS b) s.dev) 1 ∧ OtherStreams i s.dev d ∧ d.mem = s.dev.mem))
  ∧ (∀ (b i lk n : Nat) (errs words : List (Nat × Nat)) (w : Walk) (s : State), b < 12 → i < 262144 →
      (kvAt b s.dev).walks.findIdx? (fun y => y.stream == i && y.layer == lk) = some n → (kvAt b s.dev).walks[n]? = some w →
      let r := w.region; let lay := regRecOf r s.dev
      let m := ((kvAt b s.dev).gens.find? fun g => g.num == w.gen).bind (genRoot r.part)
      let fill := (curGen (kvAt b s.dev)).num == w.gen
      let z := readGroups b i lk w m fill r lay (kvWin (imgOf r.part s.dev) r.model (lk / 2)) (queryGroups w) errs
        (markStaged b i lk lay words s.found)
      let c := modGen b w.gen (fun g => { g with walks := g.walks - 1 }) (modKv b (fun k => { k with walks := k.walks.eraseIdx n }) z.2)
      (w.gone = true ∨ (∀ x, streamAt i s.dev = some x → streamLive x = false) → Completes (.attentionOutput b i lk errs words) s fun d =>
        d = c ∧ (kvAt b d).walks.length + 1 = (kvAt b s.dev).walks.length ∧ d.streams = s.dev.streams ∧ d.mem = s.dev.mem)
      ∧ ∀ x, streamAt i s.dev = some x → w.gone = false → streamLive x = true →
        (z.1 = 0 → Completes (.attentionOutput b i lk errs words) s fun d =>
          d = finishWalk b i lk w m r lay x c ∧ (kvAt b d).walks.length + 1 = (kvAt b s.dev).walks.length ∧ d.time = s.dev.time)
        ∧ (z.1 = 1 → Completes (.attentionOutput b i lk errs words) s fun d =>
          Ended i 0x12 d ∧ regGet (BR_KVFAULT b) d = satAdd (regGet (BR_KVFAULT b) s.dev) 1
            ∧ (kvAt b d).walks.length + 1 = (kvAt b s.dev).walks.length ∧ OtherStreams i s.dev d ∧ d.mem = s.dev.mem)
        ∧ (z.1 = 2 → Completes (.attentionOutput b i lk errs words) s fun d =>
          Ended i 0x13 d ∧ regGet (BR_KVPOISON b) d = satAdd (regGet (BR_KVPOISON b) s.dev) 1
            ∧ (kvAt b d).walks.length + 1 = (kvAt b s.dev).walks.length ∧ OtherStreams i s.dev d ∧ d.mem = s.dev.mem))
  ∧ ∀ (b i lk first n : Nat) (s : State), b < 12 → i < 262144 →
      (kvAt b s.dev).bufs.findIdx? (fun y => y.stream == i && y.layer == lk && y.first == first && y.st == 2) = some n →
    Completes (.stagingFlushAck b i lk first) s fun d =>
      (kvAt b d).bufs = (kvAt b s.dev).bufs.eraseIdx n ∧ regGet (BR_STGFLUSH b) d = satAdd (regGet (BR_STGFLUSH b) s.dev) 1
        ∧ RegsBut [BR_STGFLUSH b] s.dev d ∧ d = { s.found with kv := d.kv, regs := d.regs }

/-- Publication makes up to 1,024 pending edits the next generation, whose root leads to copies of the changed table pages, or waits while 16
others are held (R360, R361) or the TABLE area is full (log 152); then an UNPARK that waited for moves that have ended so is served (R426). The
oldest generation that nothing holds ends, and its table pages are free (R362); a page copied or moved is pending at its new frame with the
bytes it had (R358). -/
def Obligations.Generations : Prop :=
  (∀ (b wait : Nat) (s : State), b < 12 → (kvAt b s.dev).edits ≠ [] →
      let k := kvAt b s.dev; let es := k.edits.take 1024; let changes := es.flatMap fun e => e.changes
      let made := pubChanges b (fun p => pageOf p s.dev) s.dev changes (curGen k).roots { tabs := k.tables, fresh := [], gone := [] }
      let held := 16 ≤ (k.gens.filter fun g => g.walks != 0).length
    (∀ roots pub, ¬ held → made = some (roots, pub) → Completes (.editPublish b wait) s fun d =>
      ∃ e, d = serveWork e ∧ ((∀ h, h ∈ e.strand.held → h.msg.hdr.ttype ≠ 0x07#8) → d = e)
        ∧ (curGen (kvAt b e)).num = (curGen k).num + 1#32 ∧ (curGen (kvAt b e)).roots = roots ∧ (kvAt b e).tables = pub.tabs
        ∧ (curGen (kvAt b e)).walks = 0 ∧ (kvAt b e).edits = k.edits.drop 1024 ∧ (kvAt b e).gens.length = k.gens.length + 1
        ∧ regGet (BR_EDITS b) e = satAdd (regGet (BR_EDITS b) s.dev) es.length
        ∧ Same { kv := true, mem := true, poison := true, regs := true, scheds := true, strand := true, streams := true, tx := true } s.found e)
    ∧ (held ∨ made = none → Completes (.editPublish b wait) s fun d =>
      ∃ e, d = serveWork e ∧ ((∀ h, h ∈ e.strand.held → h.msg.hdr.ttype ≠ 0x07#8) → d = e)
        ∧ regGet (BR_GENWAIT b) e = satAdd (regGet (BR_GENWAIT b) s.dev) wait ∧ RegsBut [BR_GENWAIT b] s.dev e
        ∧ e = { s.found with regs := e.regs }))
  ∧ (∀ (b : Nat) (g h : KvGen) (r : List KvGen) (s : State), b < 12 → (kvAt b s.dev).gens = g :: h :: r →
    Completes (.generationEnd b) s fun d =>
      (kvAt b d).gens = (if g.walks = 0 then h :: r else g :: h :: r)
        ∧ (kvAt b d).tables = (if g.walks = 0 then g.tabs.foldl mdel (kvAt b s.dev).tables else (kvAt b s.dev).tables)
        ∧ (kvAt b d).frames = (kvAt b s.dev).frames
        ∧ (kvAt b d).edits = (kvAt b s.dev).edits ∧ (∀ q, q ≠ b → kvAt q d = kvAt q s.dev) ∧ d = { s.found with kv := d.kv })
  ∧ ∀ (b a : Nat) (data : List Byte) (t : Transfer) (rest : List Transfer) (r : Region) (s : State), b < 12 →
      (kvAt b s.dev).transfers = t :: rest → regionAt b t.region s.dev = some r →
      let page := pageOf r.part s.dev; let loc := if t.op = 5 then t.loc else 0; let src := t.src % 2 ^ 64
      let gone := t.op = 5 ∧ mget? (effPages r.part b s.dev) t.page = none
      let from_ := fun (k : Nat) => if 2 ≤ t.src / 2 ^ 64 then (padTo page data).getD k 0#8
        else hbmByte (if t.op = 4 then t.loc else b) (src + k) s.dev
      freeFrame r.part b loc s.dev = some a →
    (¬ gone → loc < 2 → a + page ≤ 2 ^ 37 → Completes (.editDataTransferDone b data) s fun d =>
      (∀ k, k < page → hbmByte b (a + k) d = from_ k)
        ∧ (∃ e, (kvAt b d).edits = (kvAt b s.dev).edits ++ [e] ∧ e.op = t.op ∧ e.stream = t.stream ∧ e.region = t.region
            ∧ e.changes = [(t.page, some { loc := loc, ro := false, addr := a })])
        ∧ (kvAt b d).transfers = rest
        ∧ Same { kv := true, links := true, mem := true, poison := true, regs := true, tx := true } s.found d)
    ∧ (∀ f, ¬ gone → 2 ≤ loc → (memRecs (imgOf r.part s.dev)).find? (fun x => u8 x 0 == 8) = some f →
      Completes (.editDataTransferDone b data) s fun d =>
        (∃ l, .rdmaWrite (u32 f 4 % 2 ^ 24) (BitVec.ofNat 64 a) l ∈ d.tx ∧ ∀ k, k < page → l.getD k 0#8 = from_ k)
          ∧ (∃ e, (kvAt b d).edits = (kvAt b s.dev).edits ++ [e] ∧ e.op = t.op ∧ e.stream = t.stream ∧ e.region = t.region
              ∧ e.changes = [(t.page, some { loc := loc, ro := false, addr := a })])
          ∧ (kvAt b d).transfers = rest ∧ d.mem = s.dev.mem ∧ Same { kv := true, links := true, regs := true, tx := true } s.found d)
    ∧ (gone → Completes (.editDataTransferDone b data) s fun d =>
      (∃ e, (kvAt b d).edits = (kvAt b s.dev).edits ++ [e] ∧ e.op = 5 ∧ e.stream = t.stream ∧ e.region = t.region ∧ e.changes = [])
        ∧ (kvAt b d).transfers = rest ∧ d = { s.found with kv := d.kv })

/-! ### Windows, epochs and the far tier (08 R310-R326) -/

/-- A window that idles for 600 s is aborted (R314); the checks of a committed window end it with a new current epoch or generation, or
open it again: first for a non-finite value (R333), then for missing shards, then for the image's own form (R310-R313, R334); a retire-by drops the epoch's handles and fails its streams at a boundary (R326). -/
def Obligations.WindowsAndEpochs : Prop :=
  (∀ (n : Nat) (w : Window) (s : State), n < 1024 → windowAt n s.dev = some w → sec 600 ≤ since w.last s.dev → w.state ≠ 3 →
    Completes (.windowIdleTimeout n) s fun d =>
      windowAt n d = none ∧ regGet HS_LDABORT d = satAdd (regGet HS_LDABORT s.dev) 1 ∧ d.mem = s.dev.mem
        ∧ Same { loads := true, peg := true, regs := true, strand := true, tx := true } s.found d)
  ∧ (∀ (n : Nat) (nonFinite : Bool) (w : Window) (s : State), n < 1024 → windowAt n s.dev = some w → w.state = 3 →
    (∀ slot, w.adapter = some slot → nonFinite = true → Completes (.loadCommitResult n nonFinite) s fun d =>
      (∃ v, windowAt n d = some v ∧ v.state = 2 ∧ v.place = w.place ∧ v.written = w.written)
        ∧ regGet HS_LDFAIL d = satAdd (regGet HS_LDFAIL s.dev) 1
        ∧ (∀ b, b < 12 → regGet (BR_NONFINITE b) d = satAdd (regGet (BR_NONFINITE b) s.dev) 1)
        ∧ d.loads.epochs = s.dev.loads.epochs ∧ d.loads.gens = s.dev.loads.gens
        ∧ Same { loads := true, regs := true, strand := true, tx := true } s.found d)
    ∧ ((w.adapter = none ∨ nonFinite = false) →
        (missingShards w s.dev ≠ []
          ∨ (∃ slot, w.adapter = some slot ∧ (oldGenOf slot s.dev).isSome = true)
          ∨ (w.adapter = none ∧ (w.counts.getD 0 0 = 0 ∨ directoryOk w s.dev = false
              ∨ indexOk w (imgOf w.part s.dev) (blockList w.counts w.place s.dev) = false))) →
      Completes (.loadCommitResult n nonFinite) s fun d =>
      (∃ v, windowAt n d = some v ∧ v.state = 2 ∧ v.place = w.place ∧ v.written = w.written)
        ∧ regGet HS_LDFAIL d = satAdd (regGet HS_LDFAIL s.dev) 1 ∧ RegsBut [HS_LDFAIL] s.dev d
        ∧ d.loads.epochs = s.dev.loads.epochs ∧ d.loads.gens = s.dev.loads.gens
        ∧ Same { loads := true, regs := true, strand := true, tx := true } s.found d)
    ∧ (w.adapter = none → missingShards w s.dev = [] → w.counts.getD 0 0 ≠ 0 → directoryOk w s.dev = true →
        indexOk w (imgOf w.part s.dev) (blockList w.counts w.place s.dev) = true →
      Completes (.loadCommitResult n nonFinite) s fun d =>
        windowAt n d = none ∧ regGet HS_LDCOMMIT d = satAdd (regGet HS_LDCOMMIT s.dev) 1
          ∧ (∃ e, curEpoch w.part w.model d = some e ∧ e.num = w.epoch ∧ e.layout = w.layout ∧ e.place = w.place)
          ∧ d.mem = s.dev.mem ∧ d.streams = s.dev.streams)
    ∧ ∀ slot, w.adapter = some slot → missingShards w s.dev = [] → nonFinite = false → oldGenOf slot s.dev = none →
      Completes (.loadCommitResult n nonFinite) s fun d =>
        windowAt n d = none ∧ regGet HS_LDCOMMIT d = satAdd (regGet HS_LDCOMMIT s.dev) 1
          ∧ (∃ g, curGenOf slot d = some g ∧ g.model = w.model ∧ g.rank = w.rank ∧ g.place = w.place
              ∧ g.gen = match mget? s.dev.loads.adpLast slot with | some k => (k + 1) % 65536 | none => 0)
          ∧ d.mem = s.dev.mem ∧ d.streams = s.dev.streams)
  ∧ ∀ (p model : Nat) (e : Epoch) (s : State), p < 32 → model < 4 → oldEpoch p model s.dev = some e →
      epochExpired p model e.num s.dev = true → asleep s.dev = false →
    Completes (.epochRetireBy p model) s fun d =>
      ∃ c, d = serveWork c ∧ ((∀ h, h ∈ c.strand.held → h.msg.hdr.ttype ≠ 0x07#8) → d = c)
        ∧ (∀ i x, streamAt i s.dev = some x → x.part = p → x.model = model → x.epoch = e.num → streamLive x = true → x.steps = [] →
            Ended i 0x15 c)
        ∧ (∀ h f, mget? c.prefixes h = some f → ¬ (f.part = p ∧ f.model = model ∧ f.epoch = e.num))
        ∧ c.mem = s.dev.mem ∧ c.time = s.dev.time

/-- A prefetch of a far-tier layer reads its shards by RDMA under the region's key, one prefetch at a time, in layer order, once the loads of
the layer two before have started and no reset of its stage runs; a layer that lands is in HBM at its landing place; a header that fails its
checks, or a read that fails, faults the stage, and the prefetch starts again later (R319-R322). -/
def Obligations.FarTier : Prop :=
  (∀ (p model tag k : Nat) (e : Word) (ep : Epoch) (r : List Byte) (s : State), p < 32 → model < 4 → epochAt p model e s.dev = some ep →
      (farTags (imgOf p s.dev) model).findIdx? (fun t => t == tag % 2 ^ 15) = some k → farRec (imgOf p s.dev) = some r →
      (∀ x, x ∈ s.dev.loads.far → x.landed = true ∧ sameFar p model e (tagOf tag e) x = false) → s.dev.eth.up = true →
      farResets p model (tagOf tag e) s.dev = false →
      (∀ t, k ≠ 0 → (farTags (imgOf p s.dev) model)[k - 1]? = some t → ∃ x, x ∈ s.dev.loads.far ∧ sameFar p model e (tagOf t e) x = true) →
      halfFree p model e k (if k < 2 then none else (farTags (imgOf p s.dev) model)[k - 2]?) s.dev = true →
    Completes (.farPrefetchStart p model e tag) s fun d =>
      (∃ x, x ∈ d.loads.far ∧ x.part = p ∧ x.model = model ∧ x.epoch = e ∧ x.layer = tagOf tag e ∧ x.landed = false
        ∧ x.started = s.dev.time ∧ x.half = k % 2)
      ∧ d.tx = (List.range ep.farShards).map (fun j =>
          .rdmaRead (u32 r 4 % 2 ^ 24) (BitVec.ofNat 32 (u32 r 0x18)) (ep.farVa + BitVec.ofNat 64 (0x4000000 * j)) 0x4000000)
      ∧ d = { s.found with loads := { s.dev.loads with far := d.loads.far }, tx := d.tx })
  ∧ (∀ (x : FarLayer) (e : Epoch) (shards : List (Nat × List Byte)) (s : State), s.dev.loads.far.find? (fun y => !y.landed) = some x →
      epochAt x.part x.model x.epoch s.dev = some e →
    ((∃ z, z ∈ shards ∧ farHdrOk x e.layout z.1 (z.2.take 64) = false) → x.part < 32 → Completes (.farLayerLanded shards) s fun d =>
      StageFaulted x.part (farStage (imgOf x.part s.dev) x.model x.layer) fcIMAGE_FORMAT s.dev d ∧ x ∉ d.loads.far)
    ∧ ((∀ z, z ∈ shards → farHdrOk x e.layout z.1 (z.2.take 64) = true) → Completes (.farLayerLanded shards) s fun d =>
      (∃ y, y ∈ d.loads.far ∧ y.landed = true ∧ y.part = x.part ∧ y.model = x.model ∧ y.epoch = x.epoch ∧ y.layer = x.layer)
        ∧ RegsBut [PT_HBMBYTES x.part, PT_FBBYTES x.part] s.dev d
        ∧ Same { links := true, loads := true, mem := true, poison := true, regs := true, tx := true } s.found d)
    ∧ ∀ b data, shards = [(b, data)] → farHdrOk x e.layout b (data.take 64) = true →
        landingBase x.part b x.half s.dev + data.length ≤ 2 ^ 37 → Completes (.farLayerLanded shards) s fun d =>
      let a := landingBase x.part b x.half s.dev
      (∀ k, k < data.length → hbmByte b (a + k) d = data.getD k 0#8)
        ∧ (∀ q y, ¬ (hbmKey b a ≤ hbmKey q y ∧ hbmKey q y < hbmKey b a + data.length) → hbmByte q y d = hbmByte q y s.dev)
        ∧ regGet (PT_HBMBYTES x.part) d = regGet (PT_HBMBYTES x.part) s.dev + BitVec.ofNat 32 ((data.length + 63) / 64))
  ∧ ∀ (b : Nat) (exhausted : Bool) (x : FarLayer) (s : State), b < 12 → s.dev.loads.far.find? (fun y => !y.landed) = some x → x.part < 32 →
      exhausted = true ∨ us (farTmo (imgOf x.part s.dev)) ≤ since x.started s.dev →
    Completes (.farReadTimeout b exhausted) s fun d =>
      regGet (BR_FARTMO b) d = satAdd (regGet (BR_FARTMO b) s.dev) 1 ∧ x ∉ d.loads.far
        ∧ (∃ y, y ∈ d.rst.subs ∧ y.scope = .stage ∧ y.part = x.part ∧ y.stage = farStage (imgOf x.part s.dev) x.model x.layer)
        ∧ regGet (PT_STGFAULT x.part) d = satAdd (regGet (PT_STGFAULT x.part) s.dev) 1 ∧ (schedAt x.part d).batches = []
        ∧ d.mem = s.dev.mem ∧ d.time = s.dev.time

/-! ### Passes and plucks (02 R72-R96; 04 R158-R182; 06 R225-R237) -/

/-- A slice waits at the tile that serves its working tile, or with a covered working tile for fetched recompute (R72, R250). A pass begins
only when every tile has its layer's plane: all swap together (R94, R95); another layer faults the stage; a pass of which every
vector is taken ends, and is accounted for its layer (R174). A stage in which no vector completes in its time faults (R609). -/
def Obligations.Passes : Prop :=
  (∀ (f c w i scale : Nat) (payload outl : List Byte) (s : State), f < 12 → c < 16 → w < 32 → i < 262144 →
    let sl : Slice := { stream := i, codes := sliceCodes payload, scale := scale, outs := outEntries outl }
    let on := ringTake f c outl (ringTake f c payload s.found)
    ((dieAlive f s.dev = false ∨ tileRec (courseImg f c s.dev) f c w = none) →
      Completes (.sliceArrival f c w i scale payload outl) s fun d => d = s.found)
    ∧ (dieAlive f s.dev = true → tileRec (courseImg f c s.dev) f c w ≠ none →
      (∀ t, physOf f c w s.dev = t → t < 33 → Completes (.sliceArrival f c w i scale payload outl) s fun d =>
        tileAt f c t d = { tileAt f c t s.dev with inq := (tileAt f c t s.dev).inq ++ [sl] } ∧ OnlyTile f c t s.dev d
          ∧ d.fret.rings = on.fret.rings
          ∧ d = { s.found with fret := d.fret })
      ∧ (33 ≤ physOf f c w s.dev → Completes (.sliceArrival f c w i scale payload outl) s fun d =>
        mgetD (courseAt f c d).cov w [] = mgetD (courseAt f c s.dev).cov w [] ++ [sl] ∧ OnlyCourse f c s.dev d
          ∧ d.fret.rings = on.fret.rings ∧ d = { s.found with fret := d.fret })))
  ∧ (∀ (f c k stall : Nat) (q : PassD) (rest : List PassD) (s : State), f < 12 → c < 16 → k < 4 → dieAlive f s.dev = true →
      stgValid f c k s.dev = true → (slotAt f c k s.dev).cur = none → (slotAt f c k s.dev).descs = q :: rest →
    let e := forEach (stageTiles (courseImg f c s.dev) f c (stgStage f c k s.dev)) (fun w d => switchTile f c w q.layer d) s.found
    let finds := (servers f c k e).map fun t => planeFind (tileAt f c t e) q.layer
    let published := ∀ v, v ∈ q.vecs → vecLive v s.dev = true → mapsDue v.stream s.dev = false
    (¬ published → Completes (.passStart f c k stall) s fun d => d = s.found)
    ∧ (published → (∀ x, x ∈ finds → x = .ok) → Completes (.passStart f c k stall) s fun d =>
      slotAt f c k d = { slotAt f c k s.dev with cur := some q, descs := rest, taken := 0, passStart := s.dev.time, wins := 0, ovf := 0,
                                                 excess := 0, peak := 0 }
      ∧ (∀ t, t ∈ servers f c k e → ∃ b, (tileAt f c t d).act = b ∧ (planeOf (tileAt f c t d) b).st = 3
          ∧ (planeOf (tileAt f c t d) b).tag = q.layer ∧ (tileAt f c t d).taken = 0)
      ∧ (schedAt q.part d).batches
          = (schedAt q.part s.dev).batches.map (fun b => if b.id = q.batch then { b with begun := true } else b)
      ∧ regGet (CS_LOADSTALL f c) d = satAdd (regGet (CS_LOADSTALL f c) s.dev) stall
      ∧ stgDly f c k d = min 7 (bits (stgCfg f c k s.dev) 7 3 + bandMargin (dieAt f s.dev).band)
      ∧ RegsBut [CS_LOADSTALL f c, CS_STGCFG0 f c + 4 * k] s.dev d ∧ Same { fret := true, regs := true, scheds := true } s.found d)
    ∧ (published → .wait ∈ finds → .mismatch ∉ finds → Completes (.passStart f c k stall) s fun d => d = e ∧ d.regs = s.dev.regs)
    ∧ (published → .mismatch ∈ finds → coursePart f c s.dev < 32 → Completes (.passStart f c k stall) s fun d =>
      StageFaulted (coursePart f c s.dev) (stgStage f c k s.dev) fcLAYER_MISMATCH s.dev d))
  ∧ (∀ (f c k : Nat) (q : PassD) (s : State), f < 12 → c < 16 → k < 4 → (slotAt f c k s.dev).cur = some q → slotHeld f c k s.dev = false →
      (∀ t, t ∈ servers f c k s.dev → nextVec q (tileAt f c t s.dev).taken s.dev = none ∧ (tileAt f c t s.dev).next = none) →
      (∀ w, w ∈ stageTiles (courseImg f c s.dev) f c (stgStage f c k s.dev) → physOf f c w s.dev = 0x3F →
        nextVec q (mgetD (courseAt f c s.dev).covTaken w 0) s.dev = none) →
      (isRoot f c k s.dev = true → ∀ v, v ∈ q.vecs.drop (slotAt f c k s.dev).assigned → vecLive v s.dev = false) →
    Completes (.passEnd f c k) s fun d =>
      let x := slotAt f c k s.dev
      let old : Nat := ((x.adv.find? fun (a : AdvTag) => a.layer == q.layer).map fun (a : AdvTag) => a.count).getD 0
      (slotAt f c k d).cur = none ∧ (slotAt f c k d).descs = x.descs ∧ (slotAt f c k d).assigned = x.assigned - q.vecs.length
        ∧ (∀ b, (bufOf (slotAt f c k d) b).slots = (bufOf x b).slots)
        ∧ (∃ a, (slotAt f c k d).adv.head? = some a ∧ a.layer = q.layer
            ∧ a.count = (if 0 < x.ovf ∧ x.wins ≤ 64 * x.ovf then (if old = 3 then 0 else old + 1) else 0))
        ∧ d.fret.tiles = s.dev.fret.tiles
        ∧ Same { fret := true, peg := true, regs := true, strand := true, tx := true } s.found d)
  ∧ (∀ (f c k : Nat) (s : State), f < 12 → c < 16 → k < 4 → Completes (.encorePassEnd f c k) s fun d =>
      slotAt f c k d = { slotAt f c k s.dev with encore := (slotAt f c k s.dev).encore - 1 } ∧ OnlySlot f c k s.dev d
        ∧ d = { s.found with fret := d.fret })
  ∧ (∀ (f c k : Nat) (q : PassD) (s : State), f < 12 → c < 16 → k < 4 → (slotAt f c k s.dev).cur = some q → coursePart f c s.dev < 32 →
      let late := ms (stageTmo (imgOf q.part s.dev)) ≤ since (slotAt f c k s.dev).passStart s.dev
      let landing := ∃ y, y ∈ s.dev.loads.far ∧ y.part = q.part ∧ y.landed = false
    (late → ¬ landing → Completes (.stagePassTimeout f c k) s fun d =>
      StageFaulted (coursePart f c s.dev) (stgStage f c k s.dev) fcSTAGE_TIMEOUT s.dev d)
    ∧ (¬ late ∨ landing → Completes (.stagePassTimeout f c k) s fun d => d = s.found))
  ∧ ∀ (p b stage i pos : Nat) (vals : List Word) (r : List Byte) (x : Stream) (s : State), p < 32 → b < 12 → i < 262144 →
      stageRec (imgOf p s.dev) stage = some r → sKind r = 1 → bit (sBridges r) b = true → streamAt i s.dev = some x → x.part = p →
      streamLive x = true → (∃ st, st ∈ x.steps ∧ inRange st.pos0 st.count pos = true) →
    let y := (vals.take 512 ++ List.replicate (512 - vals.length) 0#32).map fun (w : Word) => fpDec fF32 w.toNat
    let codes := u8 r 5
    let k := conditionFin (bit codes 1) (bits codes 4 4) (y.map fun v => v.getD dyZero) (List.replicate 512 dyZero)
    let atEntry := ∃ m, modelRec (imgOf p s.dev) (sModel r) = some m ∧ mEntry m = stage
    (¬ atEntry → (∃ w, w ∈ vals ∧ fpDec fF32 w.toNat = none) → Completes (.bridgeTensorPass p b stage i pos vals) s fun d =>
      Ended i 0x10 d ∧ regGet (BR_NONFINITE b) d = satAdd (regGet (BR_NONFINITE b) s.dev) 1 ∧ OtherStreams i s.dev d
        ∧ d.fret = s.dev.fret ∧ d.mem = s.dev.mem)
    ∧ (¬ atEntry → 0 < vals.length → vals.length ≤ 512 → (∀ w, w ∈ vals → fpDec fF32 w.toNat ≠ none) →
      Completes (.bridgeTensorPass p b stage i pos vals) s fun d =>
        (∀ z, z ∈ inputDests p stage 0 true i s.dev → z.1 = b → z.2.1 % 32 ≠ 0 → chanFree (neckFret b) s.dev = true →
          flitAllowed b (mkFlitHdr b b p z.2.2.1 z.2.1 k.scale i) s.dev = true →
          ∃ h crc, Tx.flit (neckFret b) h (slicePayload k.codes) crc ∈ d.tx)
        ∧ (∃ v, streamAt i d = some v ∧ { v with pflags := x.pflags } = x) ∧ OtherStreams i s.dev d
        ∧ Same { links := true, regs := true, streams := true, tx := true } s.found d)
    ∧ (Completes (.bridgeTensorPass p b stage i pos vals) s fun d =>
        OtherStreams i s.dev d ∧ d.fret = s.dev.fret ∧ d.mem = s.dev.mem)
    ∧ (atEntry → Completes (.bridgeTensorPass p b stage i pos vals) s fun d =>
      ∀ st, x.steps.find? (fun q => inRange q.pos0 q.count pos) = some st → ∀ v, v ∈ (schedAt p d).batches → v.id = st.batch → v.begun = true)

/-- A pluck period: a course whose die rests does nothing; a course behind which the Capo has too much work converts what was plucked and
starts no pluck (R179); a pluck's hold bank takes the column sums of the cells (R75, R76); the vector that a tile takes is folded by its count of non-zero rows, with the gain step of that count (R77, R79),
and an all-zero vector is no pluck (R82). -/
def Obligations.PluckPeriods : Prop :=
  (∀ (f c n : Nat) (go : List Nat) (convs : List ConvEv) (ups : List Upset) (s : State), f < 12 → c < 16 → (∀ t, t ∈ go → t < 33) →
      (∀ x, x ∈ convs → x.tile < 33 ∧ x.col < 520) → (∀ x, x ∈ ups → x.tile < 33 ∧ x.seg < 4096 ∧ x.slot ≤ 64) →
    (dieAlive f s.dev = false → Completes (.pluck f c go convs ups n) s fun d => d = s.found)
    ∧ (dieAlive f s.dev = true → coursePart f c s.dev < 32 → Completes (.pluck f c go convs ups n) s fun d =>
      (∀ p, p ∈ (courseAt f c d).plucks → p.converted = true ∨ (courseAt f c s.dev).orders ≤ p.id)
        ∧ regGet (CS_COVERED f c) d = satAdd (regGet (CS_COVERED f c) s.dev)
            ((courseTiles f c s.dev).filter fun w => physOf f c w s.dev == 0x3F).length
        ∧ Same { fret := true, regs := true } s.found d)
    ∧ (dieAlive f s.dev = true → coursePart f c s.dev < 32 → 4 * capoWindow f c s.dev < n →
      Completes (.pluck f c go convs ups n) s fun d =>
        (∀ p, p ∈ (courseAt f c d).plucks → p.converted = true) ∧ (courseAt f c d).orders = (courseAt f c s.dev).orders
          ∧ n ≤ (courseAt f c d).backlog
          ∧ regGet (CS_CAPOSTALL f c) d = satAdd (regGet (CS_CAPOSTALL f c) s.dev) (coursePeriod f c s.dev)))
  ∧ ∀ (f c t n : Nat) (convs : List ConvEv) (k : Take) (s : State), f < 12 → c < 16 → t < 33 →
      (∀ x, x ∈ convs → x.tile < 33 ∧ x.col < 520) → dieAlive f s.dev = true →
      coursePart f c s.dev < 32 → (∀ p, p ∈ (courseAt f c s.dev).plucks → p.converted = true) → n ≤ 4 * capoWindow f c s.dev →
      queueFull f c s.dev = false → treeHeld f c s.dev = false → takesNow f c [t] s.dev = [k] → k.fold2 = none →
      (∀ j, j < 4 → t ∈ servers f c j s.dev → slotNoBuf f c j s.dev = false) → demandCount (demandOf f c [k] s.dev) ≤ 2048 →
    let x := sliceX (bit (qCfg f c k.slot s.dev) 0) k.slice
    let folded := decide (foldLimit f c k.slot s.dev < countNonzero x)
    (countNonzero x ≠ 0 → Completes (.pluck f c [t] convs [] n) s fun d =>
      ∃ p, (courseAt f c d).plucks = (courseAt f c s.dev).plucks ++ [p] ∧ p.id = (courseAt f c s.dev).orders ∧ p.tile = t ∧ p.vec = k.vec
        ∧ p.slot = k.slot ∧ p.planeB = (tileAt f c t s.dev).act ∧ p.converted = false ∧ p.lastOf = !folded
        ∧ countNonzero p.x = (if folded then (countNonzero x + 1) / 2 else countNonzero x) ∧ p.step = stepOf (countNonzero p.x)
        ∧ p.recs = (planeOf (tileAt f c t s.dev) p.planeB).recs.filter (fun r => p.x.getD r.row 0 != 0)
        ∧ (∀ col, col ∈ convCols (tileAt f c t s.dev) →
            mget? p.bank col = some (exactSum (planeOf (tileAt f c t s.dev) p.planeB) p.x col))
        ∧ (folded = false → p.x = x ∧ (tileAt f c t d).next = none)
        ∧ (folded = true → ∃ z, (tileAt f c t d).next = some z ∧ z.vec = k.vec ∧ z.lastOf = true ∧ z.step = stepOf (countNonzero z.x)
            ∧ z.x.length = x.length ∧ ∀ r, x.getD r 0 = p.x.getD r 0 + z.x.getD r 0)
        ∧ (tileAt f c t d).taken = k.idx + 1 ∧ (tileAt f c t d).lfsr = lfsrNext (tileAt f c t s.dev).lfsr
        ∧ regGet (CS_STEPCNT0 f c + 4 * p.step) d = satAdd (regGet (CS_STEPCNT0 f c + 4 * p.step) s.dev) 1
        ∧ Same { fret := true, regs := true } s.found d)
    ∧ (countNonzero x = 0 → (tileAt f c t s.dev).inq = [k.slice] → Completes (.pluck f c [t] convs [] n) s fun d =>
      (courseAt f c d).plucks = (courseAt f c s.dev).plucks ∧ (courseAt f c d).orders = (courseAt f c s.dev).orders
        ∧ (∃ m, (courseAt f c d).capoOut = (courseAt f c s.dev).capoOut ++ [m] ∧ m.last = true ∧ m.vec = k.vec ∧ m.wtile = k.wtile
            ∧ (k.slice.outs = [] → m.terms = []))
        ∧ (tileAt f c t d).cols = (tileAt f c t s.dev).cols
        ∧ regGet (CS_ZEROCNT f c) d = satAdd (regGet (CS_ZEROCNT f c) s.dev) 1 ∧ Same { fret := true, regs := true } s.found d)

/-- A group is handed on: clipped columns and an unusable harmonic wait for recomputes (R85, R162); a group whose sums agree goes to the
Tailpiece, and one whose sums differ is counted and recomputed (R225, R226, R229). A re-convert's code is trimmed and used, or its column is
recomputed (R87, R160), and counts for its vector like a scheduled one (R105); a column recompute gives the exact sum (R164), read from a
plane that the port reads (R71). -/
def Obligations.GroupChecks : Prop :=
  (∀ (f c t g : Nat) (p : Pluck) (s : State), f < 12 → c < 16 → t < 33 → g < 8 →
      pluckOf f c t (fun p => p.converted && !p.voided && p.wait.contains g) s.dev = some p → ThePluck f c p.id p s.dev →
      let x := tileAt f c t s.dev
      let cols := groupCols (scanMask x) g
      let asked := fun (col : Nat) => (∃ q, mget? p.codes col = some q ∧ clippedCode q = true)
        ∨ (512 ≤ col ∧ mget? p.codes col = none)
      cols ≠ [] →
    ((∃ col, (col ∈ cols ∨ col = 512 + g) ∧ asked col) → Completes (.groupHandon f c t g) s fun d =>
      (∃ q, pluckAt f c p.id d = some q ∧ g ∉ q.wait ∧ g ∈ q.open_ ∧ (∀ col, (col ∈ cols ∨ col = 512 + g) → asked col → col ∈ q.colrec)
          ∧ q.codes = p.codes)
        ∧ (courseAt f c d).capoOut = (courseAt f c s.dev).capoOut ∧ OnlyCourse f c s.dev d ∧ d = { s.found with fret := d.fret })
    ∧ ((∀ col, col ∈ cols ∨ col = 512 + g → ¬ asked col) → (∀ col, col ∈ p.recon ++ p.colrec → groupOf col ≠ g) → g ∉ p.grprec →
        g ∉ p.passed →
      (checkPasses (hcK f c p.slot s.dev) x p g = true → retiredCols x g = [] → Completes (.groupHandon f c t g) s fun d =>
        (∃ m, (courseAt f c d).capoOut = (courseAt f c s.dev).capoOut ++ [m] ∧ m.pid = p.id ∧ m.group = g ∧ m.vec = p.vec
            ∧ m.terms = mainTerms (planeCells (planeOf x p.planeB)) p (groupCols x.use g)
                ++ corrections (planeCells (planeOf x p.planeB)) p.x p.scale p.outs p.recs (p.fold != 2) (groupCols x.use g))
          ∧ (∃ q, pluckAt f c p.id d = some q ∧ mget? q.outcome g = some 0) ∧ OnlyCourse f c s.dev d ∧ d = { s.found with fret := d.fret })
      ∧ (checkPasses (hcK f c p.slot s.dev) x p g = false → Completes (.groupHandon f c t g) s fun d =>
        regGet (CS_HCMISS f c) d = satAdd (regGet (CS_HCMISS f c) s.dev) 1 ∧ RegsBut [CS_HCMISS f c] s.dev d
          ∧ (∃ q, pluckAt f c p.id d = some q ∧ g ∈ q.grprec) ∧ (courseAt f c d).capoOut = (courseAt f c s.dev).capoOut
          ∧ Same { fret := true, regs := true } s.found d)))
  ∧ (∀ (f c t col : Nat) (dev : Int) (unset par : Bool) (p : Pluck) (s : State), f < 12 → c < 16 → t < 33 → col < 520 →
      pluckOf f c t (fun p => p.recon.contains col) s.dev = some p → ThePluck f c p.id p s.dev →
      let q := codeOf p.step col (mgetD p.bank col 0) dev
      let fails := unset = true ∨ par = true
      let clip := b2n (!unset && !par && clippedCode q)
    (Completes (.reconvertResult f c t col dev unset par) s fun d =>
      (∃ y, pluckAt f c p.id d = some y ∧ col ∉ y.recon
          ∧ (p.voided = true → y.colrec = p.colrec ∧ y.trimmed = p.trimmed)
          ∧ (p.voided = false → (fails ∨ clip = 1) → y.colrec = p.colrec ++ [col] ∧ y.trimmed = p.trimmed)
          ∧ (p.voided = false → ¬ fails → clip = 0 →
              mget? y.trimmed col = some (trimmed (mgetD p.trims col zeroTrim) p.step col q)))
        ∧ regGet (CS_UNSETTLED f c) d = satAdd (regGet (CS_UNSETTLED f c) s.dev) (b2n unset)
        ∧ regGet (CS_OUTPAR f c) d = satAdd (regGet (CS_OUTPAR f c) s.dev) (b2n par)
        ∧ regGet (CS_CLIPCNT f c) d = satAdd (regGet (CS_CLIPCNT f c) s.dev) clip
        ∧ regGet (CS_TCLIP f c t) d = satAdd (regGet (CS_TCLIP f c t) s.dev) clip
        ∧ RegsBut [CS_UNSETTLED f c, CS_OUTPAR f c, CS_CLIPCNT f c, CS_TCLIP f c t, CS_HCMISS f c] s.dev d
        ∧ { tileAt f c t d with lastv := (tileAt f c t s.dev).lastv, next := (tileAt f c t s.dev).next } = tileAt f c t s.dev
        ∧ (∀ j, j ≠ tileKey f c t → mget? d.fret.tiles j = mget? s.dev.fret.tiles j)
        ∧ (∀ j, j ≠ courseKey f c → mget? d.fret.courses j = mget? s.dev.fret.courses j)
        ∧ Same { fret := true, regs := true } s.found d)
    ∧ (p.lastOf = true → p.converted = true → p.recon = [col] → clip = 0 → Completes (.reconvertResult f c t col dev unset par) s fun d =>
      (tileAt f c t d).lastv = noteWord p.note))
  ∧ (∀ (f c t col : Nat) (s : State), f < 12 → c < 16 → t < 33 → col < 520 →
      let found := pluckOf f c t (fun p => p.colrec.contains col
        && inQueue (courseAt f c s.dev) p (p.colrec.findIdx (· == col))) s.dev
    ((∀ p, found = some p → portReads (planeOf (tileAt f c t s.dev) p.planeB) = false) →
      Completes (.columnRecomputeDone f c t col) s fun d => d = s.found)
    ∧ ∀ p, found = some p → ThePluck f c p.id p s.dev → portReads (planeOf (tileAt f c t s.dev) p.planeB) = true →
      Completes (.columnRecomputeDone f c t col) s fun d =>
        (∃ y, pluckAt f c p.id d = some y ∧ col ∉ y.colrec
            ∧ mget? y.exact col = some (exactSum (planeOf (tileAt f c t s.dev) p.planeB) p.x col))
          ∧ regGet (CS_COLRECOMP f c) d = satAdd (regGet (CS_COLRECOMP f c) s.dev) 1 ∧ RegsBut [CS_COLRECOMP f c, CS_HCMISS f c] s.dev d
          ∧ OnlyCourse f c s.dev d ∧ Same { fret := true, regs := true } s.found d)
  ∧ ∀ (f c t g : Nat) (p : Pluck) (s : State), f < 12 → c < 16 → t < 33 → g < 8 → coursePart f c s.dev < 32 →
      pluckOf f c t (fun p => p.grprec.contains g && portReads (planeOf (tileAt f c t s.dev) p.planeB)
        && inQueue (courseAt f c s.dev) p (p.colrec.length + p.grprec.findIdx (· == g))) s.dev = some p →
      ThePluck f c p.id p s.dev → p.voided = false →
      let x := tileAt f c t s.dev
      let pl := planeOf x p.planeB
      let good := cellsGood x pl ((activeRows p.x).map (·.1)) g
      let off := offending (hcK f c p.slot s.dev) x pl p g
      let hOk := harmonicGood (hcK f c p.slot s.dev) pl p g
    (good = false → x.suspect = true → groupsHeld x p ≠ [] → Completes (.groupRecomputeDone f c t g) s fun d =>
      (∃ y, pluckAt f c p.id d = some y ∧ y.voided = true)
        ∧ (∀ m, m ∈ (courseAt f c d).capoOut → m.pid = p.id → m.group = 0xFF)
        ∧ regGet (CS_CELLFAULT f c) d = satAdd (regGet (CS_CELLFAULT f c) s.dev) 1
        ∧ regGet (CS_GRPRECOMP f c) d = satAdd (regGet (CS_GRPRECOMP f c) s.dev) 1
        ∧ regGet (CS_VOIDPLK f c) d = satAdd (regGet (CS_VOIDPLK f c) s.dev) ((courseAt f c s.dev).plucks.filter fun y =>
            y.tile == t && y.planeB == p.planeB && decide (p.id ≤ y.id) && !y.voided && !(groupsHeld x y).isEmpty).length
        ∧ (pl.st = 3 → planeOf (tileAt f c t d) p.planeB = { emptyPlane with src := pl.src }
            ∧ (slotAt f c p.slot d).repair = (slotAt f c p.slot s.dev).repair ++ [2 * t + b2n p.planeB])
        ∧ (pl.st ≠ 3 → planeOf (tileAt f c t d) p.planeB = pl))
    ∧ (good = true → (x.suspect = true ∨ x.tstate ≠ 1) → Completes (.groupRecomputeDone f c t g) s fun d =>
      let out := if off = [] then (if hOk then 1 else 2) else if hOk then 3 else 4
      let ctr := [0, CS_HCNOFAULT f c, CS_HCFAULTH f c, CS_HCFAULTD f c, CS_HCMULTI f c].getD out 0
      regGet ctr d = satAdd (regGet ctr s.dev) 1 ∧ regGet (CS_GRPRECOMP f c) d = satAdd (regGet (CS_GRPRECOMP f c) s.dev) 1
        ∧ (∃ y, pluckAt f c p.id d = some y ∧ mget? y.outcome g = some out ∧ g ∉ y.grprec
            ∧ (off ≠ [] → ∀ col, col ∈ groupCols x.use g → mget? y.exact col = some (exactSum pl p.x col)))
        ∧ (∃ m, (courseAt f c d).capoOut = (courseAt f c s.dev).capoOut ++ [m] ∧ m.pid = p.id ∧ m.group = g)
        ∧ (out ≠ 1 → x.tstate = 0 → (tileAt f c t d).suspect = true))

/-- A voided pluck is computed from the rows the Bridge sends, all its waiting groups at once; poison among them faults the stage (R235,
R238). A covered working tile's vectors are computed in groups (R250); a repaired plane becomes ACTIVE again (R236); an exact-mode group,
eight vectors or the last of the pass, gives one exact message a vector and tile, vector by vector (R181, R182, 05 R195). -/
def Obligations.FetchedAndExact : Prop :=
  (∀ (f c w : Nat) (errs : List (Nat × Nat)) (p : Pluck) (s : State), f < 12 → c < 16 → w < 32 →
      (courseAt f c s.dev).plucks.find? (fun p => p.wtile == w && p.voided && !p.wait.isEmpty) = some p →
      let e := readRows f p.src (rowsNeeded p.x p.outs) errs s.found
    (rowsPoisoned f p.src (rowsNeeded p.x p.outs) e = false → Completes (.fetchedRowArrival f c w errs) s fun d =>
      (∀ q, q ∈ (courseAt f c d).plucks → q.id = p.id → q.wait = [])
        ∧ (∃ ms, (courseAt f c d).capoOut = (courseAt f c s.dev).capoOut ++ ms ∧ ms.map (fun m => m.group) = p.wait
            ∧ ∀ m, m ∈ ms → m.pid = p.id)
        ∧ d.fret.tiles = s.dev.fret.tiles
        ∧ Same { fret := true, links := true, peg := true, poison := true, regs := true, strand := true, tx := true } s.found d)
    ∧ (rowsPoisoned f p.src (rowsNeeded p.x p.outs) e = true → coursePart f c s.dev < 32 →
      Completes (.fetchedRowArrival f c w errs) s fun d =>
        StageFaulted (coursePart f c s.dev) (stgStage f c p.slot s.dev) fcWEIGHT_POISON s.dev d))
  ∧ (∀ (f c w k a : Nat) (errs : List (Nat × Nat)) (q : PassD) (r : List Byte) (s : State), f < 12 → c < 16 → w < 32 →
      (courseAt f c s.dev).plucks.find? (fun p => p.wtile == w && p.voided && !p.wait.isEmpty) = none →
      tileRec (courseImg f c s.dev) f c w = some r → slotOfStage (courseImg f c s.dev) f c (tStage r) = some k →
      (slotAt f c k s.dev).cur = some q → blockAddr f c w q s.dev = some a →
      let taken := mgetD (courseAt f c s.dev).covTaken w 0
      let z := takeGroup q s.found 8 taken (mgetD (courseAt f c s.dev).cov w [])
      let rows := (z.1.flatMap fun e => rowsNeeded (sliceX (bit (qCfg f c k s.dev) 0) e.2.2) e.2.2.outs).eraseDups
      let ea := readRows f a rows errs s.found
      let due := physOf f c w s.dev = 0x3F ∧ groupReady q taken z.1 s.dev = true ∧ groupHeld f c k q (z.1.map fun e => e.2.1) s.dev = false
    (¬ due → Completes (.fetchedRowArrival f c w errs) s fun d => d = s.found)
    ∧ (due → rowsPoisoned f a rows ea = true → coursePart f c s.dev < 32 → Completes (.fetchedRowArrival f c w errs) s fun d =>
      StageFaulted (coursePart f c s.dev) (stgStage f c k s.dev) fcWEIGHT_POISON s.dev d)
    ∧ (due → rowsPoisoned f a rows ea = false → Completes (.fetchedRowArrival f c w errs) s fun d =>
      (∃ ms, (courseAt f c d).capoOut = (courseAt f c s.dev).capoOut ++ ms ∧ ms.map (fun m => m.vec) = z.1.map (fun e => e.2.1)
          ∧ ∀ m, m ∈ ms → m.wtile = w ∧ m.last = true ∧ m.group = 0xFF)
        ∧ mgetD (courseAt f c d).cov w [] = z.2 ∧ (∀ e, z.1.getLast? = some e → mgetD (courseAt f c d).covTaken w 0 = e.1)
        ∧ d.fret.tiles = s.dev.fret.tiles
        ∧ Same { fret := true, links := true, peg := true, poison := true, regs := true, strand := true, tx := true } s.found d))
  ∧ (∀ (f c t k : Nat) (b : Bool) (s : State), f < 12 → c < 16 → t < 33 → slotOfTile f c t s.dev = some k →
      (planeOf (tileAt f c t s.dev) b).st = 2 → (slotAt f c k s.dev).repair.contains (2 * t + b2n b) = true →
      (b = true → ¬ ((tileAt f c t s.dev).pa.st = 2 ∧ (slotAt f c k s.dev).repair.contains (2 * t) = true)) →
    Completes (.repairSwap f c t) s fun d =>
      (tileAt f c t d).act = b ∧ planeOf (tileAt f c t d) b = { planeOf (tileAt f c t s.dev) b with st := 3 }
        ∧ planeOf (tileAt f c t d) (!b) = planeOf (tileAt f c t s.dev) (!b)
        ∧ (slotAt f c k d).repair = (slotAt f c k s.dev).repair.filter (· != 2 * t + b2n b) ∧ d = { s.found with fret := d.fret })
  ∧ ∀ (f c k stall : Nat) (q : PassD) (s : State), f < 12 → c < 16 → k < 4 → (slotAt f c k s.dev).cur = some q →
      dieAlive f s.dev = true →
      let ws := (stageTiles (courseImg f c s.dev) f c (stgStage f c k s.dev)).filter fun w => decide (physOf f c w s.dev < 33)
      let tile := fun w => tileAt f c (physOf f c w s.dev) s.dev
      let fp4 := bit (qCfg f c k s.dev) 0
      let z := fun w => takeGroup q s.found 8 (tile w).taken (tile w).inq
      let rows := fun w => ((z w).1.flatMap fun e => rowsNeeded (sliceX fp4 e.2.2) e.2.2.outs).eraseDups
      let n := (ws.map fun w => (z w).1.length).foldl min 8
      let vs := (ws.head?.map fun w => (z w).1.map fun e => e.2.1).getD []
      let due := stgExact f c k s.dev = true ∧ slotHeld f c k s.dev = false ∧ exactHeld f c k s.dev = false ∧ ws ≠ []
        ∧ (∀ w, w ∈ ws → (z w).1.length = n ∧ groupReady q (tile w).taken (z w).1 s.dev = true) ∧ groupHeld f c k q vs s.dev = false
    (¬ due → Completes (.exactGroupDone f c k stall) s fun d => d = s.found)
    ∧ (due → (∀ w, w ∈ ws → badSegs (tile w) (planeOf (tile w) (tile w).act) (rows w) = []) →
      Completes (.exactGroupDone f c k stall) s fun d =>
        regGet (CS_EXACTGRP f c) d = satAdd (regGet (CS_EXACTGRP f c) s.dev) 1
          ∧ regGet (CS_TREESTALL f c) d = satAdd (regGet (CS_TREESTALL f c) s.dev) stall
          ∧ RegsBut [CS_EXACTGRP f c, CS_TREESTALL f c, CS_AOUTCNT f c, CS_WOUTCNT f c] s.dev d
          ∧ (∃ ms, (courseAt f c d).capoOut = (courseAt f c s.dev).capoOut ++ ms ∧ ms.length = n * ws.length
              ∧ (∀ m, m ∈ ms → m.last = true ∧ m.slot = k ∧ m.wtile ∈ ws)
              ∧ ((∀ w, w ∈ ws → (z w).1.map (fun e => e.2.1) = vs) →
                  ms.map (fun m => m.vec) = vs.flatMap fun v => List.replicate ws.length v))
          ∧ (courseAt f c d).plucks = (courseAt f c s.dev).plucks ∧ Same { fret := true, regs := true } s.found d)

/-! ### Plane loads (02 R92-R97; 03 R126; 06 R238, R239; 08 R315) -/

/-- A load starts from a good block of the pass's epoch, or of the plane under repair, when no earlier load waits and the tile is under no
test (R315, R236, R70); a poisoned or malformed block
faults the stage (R126, R238). Segments are written as they come (R93), held behind a plane in DRAIN (R97), and refused on a parity error,
once resent and then a fault (R239). The end marker makes a whole plane READY and faults the stage otherwise (R93); a drained plane takes
its waiting load or becomes EMPTY (R93). -/
def Obligations.PlaneLoads : Prop :=
  (∀ (f c t k w : Nat) (errs : List (Nat × Nat)) (s : State), f < 12 → c < 16 → t < 33 →
      servedW f c t s.dev = some w → slotOfTile f c t s.dev = some k →
      let x := tileAt f c t s.dev
      let mends := fun b => (planeOf x b).st = 0 ∧ (planeOf x b).load = none
        ∧ (slotAt f c k s.dev).repair.contains (2 * t + b2n b) = true
      let e := dropStale f c t k w s.found
      let idle := loadTarget (tileAt f c t e) = none ∨ loadWant f c t e = none
        ∨ ∃ j z, loadWant f c t e = some (j, z) ∧ earlierLoad f c t j e = true
      let stage := stgStage f c k s.dev
      let part := coursePart f c s.dev
    (¬ mends false → ¬ mends true → idle → Completes (.planeLoadStart f c t errs) s fun d => d = e)
    ∧ (x.inTest = true → loadWant f c t e = none)
    ∧ (∀ j q, ¬ mends false → ¬ mends true → ¬ idle → loadWant f c t e = some (j, .inr q) →
        layerFar (imgOf q.part e) q.stage q.layer = false → blockAddr f c w q e = none → part < 32 →
      Completes (.planeLoadStart f c t errs) s fun d => StageFaulted part stage fcIMAGE_FORMAT s.dev d)
    ∧ ∀ (b : Bool) (a : Nat) (y : Tile),
        (y = x ∧ mends b ∧ (b = true → ¬ mends false) ∧ (planeOf x b).src = a)
          ∨ (y = tileAt f c t e ∧ ¬ mends false ∧ ¬ mends true ∧ ¬ idle ∧ loadTarget y = some b
            ∧ ((∃ j, loadWant f c t e = some (j, .inl a)) ∨ ∃ j q, loadWant f c t e = some (j, .inr q)
              ∧ layerFar (imgOf q.part e) q.stage q.layer = false ∧ blockAddr f c w q e = some a)) →
        let n := 0x440 + 8 * u16 (hbmBytes f a 0x40 s.dev) 0x0A
        let ea := hbmReadEcc f a n errs s.found
      (hbmPoisoned f a n ea = false → blockBad f a s.dev = false → Completes (.planeLoadStart f c t errs) s fun d =>
        (∃ l, (planeOf (tileAt f c t d) b).load = some l ∧ { l with repair := false } = loadOf f a false s.dev)
          ∧ (planeOf (tileAt f c t d) b).st = (planeOf y b).st ∧ planeOf (tileAt f c t d) (!b) = planeOf y (!b)
          ∧ OnlyTile f c t s.dev d ∧ d.mem = s.dev.mem ∧ d.streams = s.dev.streams)
      ∧ (hbmPoisoned f a n ea = true → part < 32 → Completes (.planeLoadStart f c t errs) s fun d =>
        StageFaulted part stage fcWEIGHT_POISON s.dev d)
      ∧ (hbmPoisoned f a n ea = false → blockBad f a s.dev = true → part < 32 → Completes (.planeLoadStart f c t errs) s fun d =>
        StageFaulted part stage fcIMAGE_FORMAT s.dev d))
  ∧ (∀ (f c t row g k : Nat) (b ok : Bool) (errs : List (Nat × Nat)) (l : PlaneLoad) (s : State), f < 12 → c < 16 → t < 33 →
      row < 512 → g < 8 → slotOfTile f c t s.dev = some k → (planeOf (tileAt f c t s.dev) b).load = some l →
      let p := planeOf (tileAt f c t s.dev) b
      let a := l.addr + l.codeOff + 32 * (8 * row + g)
      let bad := hbmPoisoned f a 32 (hbmReadEcc f a 32 errs s.found)
    (p.st = 4 → Completes (.rowSegmentArrival f c t row g b ok errs) s fun d =>
      planeOf (tileAt f c t d) b = { p with held := p.held ++ [(8 * row + g, ok)] } ∧ OnlyTile f c t s.dev d ∧ d.mem = s.dev.mem)
    ∧ (p.st ≠ 4 → ok = true → bad = false → Completes (.rowSegmentArrival f c t row g b ok errs) s fun d =>
        (planeOf (tileAt f c t d) b).st = 1 ∧ (planeOf (tileAt f c t d) b).load = some { l with started := true }
          ∧ mget? (planeOf (tileAt f c t d) b).segs (8 * row + g)
              = some (mkSeg (tileAt f c t s.dev) g l.fp4 (hbmBytes f a 32 s.dev))
          ∧ (∀ j, j ≠ 8 * row + g → mget? (planeOf (tileAt f c t d) b).segs j = if l.started then mget? p.segs j else none)
          ∧ OnlyTile f c t s.dev d ∧ d.mem = s.dev.mem)
    ∧ (p.st ≠ 4 → ok = true → bad = true → coursePart f c s.dev < 32 → Completes (.rowSegmentArrival f c t row g b ok errs) s fun d =>
        StageFaulted (coursePart f c s.dev) (stgStage f c k s.dev) fcWEIGHT_POISON s.dev d)
    ∧ (p.st ≠ 4 → ok = false → l.resent = false → Completes (.rowSegmentArrival f c t row g b ok errs) s fun d =>
      (planeOf (tileAt f c t d) b).st = 0 ∧ (planeOf (tileAt f c t d) b).load = some { l with resent := true, started := false }
        ∧ regGet (CS_LOADPAR f c) d = satAdd (regGet (CS_LOADPAR f c) s.dev) 1 ∧ OnlyTile f c t s.dev d ∧ d.mem = s.dev.mem)
    ∧ (p.st ≠ 4 → ok = false → l.resent = true → coursePart f c s.dev < 32 →
      Completes (.rowSegmentArrival f c t row g b ok errs) s fun d =>
        StageFaulted (coursePart f c s.dev) (stgStage f c k s.dev) fcLOAD_PARITY s.dev d))
  ∧ (∀ (f c t k : Nat) (b : Bool) (l : PlaneLoad) (s : State), f < 12 → c < 16 → t < 33 → slotOfTile f c t s.dev = some k →
      (planeOf (tileAt f c t s.dev) b).load = some l →
      let p := planeOf (tileAt f c t s.dev) b
    (p.st = 1 → p.segs.length = 4096 → Completes (.loadEndMarker f c t b) s fun d =>
      (planeOf (tileAt f c t d) b).st = 2 ∧ (planeOf (tileAt f c t d) b).tag = l.layer ∧ (planeOf (tileAt f c t d) b).fp4 = l.fp4
        ∧ (planeOf (tileAt f c t d) b).scales = l.scales ∧ (planeOf (tileAt f c t d) b).recs = l.recs
        ∧ (planeOf (tileAt f c t d) b).load = none ∧ (planeOf (tileAt f c t d) b).segs = p.segs
        ∧ OnlyTile f c t s.dev d ∧ Same { fret := true, links := true, tx := true } s.found d)
    ∧ (p.st ≠ 4 → ¬ (p.st = 1 ∧ p.segs.length = 4096) → coursePart f c s.dev < 32 → Completes (.loadEndMarker f c t b) s fun d =>
      StageFaulted (coursePart f c s.dev) (stgStage f c k s.dev) fcLOAD_INCOMPLETE s.dev d)
    ∧ (p.st = 4 → Completes (.loadEndMarker f c t b) s fun d =>
      planeOf (tileAt f c t d) b = { p with load := some { l with endHeld := true } } ∧ OnlyTile f c t s.dev d
        ∧ Same { fret := true, links := true, tx := true } s.found d))
  ∧ ∀ (f c t waited : Nat) (b : Bool) (s : State), f < 12 → c < 16 → t < 33 →
      let p := planeOf (tileAt f c t s.dev) b
    ((p.st ≠ 4 ∨ planeRefs f c t b s.dev = true) → Completes (.planeDrained f c t b waited) s fun d => d = s.found)
    ∧ (p.st = 4 → planeRefs f c t b s.dev = false →
      (p.load = none → (∀ x, x ∈ (courseAt f c s.dev).samples → ¬ (x.pluck.tile = t ∧ x.pluck.planeB = b)) →
        Completes (.planeDrained f c t b waited) s fun d => planeOf (tileAt f c t d) b = emptyPlane ∧ d.regs = s.dev.regs)
      ∧ (p.load = none → (∃ x, x ∈ (courseAt f c s.dev).samples ∧ x.pluck.tile = t ∧ x.pluck.planeB = b) →
        Completes (.planeDrained f c t b waited) s fun d => d = s.found)
      ∧ ∀ l k, p.load = some l → slotOfTile f c t s.dev = some k → p.held = [] → l.endHeld = false → coursePart f c s.dev < 32 →
        Completes (.planeDrained f c t b waited) s fun d =>
          planeOf (tileAt f c t d) b = { emptyPlane with st := 1, load := some { l with started := true, endHeld := false } }
            ∧ (∀ x, x ∈ (courseAt f c d).samples → ¬ (x.pluck.tile = t ∧ x.pluck.planeB = b))
            ∧ regGet (CS_DRAINWAIT f c) d = satAdd (regGet (CS_DRAINWAIT f c) s.dev) waited
            ∧ regGet (CS_SAMPDROP f c) d = satAdd (regGet (CS_SAMPDROP f c) s.dev)
                ((courseAt f c s.dev).samples.filter fun x => x.pluck.tile == t && x.pluck.planeB == b).length
            ∧ Same { fret := true, regs := true } s.found d)

/-! ### The Tailpiece (05 R193-R219) -/

/-- Terms align to bit B and add to their K-block's registers (R193), those that find a register set first (R195; log 124); a message with a
parity error is sent again once, and a second error ends its vector's stream and faults the stage (R241). Leaves and operands reach the oldest
slot of the stream that lacks them (R199); a column's leaves are added pairwise with stochastic rounding (R200, R202), and a parity error
in the tree or a buffer faults the stage at once (R241). A buffer goes from SEAL through SEALED and DRAIN to FREE (R215);
a G4 slice that drains is conditioned with error feedback and sent (03 R130, R139), over the course ring to its own die and else over the
Neck (01 R37, R38), and a non-finite operand ends its stream (R209) and voids its error feedback (03 R140). -/
def Obligations.Tailpiece : Prop :=
  (∀ (f c : Nat) (par inside : Bool) (s : State), f < 12 → c < 16 →
      let e := assignWaiting f c (purgeSets f c s.found)
    (nextTerm f c e = none → Completes (.tailpieceTermArrival f c par inside) s fun d => d = e)
    ∧ ∀ (m : TermMsg) (pre rest : List TermMsg), nextTerm f c e = some (pre, m, rest) →
      (par = true → inside = false → m.tries = 0 →
        Completes (.tailpieceTermArrival f c par inside) s fun d =>
          courseAt f c d = { courseAt f c e with capoOut := pre ++ { m with tries := 1 } :: rest } ∧ OnlyCourse f c s.dev d
            ∧ d = { s.found with fret := d.fret })
      ∧ ((inside = true ∨ (par = true ∧ 1 ≤ m.tries)) → coursePart f c s.dev < 32 →
        Completes (.tailpieceTermArrival f c par inside) s fun d =>
          StageFaulted (coursePart f c s.dev) (stgStage f c m.slot s.dev) fcDATA_PARITY s.dev d
            ∧ regGet (CS_OUTPAR f c) d = satAdd (regGet (CS_OUTPAR f c) s.dev) 1
            ∧ ∀ x, streamAt m.vec.stream s.dev = some x → x.part = coursePart f c s.dev → x.steps ≠ [] → streamLive x = true →
                Ended m.vec.stream 0x11 d)
      ∧ (par = false → inside = false → vecLive m.vec s.dev = false → Completes (.tailpieceTermArrival f c par inside) s fun d =>
          (courseAt f c d).capoOut = pre ++ rest ∧ (courseAt f c d).kbs = (courseAt f c e).kbs ∧ d = { s.found with fret := d.fret })
      ∧ ∀ r, par = false → inside = false → tileRec (courseImg f c s.dev) f c m.wtile = some r → vecLive m.vec s.dev = true →
          m.last = false →
        Completes (.tailpieceTermArrival f c par inside) s fun d =>
          let base := kbBase (tpCfg f c m.slot s.dev)
          let kbs := (courseAt f c (openKbs f c m e)).kbs
          (courseAt f c d).capoOut = pre ++ rest
            ∧ (∀ x, x ∈ kbs → sameKb m (tOslice r) (tKblock r) x = true →
                ∃ y, y ∈ (courseAt f c d).kbs ∧ sameKb m (tOslice r) (tKblock r) y = true
                  ∧ ∀ col, mgetD y.vals col 0 = mgetD x.vals col 0
                      + ((m.terms.filter fun t => t.col == col).map fun t => (alignTerm base t).1).sum)
            ∧ (∀ x, x ∈ kbs → sameKb m (tOslice r) (tKblock r) x = false → x ∈ (courseAt f c d).kbs)
            ∧ regGet (CS_KBSAT f c) d = satAdd (regGet (CS_KBSAT f c) s.dev)
                ((m.terms.map (alignTerm base)).filter fun e => e.2.2).length
            ∧ RegsBut [CS_KBSAT f c, CS_KBLOW f c] s.dev d ∧ Same { fret := true, regs := true } s.found d)
  ∧ (∀ (f c k i : Nat) (payload : List Byte) (u : VSlot) (s : State), f < 12 → c < 16 → k < 4 → i < 262144 →
      let w := u32 payload 0; let kind := bits w 30 2; let first := bits w 0 9; let cfg := tpCfg f c k s.dev
      let bytes := if kind = 0 then treeBytes cfg else opBytes (if kind = 1 then bits cfg 2 2 else bits cfg 6 2)
      let key := if kind = 0 then 64 * bits w 9 15 + bits w 24 6 else 2 * bits w 9 15 + (kind - 1)
      let mapOf := fun (v : VSlot) => if kind = 0 then v.leaves else v.ops
      let lacks := fun (v : VSlot) => v.vec.stream == i && (mget? (mgetD (mapOf v) key []) first).isNone
      let e := match oldestV (slotAt f c k s.dev) lacks, passVec f c k i s.dev with
        | none, some z => assignVec f c k z.1 z.2 s.found
        | _, _ => s.found
      let takes := kind ≠ 3 ∧ isRoot f c k s.dev = true ∧ dieAlive f s.dev = true
    (¬ takes → Completes (.tailpieceDataFlit f c k i payload) s fun d => d = ringTake f c payload s.found)
    ∧ (takes → oldestV (slotAt f c k e) lacks = none → Completes (.tailpieceDataFlit f c k i payload) s fun d =>
      slotAt f c k d = slotAt f c k e ∧ OnlySlot f c k s.dev d ∧ d = { s.found with fret := d.fret })
    ∧ (takes → oldestV (slotAt f c k e) lacks = some u → Completes (.tailpieceDataFlit f c k i payload) s fun d =>
      (∃ v, (v ∈ (slotAt f c k d).bufA.slots ∨ v ∈ (slotAt f c k d).bufB.slots) ∧ sameV u v = true
          ∧ ∀ j, j < min (flitVals bytes) (512 - first) →
              mget? (mgetD (mapOf v) key []) (first + j) = some (leNat (bytesAt payload (4 + bytes * j) bytes)))
        ∧ OnlySlot f c k s.dev d ∧ d.fret.rings = (ringTake f c payload s.found).fret.rings ∧ d = { s.found with fret := d.fret }))
  ∧ (∀ (f c k slice col : Nat) (r : List Byte) (u : VSlot) (s : State), f < 12 → c < 16 → k < 4 → col < 512 →
      sliceRec (courseImg f c s.dev) (stgStage f c k s.dev) slice = some r →
      let leaf := fun (v : VSlot) (j : Nat) => mget? (mgetD v.leaves (64 * slice + j) []) col
      let fm := treeFmt (tpCfg f c k s.dev)
      let val := fun j => fpVal fm ((leaf u j).getD 0)
      let sr := fun (x y : Dy) (node : Nat) =>
        (srRound fm (dyAdd x y) (rand24 u.vec.seed u.layer u.vec.pos slice col node)).1
      oldestV (slotAt f c k s.dev) (fun v => (mget? (mgetD v.results slice []) col).isNone
        && (List.range (slNk r)).all fun j => (leaf v j).isSome) = some u →
    (coursePart f c s.dev < 32 → Completes (.treeResult f c k slice col true) s fun d =>
      StageFaulted (coursePart f c s.dev) (stgStage f c k s.dev) fcDATA_PARITY s.dev d
        ∧ regGet (CS_OUTPAR f c) d = satAdd (regGet (CS_OUTPAR f c) s.dev) 1)
    ∧ (Completes (.treeResult f c k slice col false) s fun d =>
      (∃ v out, (v ∈ (slotAt f c k d).bufA.slots ∨ v ∈ (slotAt f c k d).bufB.slots) ∧ sameV u v = true
          ∧ mget? (mgetD v.results slice []) col = some out
          ∧ (slNk r = 1 → out = fpOf fm (val 0))
          ∧ (slNk r = 2 → out = fpOf fm (sr (val 0) (val 1) 64))
          ∧ (slNk r = 3 → out = fpOf fm (sr (sr (val 0) (val 1) 64) (val 2) 128))
          ∧ (slNk r = 4 → out = fpOf fm (sr (sr (val 0) (val 1) 64) (sr (val 2) (val 3) 65) 128)))
        ∧ OnlySlot f c k s.dev d ∧ Same { fret := true, regs := true, streams := true } s.found d))
  ∧ (∀ (f c k wait : Nat) (b : Bool) (s : State), f < 12 → c < 16 → k < 4 →
      let y := bufOf (slotAt f c k s.dev) b
      let ready := y.st = 2 ∧ ∀ u, u ∈ y.slots → slotComplete f c k u s.dev = true
    (¬ ready → Completes (.bufferSealed f c k b wait) s fun d => d = s.found)
    ∧ (ready → Completes (.bufferSealed f c k b wait) s fun d =>
      (bufOf (slotAt f c k d) b).st = 3 ∧ (bufOf (slotAt f c k d) b).slots = y.slots
        ∧ bufOf (slotAt f c k d) (!b) = bufOf (slotAt f c k s.dev) (!b)
        ∧ regGet (CS_SEALWAIT f c) d = satAdd (regGet (CS_SEALWAIT f c) s.dev) wait ∧ RegsBut [CS_SEALWAIT f c] s.dev d
        ∧ d.fret.tiles = s.dev.fret.tiles ∧ Same { fret := true, regs := true } s.found d))
  ∧ (∀ (f c k : Nat) (b : Bool) (par : Option Nat) (s : State), f < 12 → c < 16 → k < 4 →
      let x := slotAt f c k s.dev; let y := bufOf x b; let o := bufOf x (!b)
      let hit := par.bind fun i => y.slots[i]?
      let turn := y.st = 3 ∧ o.st ≠ 4 ∧ ¬ (o.st = 3 ∧ o.order < y.order)
    (¬ turn → Completes (.bufferDrainStart f c k b par) s fun d => d = s.found)
    ∧ (∀ u, turn → hit = some u → coursePart f c s.dev < 32 → Completes (.bufferDrainStart f c k b par) s fun d =>
      StageFaulted (coursePart f c s.dev) (stgStage f c k s.dev) fcDATA_PARITY s.dev d
        ∧ regGet (CS_OUTPAR f c) d = satAdd (regGet (CS_OUTPAR f c) s.dev) 1)
    ∧ (turn → hit = none → Completes (.bufferDrainStart f c k b par) s fun d =>
      (bufOf (slotAt f c k d) b).st = 4 ∧ (bufOf (slotAt f c k d) b).slots = y.slots ∧ bufOf (slotAt f c k d) (!b) = o
        ∧ d.fret.tiles = s.dev.fret.tiles ∧ d.mem = s.dev.mem)
    ∧ ∀ u, turn → hit = none → y.slots = [u] → vecLive u.vec s.dev = true →
      ((∃ r, r ∈ stageSlices f c k s.dev ∧ slotOutputs (tpCfg f c k s.dev) (u16 r 2) u = none) →
        Completes (.bufferDrainStart f c k b par) s fun d =>
          Ended u.vec.stream 0x10 d ∧ regGet (CS_NONFINITE f c) d = satAdd (regGet (CS_NONFINITE f c) s.dev) 1
            ∧ (bit (qCfg f c k s.dev) 8 = true → ∀ r, r ∈ stageSlices f c k s.dev → slEfpos r < 32 →
                (efAt f c (slEfpos r) d).valid = false)
            ∧ d.links = s.dev.links ∧ OtherStreams u.vec.stream s.dev d)
      ∧ ∀ r ys sat, stageSlices f c k s.dev = [r] → slotOutputs (tpCfg f c k s.dev) (u16 r 2) u = some (ys, sat) →
          bits (qCfg f c k s.dev) 10 2 = 0 →
        let q := qCfg f c k s.dev
        let on := bit q 8 && decide (slEfpos r < 32)
        let z := conditionFin (bit q 9) (bits q 4 4) ys (efTerms on (efAt f c (slEfpos r) s.dev) u.vec)
        Completes (.bufferDrainStart f c k b par) s fun d =>
          (∀ x, x ∈ routeDests (courseImg f c s.dev) (stgStage f c k s.dev) (u16 r 2) 0 (streamHome u.vec.stream s.dev) →
              let near := x.1 % 16 = f ∧ x.2.1 % 32 ≠ 0
              (near → ∃ fl, fl ∈ mgetD d.fret.rings f [] ∧ fl.payload = slicePayload z.codes)
                ∧ (¬ near → chanFree (neckBridge f) s.dev = true →
                  ∃ h crc, Tx.flit (neckBridge f) h (slicePayload z.codes) crc ∈ d.tx))
            ∧ (on = true → z.clamped = false →
                efAt f c (slEfpos r) d = { valid := true, stream := u.vec.stream, pos := u.vec.pos, exp := z.scale, rho := z.resid })
            ∧ (on = false → (courseAt f c d).ef = (courseAt f c s.dev).ef)
            ∧ regGet (CS_XOUTCNT f c) d = satAdd (regGet (CS_XOUTCNT f c) s.dev) z.outs.length
            ∧ Same { fret := true, links := true, regs := true, streams := true, tx := true } s.found d)
  ∧ ∀ (f c k : Nat) (b : Bool) (s : State), f < 12 → c < 16 → k < 4 →
    ((bufOf (slotAt f c k s.dev) b).st ≠ 4 → Completes (.bufferDrainDone f c k b) s fun d => d = s.found)
    ∧ ((bufOf (slotAt f c k s.dev) b).st = 4 → Completes (.bufferDrainDone f c k b) s fun d =>
      (bufOf (slotAt f c k d) b).st = 0 ∧ (bufOf (slotAt f c k d) b).slots = []
        ∧ bufOf (slotAt f c k d) (!b) = bufOf (slotAt f c k s.dev) (!b)
        ∧ regGet (CS_DRAINCNT f c) d = satAdd (regGet (CS_DRAINCNT f c) s.dev) 1 ∧ RegsBut [CS_DRAINCNT f c] s.dev d
        ∧ d.fret.tiles = s.dev.fret.tiles ∧ Same { fret := true, regs := true } s.found d)

/-! ### The Drone and self-tests (07 R277-R290; 06 R246-R256) -/

/-- A completed sample adds to its columns' sums (R281); after 256 samples of a column its entry is fitted anew, at most 32 and 16 counts
from the old one and within its range; after 256 of a tile its quality figures are published, and a poor one is reported (R283, R284); a
stage that clips too much folds lower (R290). -/
def Obligations.DroneLearns : Prop :=
  (∀ (f c : Nat) (y : Sample) (s : State), f < 12 → c < 16 →
      (courseAt f c s.dev).samples.find? (fun z => sampleReady (tileAt f c z.pluck.tile s.dev) z.pluck) = some y →
      SMapWf y.pluck.codes = true →
      let p := y.pluck; let x := tileAt f c p.tile s.dev
    Completes (.droneSampleDone f c) s fun d =>
      (∀ col q, mget? p.codes col = some q → clippedCode q = false → (mgetD p.outcome (groupOf col) 9 ≤ 1) →
          mget? (tileAt f c p.tile d).sums (520 * y.band + col)
            = some (addSample ⟨mgetD p.bank col 0 * lsbUnits p.step, if 512 ≤ col then -4 else 0⟩ q
                (mgetD x.sums (520 * y.band + col) zeroSums)))
        ∧ (tileAt f c p.tile d).nsamp = x.nsamp + 1 ∧ (∀ z, z ∈ (courseAt f c d).samples → z.pluck.id ≠ p.id)
        ∧ regGet (CS_SAMPLECNT f c) d = satAdd (regGet (CS_SAMPLECNT f c) s.dev) 1
        ∧ Same { flash := true, fret := true, peg := true, regs := true, strand := true, tx := true } s.found d)
  ∧ (∀ (f c t band col : Nat) (s : State), f < 12 → c < 16 → t < 33 → band < 4 → col < 520 →
      let x := tileAt f c t s.dev; let key := 520 * band + col; let m := mgetD x.sums key zeroSums; let old := trimEntry f x band col s.dev
    (m.n < 256 → Completes (.droneRefit f c t band col) s fun d => d = s.found)
    ∧ (256 ≤ m.n → dyLt m.s0 (dyInt 1024) = true → Completes (.droneRefit f c t band col) s fun d =>
      mget? (tileAt f c t d).sums key = some { m with n := m.n - 256 } ∧ (tileAt f c t d).tables = x.tables ∧ OnlyTile f c t s.dev d
        ∧ d = { s.found with fret := d.fret })
    ∧ (256 ≤ m.n → dyLt m.s0 (dyInt 1024) = false → Completes (.droneRefit f c t band col) s fun d =>
      (∃ e, mget? (tileAt f c t d).tables key = some e ∧ -2048 ≤ e.gain ∧ e.gain ≤ 2047 ∧ -512 ≤ e.off ∧ e.off ≤ 511
          ∧ e.stale = false ∧ e.derived = false
          ∧ (-2048 ≤ old.gain → old.gain ≤ 2047 → -512 ≤ old.off → old.off ≤ 511 →
              old.gain - 32 ≤ e.gain ∧ e.gain ≤ old.gain + 32 ∧ old.off - 16 ≤ e.off ∧ e.off ≤ old.off + 16))
        ∧ (∀ j, j ≠ key → mget? (tileAt f c t d).tables j = mget? x.tables j)
        ∧ mget? (tileAt f c t d).sums key = some { m with n := m.n - 256 } ∧ RegsBut [FT_TRIMLIM f] s.dev d ∧ OnlyTile f c t s.dev d
        ∧ Same { free := true, fret := true, regs := true } s.found d))
  ∧ (∀ (f c t : Nat) (s : State), f < 12 → c < 16 → t < 33 →
      let x := tileAt f c t s.dev; let qf := qualityOf x.mseF; let qh := qualityOf x.mseH
    (x.nsamp < 256 → Completes (.qualityPublish f c t) s fun d => d = s.found)
    ∧ (256 ≤ x.nsamp → Completes (.qualityPublish f c t) s fun d =>
      (tileAt f c t d).qf = qf ∧ (tileAt f c t d).qh = qh ∧ (tileAt f c t d).nsamp = x.nsamp - 256
        ∧ (tileAt f c t d).qSeq = (dieAt f s.dev).bandSeq ∧ (tileAt f c t d).tables = x.tables ∧ OnlyTile f c t s.dev d
        ∧ (qf ≤ 1768 → qh ≤ 1768 → d = { s.found with fret := d.fret })
        ∧ ((1768 < qf ∨ 1768 < qh) → (∀ a, x.qalarm = some a → sec 10 ≤ since a s.dev) →
            regGet (FT_QALARM f) d = satAdd (regGet (FT_QALARM f) s.dev) 1 ∧ (tileAt f c t d).qalarm = some s.dev.time)
        ∧ ((∃ a, x.qalarm = some a ∧ since a s.dev < sec 10) → d.regs = s.dev.regs)))
  ∧ ∀ (f c k : Nat) (s : State), f < 12 → c < 16 → k < 4 → coursePart f c s.dev < 32 →
      let x := slotAt f c k s.dev; let eff := stgFold f c k s.dev; let lim := bits (stgCfg f c k s.dev) 0 2
      let due := 65536 ≤ x.fplucks ∧ bit (drnCfg f c k s.dev) 8 = true
    (¬ due → Completes (.foldWindowEnd f c k) s fun d => d = s.found)
    ∧ (due → 8192 ≤ x.fmarks → 0 < eff → Completes (.foldWindowEnd f c k) s fun d =>
      stgFold f c k d = eff - 1 ∧ regGet (CS_FOLDDN f c) d = satAdd (regGet (CS_FOLDDN f c) s.dev) 1
        ∧ (slotAt f c k d).fplucks = 0 ∧ (slotAt f c k d).fmarks = 0 ∧ OnlySlot f c k s.dev d ∧ Same { fret := true, regs := true } s.found d)
    ∧ (due → x.fmarks ≤ 512 → 3 ≤ x.flow → eff < lim → Completes (.foldWindowEnd f c k) s fun d =>
      stgFold f c k d = eff + 1 ∧ regGet (CS_FOLDUP f c) d = satAdd (regGet (CS_FOLDUP f c) s.dev) 1 ∧ (slotAt f c k d).flow = 0
        ∧ OnlySlot f c k s.dev d ∧ Same { fret := true, regs := true } s.found d)
    ∧ (due → 512 < x.fmarks → x.fmarks < 8192 → Completes (.foldWindowEnd f c k) s fun d =>
      slotAt f c k d = { x with fplucks := 0, fmarks := 0, flow := 0 } ∧ OnlySlot f c k s.dev d ∧ d = { s.found with fret := d.fret })

/-- A waiting test runs on a tile that serves nothing and to which no pluck refers, with both planes EMPTY (R249, R253, R97). Its results,
each for itself, keep the tile, put the column into the retired-column mask, or retire the tile (R246, R248, R254); a Keeper reinstatement
takes both results PASS (R266); during the bring-up of a die a KAT that fails retires its tile without a SCAN (R255). An observed tile asks
for a SCAN every 10 s, and is active or spare again after an hour (R246, R247). -/
def Obligations.SelfTests : Prop :=
  (∀ (f c t : Nat) (q : TestReq) (s : State), f < 12 → c < 16 → t < 33 → testOf f c t s.dev = some q →
      let may := q.running = false ∧ dieAlive f s.dev = true ∧ turnFree f c s.dev = true ∧ outOfService f c t s.dev = true
        ∧ planeRefs f c t false s.dev = false ∧ planeRefs f c t true s.dev = false
    (¬ may → Completes (.selftestStart f c t) s fun d => d = s.found)
    ∧ (may → Completes (.selftestStart f c t) s fun d =>
      (tileAt f c t d).inTest = true ∧ (tileAt f c t d).pa = emptyPlane ∧ (tileAt f c t d).pb = emptyPlane
        ∧ testOf f c t d = some { q with running := true } ∧ (∀ j, j ≠ tileKey f c t → mget? d.fret.tiles j = mget? s.dev.fret.tiles j)
        ∧ d = { s.found with fret := d.fret }))
  ∧ (∀ (f c t kat scan katCol col : Nat) (q : TestReq) (s : State), f < 12 → c < 16 → t < 33 → kat < 4 → scan < 4 →
      testOf f c t s.dev = some q →
      let x := tileAt f c t s.dev
      let retired := fun d => (tileAt f c t d).tstate = 2 ∧ retKey f c t ∈ retMap d
        ∧ regGet (CS_RETIRE f c) d = satAdd (regGet (CS_RETIRE f c) s.dev) 1
      let observed := fun d => (tileAt f c t d).tstate = 1 ∧ (tileAt f c t d).obsLeft = 360 ∧ (tileAt f c t d).obsFrom = s.dev.time
        ∧ (tileAt f c t d).scanFrom = s.dev.time
      let colGone := fun col d => (tileAt f c t d).ret = x.ret ||| BitVec.ofNat 512 (2 ^ (col % 512))
        ∧ regGet (CS_COLRETIRE f c) d = satAdd (regGet (CS_COLRETIRE f c) s.dev) 1
      let empty := x.pa.st = 0 ∧ x.pb.st = 0
    ((q.running = false ∨ 2 < scan ∨ (q.keeper ≠ 0 ∧ 2 < kat)) → Completes (.selftestResult f c t kat scan katCol col) s fun d => d = s.found)
    ∧ (q.running = true → scan ≤ 2 → q.keeper = 0 → Completes (.selftestResult f c t kat scan katCol col) s fun d =>
      (tileAt f c t d).inTest = false ∧ (tileAt f c t d).lastRes = scan ∧ (tileAt f c t d).suspect = false
        ∧ regGet (CS_SELFTEST f c) d = satAdd (regGet (CS_SELFTEST f c) s.dev) 1
        ∧ (x.tstate ≠ 2 → (scan = 2 ∨ (scan = 1 ∧ 4 ≤ retiredCount x)) → retired d)
        ∧ (x.tstate ≠ 2 → scan = 1 → retiredCount x < 4 → empty → x.ret.getLsbD (col % 512) = false →
            colGone col d ∧ observed d)
        ∧ (scan = 0 → x.tstate = 1 → x.suspect = true →
            observed d ∧ regGet (CS_TRANSIENT f c) d = satAdd (regGet (CS_TRANSIENT f c) s.dev) 1)
        ∧ (scan = 0 → x.tstate = 1 → x.suspect = false → q.periodic = true →
            (tileAt f c t d).obsLeft = x.obsLeft - 1 ∧ (tileAt f c t d).scanFrom = s.dev.time ∧ (tileAt f c t d).tstate = 1)
        ∧ (scan = 0 → (courseAt f c d).tests = updTest t (fun _ => none) (courseAt f c s.dev).tests)
        ∧ Same { flash := true, fret := true, peg := true, regs := true, strand := true, tx := true } s.found d)
    ∧ (q.running = true → scan ≤ 2 → kat ≤ 2 → q.keeper ≠ 0 → Completes (.selftestResult f c t kat scan katCol col) s fun d =>
      (tileAt f c t d).inTest = false ∧ (tileAt f c t d).lastRes = scan
        ∧ (mgetD d.fret.cmds f freshCmd).kat = kat ∧ (mgetD d.fret.cmds f freshCmd).scan = scan
        ∧ regGet (CS_SELFTEST f c) d = satAdd (regGet (CS_SELFTEST f c) s.dev) 2
        ∧ (x.tstate ≠ 2 → (kat = 2 ∨ scan = 2) → retired d)
        ∧ (x.tstate = 2 → ¬ (q.keeper = 2 ∧ kat = 0 ∧ scan = 0) → (tileAt f c t d).tstate = 2)
        ∧ (x.tstate ≠ 2 → kat = 1 → scan = 0 → retiredCount x < 4 → empty → x.ret.getLsbD (katCol % 512) = false →
            colGone katCol d ∧ observed d)
        ∧ (x.tstate < 2 → kat = 0 → scan = 0 → (tileAt f c t d).tstate = x.tstate ∧ (tileAt f c t d).suspect = x.suspect
            ∧ (tileAt f c t d).ret = x.ret)
        ∧ (x.tstate = 2 → q.keeper = 2 → kat = 0 → scan = 0 → retKey f c t ∉ retMap d ∧ observed d
            ∧ regGet (CS_TRANSIENT f c) d = satAdd (regGet (CS_TRANSIENT f c) s.dev) 1)
        ∧ Same { flash := true, fret := true, peg := true, regs := true, strand := true, tx := true } s.found d))
  ∧ (∀ (f c t kat scan katCol col : Nat) (s : State), f < 12 → c < 16 → t < 33 → kat < 4 → scan < 4 → testOf f c t s.dev = none →
      let x := tileAt f c t s.dev
      let may := katRuns f s.dev = true ∧ x.tstate ≠ 2 ∧ kat ≤ 2
    (¬ may → Completes (.selftestResult f c t kat scan katCol col) s fun d => d = s.found)
    ∧ (may → Completes (.selftestResult f c t kat scan katCol col) s fun d =>
      regGet (CS_SELFTEST f c) d = satAdd (regGet (CS_SELFTEST f c) s.dev) 1 ∧ (tileAt f c t d).lastRes = kat
        ∧ (kat = 0 → (tileAt f c t d) = { x with lastRes := 0 } ∧ OnlyTile f c t s.dev d)
        ∧ ((kat = 2 ∨ (kat = 1 ∧ 4 ≤ retiredCount x)) → (tileAt f c t d).tstate = 2 ∧ retKey f c t ∈ retMap d
            ∧ regGet (CS_RETIRE f c) d = satAdd (regGet (CS_RETIRE f c) s.dev) 1)
        ∧ (kat = 1 → retiredCount x < 4 → x.pa.st = 0 → x.pb.st = 0 → x.ret.getLsbD (katCol % 512) = false →
            (tileAt f c t d).ret = x.ret ||| BitVec.ofNat 512 (2 ^ (katCol % 512)) ∧ (tileAt f c t d).tstate = x.tstate
              ∧ regGet (CS_COLRETIRE f c) d = satAdd (regGet (CS_COLRETIRE f c) s.dev) 1)
        ∧ Same { flash := true, fret := true, peg := true, regs := true, strand := true, tx := true } s.found d))
  ∧ (∀ (f c t : Nat) (s : State), f < 12 → c < 16 → t < 33 →
      let x := tileAt f c t s.dev
      let due := dieAlive f s.dev = true ∧ x.tstate = 1 ∧ x.suspect = false ∧ x.inTest = false ∧ x.obsLeft ≠ 0
        ∧ sec 10 ≤ since x.scanFrom s.dev ∧ testOf f c t s.dev = none
    (¬ due → Completes (.periodicScanDue f c t) s fun d => d = s.found)
    ∧ (due → Completes (.periodicScanDue f c t) s fun d =>
      (courseAt f c d).tests = (courseAt f c s.dev).tests ++ [{ tile := t, keeper := 0, periodic := true, running := false }]
        ∧ tileAt f c t d = x
        ∧ (∀ w sp, wtileOf f c t s.dev = some w → (courseTiles f c s.dev).contains w = true → freeSpare f c s.dev = some sp →
            mget? (courseAt f c d).assigned w = some sp ∧ (tileAt f c sp d).tstate = 0)
        ∧ d = { s.found with fret := d.fret }))
  ∧ ∀ (f c t : Nat) (s : State), f < 12 → c < 16 → t < 33 →
      let x := tileAt f c t s.dev
      let done := x.tstate = 1 ∧ x.suspect = false ∧ x.inTest = false ∧ sec 3600 ≤ since x.obsFrom s.dev ∧ testOf f c t s.dev = none
    (¬ done → Completes (.observationEnd f c t) s fun d => d = s.found)
    ∧ (done → Completes (.observationEnd f c t) s fun d =>
      tileAt f c t d = { x with tstate := if outOfService f c t s.dev = true ∧ isAssigned f c t s.dev = false then 3 else 0, obsLeft := 0 }
        ∧ OnlyTile f c t s.dev d ∧ d = { s.found with fret := d.fret })

/-! ### Counters, codes, trims and trees (01 R16; 02 R66; 03 R114, R115, R132; 04 R152; 05 R201) -/

/-- A counter field saturates and leaves every other bit and register alone (R16). The values of INT4 and FP4 codes (R114, R115), the
slot of every code (R64, R66), a slice's codes at their payload bits (R132), the trimmed value rounded to nearest with ties to even (R152),
and the trees of 3, 5 and 6 leaves (R201). -/
def Obligations.CountersCodesTrimsTrees : Prop :=
  (∀ (a lo n k : Nat) (d : Dev), lo + n ≤ 32 →
      let e := addField a lo n k d
      regField a lo n e = min (regField a lo n d + k) (2 ^ n - 1) ∧ RegsBut [a] d e
        ∧ ∀ j, j < lo ∨ lo + n ≤ j → (regGet a e).getLsbD j = (regGet a d).getLsbD j)
  ∧ (∀ c : Nat, c < 16 → codeVal false c = (if c < 8 then (c : Int) else c - 16)
      ∧ codeVal true c = (if c < 8 then 1 else -1) * ([0, 1, 2, 3, 4, 6, 8, 12] : List Int).getD (c % 8) 0
      ∧ ∀ fp4, slotVal (slotOf fp4 c) = codeVal fp4 c)
  ∧ (∀ l : List Nat, l.length = 512 → (∀ c, c ∈ l → c < 16) → (slicePayload l).length = 256 ∧ sliceCodes (slicePayload l) = l)
  ∧ (∀ (e : Trim) (step col : Nat) (q : Int), step < 4 → col < 520 →
      let lsb2 : Int := if col < 512 then ([4, 6, 7, 8] : List Int).getD step 0 else ([64, 96, 112, 128] : List Int).getD step 0
      let n := (64 * q - e.off) * lsb2 * (16384 + e.gain)
      let t := trimmed e step col q
      2 * (n - 32768 * t).natAbs ≤ 32768 ∧ (2 * (n - 32768 * t).natAbs = 32768 → t % 2 = 0))
  ∧ ∀ (fm : Fmt) (rnd : Nat → Nat → Nat) (a b c d e f : Dy),
      let add := fun (x y : Dy) (l j : Nat) => (srRound fm (dyAdd x y) (rnd l j)).1
      let t := fun (l : List Dy) => (treeLevels fm rnd 7 1 l).1
      t [a, b, c] = [add (add a b 1 0) c 2 0]
        ∧ t [a, b, c, d, e] = [add (add (add a b 1 0) (add c d 1 1) 2 0) e 3 0]
        ∧ t [a, b, c, d, e, f] = [add (add (add a b 1 0) (add c d 1 1) 2 0) (add e f 1 2) 3 0]

/-! ### What no command of a kind can change -/

/-- Only the programming of a verified update blows fuses (R580), and what happens in Fret dies, in their links and in Bridge tensor units
leaves the time, HBM's bytes, the partition map, sync objects, Tuning images, prefix handles, the consort record, the power state, the
pins and the port as they were. -/
def Obligations.BlownAndUntouched : Prop :=
  (∀ (i : Instr) (s t : State), (∀ ok, i ≠ .updateProgramDone ok) → exec i s = .next t → t.dev.fuses = s.dev.fuses)
  ∧ ∀ (i : Instr) (s t : State), fretEvent i = true → exec i s = .next t →
      Same { flash := true, free := true, fret := true, kv := true, links := true, loads := true, peg := true, poison := true, regs := true,
             rst := true, scheds := true, strand := true, streams := true, tx := true } s.found t.dev

/-- A stream message of one partition reaches no stream, no prefix handle and no schedule of another (R389, R396): whatever it says, once
it is accepted every stream, handle and schedule of the other partitions is as it was. -/
def Obligations.PartitionsApart : Prop :=
  ∀ (k : Nat) (i : Instr) (m0 : Dgram) (aid : Nat) (s t : State),
    [Instr.admitStream m0, .append m0, .pause m0, .resume m0, .cancel m0, .park m0, .unpark m0, .prefixRegister m0, .prefixDrop m0][k]? = some i →
    let m := splitDgram (asReq (BitVec.ofNat 8 (k + 1)) m0); let b := heardOn aid m s.found
    TakesWork m aid s.found → exec i s = .next t →
    (∀ j x, streamAt j b = some x → x.part ≠ m.dest → streamAt j t.dev = some x)
      ∧ (∀ h x, mget? b.prefixes h = some x → x.part ≠ m.dest → mget? t.dev.prefixes h = some x)
      ∧ (∀ p, p ≠ m.dest → schedAt p t.dev = schedAt p b) ∧ t.dev.time = s.dev.time ∧ t.dev.sync = b.sync
end

