-- ==== Sys2Proof/Laws/Maps.lean ====
section
/-! SUPPORT. Sparse maps: what a key reads as after a put, a delete and a filter, and that every operation keeps the keys rising. -/

namespace Sys2Proof.Machine

variable {α β : Type}

theorem mget?_nil (k : Nat) : mget? ([] : SMap α) k = none := rfl

theorem mget?_cons (j : Nat) (w : α) (r : SMap α) (k : Nat) : mget? ((j, w) :: r) k = if k = j then some w else mget? r k := by
  unfold mget?
  by_cases h : k = j
  · simp [List.lookup, h]
  · have : (k == j) = false := by simpa using h
    simp [List.lookup, this, h]

theorem mget?_mput_self (m : SMap α) (k : Nat) (v : α) : mget? (mput m k v) k = some v := by
  induction m with
  | nil => simp [mput, mget?_cons]
  | cons e r ih =>
    obtain ⟨j, w⟩ := e
    by_cases h1 : k < j
    · simp [mput, h1, mget?_cons]
    · by_cases h2 : k = j
      · subst h2; simp [mput, mget?_cons]
      · simp [mput, h1, h2, mget?_cons, ih]

theorem mget?_mput_ne (m : SMap α) {k j : Nat} (v : α) (h : j ≠ k) : mget? (mput m k v) j = mget? m j := by
  induction m with
  | nil => simp [mput, mget?_cons, h]
  | cons e r ih =>
    obtain ⟨i, w⟩ := e
    by_cases h1 : k < i
    · simp [mput, h1, mget?_cons, h]
    · by_cases h2 : k = i
      · subst h2; simp [mput, mget?_cons, h]
      · simp [mput, h1, h2, mget?_cons, ih]

@[simp] theorem mget?_mput (m : SMap α) (k j : Nat) (v : α) : mget? (mput m k v) j = if j = k then some v else mget? m j := by
  by_cases h : j = k
  · subst h; simp [mget?_mput_self]
  · simp [h, mget?_mput_ne]

theorem mget?_mdel (m : SMap α) (k j : Nat) : mget? (mdel m k) j = if j = k then none else mget? m j := by
  induction m with
  | nil => simp [mdel, mget?_nil]
  | cons e r ih =>
    obtain ⟨i, w⟩ := e
    unfold mdel at ih ⊢
    rw [List.filter_cons]
    by_cases h2 : i = k
    · subst h2
      simp only [bne_self_eq_false, Bool.false_eq_true, if_false, ih, mget?_cons]
      by_cases h : j = i <;> simp [h]
    · have hb : (i != k) = true := by simpa using h2
      simp only [hb, if_true, mget?_cons, ih]
      by_cases h : j = i
      · subst h; simp [h2]
      · simp [h]

theorem mget?_mdel_ne (m : SMap α) {k j : Nat} (h : j ≠ k) : mget? (mdel m k) j = mget? m j := by
  rw [mget?_mdel, if_neg h]

theorem mget?_mdel_self (m : SMap α) (k : Nat) : mget? (mdel m k) k = none := by
  rw [mget?_mdel, if_pos rfl]

/-- Every key of the list is above `k`. -/
def Above (k : Nat) (m : SMap α) : Prop := ∀ e ∈ m, k < e.1

theorem smapWf_cons (j : Nat) (w : α) (r : SMap α) : SMapWf ((j, w) :: r) = true ↔ Above j r ∧ SMapWf r = true := by
  induction r generalizing j w with
  | nil => simp [SMapWf, Above]
  | cons e r ih =>
    obtain ⟨k, v⟩ := e
    simp only [SMapWf, Bool.and_eq_true, decide_eq_true_eq]
    constructor
    · rintro ⟨h, hr⟩
      refine ⟨?_, hr⟩
      intro e he
      have hk := (ih k v).1 hr
      rcases List.mem_cons.1 he with rfl | he
      · exact h
      · exact Nat.lt_trans h (hk.1 e he)
    · rintro ⟨h, hr⟩
      exact ⟨h (k, v) (List.mem_cons_self ..), hr⟩

theorem mget?_above {k : Nat} {m : SMap α} (h : ∀ e ∈ m, k < e.1) : mget? m k = none := by
  induction m with
  | nil => rfl
  | cons e r ih =>
    obtain ⟨j, w⟩ := e
    have hj : k < j := h (j, w) (List.mem_cons_self ..)
    rw [mget?_cons, if_neg (Nat.ne_of_lt hj)]
    exact ih fun e he => h e (List.mem_cons_of_mem _ he)

theorem mget?_none_of_ne {k : Nat} {m : SMap α} (h : ∀ e ∈ m, k ≠ e.1) : mget? m k = none := by
  induction m with
  | nil => rfl
  | cons e r ih =>
    obtain ⟨j, w⟩ := e
    rw [mget?_cons, if_neg (h (j, w) (List.mem_cons_self ..))]
    exact ih fun e he => h e (List.mem_cons_of_mem _ he)

theorem mem_mput {m : SMap α} {k : Nat} {v : α} {e : Nat × α} (h : e ∈ mput m k v) : e = (k, v) ∨ e ∈ m := by
  induction m with
  | nil => simpa [mput] using h
  | cons x r ih =>
    obtain ⟨j, w⟩ := x
    unfold mput at h
    split at h
    · simpa using h
    · split at h
      · rcases List.mem_cons.1 h with h | h
        · exact .inl h
        · exact .inr (List.mem_cons_of_mem _ h)
      · rcases List.mem_cons.1 h with h | h
        · exact .inr (by simp [h])
        · rcases ih h with h | h
          · exact .inl h
          · exact .inr (List.mem_cons_of_mem _ h)

theorem mem_mdel {m : SMap α} {k : Nat} {e : Nat × α} (h : e ∈ mdel m k) : e ∈ m := (List.mem_filter.1 h).1

theorem smapWf_mput {m : SMap α} (k : Nat) (v : α) (h : SMapWf m = true) : SMapWf (mput m k v) = true := by
  induction m with
  | nil => rfl
  | cons x r ih =>
    obtain ⟨j, w⟩ := x
    obtain ⟨ha, hr⟩ := (smapWf_cons j w r).1 h
    unfold mput
    split
    · next hk =>
      refine (smapWf_cons ..).2 ⟨?_, h⟩
      intro e he
      rcases List.mem_cons.1 he with rfl | he
      · exact hk
      · exact Nat.lt_trans hk (ha e he)
    · next hk =>
      split
      · next hk2 => subst hk2; exact (smapWf_cons ..).2 ⟨ha, hr⟩
      · next hk2 =>
        refine (smapWf_cons ..).2 ⟨?_, ih hr⟩
        intro e he
        rcases mem_mput he with rfl | he
        · simp only; omega
        · exact ha e he

theorem smapWf_filter {m : SMap α} (p : Nat × α → Bool) (h : SMapWf m = true) : SMapWf (m.filter p) = true := by
  induction m with
  | nil => rfl
  | cons x r ih =>
    obtain ⟨j, w⟩ := x
    obtain ⟨ha, hr⟩ := (smapWf_cons j w r).1 h
    rw [List.filter_cons]
    split
    · exact (smapWf_cons ..).2 ⟨fun e he => ha e (List.mem_filter.1 he).1, ih hr⟩
    · exact ih hr

theorem smapWf_mdel {m : SMap α} (k : Nat) (h : SMapWf m = true) : SMapWf (mdel m k) = true := smapWf_filter _ h

theorem smapWf_append {m n : SMap α} (hm : SMapWf m = true) (hn : SMapWf n = true) (h : ∀ a ∈ m, ∀ b ∈ n, a.1 < b.1) :
    SMapWf (m ++ n) = true := by
  induction m with
  | nil => exact hn
  | cons x r ih =>
    obtain ⟨j, w⟩ := x
    obtain ⟨ha, hr⟩ := (smapWf_cons j w r).1 hm
    refine (smapWf_cons ..).2 ⟨?_, ih hr fun a ha' b hb => h a (List.mem_cons_of_mem _ ha') b hb⟩
    intro e he
    rcases List.mem_append.1 he with he | he
    · exact ha e he
    · exact h (j, w) (List.mem_cons_self ..) e he

/-! ### The canonical form -/

theorem canonBy_iff [DecidableEq α] (f : Nat → α) (m : SMap α) :
    canonBy f m = true ↔ SMapWf m = true ∧ ∀ e ∈ m, e.2 ≠ f e.1 := by
  simp [canonBy, List.all_eq_true]

theorem canonBy_mputD [DecidableEq α] {f : Nat → α} {m : SMap α} (k : Nat) (v : α) (h : canonBy f m = true) :
    canonBy f (mputD m k v (f k)) = true := by
  obtain ⟨hw, hz⟩ := (canonBy_iff f m).1 h
  unfold mputD
  split
  · exact (canonBy_iff ..).2 ⟨smapWf_mdel k hw, fun e he => hz e (mem_mdel he)⟩
  · next hv =>
    refine (canonBy_iff ..).2 ⟨smapWf_mput k v hw, fun e he => ?_⟩
    rcases mem_mput he with rfl | he
    · exact hv
    · exact hz e he

theorem canonBy_filter [DecidableEq α] {f : Nat → α} {m : SMap α} (p : Nat × α → Bool) (h : canonBy f m = true) :
    canonBy f (m.filter p) = true := by
  obtain ⟨hw, hz⟩ := (canonBy_iff f m).1 h
  exact (canonBy_iff ..).2 ⟨smapWf_filter p hw, fun e he => hz e (List.mem_filter.1 he).1⟩

theorem canonBy_nil [DecidableEq α] (f : Nat → α) : canonBy f ([] : SMap α) = true := rfl

theorem mgetD_mputD_self [DecidableEq α] (m : SMap α) (k : Nat) (v dflt : α) :
    mgetD (mputD m k v dflt) k dflt = v := by
  unfold mgetD mputD
  split
  · next hv => rw [mget?_mdel_self, hv]; rfl
  · rw [mget?_mput_self]; rfl

theorem mgetD_mputD_ne [DecidableEq α] (m : SMap α) {k j : Nat} (v dflt e : α) (h : j ≠ k) :
    mgetD (mputD m k v dflt) j e = mgetD m j e := by
  unfold mgetD mputD
  split
  · rw [mget?_mdel_ne m h]
  · rw [mget?_mput_ne m v h]

theorem mget?_mmod (m : SMap α) (k j : Nat) (f : α → α) :
    mget? (mmod m k f) j = if j = k then (mget? m k).map f else mget? m j := by
  unfold mmod
  split
  · next v hv =>
    by_cases h : j = k
    · subst h; simp [hv]
    · simp [h]
  · next hv =>
    by_cases h : j = k
    · subst h; simp [hv]
    · simp [h]

end Sys2Proof.Machine
end

