-- ==== Sys2Proof/Laws/Memory.lean ====
section
/-! SUPPORT. What reads give after writes: bytes of HBM, management registers and counters; and the laws of running a command. -/

namespace Sys2Proof.Machine

/-! ### Registers -/

theorem regGet_regPut_self (a : Nat) (v : Word) (d : Dev) : regGet a (regPut a v d) = v :=
  mgetD_mputD_self d.regs a v (regReset a)

theorem regGet_regPut_ne {a b : Nat} (v : Word) (d : Dev) (h : b ≠ a) : regGet b (regPut a v d) = regGet b d :=
  mgetD_mputD_ne d.regs v (regReset a) (regReset b) h

theorem regGet_addCtr_self (a k : Nat) (d : Dev) : regGet a (addCtr a k d) = satAdd (regGet a d) k := regGet_regPut_self ..

theorem regGet_addCtr_ne {a b : Nat} (k : Nat) (d : Dev) (h : b ≠ a) : regGet b (addCtr a k d) = regGet b d := regGet_regPut_ne _ d h

theorem regGet_bump_self (a : Nat) (d : Dev) : regGet a (bump a d) = satAdd (regGet a d) 1 := regGet_addCtr_self ..

theorem regGet_bump_ne {a b : Nat} (d : Dev) (h : b ≠ a) : regGet b (bump a d) = regGet b d := regGet_addCtr_ne 1 d h

theorem regPut_wf {a : Nat} {v : Word} {d : Dev} (h : Registers.wf d.regs = true) : Registers.wf (regPut a v d).regs = true :=
  canonBy_mputD a v h

theorem addCtr_wf {a k : Nat} {d : Dev} (h : Registers.wf d.regs = true) : Registers.wf (addCtr a k d).regs = true := regPut_wf h

theorem bump_wf {a : Nat} {d : Dev} (h : Registers.wf d.regs = true) : Registers.wf (bump a d).regs = true := regPut_wf h

/-- A write of a register word changes only that. -/
theorem regPut_frame (a : Nat) (v : Word) (d : Dev) : regPut a v d = { d with regs := (regPut a v d).regs } := rfl
theorem addCtr_frame (a k : Nat) (d : Dev) : addCtr a k d = { d with regs := (addCtr a k d).regs } := rfl
theorem bump_frame (a : Nat) (d : Dev) : bump a d = { d with regs := (bump a d).regs } := rfl

/-! ### HBM -/

theorem mget?_filter_key {α : Type} (m : SMap α) (p : Nat → Bool) (k : Nat) :
    mget? (m.filter fun e => p e.1) k = if p k then mget? m k else none := by
  induction m with
  | nil => simp [mget?_nil]
  | cons e r ih =>
    obtain ⟨j, w⟩ := e
    rw [List.filter_cons]
    by_cases hj : p j
    · simp only [hj, if_true, mget?_cons, ih]
      by_cases hk : k = j
      · subst hk; simp [hj]
      · simp [hk]
    · have hj' : p j = false := by simpa using hj
      rw [if_neg hj, ih, mget?_cons]
      by_cases hk : k = j
      · subst hk; simp [hj']
      · rw [if_neg hk]

theorem mget?_append {α : Type} (m n : SMap α) (k : Nat) : mget? (m ++ n) k = (mget? m k).or (mget? n k) := by
  induction m with
  | nil => simp [mget?_nil]
  | cons e r ih =>
    obtain ⟨j, w⟩ := e
    simp only [List.cons_append, mget?_cons, ih]
    by_cases hk : k = j <;> simp [hk]

theorem mget?_run (bytes : List Byte) (lo k : Nat) :
    (mget? (((bytes.zipIdx lo).filter fun e => e.1 != 0#8).map fun e => (e.2, e.1)) k).getD 0#8
      = if lo ≤ k then bytes.getD (k - lo) 0#8 else 0#8 := by
  induction bytes generalizing lo with
  | nil => simp [mget?_nil]
  | cons b r ih =>
    rw [List.zipIdx_cons, List.filter_cons]
    have hs : ∀ h : lo < k, (b :: r).getD (k - lo) 0#8 = r.getD (k - (lo + 1)) 0#8 := by
      intro h
      have : k - lo = (k - (lo + 1)) + 1 := by omega
      rw [this, List.getD_cons_succ]
    by_cases hb : b = 0#8
    · subst hb
      simp only [bne_self_eq_false, Bool.false_eq_true, if_false, ih]
      by_cases h1 : lo + 1 ≤ k
      · rw [if_pos h1, if_pos (by omega), hs (by omega)]
      · rw [if_neg h1]
        by_cases h2 : lo ≤ k
        · have : k = lo := by omega
          subst this; simp
        · rw [if_neg h2]
    · have hb' : (b != 0#8) = true := by simpa using hb
      simp only [hb', if_true, List.map_cons, mget?_cons]
      by_cases hk : k = lo
      · subst hk; simp
      · simp only [hk, if_false, ih]
        by_cases h1 : lo + 1 ≤ k
        · rw [if_pos h1, if_pos (by omega), hs (by omega)]
        · rw [if_neg h1, if_neg (by omega)]

/-- Reading a byte after a run of bytes was put: the run's byte inside it, what was there before outside it. -/
theorem mgetD_memPut (m : SMap Byte) (lo : Nat) (bytes : List Byte) (k : Nat) :
    mgetD (memPut m lo bytes) k 0#8
      = if lo ≤ k ∧ k < lo + bytes.length then bytes.getD (k - lo) 0#8 else mgetD m k 0#8 := by
  unfold mgetD memPut
  rw [mget?_append, mget?_append, mget?_filter_key m (fun x => decide (x < lo)), mget?_filter_key m (fun x => decide (lo + bytes.length ≤ x))]
  have hrun := mget?_run bytes lo k
  by_cases h1 : k < lo
  · rw [if_neg (by omega : ¬ (lo ≤ k ∧ k < lo + bytes.length))]
    have hz : mget? (((bytes.zipIdx lo).filter fun e => e.1 != 0#8).map fun e => (e.2, e.1)) k = none := by
      apply mget?_none_of_ne
      intro e he
      obtain ⟨x, hx, rfl⟩ := List.mem_map.1 he
      obtain ⟨v, i⟩ := x
      have := (List.mem_zipIdx (List.mem_filter.1 hx).1).1
      simp only; omega
    have h3 : ¬ lo + bytes.length ≤ k := by omega
    simp [h1, hz, h3]
  · by_cases h2 : k < lo + bytes.length
    · have h3 : ¬ lo + bytes.length ≤ k := by omega
      rw [if_pos (by omega : lo ≤ k)] at hrun
      rw [if_pos (⟨by omega, h2⟩ : lo ≤ k ∧ k < lo + bytes.length)]
      simpa [h1, h3] using hrun
    · rw [if_neg (by omega : ¬ (lo ≤ k ∧ k < lo + bytes.length))]
      have hz : mget? (((bytes.zipIdx lo).filter fun e => e.1 != 0#8).map fun e => (e.2, e.1)) k = none := by
        apply mget?_none_of_ne
        intro e he
        obtain ⟨x, hx, rfl⟩ := List.mem_map.1 he
        obtain ⟨v, i⟩ := x
        have := (List.mem_zipIdx (List.mem_filter.1 hx).1).2.1
        simp only; omega
      have h3 : lo + bytes.length ≤ k := by omega
      simp [h1, hz, h3]

theorem hbmKey_add {b a i : Nat} (h : a + i < 2 ^ 37) : hbmKey b (a + i) = hbmKey b a + i := by
  unfold hbmKey
  rw [Nat.mod_eq_of_lt h, Nat.mod_eq_of_lt (by omega : a < 2 ^ 37)]; omega

/-- A byte of a run written to HBM reads back. -/
theorem hbmByte_hbmWrite_in {b a : Nat} {bytes : List Byte} {i : Nat} (d : Dev) (hi : i < bytes.length) (h : a + bytes.length ≤ 2 ^ 37) :
    hbmByte b (a + i) (hbmWrite b a bytes d) = bytes.getD i 0#8 := by
  unfold hbmByte hbmWrite
  rw [mgetD_memPut, hbmKey_add (by omega), if_pos ⟨by omega, by omega⟩]
  congr 1; omega

/-- A byte outside a run written to HBM reads as before. -/
theorem hbmByte_hbmWrite_out {b a : Nat} {bytes : List Byte} {c x : Nat} (d : Dev)
    (h : ¬ (hbmKey b a ≤ hbmKey c x ∧ hbmKey c x < hbmKey b a + bytes.length)) :
    hbmByte c x (hbmWrite b a bytes d) = hbmByte c x d := by
  unfold hbmByte hbmWrite
  rw [mgetD_memPut, if_neg h]

/-! ### Running a command -/

theorem completes_lift {i : Instr} {s : State} {f : Dev → Dev} {post : Dev → Prop} (h : exec i s = lift f s) (hp : post (f s.found)) :
    Completes i s post := ⟨f s.found, h, hp⟩

theorem completes_liftWf {i j : Instr} {s : State} {f : Dev → Dev} {post : Dev → Prop} (h : exec i s = liftWf j f s)
    (hw : WellFormed j = true) (hp : post (f s.found)) : Completes i s post := by
  refine ⟨f s.found, ?_, hp⟩
  rw [h, liftWf, if_pos hw]; rfl

end Sys2Proof.Machine
end

