-- ==== Sys2Proof/Laws/Exec.lean ====
section
/-! SUPPORT. Running a command: what `lift` and `liftWf` answer, once for every meaning. -/

namespace Sys2Proof.Machine

theorem lift_eq (f : Dev → Dev) (s : State) : lift f s = .next { s with dev := f s.found } := rfl

/-- A command with an operand that no command can have changes nothing but what the command before it sent. -/
theorem liftWf_ill {i : Instr} {f : Dev → Dev} {s : State} (h : WellFormed i = false) :
    liftWf i f s = .next { s with dev := s.found } := by
  simp [liftWf, h, lift_eq]

theorem liftWf_ok {i : Instr} {f : Dev → Dev} {s : State} (h : WellFormed i = true) :
    liftWf i f s = .next { s with dev := f s.found } := by
  simp [liftWf, h, lift_eq]

theorem lift_next {f : Dev → Dev} {s t : State} (h : lift f s = .next t) : t = { s with dev := f s.found } := by
  rw [lift_eq] at h; injection h with h; exact h.symm

theorem liftWf_next {i : Instr} {f : Dev → Dev} {s t : State} (h : liftWf i f s = .next t) :
    t = { s with dev := (if WellFormed i then f else id) s.found } := lift_next h

end Sys2Proof.Machine
end

