-- ==== Sys2Proof/Laws/Frame.lean ====
section
/-! SUPPORT. What every operation of the block leaves alone: which fields of the block it may change, one lemma per operation (FrameServe
and the files after it), and the relation those lemmas are stated in. -/

namespace Sys2Proof.Machine

set_option linter.unusedSimpArgs false

theorem Same.refl (a : Allow) (d : Dev) : Same a d d := by simp [Same]

/-! Updates, as the constructor spells them. -/

theorem same_cns {a : Allow} {b d : Dev} {x26 : Cns} (w0 : a.cns = true) :
    Same a b (Dev.mk d.time d.timeRun d.osc d.free d.regs d.fuses d.flash d.strand d.eth d.map d.sync d.peg d.rst d.pwr d.pins d.links d.fret d.mem d.poison d.loads d.tunes d.streams d.incarnation d.prefixes d.scheds d.kv x26 d.tx) ↔ Same a b d := by
  simp only [Same, w0, true_or, true_and, and_true]

theorem same_eth {a : Allow} {b d : Dev} {x8 : Eth} (w0 : a.eth = true) :
    Same a b (Dev.mk d.time d.timeRun d.osc d.free d.regs d.fuses d.flash d.strand x8 d.map d.sync d.peg d.rst d.pwr d.pins d.links d.fret d.mem d.poison d.loads d.tunes d.streams d.incarnation d.prefixes d.scheds d.kv d.cns d.tx) ↔ Same a b d := by
  simp only [Same, w0, true_or, true_and, and_true]

theorem same_flash {a : Allow} {b d : Dev} {x6 : Flash} (w0 : a.flash = true) :
    Same a b (Dev.mk d.time d.timeRun d.osc d.free d.regs d.fuses x6 d.strand d.eth d.map d.sync d.peg d.rst d.pwr d.pins d.links d.fret d.mem d.poison d.loads d.tunes d.streams d.incarnation d.prefixes d.scheds d.kv d.cns d.tx) ↔ Same a b d := by
  simp only [Same, w0, true_or, true_and, and_true]

theorem same_free {a : Allow} {b d : Dev} {x3 : Nat} (w0 : a.free = true) :
    Same a b (Dev.mk d.time d.timeRun d.osc x3 d.regs d.fuses d.flash d.strand d.eth d.map d.sync d.peg d.rst d.pwr d.pins d.links d.fret d.mem d.poison d.loads d.tunes d.streams d.incarnation d.prefixes d.scheds d.kv d.cns d.tx) ↔ Same a b d := by
  simp only [Same, w0, true_or, true_and, and_true]

theorem same_fret {a : Allow} {b d : Dev} {x16 : Fret} (w0 : a.fret = true) :
    Same a b (Dev.mk d.time d.timeRun d.osc d.free d.regs d.fuses d.flash d.strand d.eth d.map d.sync d.peg d.rst d.pwr d.pins d.links x16 d.mem d.poison d.loads d.tunes d.streams d.incarnation d.prefixes d.scheds d.kv d.cns d.tx) ↔ Same a b d := by
  simp only [Same, w0, true_or, true_and, and_true]

theorem same_kv {a : Allow} {b d : Dev} {x25 : SMap KvBridge} (w0 : a.kv = true) :
    Same a b (Dev.mk d.time d.timeRun d.osc d.free d.regs d.fuses d.flash d.strand d.eth d.map d.sync d.peg d.rst d.pwr d.pins d.links d.fret d.mem d.poison d.loads d.tunes d.streams d.incarnation d.prefixes d.scheds x25 d.cns d.tx) ↔ Same a b d := by
  simp only [Same, w0, true_or, true_and, and_true]

theorem same_links {a : Allow} {b d : Dev} {x15 : Links} (w0 : a.links = true) :
    Same a b (Dev.mk d.time d.timeRun d.osc d.free d.regs d.fuses d.flash d.strand d.eth d.map d.sync d.peg d.rst d.pwr d.pins x15 d.fret d.mem d.poison d.loads d.tunes d.streams d.incarnation d.prefixes d.scheds d.kv d.cns d.tx) ↔ Same a b d := by
  simp only [Same, w0, true_or, true_and, and_true]

theorem same_loads {a : Allow} {b d : Dev} {x19 : Loads} (w0 : a.loads = true) :
    Same a b (Dev.mk d.time d.timeRun d.osc d.free d.regs d.fuses d.flash d.strand d.eth d.map d.sync d.peg d.rst d.pwr d.pins d.links d.fret d.mem d.poison x19 d.tunes d.streams d.incarnation d.prefixes d.scheds d.kv d.cns d.tx) ↔ Same a b d := by
  simp only [Same, w0, true_or, true_and, and_true]

theorem same_map {a : Allow} {b d : Dev} {x9 : PMap} (w0 : a.map = true) :
    Same a b (Dev.mk d.time d.timeRun d.osc d.free d.regs d.fuses d.flash d.strand d.eth x9 d.sync d.peg d.rst d.pwr d.pins d.links d.fret d.mem d.poison d.loads d.tunes d.streams d.incarnation d.prefixes d.scheds d.kv d.cns d.tx) ↔ Same a b d := by
  simp only [Same, w0, true_or, true_and, and_true]

theorem same_mem {a : Allow} {b d : Dev} {x17 : SMap Byte} (w0 : a.mem = true) :
    Same a b (Dev.mk d.time d.timeRun d.osc d.free d.regs d.fuses d.flash d.strand d.eth d.map d.sync d.peg d.rst d.pwr d.pins d.links d.fret x17 d.poison d.loads d.tunes d.streams d.incarnation d.prefixes d.scheds d.kv d.cns d.tx) ↔ Same a b d := by
  simp only [Same, w0, true_or, true_and, and_true]

theorem same_peg {a : Allow} {b d : Dev} {x11 : Peg} (w0 : a.peg = true) :
    Same a b (Dev.mk d.time d.timeRun d.osc d.free d.regs d.fuses d.flash d.strand d.eth d.map d.sync x11 d.rst d.pwr d.pins d.links d.fret d.mem d.poison d.loads d.tunes d.streams d.incarnation d.prefixes d.scheds d.kv d.cns d.tx) ↔ Same a b d := by
  simp only [Same, w0, true_or, true_and, and_true]

theorem same_pins {a : Allow} {b d : Dev} {x14 : Pins} (w0 : a.pins = true) :
    Same a b (Dev.mk d.time d.timeRun d.osc d.free d.regs d.fuses d.flash d.strand d.eth d.map d.sync d.peg d.rst d.pwr x14 d.links d.fret d.mem d.poison d.loads d.tunes d.streams d.incarnation d.prefixes d.scheds d.kv d.cns d.tx) ↔ Same a b d := by
  simp only [Same, w0, true_or, true_and, and_true]

theorem same_poison {a : Allow} {b d : Dev} {x18 : SMap Bool} (w0 : a.poison = true) :
    Same a b (Dev.mk d.time d.timeRun d.osc d.free d.regs d.fuses d.flash d.strand d.eth d.map d.sync d.peg d.rst d.pwr d.pins d.links d.fret d.mem x18 d.loads d.tunes d.streams d.incarnation d.prefixes d.scheds d.kv d.cns d.tx) ↔ Same a b d := by
  simp only [Same, w0, true_or, true_and, and_true]

theorem same_prefixes {a : Allow} {b d : Dev} {x23 : SMap Prefix} (w0 : a.prefixes = true) :
    Same a b (Dev.mk d.time d.timeRun d.osc d.free d.regs d.fuses d.flash d.strand d.eth d.map d.sync d.peg d.rst d.pwr d.pins d.links d.fret d.mem d.poison d.loads d.tunes d.streams d.incarnation x23 d.scheds d.kv d.cns d.tx) ↔ Same a b d := by
  simp only [Same, w0, true_or, true_and, and_true]

theorem same_pwr {a : Allow} {b d : Dev} {x13 : Pwr} (w0 : a.pwr = true) :
    Same a b (Dev.mk d.time d.timeRun d.osc d.free d.regs d.fuses d.flash d.strand d.eth d.map d.sync d.peg d.rst x13 d.pins d.links d.fret d.mem d.poison d.loads d.tunes d.streams d.incarnation d.prefixes d.scheds d.kv d.cns d.tx) ↔ Same a b d := by
  simp only [Same, w0, true_or, true_and, and_true]

theorem same_regs {a : Allow} {b d : Dev} {x4 : SMap Word} (w0 : a.regs = true) :
    Same a b (Dev.mk d.time d.timeRun d.osc d.free x4 d.fuses d.flash d.strand d.eth d.map d.sync d.peg d.rst d.pwr d.pins d.links d.fret d.mem d.poison d.loads d.tunes d.streams d.incarnation d.prefixes d.scheds d.kv d.cns d.tx) ↔ Same a b d := by
  simp only [Same, w0, true_or, true_and, and_true]

theorem same_rst {a : Allow} {b d : Dev} {x12 : Rst} (w0 : a.rst = true) :
    Same a b (Dev.mk d.time d.timeRun d.osc d.free d.regs d.fuses d.flash d.strand d.eth d.map d.sync d.peg x12 d.pwr d.pins d.links d.fret d.mem d.poison d.loads d.tunes d.streams d.incarnation d.prefixes d.scheds d.kv d.cns d.tx) ↔ Same a b d := by
  simp only [Same, w0, true_or, true_and, and_true]

theorem same_scheds {a : Allow} {b d : Dev} {x24 : SMap Sched} (w0 : a.scheds = true) :
    Same a b (Dev.mk d.time d.timeRun d.osc d.free d.regs d.fuses d.flash d.strand d.eth d.map d.sync d.peg d.rst d.pwr d.pins d.links d.fret d.mem d.poison d.loads d.tunes d.streams d.incarnation d.prefixes x24 d.kv d.cns d.tx) ↔ Same a b d := by
  simp only [Same, w0, true_or, true_and, and_true]

theorem same_strand {a : Allow} {b d : Dev} {x7 : Strand} (w0 : a.strand = true) :
    Same a b (Dev.mk d.time d.timeRun d.osc d.free d.regs d.fuses d.flash x7 d.eth d.map d.sync d.peg d.rst d.pwr d.pins d.links d.fret d.mem d.poison d.loads d.tunes d.streams d.incarnation d.prefixes d.scheds d.kv d.cns d.tx) ↔ Same a b d := by
  simp only [Same, w0, true_or, true_and, and_true]

theorem same_streams {a : Allow} {b d : Dev} {x21 : SMap Stream} (w0 : a.streams = true) :
    Same a b (Dev.mk d.time d.timeRun d.osc d.free d.regs d.fuses d.flash d.strand d.eth d.map d.sync d.peg d.rst d.pwr d.pins d.links d.fret d.mem d.poison d.loads d.tunes x21 d.incarnation d.prefixes d.scheds d.kv d.cns d.tx) ↔ Same a b d := by
  simp only [Same, w0, true_or, true_and, and_true]

theorem same_sync {a : Allow} {b d : Dev} {x10 : Sync} (w0 : a.sync = true) :
    Same a b (Dev.mk d.time d.timeRun d.osc d.free d.regs d.fuses d.flash d.strand d.eth d.map x10 d.peg d.rst d.pwr d.pins d.links d.fret d.mem d.poison d.loads d.tunes d.streams d.incarnation d.prefixes d.scheds d.kv d.cns d.tx) ↔ Same a b d := by
  simp only [Same, w0, true_or, true_and, and_true]

theorem same_time {a : Allow} {b d : Dev} {x0 : DWord} (w0 : a.time = true) :
    Same a b (Dev.mk x0 d.timeRun d.osc d.free d.regs d.fuses d.flash d.strand d.eth d.map d.sync d.peg d.rst d.pwr d.pins d.links d.fret d.mem d.poison d.loads d.tunes d.streams d.incarnation d.prefixes d.scheds d.kv d.cns d.tx) ↔ Same a b d := by
  simp only [Same, w0, true_or, true_and, and_true]

theorem same_tunes {a : Allow} {b d : Dev} {x20 : SMap Tune} (w0 : a.tunes = true) :
    Same a b (Dev.mk d.time d.timeRun d.osc d.free d.regs d.fuses d.flash d.strand d.eth d.map d.sync d.peg d.rst d.pwr d.pins d.links d.fret d.mem d.poison d.loads x20 d.streams d.incarnation d.prefixes d.scheds d.kv d.cns d.tx) ↔ Same a b d := by
  simp only [Same, w0, true_or, true_and, and_true]

theorem same_tx {a : Allow} {b d : Dev} {x27 : List Tx} (w0 : a.tx = true) :
    Same a b (Dev.mk d.time d.timeRun d.osc d.free d.regs d.fuses d.flash d.strand d.eth d.map d.sync d.peg d.rst d.pwr d.pins d.links d.fret d.mem d.poison d.loads d.tunes d.streams d.incarnation d.prefixes d.scheds d.kv d.cns x27) ↔ Same a b d := by
  simp only [Same, w0, true_or, true_and, and_true]

theorem same_flash_peg {a : Allow} {b d : Dev} {x6 : Flash} {x11 : Peg} (w0 : a.flash = true) (w1 : a.peg = true) :
    Same a b (Dev.mk d.time d.timeRun d.osc d.free d.regs d.fuses x6 d.strand d.eth d.map d.sync x11 d.rst d.pwr d.pins d.links d.fret d.mem d.poison d.loads d.tunes d.streams d.incarnation d.prefixes d.scheds d.kv d.cns d.tx) ↔ Same a b d := by
  simp only [Same, w0, w1, true_or, true_and, and_true]

theorem same_flash_rst {a : Allow} {b d : Dev} {x6 : Flash} {x12 : Rst} (w0 : a.flash = true) (w1 : a.rst = true) :
    Same a b (Dev.mk d.time d.timeRun d.osc d.free d.regs d.fuses x6 d.strand d.eth d.map d.sync d.peg x12 d.pwr d.pins d.links d.fret d.mem d.poison d.loads d.tunes d.streams d.incarnation d.prefixes d.scheds d.kv d.cns d.tx) ↔ Same a b d := by
  simp only [Same, w0, w1, true_or, true_and, and_true]

theorem same_free_strand {a : Allow} {b d : Dev} {x3 : Nat} {x7 : Strand} (w0 : a.free = true) (w1 : a.strand = true) :
    Same a b (Dev.mk d.time d.timeRun d.osc x3 d.regs d.fuses d.flash x7 d.eth d.map d.sync d.peg d.rst d.pwr d.pins d.links d.fret d.mem d.poison d.loads d.tunes d.streams d.incarnation d.prefixes d.scheds d.kv d.cns d.tx) ↔ Same a b d := by
  simp only [Same, w0, w1, true_or, true_and, and_true]

theorem same_mem_poison {a : Allow} {b d : Dev} {x17 : SMap Byte} {x18 : SMap Bool} (w0 : a.mem = true) (w1 : a.poison = true) :
    Same a b (Dev.mk d.time d.timeRun d.osc d.free d.regs d.fuses d.flash d.strand d.eth d.map d.sync d.peg d.rst d.pwr d.pins d.links d.fret x17 x18 d.loads d.tunes d.streams d.incarnation d.prefixes d.scheds d.kv d.cns d.tx) ↔ Same a b d := by
  simp only [Same, w0, w1, true_or, true_and, and_true]

theorem same_peg_pins {a : Allow} {b d : Dev} {x11 : Peg} {x14 : Pins} (w0 : a.peg = true) (w1 : a.pins = true) :
    Same a b (Dev.mk d.time d.timeRun d.osc d.free d.regs d.fuses d.flash d.strand d.eth d.map d.sync x11 d.rst d.pwr x14 d.links d.fret d.mem d.poison d.loads d.tunes d.streams d.incarnation d.prefixes d.scheds d.kv d.cns d.tx) ↔ Same a b d := by
  simp only [Same, w0, w1, true_or, true_and, and_true]

theorem same_peg_rst {a : Allow} {b d : Dev} {x11 : Peg} {x12 : Rst} (w0 : a.peg = true) (w1 : a.rst = true) :
    Same a b (Dev.mk d.time d.timeRun d.osc d.free d.regs d.fuses d.flash d.strand d.eth d.map d.sync x11 x12 d.pwr d.pins d.links d.fret d.mem d.poison d.loads d.tunes d.streams d.incarnation d.prefixes d.scheds d.kv d.cns d.tx) ↔ Same a b d := by
  simp only [Same, w0, w1, true_or, true_and, and_true]

theorem same_pwr_fret {a : Allow} {b d : Dev} {x13 : Pwr} {x16 : Fret} (w0 : a.pwr = true) (w1 : a.fret = true) :
    Same a b (Dev.mk d.time d.timeRun d.osc d.free d.regs d.fuses d.flash d.strand d.eth d.map d.sync d.peg d.rst x13 d.pins d.links x16 d.mem d.poison d.loads d.tunes d.streams d.incarnation d.prefixes d.scheds d.kv d.cns d.tx) ↔ Same a b d := by
  simp only [Same, w0, w1, true_or, true_and, and_true]

theorem same_pwr_pins {a : Allow} {b d : Dev} {x13 : Pwr} {x14 : Pins} (w0 : a.pwr = true) (w1 : a.pins = true) :
    Same a b (Dev.mk d.time d.timeRun d.osc d.free d.regs d.fuses d.flash d.strand d.eth d.map d.sync d.peg d.rst x13 x14 d.links d.fret d.mem d.poison d.loads d.tunes d.streams d.incarnation d.prefixes d.scheds d.kv d.cns d.tx) ↔ Same a b d := by
  simp only [Same, w0, w1, true_or, true_and, and_true]

theorem same_rst_pins {a : Allow} {b d : Dev} {x12 : Rst} {x14 : Pins} (w0 : a.rst = true) (w1 : a.pins = true) :
    Same a b (Dev.mk d.time d.timeRun d.osc d.free d.regs d.fuses d.flash d.strand d.eth d.map d.sync d.peg x12 d.pwr x14 d.links d.fret d.mem d.poison d.loads d.tunes d.streams d.incarnation d.prefixes d.scheds d.kv d.cns d.tx) ↔ Same a b d := by
  simp only [Same, w0, w1, true_or, true_and, and_true]

theorem same_rst_pwr {a : Allow} {b d : Dev} {x12 : Rst} {x13 : Pwr} (w0 : a.rst = true) (w1 : a.pwr = true) :
    Same a b (Dev.mk d.time d.timeRun d.osc d.free d.regs d.fuses d.flash d.strand d.eth d.map d.sync d.peg x12 x13 d.pins d.links d.fret d.mem d.poison d.loads d.tunes d.streams d.incarnation d.prefixes d.scheds d.kv d.cns d.tx) ↔ Same a b d := by
  simp only [Same, w0, w1, true_or, true_and, and_true]

theorem same_time_osc {a : Allow} {b d : Dev} {x0 : DWord} {x2 : Nat} (w0 : a.time = true) (w1 : a.osc = true) :
    Same a b (Dev.mk x0 d.timeRun x2 d.free d.regs d.fuses d.flash d.strand d.eth d.map d.sync d.peg d.rst d.pwr d.pins d.links d.fret d.mem d.poison d.loads d.tunes d.streams d.incarnation d.prefixes d.scheds d.kv d.cns d.tx) ↔ Same a b d := by
  simp only [Same, w0, w1, true_or, true_and, and_true]

theorem same_time_pins {a : Allow} {b d : Dev} {x0 : DWord} {x14 : Pins} (w0 : a.time = true) (w1 : a.pins = true) :
    Same a b (Dev.mk x0 d.timeRun d.osc d.free d.regs d.fuses d.flash d.strand d.eth d.map d.sync d.peg d.rst d.pwr x14 d.links d.fret d.mem d.poison d.loads d.tunes d.streams d.incarnation d.prefixes d.scheds d.kv d.cns d.tx) ↔ Same a b d := by
  simp only [Same, w0, w1, true_or, true_and, and_true]

theorem same_flash_peg_rst {a : Allow} {b d : Dev} {x6 : Flash} {x11 : Peg} {x12 : Rst} (w0 : a.flash = true) (w1 : a.peg = true) (w2 : a.rst = true) :
    Same a b (Dev.mk d.time d.timeRun d.osc d.free d.regs d.fuses x6 d.strand d.eth d.map d.sync x11 x12 d.pwr d.pins d.links d.fret d.mem d.poison d.loads d.tunes d.streams d.incarnation d.prefixes d.scheds d.kv d.cns d.tx) ↔ Same a b d := by
  simp only [Same, w0, w1, w2, true_or, true_and, and_true]

theorem same_free_flash_rst {a : Allow} {b d : Dev} {x3 : Nat} {x6 : Flash} {x12 : Rst} (w0 : a.free = true) (w1 : a.flash = true) (w2 : a.rst = true) :
    Same a b (Dev.mk d.time d.timeRun d.osc x3 d.regs d.fuses x6 d.strand d.eth d.map d.sync d.peg x12 d.pwr d.pins d.links d.fret d.mem d.poison d.loads d.tunes d.streams d.incarnation d.prefixes d.scheds d.kv d.cns d.tx) ↔ Same a b d := by
  simp only [Same, w0, w1, w2, true_or, true_and, and_true]

theorem same_free_streams_incarnation {a : Allow} {b d : Dev} {x3 : Nat} {x21 : SMap Stream} {x22 : SMap Nat} (w0 : a.free = true) (w1 : a.streams = true) (w2 : a.incarnation = true) :
    Same a b (Dev.mk d.time d.timeRun d.osc x3 d.regs d.fuses d.flash d.strand d.eth d.map d.sync d.peg d.rst d.pwr d.pins d.links d.fret d.mem d.poison d.loads d.tunes x21 x22 d.prefixes d.scheds d.kv d.cns d.tx) ↔ Same a b d := by
  simp only [Same, w0, w1, w2, true_or, true_and, and_true]

theorem same_peg_rst_pins {a : Allow} {b d : Dev} {x11 : Peg} {x12 : Rst} {x14 : Pins} (w0 : a.peg = true) (w1 : a.rst = true) (w2 : a.pins = true) :
    Same a b (Dev.mk d.time d.timeRun d.osc d.free d.regs d.fuses d.flash d.strand d.eth d.map d.sync x11 x12 d.pwr x14 d.links d.fret d.mem d.poison d.loads d.tunes d.streams d.incarnation d.prefixes d.scheds d.kv d.cns d.tx) ↔ Same a b d := by
  simp only [Same, w0, w1, w2, true_or, true_and, and_true]

theorem same_flash_map_peg_tunes {a : Allow} {b d : Dev} {x6 : Flash} {x9 : PMap} {x11 : Peg} {x20 : SMap Tune} (w0 : a.flash = true) (w1 : a.map = true) (w2 : a.peg = true) (w3 : a.tunes = true) :
    Same a b (Dev.mk d.time d.timeRun d.osc d.free d.regs d.fuses x6 d.strand d.eth x9 d.sync x11 d.rst d.pwr d.pins d.links d.fret d.mem d.poison d.loads x20 d.streams d.incarnation d.prefixes d.scheds d.kv d.cns d.tx) ↔ Same a b d := by
  simp only [Same, w0, w1, w2, w3, true_or, true_and, and_true]

theorem same_fuses_flash_peg_rst {a : Allow} {b d : Dev} {x5 : Fuses} {x6 : Flash} {x11 : Peg} {x12 : Rst} (w0 : a.fuses = true) (w1 : a.flash = true) (w2 : a.peg = true) (w3 : a.rst = true) :
    Same a b (Dev.mk d.time d.timeRun d.osc d.free d.regs x5 x6 d.strand d.eth d.map d.sync x11 x12 d.pwr d.pins d.links d.fret d.mem d.poison d.loads d.tunes d.streams d.incarnation d.prefixes d.scheds d.kv d.cns d.tx) ↔ Same a b d := by
  simp only [Same, w0, w1, w2, w3, true_or, true_and, and_true]

theorem same_time_timeRun_osc_rst {a : Allow} {b d : Dev} {x0 : DWord} {x1 : Bool} {x2 : Nat} {x12 : Rst} (w0 : a.time = true) (w1 : a.timeRun = true) (w2 : a.osc = true) (w3 : a.rst = true) :
    Same a b (Dev.mk x0 x1 x2 d.free d.regs d.fuses d.flash d.strand d.eth d.map d.sync d.peg x12 d.pwr d.pins d.links d.fret d.mem d.poison d.loads d.tunes d.streams d.incarnation d.prefixes d.scheds d.kv d.cns d.tx) ↔ Same a b d := by
  simp only [Same, w0, w1, w2, w3, true_or, true_and, and_true]

theorem same_timeRun_peg_rst_pins {a : Allow} {b d : Dev} {x1 : Bool} {x11 : Peg} {x12 : Rst} {x14 : Pins} (w0 : a.timeRun = true) (w1 : a.peg = true) (w2 : a.rst = true) (w3 : a.pins = true) :
    Same a b (Dev.mk d.time x1 d.osc d.free d.regs d.fuses d.flash d.strand d.eth d.map d.sync x11 x12 d.pwr x14 d.links d.fret d.mem d.poison d.loads d.tunes d.streams d.incarnation d.prefixes d.scheds d.kv d.cns d.tx) ↔ Same a b d := by
  simp only [Same, w0, w1, w2, w3, true_or, true_and, and_true]

theorem same_many20 {a : Allow} {b d : Dev} {x4 : SMap Word} {x7 : Strand} {x8 : Eth} {x9 : PMap} {x10 : Sync} {x11 : Peg} {x13 : Pwr} {x14 : Pins} {x15 : Links} {x16 : Fret} {x17 : SMap Byte} {x18 : SMap Bool} {x19 : Loads} {x20 : SMap Tune} {x21 : SMap Stream} {x22 : SMap Nat} {x23 : SMap Prefix} {x24 : SMap Sched} {x25 : SMap KvBridge} {x26 : Cns} (w0 : a.regs = true) (w1 : a.strand = true) (w2 : a.eth = true) (w3 : a.map = true) (w4 : a.sync = true) (w5 : a.peg = true) (w6 : a.pwr = true) (w7 : a.pins = true) (w8 : a.links = true) (w9 : a.fret = true) (w10 : a.mem = true) (w11 : a.poison = true) (w12 : a.loads = true) (w13 : a.tunes = true) (w14 : a.streams = true) (w15 : a.incarnation = true) (w16 : a.prefixes = true) (w17 : a.scheds = true) (w18 : a.kv = true) (w19 : a.cns = true) :
    Same a b (Dev.mk d.time d.timeRun d.osc d.free x4 d.fuses d.flash x7 x8 x9 x10 x11 d.rst x13 x14 x15 x16 x17 x18 x19 x20 x21 x22 x23 x24 x25 x26 d.tx) ↔ Same a b d := by
  simp only [Same, w0, w1, w2, w3, w4, w5, w6, w7, w8, w9, w10, w11, w12, w13, w14, w15, w16, w17, w18, w19, true_or, true_and, and_true]

theorem same_free_eth {a : Allow} {b d : Dev} {x3 : Nat} {x8 : Eth} (w0 : a.free = true) (w1 : a.eth = true) :
    Same a b (Dev.mk d.time d.timeRun d.osc x3 d.regs d.fuses d.flash d.strand x8 d.map d.sync d.peg d.rst d.pwr d.pins d.links d.fret d.mem d.poison d.loads d.tunes d.streams d.incarnation d.prefixes d.scheds d.kv d.cns d.tx) ↔ Same a b d := by
  simp only [Same, w0, w1, true_or, true_and, and_true]

theorem same_streams_incarnation {a : Allow} {b d : Dev} {x21 : SMap Stream} {x22 : SMap Nat} (w0 : a.streams = true) (w1 : a.incarnation = true) :
    Same a b (Dev.mk d.time d.timeRun d.osc d.free d.regs d.fuses d.flash d.strand d.eth d.map d.sync d.peg d.rst d.pwr d.pins d.links d.fret d.mem d.poison d.loads d.tunes x21 x22 d.prefixes d.scheds d.kv d.cns d.tx) ↔ Same a b d := by
  simp only [Same, w0, w1, true_or, true_and, and_true]

theorem after8 {A B C D E F G H R : Prop} (h : A ∧ B ∧ C ∧ D ∧ E ∧ F ∧ G ∧ H ∧ R) : R := h.2.2.2.2.2.2.2.2

theorem Same.time {a : Allow} {b d : Dev} (h : Same a b d) (w : a.time = false) : d.time = b.time := by
  exact h.1.resolve_left (by simp [w])

theorem Same.timeRun {a : Allow} {b d : Dev} (h : Same a b d) (w : a.timeRun = false) : d.timeRun = b.timeRun := by
  exact h.2.1.resolve_left (by simp [w])

theorem Same.osc {a : Allow} {b d : Dev} (h : Same a b d) (w : a.osc = false) : d.osc = b.osc := by
  exact h.2.2.1.resolve_left (by simp [w])

theorem Same.free {a : Allow} {b d : Dev} (h : Same a b d) (w : a.free = false) : d.free = b.free := by
  exact h.2.2.2.1.resolve_left (by simp [w])

theorem Same.regs {a : Allow} {b d : Dev} (h : Same a b d) (w : a.regs = false) : d.regs = b.regs := by
  exact h.2.2.2.2.1.resolve_left (by simp [w])

theorem Same.fuses {a : Allow} {b d : Dev} (h : Same a b d) (w : a.fuses = false) : d.fuses = b.fuses := by
  exact h.2.2.2.2.2.1.resolve_left (by simp [w])

theorem Same.flash {a : Allow} {b d : Dev} (h : Same a b d) (w : a.flash = false) : d.flash = b.flash := by
  exact h.2.2.2.2.2.2.1.resolve_left (by simp [w])

theorem Same.strand {a : Allow} {b d : Dev} (h : Same a b d) (w : a.strand = false) : d.strand = b.strand := by
  exact h.2.2.2.2.2.2.2.1.resolve_left (by simp [w])

theorem Same.eth {a : Allow} {b d : Dev} (h : Same a b d) (w : a.eth = false) : d.eth = b.eth := by
  exact (after8 h).1.resolve_left (by simp [w])

theorem Same.map {a : Allow} {b d : Dev} (h : Same a b d) (w : a.map = false) : d.map = b.map := by
  exact (after8 h).2.1.resolve_left (by simp [w])

theorem Same.sync {a : Allow} {b d : Dev} (h : Same a b d) (w : a.sync = false) : d.sync = b.sync := by
  exact (after8 h).2.2.1.resolve_left (by simp [w])

theorem Same.peg {a : Allow} {b d : Dev} (h : Same a b d) (w : a.peg = false) : d.peg = b.peg := by
  exact (after8 h).2.2.2.1.resolve_left (by simp [w])

theorem Same.rst {a : Allow} {b d : Dev} (h : Same a b d) (w : a.rst = false) : d.rst = b.rst := by
  exact (after8 h).2.2.2.2.1.resolve_left (by simp [w])

theorem Same.pwr {a : Allow} {b d : Dev} (h : Same a b d) (w : a.pwr = false) : d.pwr = b.pwr := by
  exact (after8 h).2.2.2.2.2.1.resolve_left (by simp [w])

theorem Same.pins {a : Allow} {b d : Dev} (h : Same a b d) (w : a.pins = false) : d.pins = b.pins := by
  exact (after8 h).2.2.2.2.2.2.1.resolve_left (by simp [w])

theorem Same.links {a : Allow} {b d : Dev} (h : Same a b d) (w : a.links = false) : d.links = b.links := by
  exact (after8 h).2.2.2.2.2.2.2.1.resolve_left (by simp [w])

theorem Same.fret {a : Allow} {b d : Dev} (h : Same a b d) (w : a.fret = false) : d.fret = b.fret := by
  exact (after8 (after8 h)).1.resolve_left (by simp [w])

theorem Same.mem {a : Allow} {b d : Dev} (h : Same a b d) (w : a.mem = false) : d.mem = b.mem := by
  exact (after8 (after8 h)).2.1.resolve_left (by simp [w])

theorem Same.poison {a : Allow} {b d : Dev} (h : Same a b d) (w : a.poison = false) : d.poison = b.poison := by
  exact (after8 (after8 h)).2.2.1.resolve_left (by simp [w])

theorem Same.loads {a : Allow} {b d : Dev} (h : Same a b d) (w : a.loads = false) : d.loads = b.loads := by
  exact (after8 (after8 h)).2.2.2.1.resolve_left (by simp [w])

theorem Same.tunes {a : Allow} {b d : Dev} (h : Same a b d) (w : a.tunes = false) : d.tunes = b.tunes := by
  exact (after8 (after8 h)).2.2.2.2.1.resolve_left (by simp [w])

theorem Same.streams {a : Allow} {b d : Dev} (h : Same a b d) (w : a.streams = false) : d.streams = b.streams := by
  exact (after8 (after8 h)).2.2.2.2.2.1.resolve_left (by simp [w])

theorem Same.incarnation {a : Allow} {b d : Dev} (h : Same a b d) (w : a.incarnation = false) : d.incarnation = b.incarnation := by
  exact (after8 (after8 h)).2.2.2.2.2.2.1.resolve_left (by simp [w])

theorem Same.prefixes {a : Allow} {b d : Dev} (h : Same a b d) (w : a.prefixes = false) : d.prefixes = b.prefixes := by
  exact (after8 (after8 h)).2.2.2.2.2.2.2.1.resolve_left (by simp [w])

theorem Same.scheds {a : Allow} {b d : Dev} (h : Same a b d) (w : a.scheds = false) : d.scheds = b.scheds := by
  exact (after8 (after8 (after8 h))).1.resolve_left (by simp [w])

theorem Same.kv {a : Allow} {b d : Dev} (h : Same a b d) (w : a.kv = false) : d.kv = b.kv := by
  exact (after8 (after8 (after8 h))).2.1.resolve_left (by simp [w])

theorem Same.cns {a : Allow} {b d : Dev} (h : Same a b d) (w : a.cns = false) : d.cns = b.cns := by
  exact (after8 (after8 (after8 h))).2.2.1.resolve_left (by simp [w])

theorem Same.tx {a : Allow} {b d : Dev} (h : Same a b d) (w : a.tx = false) : d.tx = b.tx := by
  exact (after8 (after8 (after8 h))).2.2.2.resolve_left (by simp [w])

theorem ite_same {a : Allow} {b d e : Dev} {c : Prop} [Decidable c] (h1 : Same a b d) (h2 : Same a b e) :
    Same a b (if c then d else e) := by
  split
  · exact h1
  · exact h2

theorem forEach_same {α : Type} {a : Allow} {b : Dev} {l : List α} {g : α → Dev → Dev} {d : Dev}
    (hg : ∀ x e, Same a b e → Same a b (g x e)) (h : Same a b d) : Same a b (forEach l g d) := by
  unfold forEach
  induction l generalizing d with
  | nil => exact h
  | cons x r ih => exact ih (hg x d h)

theorem foldl_same {α : Type} {a : Allow} {b : Dev} {l : List α} {g : Dev → α → Dev} {d : Dev}
    (hg : ∀ e x, Same a b e → Same a b (g e x)) (h : Same a b d) : Same a b (l.foldl g d) := by
  induction l generalizing d with
  | nil => exact h
  | cons x r ih => exact ih (hg d x h)

theorem foldl_same_snd {α β : Type} {a : Allow} {b : Dev} {l : List α} {g : β × Dev → α → β × Dev} {z : β × Dev}
    (hg : ∀ e x, Same a b e.2 → Same a b (g e x).2) (h : Same a b z.2) : Same a b (l.foldl g z).2 := by
  induction l generalizing z with
  | nil => exact h
  | cons x r ih => exact ih (hg z x h)

theorem foldl_same_thd {α β γ : Type} {a : Allow} {b : Dev} {l : List α} {g : β × γ × Dev → α → β × γ × Dev} {z : β × γ × Dev}
    (hg : ∀ e x, Same a b e.2.2 → Same a b (g e x).2.2) (h : Same a b z.2.2) : Same a b (l.foldl g z).2.2 := by
  induction l generalizing z with
  | nil => exact h
  | cons x r ih => exact ih (hg z x h)

theorem when__same {a : Allow} {b : Dev} {c : Bool} {g : Dev → Dev} {d : Dev} (hg : ∀ e, Same a b e → Same a b (g e)) (h : Same a b d) :
    Same a b (when_ c g d) := by
  unfold when_; split
  · exact hg d h
  · exact h

theorem getD_same {a : Allow} {b : Dev} {o : Option Dev} {d : Dev} (h1 : ∀ e, o = some e → Same a b e) (h : Same a b d) :
    Same a b (o.getD d) := by
  cases o with
  | none => exact h
  | some e => exact h1 e rfl

end Sys2Proof.Machine
end

