-- ==== Sys2Proof/Laws/FrameServe.lean ====
section
/-! SUPPORT. The fields that the operations of the sending of messages, keys, updates, the port, heat, pins, links, HBM and streams may change, one lemma each (Laws/Frame.lean). -/

namespace Sys2Proof.Machine

set_option linter.unusedSimpArgs false

theorem regPut_same {al : Allow} {bd : Dev} (a : Nat) (v : Word) (d : Dev) (hk : Same al bd d) (w0 : al.regs = true := by assumption) : Same al bd (regPut a v d) := by
  unfold regPut
  repeat' (first | with_reducible (first | assumption | refine ite_same ?_ ?_ | intro _ | split) | simp only [same_regs, w0] | dsimp only)

theorem regSetField_same {al : Allow} {bd : Dev} (a lo n v : Nat) (d : Dev) (hk : Same al bd d) (w0 : al.regs = true := by assumption) : Same al bd (regSetField a lo n v d) := by
  unfold regSetField
  repeat' (first | with_reducible (first | assumption | apply regPut_same | refine ite_same ?_ ?_ | intro _ | split) | dsimp only)

theorem addField_same {al : Allow} {bd : Dev} (a lo n k : Nat) (d : Dev) (hk : Same al bd d) (w0 : al.regs = true := by assumption) : Same al bd (addField a lo n k d) := by
  unfold addField
  repeat' (first | with_reducible (first | assumption | apply regSetField_same | refine ite_same ?_ ?_ | intro _ | split) | dsimp only)

theorem addCtr_same {al : Allow} {bd : Dev} (a k : Nat) (d : Dev) (hk : Same al bd d) (w0 : al.regs = true := by assumption) : Same al bd (addCtr a k d) := by
  unfold addCtr
  repeat' (first | with_reducible (first | assumption | apply regPut_same | refine ite_same ?_ ?_ | intro _ | split) | dsimp only)

theorem bump_same {al : Allow} {bd : Dev} (a : Nat) (d : Dev) (hk : Same al bd d) (w0 : al.regs = true := by assumption) : Same al bd (bump a d) := by
  unfold bump
  repeat' (first | with_reducible (first | assumption | apply addCtr_same | refine ite_same ?_ ?_ | intro _ | split) | dsimp only)

theorem addWrap_same {al : Allow} {bd : Dev} (a k : Nat) (d : Dev) (hk : Same al bd d) (w0 : al.regs = true := by assumption) : Same al bd (addWrap a k d) := by
  unfold addWrap
  repeat' (first | with_reducible (first | assumption | apply regPut_same | refine ite_same ?_ ?_ | intro _ | split) | dsimp only)

theorem add64_same {al : Allow} {bd : Dev} (lo hi k : Nat) (d : Dev) (hk : Same al bd d) (w0 : al.regs = true := by assumption) : Same al bd (add64 lo hi k d) := by
  unfold add64
  repeat' (first | with_reducible (first | assumption | apply regPut_same | refine ite_same ?_ ?_ | intro _ | split) | dsimp only)

theorem choice_same {al : Allow} {bd : Dev} (p : Nat) (results : Bool) (d : Dev) (hk : Same al bd d) (w0 : al.regs = true := by assumption) : Same al bd (choice p results d) := by
  unfold choice
  repeat' (first | with_reducible (first | assumption | apply add64_same | refine ite_same ?_ ?_ | intro _ | split) | dsimp only)

theorem draw_same {al : Allow} {bd : Dev} (d : Dev) (hk : Same al bd d) (w0 : al.free = true := by assumption) : Same al bd (draw d).2 := by
  unfold draw
  repeat' (first | with_reducible (first | assumption | refine ite_same ?_ ?_ | intro _ | split) | simp only [same_free, w0] | dsimp only)

theorem send_same {al : Allow} {bd : Dev} (t : Tx) (d : Dev) (hk : Same al bd d) (w0 : al.tx = true := by assumption) : Same al bd (send t d) := by
  unfold send
  repeat' (first | with_reducible (first | assumption | refine ite_same ?_ ?_ | intro _ | split) | simp only [same_tx, w0] | dsimp only)

theorem putAssoc_same {al : Allow} {bd : Dev} (aid : Nat) (a : Assoc) (d : Dev) (hk : Same al bd d) (w0 : al.strand = true := by assumption) : Same al bd (putAssoc aid a d) := by
  unfold putAssoc
  repeat' (first | with_reducible (first | assumption | refine ite_same ?_ ?_ | intro _ | split) | simp only [same_strand, w0] | dsimp only)

theorem modAssoc_same {al : Allow} {bd : Dev} (aid : Nat) (f : Assoc → Assoc) (d : Dev) (hk : Same al bd d) (w0 : al.strand = true := by assumption) : Same al bd (modAssoc aid f d) := by
  unfold modAssoc
  repeat' (first | with_reducible (first | assumption | refine ite_same ?_ ?_ | intro _ | split) | simp only [same_strand, w0] | dsimp only)

theorem countPn_same {al : Allow} {bd : Dev} (p : Nat) (d : Dev) (hk : Same al bd d) (w0 : al.strand = true := by assumption) : Same al bd (countPn p d) := by
  unfold countPn
  repeat' (first | with_reducible (first | assumption | refine ite_same ?_ ?_ | intro _ | split) | simp only [same_strand, w0] | dsimp only)

theorem putOnWire_same {al : Allow} {bd : Dev} (a : Assoc) (h : Hdr) (payload key : List Byte) (d : Dev) (hk : Same al bd d) (w0 : al.strand = true := by assumption) (w1 : al.tx = true := by assumption) : Same al bd (putOnWire a h payload key d) := by
  unfold putOnWire
  repeat' (first | with_reducible (first | assumption | apply send_same | apply countPn_same | refine ite_same ?_ ?_ | intro _ | split) | dsimp only)

theorem transmit_same {al : Allow} {bd : Dev} (aid : Nat) (m : Sent) (d : Dev) (hk : Same al bd d) (w0 : al.strand = true := by assumption) (w1 : al.tx = true := by assumption) : Same al bd (transmit aid m d) := by
  unfold transmit
  repeat' (first | with_reducible (first | assumption | apply putAssoc_same | apply putOnWire_same | refine ite_same ?_ ?_ | intro _ | split) | dsimp only)

theorem sendHeaderOnly_same {al : Allow} {bd : Dev} (aid : Nat) (flags : Byte) (d : Dev) (hk : Same al bd d) (w0 : al.strand = true := by assumption) (w1 : al.tx = true := by assumption) : Same al bd (sendHeaderOnly aid flags d) := by
  unfold sendHeaderOnly
  repeat' (first | with_reducible (first | assumption | apply putAssoc_same | apply putOnWire_same | refine ite_same ?_ ?_ | intro _ | split) | dsimp only)

theorem flushN_same {al : Allow} {bd : Dev} (k aid : Nat) (d : Dev) (hk : Same al bd d) (w0 : al.strand = true := by assumption) (w1 : al.tx = true := by assumption) : Same al bd (flushN k aid d) := by
  induction k generalizing d with
  | zero => exact hk
  | succ k ih =>
    unfold flushN
    repeat' (first | with_reducible assumption | with_reducible apply ih | with_reducible apply transmit_same | with_reducible apply putAssoc_same | split)

theorem flushAssoc_same {al : Allow} {bd : Dev} (aid : Nat) (d : Dev) (hk : Same al bd d) (w0 : al.strand = true := by assumption) (w1 : al.tx = true := by assumption) : Same al bd (flushAssoc aid d) := by
  unfold flushAssoc
  repeat' (first | with_reducible (first | assumption | apply sendHeaderOnly_same | apply flushN_same | refine ite_same ?_ ?_ | intro _ | split) | dsimp only)

theorem queueMsg_same {al : Allow} {bd : Dev} (aid : Nat) (m : Sent) (d : Dev) (hk : Same al bd d) (w0 : al.strand = true := by assumption) (w1 : al.tx = true := by assumption) : Same al bd (queueMsg aid m d) := by
  unfold queueMsg
  repeat' (first | with_reducible (first | assumption | apply putAssoc_same | apply transmit_same | apply flushAssoc_same | refine ite_same ?_ ?_ | intro _ | split) | dsimp only)

theorem sendReject_same {al : Allow} {bd : Dev} (m : Dgram) (d : Dev) (hk : Same al bd d) (w0 : al.strand = true := by assumption) (w1 : al.tx = true := by assumption) : Same al bd (sendReject m d) := by
  unfold sendReject
  repeat' (first | with_reducible (first | assumption | apply send_same | apply countPn_same | refine ite_same ?_ ?_ | intro _ | split) | dsimp only)

theorem sendReply_same {al : Allow} {bd : Dev} (aid : Nat) (m : Dgram) (st idx hint : Nat) (extra : List Byte) (d : Dev) (hk : Same al bd d) (w0 : al.strand = true := by assumption) (w1 : al.tx = true := by assumption) : Same al bd (sendReply aid m st idx hint extra d) := by
  unfold sendReply
  repeat' (first | with_reducible (first | assumption | apply queueMsg_same | refine ite_same ?_ ?_ | intro _ | split) | dsimp only)

theorem ringPut_same {al : Allow} {bd : Dev} (part flags : Byte) (payload : List Byte) (d : Dev) (hk : Same al bd d) (w0 : al.peg = true := by assumption) : Same al bd (ringPut part flags payload d) := by
  unfold ringPut
  repeat' (first | with_reducible (first | assumption | refine ite_same ?_ ?_ | intro _ | split) | simp only [same_peg, w0] | dsimp only)

theorem logQueue_same {al : Allow} {bd : Dev} (d : Dev) (hk : Same al bd d) (w0 : al.regs = true := by assumption) (w1 : al.peg = true := by assumption) : Same al bd (logQueue d) := by
  unfold logQueue
  repeat' (first | with_reducible (first | assumption | apply bump_same | refine ite_same ?_ ?_ | intro _ | split) | simp only [same_peg, w1] | dsimp only)

theorem raiseEventTo_same {al : Allow} {bd : Dev} (dest : Nat) (payload : List Byte) (persist : Bool) (d : Dev) (hk : Same al bd d) (w0 : al.regs = true := by assumption) (w1 : al.strand = true := by assumption) (w2 : al.peg = true := by assumption) (w3 : al.tx = true := by assumption) : Same al bd (raiseEventTo dest payload persist d) := by
  unfold raiseEventTo
  repeat' (first | with_reducible (first | assumption | apply forEach_same | apply queueMsg_same | apply ringPut_same | apply logQueue_same | refine ite_same ?_ ?_ | intro _ | split) | dsimp only)

theorem raiseEvent_same {al : Allow} {bd : Dev} (p : Nat) (ty : Nat) (rest : List Byte) (persist : Bool) (d : Dev) (hk : Same al bd d) (w0 : al.regs = true := by assumption) (w1 : al.strand = true := by assumption) (w2 : al.peg = true := by assumption) (w3 : al.tx = true := by assumption) : Same al bd (raiseEvent p ty rest persist d) := by
  unfold raiseEvent
  repeat' (first | with_reducible (first | assumption | apply raiseEventTo_same | refine ite_same ?_ ?_ | intro _ | split) | dsimp only)

theorem notifyWait_same {al : Allow} {bd : Dev} (w : Wait) (v : DWord) (d : Dev) (hk : Same al bd d) (w0 : al.regs = true := by assumption) (w1 : al.strand = true := by assumption) (w2 : al.tx = true := by assumption) : Same al bd (notifyWait w v d) := by
  unfold notifyWait
  repeat' (first | with_reducible (first | assumption | apply bump_same | apply queueMsg_same | refine ite_same ?_ ?_ | intro _ | split) | dsimp only)

theorem syncSet_same {al : Allow} {bd : Dev} (o : Nat) (v : DWord) (d : Dev) (hk : Same al bd d) (w0 : al.regs = true := by assumption) (w1 : al.strand = true := by assumption) (w2 : al.sync = true := by assumption) (w3 : al.tx = true := by assumption) : Same al bd (syncSet o v d) := by
  unfold syncSet
  repeat' (first | with_reducible (first | assumption | apply forEach_same | apply notifyWait_same | refine ite_same ?_ ?_ | intro _ | split) | simp only [same_sync, w2] | dsimp only)

theorem syncOrder_same {al : Allow} {bd : Dev} (o p cycle : Nat) (d : Dev) (hk : Same al bd d) (w0 : al.regs = true := by assumption) (w1 : al.sync = true := by assumption) : Same al bd (syncOrder o p cycle d) := by
  unfold syncOrder
  repeat' (first | with_reducible (first | assumption | apply choice_same | refine ite_same ?_ ?_ | intro _ | split) | simp only [same_sync, w1] | dsimp only)

theorem syncSignal_same {al : Allow} {bd : Dev} (p o op : Nat) (v : DWord) (cycle : Nat) (d : Dev) (hk : Same al bd d) (w0 : al.regs = true := by assumption) (w1 : al.strand = true := by assumption) (w2 : al.sync = true := by assumption) (w3 : al.tx = true := by assumption) : Same al bd (syncSignal p o op v cycle d) := by
  unfold syncSignal
  repeat' (first | with_reducible (first | assumption | apply bump_same | apply syncSet_same | apply syncOrder_same | refine ite_same ?_ ?_ | intro _ | split) | dsimp only)

theorem dropWaits_same {al : Allow} {bd : Dev} (f : Wait → Bool) (d : Dev) (hk : Same al bd d) (w0 : al.sync = true := by assumption) : Same al bd (dropWaits f d) := by
  unfold dropWaits
  repeat' (first | with_reducible (first | assumption | refine ite_same ?_ ?_ | intro _ | split) | simp only [same_sync, w0] | dsimp only)

theorem doSyncSignal_same {al : Allow} {bd : Dev} (p aid : Nat) (m : Dgram) (d : Dev) (hk : Same al bd d) (w0 : al.regs = true := by assumption) (w1 : al.strand = true := by assumption) (w2 : al.sync = true := by assumption) (w3 : al.tx = true := by assumption) : Same al bd (doSyncSignal p aid m d) := by
  unfold doSyncSignal
  repeat' (first | with_reducible (first | assumption | apply sendReply_same | apply syncSignal_same | refine ite_same ?_ ?_ | intro _ | split) | dsimp only)

theorem doSyncWait_same {al : Allow} {bd : Dev} (p aid : Nat) (m : Dgram) (d : Dev) (hk : Same al bd d) (w0 : al.regs = true := by assumption) (w1 : al.strand = true := by assumption) (w2 : al.sync = true := by assumption) (w3 : al.tx = true := by assumption) : Same al bd (doSyncWait p aid m d) := by
  unfold doSyncWait
  repeat' (first | with_reducible (first | assumption | apply sendReply_same | apply notifyWait_same | refine ite_same ?_ ?_ | intro _ | split) | simp only [same_sync, w2] | dsimp only)

theorem mapSyncLoss_same {al : Allow} {bd : Dev} (old new_ : List Byte) (d : Dev) (hk : Same al bd d) (w0 : al.sync = true := by assumption) : Same al bd (mapSyncLoss old new_ d) := by
  unfold mapSyncLoss
  repeat' (first | with_reducible (first | assumption | apply dropWaits_same | refine ite_same ?_ ?_ | intro _ | split) | simp only [same_sync, w0] | dsimp only)

theorem keyResult_same {al : Allow} {bd : Dev} (r : Nat) (d : Dev) (hk : Same al bd d) (w0 : al.peg = true := by assumption) : Same al bd (keyResult r d) := by
  unfold keyResult
  repeat' (first | with_reducible (first | assumption | refine ite_same ?_ ?_ | intro _ | split) | simp only [same_peg, w0] | dsimp only)

theorem keyAccepted_same {al : Allow} {bd : Dev} (code : Byte) (id : Word) (keys : SMap KeyEntry) (d : Dev) (hk : Same al bd d) (w0 : al.peg = true := by assumption) (w1 : al.rst = true := by assumption) : Same al bd (keyAccepted code id keys d) := by
  unfold keyAccepted
  repeat' (first | with_reducible (first | assumption | apply keyResult_same | refine ite_same ?_ ?_ | intro _ | split) | simp only [same_peg_rst, w0, w1] | dsimp only)

theorem closeSessions_same {al : Allow} {bd : Dev} (f : Session → Bool) (d : Dev) (hk : Same al bd d) (w0 : al.strand = true := by assumption) : Same al bd (closeSessions f d) := by
  unfold closeSessions
  repeat' (first | with_reducible (first | assumption | refine ite_same ?_ ?_ | intro _ | split) | simp only [same_strand, w0] | dsimp only)

theorem modSession_same {al : Allow} {bd : Dev} (num : Word) (f : Session → Session) (d : Dev) (hk : Same al bd d) (w0 : al.strand = true := by assumption) : Same al bd (modSession num f d) := by
  unfold modSession
  repeat' (first | with_reducible (first | assumption | refine ite_same ?_ ?_ | intro _ | split) | simp only [same_strand, w0] | dsimp only)

theorem keyRead_same {al : Allow} {bd : Dev} (s : Session) (d : Dev) (hk : Same al bd d) (w0 : al.strand = true := by assumption) (w1 : al.peg = true := by assumption) : Same al bd (keyRead s d) := by
  unfold keyRead
  repeat' (first | with_reducible (first | assumption | apply keyResult_same | apply modSession_same | refine ite_same ?_ ?_ | intro _ | split) | dsimp only)

theorem keyEnroll_same {al : Allow} {bd : Dev} (s : Session) (d : Dev) (hk : Same al bd d) (w0 : al.peg = true := by assumption) (w1 : al.rst = true := by assumption) : Same al bd (keyEnroll s d) := by
  unfold keyEnroll
  repeat' (first | with_reducible (first | assumption | apply keyResult_same | apply keyAccepted_same | refine ite_same ?_ ?_ | intro _ | split) | dsimp only)

theorem keyRevoke_same {al : Allow} {bd : Dev} (s : Session) (d : Dev) (hk : Same al bd d) (w0 : al.strand = true := by assumption) (w1 : al.peg = true := by assumption) (w2 : al.rst = true := by assumption) : Same al bd (keyRevoke s d) := by
  unfold keyRevoke
  repeat' (first | with_reducible (first | assumption | apply keyResult_same | apply keyAccepted_same | apply closeSessions_same | refine ite_same ?_ ?_ | intro _ | split) | dsimp only)

theorem keyCtl_same {al : Allow} {bd : Dev} (s : Session) (op : Nat) (d : Dev) (hk : Same al bd d) (w0 : al.strand = true := by assumption) (w1 : al.peg = true := by assumption) (w2 : al.rst = true := by assumption) : Same al bd (keyCtl s op d) := by
  unfold keyCtl
  repeat' (first | with_reducible (first | assumption | apply keyRead_same | apply keyEnroll_same | apply keyRevoke_same | refine ite_same ?_ ?_ | intro _ | split) | dsimp only)

theorem fwEvent_same {al : Allow} {bd : Dev} (ty : Nat) (code : Byte) (arg : Nat) (digest : List Byte) (d : Dev) (hk : Same al bd d) (w0 : al.regs = true := by assumption) (w1 : al.strand = true := by assumption) (w2 : al.peg = true := by assumption) (w3 : al.tx = true := by assumption) : Same al bd (fwEvent ty code arg digest d) := by
  unfold fwEvent
  repeat' (first | with_reducible (first | assumption | apply raiseEvent_same | refine ite_same ?_ ?_ | intro _ | split) | dsimp only)

theorem keyStoreWritten_same {al : Allow} {bd : Dev} (d : Dev) (hk : Same al bd d) (w0 : al.regs = true := by assumption) (w1 : al.flash = true := by assumption) (w2 : al.strand = true := by assumption) (w3 : al.peg = true := by assumption) (w4 : al.rst = true := by assumption) (w5 : al.tx = true := by assumption) : Same al bd (keyStoreWritten d) := by
  unfold keyStoreWritten
  repeat' (first | with_reducible (first | assumption | apply fwEvent_same | refine ite_same ?_ ?_ | intro _ | split) | simp only [same_flash_peg_rst, w1, w3, w4] | dsimp only)

theorem updState_same {al : Allow} {bd : Dev} (n : Nat) (d : Dev) (hk : Same al bd d) (w0 : al.peg = true := by assumption) : Same al bd (updState n d) := by
  unfold updState
  repeat' (first | with_reducible (first | assumption | refine ite_same ?_ ?_ | intro _ | split) | simp only [same_peg, w0] | dsimp only)

theorem updEnd_same {al : Allow} {bd : Dev} (code : Nat) (d : Dev) (hk : Same al bd d) (w0 : al.regs = true := by assumption) (w1 : al.strand = true := by assumption) (w2 : al.peg = true := by assumption) (w3 : al.tx = true := by assumption) : Same al bd (updEnd code d) := by
  unfold updEnd
  repeat' (first | with_reducible (first | assumption | apply bump_same | apply fwEvent_same | refine ite_same ?_ ?_ | intro _ | split) | simp only [same_peg, w2] | dsimp only)

theorem updAbort_same {al : Allow} {bd : Dev} (d : Dev) (hk : Same al bd d) (w0 : al.regs = true := by assumption) (w1 : al.strand = true := by assumption) (w2 : al.peg = true := by assumption) (w3 : al.tx = true := by assumption) : Same al bd (updAbort d) := by
  unfold updAbort
  repeat' (first | with_reducible (first | assumption | apply updEnd_same | refine ite_same ?_ ?_ | intro _ | split) | dsimp only)

theorem settleUpdate_same {al : Allow} {bd : Dev} (d : Dev) (hk : Same al bd d) (w0 : al.regs = true := by assumption) (w1 : al.strand = true := by assumption) (w2 : al.peg = true := by assumption) (w3 : al.tx = true := by assumption) : Same al bd (settleUpdate d) := by
  unfold settleUpdate
  repeat' (first | with_reducible (first | assumption | apply updAbort_same | refine ite_same ?_ ?_ | intro _ | split) | dsimp only)

theorem updStage_same {al : Allow} {bd : Dev} (sess : Word) (off total : Nat) (data : List Byte) (isLast : Bool) (d : Dev) (hk : Same al bd d) (w0 : al.regs = true := by assumption) (w1 : al.strand = true := by assumption) (w2 : al.peg = true := by assumption) (w3 : al.tx = true := by assumption) : Same al bd (updStage sess off total data isLast d) := by
  unfold updStage
  repeat' (first | with_reducible (first | assumption | apply updState_same | apply updEnd_same | refine ite_same ?_ ?_ | intro _ | split) | simp only [same_peg, w2] | dsimp only)

theorem chunkStage_same {al : Allow} {bd : Dev} (sess : Word) (p : List Byte) (d : Dev) (hk : Same al bd d) (w0 : al.regs = true := by assumption) (w1 : al.strand = true := by assumption) (w2 : al.peg = true := by assumption) (w3 : al.tx = true := by assumption) : Same al bd (chunkStage sess p d) := by
  unfold chunkStage
  repeat' (first | with_reducible (first | assumption | apply updStage_same | refine ite_same ?_ ?_ | intro _ | split) | dsimp only)

theorem updVerified_same {al : Allow} {bd : Dev} (d : Dev) (hk : Same al bd d) (w0 : al.regs = true := by assumption) (w1 : al.flash = true := by assumption) (w2 : al.strand = true := by assumption) (w3 : al.peg = true := by assumption) (w4 : al.rst = true := by assumption) (w5 : al.tx = true := by assumption) : Same al bd (updVerified d) := by
  unfold updVerified
  repeat' (first | with_reducible (first | assumption | apply updState_same | apply updEnd_same | refine ite_same ?_ ?_ | intro _ | split) | simp only [same_flash_peg_rst, w1, w3, w4] | dsimp only)

theorem updProgrammed_same {al : Allow} {bd : Dev} (readBackOk : Bool) (d : Dev) (hk : Same al bd d) (w0 : al.regs = true := by assumption) (w1 : al.fuses = true := by assumption) (w2 : al.flash = true := by assumption) (w3 : al.strand = true := by assumption) (w4 : al.peg = true := by assumption) (w5 : al.rst = true := by assumption) (w6 : al.tx = true := by assumption) : Same al bd (updProgrammed readBackOk d) := by
  unfold updProgrammed
  repeat' (first | with_reducible (first | assumption | apply updEnd_same | refine ite_same ?_ ?_ | intro _ | split) | simp only [same_fuses_flash_peg_rst, w1, w2, w4, w5] | dsimp only)

theorem updIdleTimeout_same {al : Allow} {bd : Dev} (d : Dev) (hk : Same al bd d) (w0 : al.regs = true := by assumption) (w1 : al.strand = true := by assumption) (w2 : al.peg = true := by assumption) (w3 : al.tx = true := by assumption) : Same al bd (updIdleTimeout d) := by
  unfold updIdleTimeout
  repeat' (first | with_reducible (first | assumption | apply updAbort_same | refine ite_same ?_ ?_ | intro _ | split) | dsimp only)

theorem frameDrop_same {al : Allow} {bd : Dev} (corr unc : Nat) (d : Dev) (hk : Same al bd d) (w0 : al.regs = true := by assumption) : Same al bd (frameDrop corr unc d) := by
  unfold frameDrop
  repeat' (first | with_reducible (first | assumption | apply addCtr_same | apply bump_same | refine ite_same ?_ ?_ | intro _ | split) | dsimp only)

theorem answerOwn_same {al : Allow} {bd : Dev} (own : Bool) (t : Tx) (d : Dev) (hk : Same al bd d) (w0 : al.regs = true := by assumption) (w1 : al.tx = true := by assumption) : Same al bd (answerOwn own t d) := by
  unfold answerOwn
  repeat' (first | with_reducible (first | assumption | apply bump_same | apply send_same | refine ite_same ?_ ?_ | intro _ | split) | dsimp only)

theorem arpRequest_same {al : Allow} {bd : Dev} (ip : Word) (d : Dev) (hk : Same al bd d) (w0 : al.regs = true := by assumption) (w1 : al.tx = true := by assumption) : Same al bd (arpRequest ip d) := by
  unfold arpRequest
  repeat' (first | with_reducible (first | assumption | apply answerOwn_same | refine ite_same ?_ ?_ | intro _ | split) | dsimp only)

theorem neighborSolicit_same {al : Allow} {bd : Dev} (ip : BitVec 128) (d : Dev) (hk : Same al bd d) (w0 : al.regs = true := by assumption) (w1 : al.tx = true := by assumption) : Same al bd (neighborSolicit ip d) := by
  unfold neighborSolicit
  repeat' (first | with_reducible (first | assumption | apply answerOwn_same | refine ite_same ?_ ?_ | intro _ | split) | dsimp only)

theorem icmpEcho_same {al : Allow} {bd : Dev} (dst : BitVec 128) (data : List Byte) (d : Dev) (hk : Same al bd d) (w0 : al.regs = true := by assumption) (w1 : al.tx = true := by assumption) : Same al bd (icmpEcho dst data d) := by
  unfold icmpEcho
  repeat' (first | with_reducible (first | assumption | apply answerOwn_same | refine ite_same ?_ ?_ | intro _ | split) | dsimp only)

theorem pfcBuffer_same {al : Allow} {bd : Dev} (strand : Bool) (low high : Nat) (d : Dev) (hk : Same al bd d) (w0 : al.regs = true := by assumption) (w1 : al.eth = true := by assumption) (w2 : al.tx = true := by assumption) : Same al bd (pfcBuffer strand low high d) := by
  unfold pfcBuffer
  repeat' (first | with_reducible (first | assumption | apply bump_same | apply send_same | refine ite_same ?_ ?_ | intro _ | split) | simp only [same_eth, w1] | dsimp only)

theorem flushAll_same {al : Allow} {bd : Dev} (d : Dev) (hk : Same al bd d) (w0 : al.strand = true := by assumption) (w1 : al.tx = true := by assumption) : Same al bd (flushAll d) := by
  unfold flushAll
  repeat' (first | with_reducible (first | assumption | apply forEach_same | apply flushAssoc_same | refine ite_same ?_ ?_ | intro _ | split) | dsimp only)

theorem pfcRx_same {al : Allow} {bd : Dev} (xoff : Bool) (prio : Nat) (d : Dev) (hk : Same al bd d) (w0 : al.regs = true := by assumption) (w1 : al.strand = true := by assumption) (w2 : al.eth = true := by assumption) (w3 : al.tx = true := by assumption) : Same al bd (pfcRx xoff prio d) := by
  unfold pfcRx
  repeat' (first | with_reducible (first | assumption | apply bump_same | apply flushAll_same | refine ite_same ?_ ?_ | intro _ | split) | simp only [same_eth, w2] | dsimp only)

theorem cnpRx_same {al : Allow} {bd : Dev} (qp : Nat) (d : Dev) (hk : Same al bd d) (w0 : al.free = true := by assumption) (w1 : al.eth = true := by assumption) : Same al bd (cnpRx qp d) := by
  unfold cnpRx draw
  split
  · exact hk
  · exact (same_free_eth (d := d) (by assumption) (by assumption)).2 hk

theorem ceOnRdma_same {al : Allow} {bd : Dev} (ce : Bool) (qp : Nat) (d : Dev) (hk : Same al bd d) (w0 : al.regs = true := by assumption) (w1 : al.eth = true := by assumption) (w2 : al.tx = true := by assumption) : Same al bd (ceOnRdma ce qp d) := by
  unfold ceOnRdma
  repeat' (first | with_reducible (first | assumption | apply bump_same | apply send_same | refine ite_same ?_ ?_ | intro _ | split) | simp only [same_eth, w1] | dsimp only)

theorem rdmaFirewallRefuse_same {al : Allow} {bd : Dev} (p qp : Nat) (d : Dev) (hk : Same al bd d) (w0 : al.regs = true := by assumption) (w1 : al.tx = true := by assumption) : Same al bd (rdmaFirewallRefuse p qp d) := by
  unfold rdmaFirewallRefuse
  repeat' (first | with_reducible (first | assumption | apply bump_same | apply send_same | refine ite_same ?_ ?_ | intro _ | split) | dsimp only)

theorem bootEventDue_same {al : Allow} {bd : Dev} (d : Dev) (hk : Same al bd d) (w0 : al.regs = true := by assumption) (w1 : al.strand = true := by assumption) (w2 : al.peg = true := by assumption) (w3 : al.tx = true := by assumption) : Same al bd (bootEventDue d) := by
  unfold bootEventDue
  repeat' (first | with_reducible (first | assumption | apply fwEvent_same | refine ite_same ?_ ?_ | intro _ | split) | simp only [same_peg, w2] | dsimp only)

theorem ethLinkUp_same {al : Allow} {bd : Dev} (d : Dev) (hk : Same al bd d) (w0 : al.regs = true := by assumption) (w1 : al.strand = true := by assumption) (w2 : al.eth = true := by assumption) (w3 : al.peg = true := by assumption) (w4 : al.tx = true := by assumption) : Same al bd (ethLinkUp d) := by
  unfold ethLinkUp
  repeat' (first | with_reducible (first | assumption | apply bootEventDue_same | refine ite_same ?_ ?_ | intro _ | split) | simp only [same_eth, w2] | dsimp only)

theorem linkGone_same {al : Allow} {bd : Dev} (lanes : Byte) (fec : Bool) (d : Dev) (hk : Same al bd d) (w0 : al.eth = true := by assumption) : Same al bd (linkGone lanes fec d) := by
  unfold linkGone
  repeat' (first | with_reducible (first | assumption | refine ite_same ?_ ?_ | intro _ | split) | simp only [same_eth, w0] | dsimp only)

theorem ethLinkDown_same {al : Allow} {bd : Dev} (lanes : Byte) (fec : Bool) (d : Dev) (hk : Same al bd d) (w0 : al.eth = true := by assumption) : Same al bd (ethLinkDown lanes fec d) := by
  unfold ethLinkDown
  repeat' (first | with_reducible (first | assumption | apply linkGone_same | refine ite_same ?_ ?_ | intro _ | split) | dsimp only)

theorem transceiverInsert_same {al : Allow} {bd : Dev} (d : Dev) (hk : Same al bd d) (w0 : al.eth = true := by assumption) : Same al bd (transceiverInsert d) := by
  unfold transceiverInsert
  repeat' (first | with_reducible (first | assumption | refine ite_same ?_ ?_ | intro _ | split) | simp only [same_eth, w0] | dsimp only)

theorem transceiverRemove_same {al : Allow} {bd : Dev} (d : Dev) (hk : Same al bd d) (w0 : al.eth = true := by assumption) : Same al bd (transceiverRemove d) := by
  unfold transceiverRemove
  repeat' (first | with_reducible (first | assumption | apply linkGone_same | refine ite_same ?_ ?_ | intro _ | split) | simp only [same_eth, w0] | dsimp only)

theorem addAlert_same {al : Allow} {bd : Dev} (c : Nat) (d : Dev) (hk : Same al bd d) (w0 : al.pwr = true := by assumption) : Same al bd (addAlert c d) := by
  unfold addAlert
  repeat' (first | with_reducible (first | assumption | refine ite_same ?_ ?_ | intro _ | split) | simp only [same_pwr, w0] | dsimp only)

theorem dropAlert_same {al : Allow} {bd : Dev} (c : Nat) (d : Dev) (hk : Same al bd d) (w0 : al.pwr = true := by assumption) : Same al bd (dropAlert c d) := by
  unfold dropAlert
  repeat' (first | with_reducible (first | assumption | refine ite_same ?_ ?_ | intro _ | split) | simp only [same_pwr, w0] | dsimp only)

theorem pwrEvent_same {al : Allow} {bd : Dev} (p ty cause arg : Nat) (persist : Bool) (d : Dev) (hk : Same al bd d) (w0 : al.regs = true := by assumption) (w1 : al.strand = true := by assumption) (w2 : al.peg = true := by assumption) (w3 : al.tx = true := by assumption) : Same al bd (pwrEvent p ty cause arg persist d) := by
  unfold pwrEvent
  repeat' (first | with_reducible (first | assumption | apply raiseEvent_same | refine ite_same ?_ ?_ | intro _ | split) | dsimp only)

theorem accountThrottle_same {al : Allow} {bd : Dev} (d : Dev) (hk : Same al bd d) (w0 : al.regs = true := by assumption) (w1 : al.pwr = true := by assumption) : Same al bd (accountThrottle d) := by
  unfold accountThrottle
  repeat' (first | with_reducible (first | assumption | apply addCtr_same | refine ite_same ?_ ?_ | intro _ | split) | simp only [same_pwr, w1] | dsimp only)

theorem thermalWarn_same {al : Allow} {bd : Dev} (d : Dev) (hk : Same al bd d) (w0 : al.regs = true := by assumption) (w1 : al.strand = true := by assumption) (w2 : al.peg = true := by assumption) (w3 : al.pwr = true := by assumption) (w4 : al.tx = true := by assumption) : Same al bd (thermalWarn d) := by
  unfold thermalWarn
  repeat' (first | with_reducible (first | assumption | apply bump_same | apply forEach_same | apply addAlert_same | apply pwrEvent_same | refine ite_same ?_ ?_ | intro _ | split) | simp only [same_pwr, w3] | dsimp only)

theorem thermalClear_same {al : Allow} {bd : Dev} (d : Dev) (hk : Same al bd d) (w0 : al.regs = true := by assumption) (w1 : al.strand = true := by assumption) (w2 : al.peg = true := by assumption) (w3 : al.pwr = true := by assumption) (w4 : al.tx = true := by assumption) : Same al bd (thermalClear d) := by
  unfold thermalClear
  repeat' (first | with_reducible (first | assumption | apply dropAlert_same | apply pwrEvent_same | refine ite_same ?_ ?_ | intro _ | split) | simp only [same_pwr, w3] | dsimp only)

theorem setTlevel_same {al : Allow} {bd : Dev} (n : Nat) (d : Dev) (hk : Same al bd d) (w0 : al.regs = true := by assumption) (w1 : al.strand = true := by assumption) (w2 : al.peg = true := by assumption) (w3 : al.pwr = true := by assumption) (w4 : al.tx = true := by assumption) : Same al bd (setTlevel n d) := by
  unfold setTlevel
  repeat' (first | with_reducible (first | assumption | apply pwrEvent_same | apply accountThrottle_same | refine ite_same ?_ ?_ | intro _ | split) | simp only [same_pwr, w3] | dsimp only)

theorem thermalCheck_same {al : Allow} {bd : Dev} (d : Dev) (hk : Same al bd d) (w0 : al.regs = true := by assumption) (w1 : al.strand = true := by assumption) (w2 : al.peg = true := by assumption) (w3 : al.pwr = true := by assumption) (w4 : al.tx = true := by assumption) : Same al bd (thermalCheck d) := by
  unfold thermalCheck
  repeat' (first | with_reducible (first | assumption | apply thermalWarn_same | refine ite_same ?_ ?_ | intro _ | split) | simp only [same_pwr, w3] | dsimp only)

theorem fastUpdate_same {al : Allow} {bd : Dev} (die : Nat) (d : Dev) (hk : Same al bd d) (w0 : al.regs = true := by assumption) : Same al bd (fastUpdate die d) := by
  unfold fastUpdate
  repeat' (first | with_reducible (first | assumption | apply regSetField_same | apply forEach_same | refine ite_same ?_ ?_ | intro _ | split) | dsimp only)

theorem snWrite_same {al : Allow} {bd : Dev} (die k : Nat) (v : Half) (d : Dev) (hk : Same al bd d) (w0 : al.regs = true := by assumption) : Same al bd (snWrite die k v d) := by
  unfold snWrite
  repeat' (first | with_reducible (first | assumption | apply regSetField_same | refine ite_same ?_ ?_ | intro _ | split) | dsimp only)

theorem graceEnd_same {al : Allow} {bd : Dev} (d : Dev) (hk : Same al bd d) (w0 : al.regs = true := by assumption) (w1 : al.strand = true := by assumption) (w2 : al.peg = true := by assumption) (w3 : al.pwr = true := by assumption) (w4 : al.tx = true := by assumption) : Same al bd (graceEnd d) := by
  unfold graceEnd
  repeat' (first | with_reducible (first | assumption | apply thermalClear_same | apply setTlevel_same | refine ite_same ?_ ?_ | intro _ | split) | simp only [same_pwr, w3] | dsimp only)

theorem tlevelStep_same {al : Allow} {bd : Dev} (held : Nat) (d : Dev) (hk : Same al bd d) (w0 : al.regs = true := by assumption) (w1 : al.strand = true := by assumption) (w2 : al.peg = true := by assumption) (w3 : al.pwr = true := by assumption) (w4 : al.tx = true := by assumption) : Same al bd (tlevelStep held d) := by
  unfold tlevelStep
  repeat' (first | with_reducible (first | assumption | apply addCtr_same | apply thermalClear_same | apply setTlevel_same | refine ite_same ?_ ?_ | intro _ | split) | simp only [same_pwr, w3] | dsimp only)

theorem setPlevel_same {al : Allow} {bd : Dev} (n : Nat) (d : Dev) (hk : Same al bd d) (w0 : al.regs = true := by assumption) (w1 : al.strand = true := by assumption) (w2 : al.peg = true := by assumption) (w3 : al.pwr = true := by assumption) (w4 : al.tx = true := by assumption) : Same al bd (setPlevel n d) := by
  unfold setPlevel
  repeat' (first | with_reducible (first | assumption | apply bump_same | apply pwrEvent_same | apply accountThrottle_same | refine ite_same ?_ ?_ | intro _ | split) | simp only [same_pwr, w3] | dsimp only)

theorem plevelStep_same {al : Allow} {bd : Dev} (held : Nat) (d : Dev) (hk : Same al bd d) (w0 : al.regs = true := by assumption) (w1 : al.strand = true := by assumption) (w2 : al.peg = true := by assumption) (w3 : al.pwr = true := by assumption) (w4 : al.tx = true := by assumption) : Same al bd (plevelStep held d) := by
  unfold plevelStep
  repeat' (first | with_reducible (first | assumption | apply addCtr_same | apply setPlevel_same | apply foldl_same | apply foldl_same_snd | apply foldl_same_thd | refine ite_same ?_ ?_ | intro _ | split) | simp only [same_pwr, w3] | dsimp only)

theorem powerSample_same {al : Allow} {bd : Dev} (hbms : List (Nat × Nat × Half)) (vin iin pin : Half) (d : Dev) (hk : Same al bd d) (w0 : al.regs = true := by assumption) (w1 : al.strand = true := by assumption) (w2 : al.peg = true := by assumption) (w3 : al.pwr = true := by assumption) (w4 : al.tx = true := by assumption) : Same al bd (powerSample hbms vin iin pin d) := by
  unfold powerSample
  repeat' (first | with_reducible (first | assumption | apply regSetField_same | apply bump_same | apply forEach_same | apply addAlert_same | apply dropAlert_same | apply pwrEvent_same | apply thermalCheck_same | apply snWrite_same | apply foldl_same | apply foldl_same_snd | apply foldl_same_thd | refine ite_same ?_ ?_ | intro _ | split) | simp only [same_pwr, w3] | dsimp only)

theorem setTap_same {al : Allow} {bd : Dev} (n : Nat) (d : Dev) (hk : Same al bd d) (w0 : al.pins = true := by assumption) : Same al bd (setTap n d) := by
  unfold setTap
  repeat' (first | with_reducible (first | assumption | refine ite_same ?_ ?_ | intro _ | split) | simp only [same_pins, w0] | dsimp only)

theorem tapReset_same {al : Allow} {bd : Dev} (level : Bool) (d : Dev) (hk : Same al bd d) (w0 : al.pins = true := by assumption) : Same al bd (tapReset level d) := by
  unfold tapReset
  repeat' (first | with_reducible (first | assumption | refine ite_same ?_ ?_ | intro _ | split) | simp only [same_pins, w0] | dsimp only)

theorem jtagIdcode_same {al : Allow} {bd : Dev} (d : Dev) (hk : Same al bd d) (w0 : al.pins = true := by assumption) (w1 : al.tx = true := by assumption) : Same al bd (jtagIdcode d) := by
  unfold jtagIdcode
  repeat' (first | with_reducible (first | assumption | apply send_same | apply setTap_same | refine ite_same ?_ ?_ | intro _ | split) | dsimp only)

theorem bypassShift_same {al : Allow} {bd : Dev} (tdi : List Bool) (d : Dev) (hk : Same al bd d) (w0 : al.pins = true := by assumption) (w1 : al.tx = true := by assumption) : Same al bd (bypassShift tdi d) := by
  unfold bypassShift
  repeat' (first | with_reducible (first | assumption | apply send_same | refine ite_same ?_ ?_ | intro _ | split) | simp only [same_pins, w0] | dsimp only)

theorem jtagBypass_same {al : Allow} {bd : Dev} (tdi : List Bool) (d : Dev) (hk : Same al bd d) (w0 : al.pins = true := by assumption) (w1 : al.tx = true := by assumption) : Same al bd (jtagBypass tdi d) := by
  unfold jtagBypass
  repeat' (first | with_reducible (first | assumption | apply setTap_same | apply bypassShift_same | refine ite_same ?_ ?_ | intro _ | split) | simp only [same_pins, w0] | dsimp only)

theorem jtagSample_same {al : Allow} {bd : Dev} (preload : List (Nat × Bool)) (d : Dev) (hk : Same al bd d) (w0 : al.pins = true := by assumption) (w1 : al.tx = true := by assumption) : Same al bd (jtagSample preload d) := by
  unfold jtagSample
  repeat' (first | with_reducible (first | assumption | apply send_same | apply setTap_same | refine ite_same ?_ ?_ | intro _ | split) | simp only [same_pins, w0] | dsimp only)

theorem jtagExtest_same {al : Allow} {bd : Dev} (cells : List (Nat × Bool)) (tdi : List Bool) (d : Dev) (hk : Same al bd d) (w0 : al.pins = true := by assumption) (w1 : al.tx = true := by assumption) : Same al bd (jtagExtest cells tdi d) := by
  unfold jtagExtest
  repeat' (first | with_reducible (first | assumption | apply setTap_same | apply bypassShift_same | refine ite_same ?_ ?_ | intro _ | split) | simp only [same_pins, w0] | dsimp only)

theorem jtagClamp_same {al : Allow} {bd : Dev} (tdi : List Bool) (d : Dev) (hk : Same al bd d) (w0 : al.pins = true := by assumption) (w1 : al.tx = true := by assumption) : Same al bd (jtagClamp tdi d) := by
  unfold jtagClamp
  repeat' (first | with_reducible (first | assumption | apply setTap_same | apply bypassShift_same | refine ite_same ?_ ?_ | intro _ | split) | simp only [same_pins, w0] | dsimp only)

theorem ppsOut_same {al : Allow} {bd : Dev} (d : Dev) (hk : Same al bd d) (w0 : al.pins = true := by assumption) : Same al bd (ppsOut d) := by
  unfold ppsOut
  repeat' (first | with_reducible (first | assumption | refine ite_same ?_ ?_ | intro _ | split) | simp only [same_pins, w0] | dsimp only)

theorem ppsFall_same {al : Allow} {bd : Dev} (d : Dev) (hk : Same al bd d) (w0 : al.pins = true := by assumption) : Same al bd (ppsFall d) := by
  unfold ppsFall
  repeat' (first | with_reducible (first | assumption | apply ppsOut_same | refine ite_same ?_ ?_ | intro _ | split) | simp only [same_pins, w0] | dsimp only)

theorem putChan_same {al : Allow} {bd : Dev} (ch : Nat) (c : Chan) (d : Dev) (hk : Same al bd d) (w0 : al.links = true := by assumption) : Same al bd (putChan ch c d) := by
  unfold putChan
  repeat' (first | with_reducible (first | assumption | refine ite_same ?_ ?_ | intro _ | split) | simp only [same_links, w0] | dsimp only)

theorem putLink_same {al : Allow} {bd : Dev} (l : Nat) (k : Link) (d : Dev) (hk : Same al bd d) (w0 : al.links = true := by assumption) : Same al bd (putLink l k d) := by
  unfold putLink
  repeat' (first | with_reducible (first | assumption | refine ite_same ?_ ?_ | intro _ | split) | simp only [same_links, w0] | dsimp only)

theorem sendFlit_same {al : Allow} {bd : Dev} (ch : Nat) (h : DWord) (payload : List Byte) (d : Dev) (hk : Same al bd d) (w0 : al.links = true := by assumption) (w1 : al.tx = true := by assumption) : Same al bd (sendFlit ch h payload d) := by
  unfold sendFlit
  repeat' (first | with_reducible (first | assumption | apply send_same | apply putChan_same | refine ite_same ?_ ?_ | intro _ | split) | dsimp only)

theorem countReplay_same {al : Allow} {bd : Dev} (ch : Nat) (d : Dev) (hk : Same al bd d) (w0 : al.regs = true := by assumption) : Same al bd (countReplay ch d) := by
  unfold countReplay
  repeat' (first | with_reducible (first | assumption | apply addField_same | refine ite_same ?_ ?_ | intro _ | split) | dsimp only)

theorem startRetrain_same {al : Allow} {bd : Dev} (l : Nat) (d : Dev) (hk : Same al bd d) (w0 : al.regs = true := by assumption) (w1 : al.links = true := by assumption) : Same al bd (startRetrain l d) := by
  unfold startRetrain
  repeat' (first | with_reducible (first | assumption | apply addField_same | apply putLink_same | refine ite_same ?_ ?_ | intro _ | split) | dsimp only)

theorem flitCrcFail_same {al : Allow} {bd : Dev} (ch : Nat) (h : DWord) (payload : List Byte) (crc : BitVec 40) (replayed : Bool) (d : Dev) (hk : Same al bd d) (w0 : al.regs = true := by assumption) (w1 : al.links = true := by assumption) (w2 : al.tx = true := by assumption) : Same al bd (flitCrcFail ch h payload crc replayed d) := by
  unfold flitCrcFail
  repeat' (first | with_reducible (first | assumption | apply send_same | apply putChan_same | apply countReplay_same | apply startRetrain_same | refine ite_same ?_ ?_ | intro _ | split) | dsimp only)

theorem relay_same {al : Allow} {bd : Dev} (l : List (Nat × Nat)) (h : DWord) (payload : List Byte) (d : Dev) (hk : Same al bd d) (w0 : al.links = true := by assumption) (w1 : al.tx = true := by assumption) : Same al bd (relay l h payload d) := by
  induction l generalizing d with
  | nil => exact hk
  | cons x r ih =>
    obtain ⟨ch, vc⟩ := x
    unfold relay
    split
    · exact ih _ (sendFlit_same _ _ _ _ hk)
    · exact putChan_same _ _ _ hk

theorem replayFrom_same {al : Allow} {bd : Dev} (ch lseq : Nat) (d : Dev) (hk : Same al bd d) (w0 : al.tx = true := by assumption) : Same al bd (replayFrom ch lseq d) := by
  unfold replayFrom
  repeat' (first | with_reducible (first | assumption | apply send_same | apply forEach_same | refine ite_same ?_ ?_ | intro _ | split) | dsimp only)

theorem replayRequestRx_same {al : Allow} {bd : Dev} (ch lseq : Nat) (d : Dev) (hk : Same al bd d) (w0 : al.links = true := by assumption) (w1 : al.tx = true := by assumption) : Same al bd (replayRequestRx ch lseq d) := by
  unfold replayRequestRx
  repeat' (first | with_reducible (first | assumption | apply putChan_same | apply replayFrom_same | refine ite_same ?_ ?_ | intro _ | split) | dsimp only)

theorem flushChan_same {al : Allow} {bd : Dev} (ch : Nat) (d : Dev) (hk : Same al bd d) (w0 : al.links = true := by assumption) (w1 : al.tx = true := by assumption) : Same al bd (flushChan ch d) := by
  unfold flushChan
  repeat' (first | with_reducible (first | assumption | apply forEach_same | apply putChan_same | apply relay_same | apply replayFrom_same | refine ite_same ?_ ?_ | intro _ | split) | dsimp only)

theorem linkUp_same {al : Allow} {bd : Dev} (l : Nat) (d : Dev) (hk : Same al bd d) (w0 : al.links = true := by assumption) (w1 : al.tx = true := by assumption) : Same al bd (linkUp l d) := by
  unfold linkUp
  repeat' (first | with_reducible (first | assumption | apply forEach_same | apply putLink_same | apply flushChan_same | refine ite_same ?_ ?_ | intro _ | split) | dsimp only)

theorem retrained_same {al : Allow} {bd : Dev} (l : Nat) (ok : Bool) (d : Dev) (hk : Same al bd d) (w0 : al.regs = true := by assumption) (w1 : al.links = true := by assumption) (w2 : al.tx = true := by assumption) : Same al bd (retrained l ok d) := by
  unfold retrained
  repeat' (first | with_reducible (first | assumption | apply putLink_same | apply startRetrain_same | apply linkUp_same | refine ite_same ?_ ?_ | intro _ | split) | dsimp only)

theorem firewallFlit_same {al : Allow} {bd : Dev} (b : Nat) (h : DWord) (d : Dev) (hk : Same al bd d) (w0 : al.regs = true := by assumption) : Same al bd (firewallFlit b h d) := by
  unfold firewallFlit
  repeat' (first | with_reducible (first | assumption | apply bump_same | refine ite_same ?_ ?_ | intro _ | split) | dsimp only)

theorem countFb_same {al : Allow} {bd : Dev} (p src : Nat) (h : DWord) (d : Dev) (hk : Same al bd d) (w0 : al.regs = true := by assumption) : Same al bd (countFb p src h d) := by
  unfold countFb
  repeat' (first | with_reducible (first | assumption | apply addWrap_same | refine ite_same ?_ ?_ | intro _ | split) | dsimp only)

theorem nodeInject_same {al : Allow} {bd : Dev} (p src : Nat) (h : DWord) (payload : List Byte) (d : Dev) (hk : Same al bd d) (w0 : al.regs = true := by assumption) (w1 : al.links = true := by assumption) (w2 : al.tx = true := by assumption) : Same al bd (nodeInject p src h payload d) := by
  unfold nodeInject
  repeat' (first | with_reducible (first | assumption | apply relay_same | apply countFb_same | refine ite_same ?_ ?_ | intro _ | split) | dsimp only)

theorem fretInject_same {al : Allow} {bd : Dev} (p b : Nat) (h : DWord) (payload : List Byte) (d : Dev) (hk : Same al bd d) (w0 : al.regs = true := by assumption) (w1 : al.links = true := by assumption) (w2 : al.fret = true := by assumption) (w3 : al.tx = true := by assumption) : Same al bd (fretInject p b h payload d) := by
  unfold fretInject
  repeat' (first | with_reducible (first | assumption | apply relay_same | apply countFb_same | refine ite_same ?_ ?_ | intro _ | split) | simp only [same_fret, w2] | dsimp only)

theorem ringTake_same {al : Allow} {bd : Dev} (b c : Nat) (payload : List Byte) (d : Dev) (hk : Same al bd d) (w0 : al.fret = true := by assumption) : Same al bd (ringTake b c payload d) := by
  unfold ringTake
  repeat' (first | with_reducible (first | assumption | refine ite_same ?_ ?_ | intro _ | split) | simp only [same_fret, w0] | dsimp only)

theorem ringDrop_same {al : Allow} {bd : Dev} (p : Nat) (d : Dev) (hk : Same al bd d) (w0 : al.fret = true := by assumption) : Same al bd (ringDrop p d) := by
  unfold ringDrop
  repeat' (first | with_reducible (first | assumption | apply foldl_same | apply foldl_same_snd | apply foldl_same_thd | refine ite_same ?_ ?_ | intro _ | split) | simp only [same_fret, w0] | dsimp only)

theorem neckBulk_same {al : Allow} {bd : Dev} (p b c : Nat) (l : List Byte) (d : Dev) (hk : Same al bd d) (w0 : al.regs = true := by assumption) (w1 : al.links = true := by assumption) (w2 : al.tx = true := by assumption) : Same al bd (neckBulk p b c l d) := by
  unfold neckBulk
  repeat' (first | with_reducible (first | assumption | apply forEach_same | apply nodeInject_same | refine ite_same ?_ ?_ | intro _ | split) | dsimp only)

theorem bridgeBulk_same {al : Allow} {bd : Dev} (p src b cls : Nat) (l : List Byte) (d : Dev) (hk : Same al bd d) (w0 : al.regs = true := by assumption) (w1 : al.links = true := by assumption) (w2 : al.tx = true := by assumption) : Same al bd (bridgeBulk p src b cls l d) := by
  unfold bridgeBulk
  repeat' (first | with_reducible (first | assumption | apply forEach_same | apply nodeInject_same | refine ite_same ?_ ?_ | intro _ | split) | dsimp only)

theorem errRecord_same {al : Allow} {bd : Dev} (ty part die course ptile wtile group layer stage result stream colmask : Nat) (persist : Bool) (d : Dev) (hk : Same al bd d) (w0 : al.regs = true := by assumption) (w1 : al.strand = true := by assumption) (w2 : al.peg = true := by assumption) (w3 : al.tx = true := by assumption) : Same al bd (errRecord ty part die course ptile wtile group layer stage result stream colmask persist d) := by
  unfold errRecord
  repeat' (first | with_reducible (first | assumption | apply raiseEvent_same | refine ite_same ?_ ?_ | intro _ | split) | dsimp only)

theorem hbmRead_same {al : Allow} {bd : Dev} (b a n : Nat) (d : Dev) (hk : Same al bd d) (w0 : al.regs = true := by assumption) : Same al bd (hbmRead b a n d) := by
  unfold hbmRead
  repeat' (first | with_reducible (first | assumption | apply addCtr_same | refine ite_same ?_ ?_ | intro _ | split) | dsimp only)

theorem hbmCount_same {al : Allow} {bd : Dev} (p n : Nat) (d : Dev) (hk : Same al bd d) (w0 : al.regs = true := by assumption) : Same al bd (hbmCount p n d) := by
  unfold hbmCount
  exact addWrap_same _ _ _ hk

theorem setByte_same {al : Allow} {bd : Dev} (b a : Nat) (v : Byte) (d : Dev) (hk : Same al bd d) (w0 : al.mem = true := by assumption) : Same al bd (setByte b a v d) := by
  unfold setByte
  repeat' (first | with_reducible (first | assumption | refine ite_same ?_ ?_ | intro _ | split) | simp only [same_mem, w0] | dsimp only)

theorem hbmWrite_same {al : Allow} {bd : Dev} (b a : Nat) (bytes : List Byte) (d : Dev) (hk : Same al bd d) (w0 : al.mem = true := by assumption) (w1 : al.poison = true := by assumption) : Same al bd (hbmWrite b a bytes d) := by
  unfold hbmWrite
  repeat' (first | with_reducible (first | assumption | refine ite_same ?_ ?_ | intro _ | split) | simp only [same_mem_poison, w0, w1] | dsimp only)

theorem carryPoison_same {al : Allow} {bd : Dev} (srcB src b a n : Nat) (d : Dev) (hk : Same al bd d) (w0 : al.poison = true := by assumption) : Same al bd (carryPoison srcB src b a n d) := by
  unfold carryPoison
  repeat' (first | with_reducible (first | assumption | apply foldl_same | apply foldl_same_snd | apply foldl_same_thd | refine ite_same ?_ ?_ | intro _ | split) | simp only [same_poison, w0] | dsimp only)

theorem hbmZero_same {al : Allow} {bd : Dev} (b a n : Nat) (d : Dev) (hk : Same al bd d) (w0 : al.mem = true := by assumption) (w1 : al.poison = true := by assumption) : Same al bd (hbmZero b a n d) := by
  unfold hbmZero
  repeat' (first | with_reducible (first | assumption | refine ite_same ?_ ?_ | intro _ | split) | simp only [same_mem_poison, w0, w1] | dsimp only)

theorem poisonWord_same {al : Allow} {bd : Dev} (b a : Nat) (d : Dev) (hk : Same al bd d) (w0 : al.poison = true := by assumption) : Same al bd (poisonWord b a d) := by
  unfold poisonWord
  repeat' (first | with_reducible (first | assumption | refine ite_same ?_ ?_ | intro _ | split) | simp only [same_poison, w0] | dsimp only)

theorem hbmVerdict_same {al : Allow} {bd : Dev} (b a n : Nat) (d : Dev) (hk : Same al bd d) (w0 : al.regs = true := by assumption) (w1 : al.strand = true := by assumption) (w2 : al.peg = true := by assumption) (w3 : al.poison = true := by assumption) (w4 : al.tx = true := by assumption) : Same al bd (hbmVerdict b a n d) := by
  unfold hbmVerdict
  repeat' (first | with_reducible (first | assumption | apply bump_same | apply errRecord_same | apply poisonWord_same | refine ite_same ?_ ?_ | intro _ | split) | dsimp only)

theorem hbmErr_same {al : Allow} {bd : Dev} (b a n : Nat) (d : Dev) (hk : Same al bd d) (w0 : al.regs = true := by assumption) (w1 : al.strand = true := by assumption) (w2 : al.peg = true := by assumption) (w3 : al.poison = true := by assumption) (w4 : al.tx = true := by assumption) : Same al bd (hbmErr b a n d) := by
  unfold hbmErr
  repeat' (first | with_reducible (first | assumption | apply bump_same | apply hbmVerdict_same | refine ite_same ?_ ?_ | intro _ | split) | dsimp only)

theorem hbmReadEcc_same {al : Allow} {bd : Dev} (b a n : Nat) (errs : List (Nat × Nat)) (d : Dev) (hk : Same al bd d) (w0 : al.regs = true := by assumption) (w1 : al.strand = true := by assumption) (w2 : al.peg = true := by assumption) (w3 : al.poison = true := by assumption) (w4 : al.tx = true := by assumption) : Same al bd (hbmReadEcc b a n errs d) := by
  unfold hbmReadEcc
  repeat' (first | with_reducible (first | assumption | apply addCtr_same | apply forEach_same | apply hbmVerdict_same | refine ite_same ?_ ?_ | intro _ | split) | dsimp only)

theorem patrolScrub_same {al : Allow} {bd : Dev} (b stack addr n : Nat) (d : Dev) (hk : Same al bd d) (w0 : al.regs = true := by assumption) (w1 : al.strand = true := by assumption) (w2 : al.peg = true := by assumption) (w3 : al.poison = true := by assumption) (w4 : al.tx = true := by assumption) : Same al bd (patrolScrub b stack addr n d) := by
  unfold patrolScrub
  repeat' (first | with_reducible (first | assumption | apply hbmErr_same | refine ite_same ?_ ?_ | intro _ | split) | dsimp only)

theorem putTune_same {al : Allow} {bd : Dev} (p : Nat) (t : Tune) (d : Dev) (hk : Same al bd d) (w0 : al.tunes = true := by assumption) : Same al bd (putTune p t d) := by
  unfold putTune
  repeat' (first | with_reducible (first | assumption | refine ite_same ?_ ?_ | intro _ | split) | simp only [same_tunes, w0] | dsimp only)

theorem modTune_same {al : Allow} {bd : Dev} (p : Nat) (f : Tune → Tune) (d : Dev) (hk : Same al bd d) (w0 : al.tunes = true := by assumption) : Same al bd (modTune p f d) := by
  unfold modTune
  repeat' (first | with_reducible (first | assumption | apply putTune_same | refine ite_same ?_ ?_ | intro _ | split) | dsimp only)

theorem writeTables_same {al : Allow} {bd : Dev} (b : Nat) (q : Pub) (d : Dev) (hk : Same al bd d) (w0 : al.mem = true := by assumption) (w1 : al.poison = true := by assumption) : Same al bd (writeTables b q d) := by
  unfold writeTables
  repeat' (first | with_reducible (first | assumption | apply forEach_same | apply hbmWrite_same | apply hbmZero_same | refine ite_same ?_ ?_ | intro _ | split) | dsimp only)

theorem putKv_same {al : Allow} {bd : Dev} (b : Nat) (k : KvBridge) (d : Dev) (hk : Same al bd d) (w0 : al.kv = true := by assumption) : Same al bd (putKv b k d) := by
  unfold putKv
  repeat' (first | with_reducible (first | assumption | refine ite_same ?_ ?_ | intro _ | split) | simp only [same_kv, w0] | dsimp only)

theorem modKv_same {al : Allow} {bd : Dev} (b : Nat) (f : KvBridge → KvBridge) (d : Dev) (hk : Same al bd d) (w0 : al.kv = true := by assumption) : Same al bd (modKv b f d) := by
  unfold modKv
  repeat' (first | with_reducible (first | assumption | apply putKv_same | refine ite_same ?_ ?_ | intro _ | split) | dsimp only)

theorem refFrame_same {al : Allow} {bd : Dev} (b loc addr : Nat) (d : Dev) (hk : Same al bd d) (w0 : al.kv = true := by assumption) : Same al bd (refFrame b loc addr d) := by
  unfold refFrame
  repeat' (first | with_reducible (first | assumption | apply modKv_same | refine ite_same ?_ ?_ | intro _ | split) | dsimp only)

theorem unrefFrame_same {al : Allow} {bd : Dev} (b f : Nat) (d : Dev) (hk : Same al bd d) (w0 : al.kv = true := by assumption) : Same al bd (unrefFrame b f d) := by
  unfold unrefFrame
  repeat' (first | with_reducible (first | assumption | apply modKv_same | refine ite_same ?_ ?_ | intro _ | split) | dsimp only)

theorem acceptEdit_same {al : Allow} {bd : Dev} (b : Nat) (e : Edit) (d : Dev) (hk : Same al bd d) (w0 : al.kv = true := by assumption) : Same al bd (acceptEdit b e d) := by
  unfold acceptEdit
  repeat' (first | with_reducible (first | assumption | apply modKv_same | refine ite_same ?_ ?_ | intro _ | split) | dsimp only)

theorem mapPage_same {al : Allow} {bd : Dev} (p b idx rk key : Nat) (d : Dev) (hk : Same al bd d) (w0 : al.mem = true := by assumption) (w1 : al.poison = true := by assumption) (w2 : al.kv = true := by assumption) : Same al bd (mapPage p b idx rk key d) := by
  unfold mapPage
  repeat' (first | with_reducible (first | assumption | apply hbmZero_same | apply refFrame_same | apply acceptEdit_same | refine ite_same ?_ ?_ | intro _ | split) | dsimp only)

theorem dropBufs_same {al : Allow} {bd : Dev} (b : Nat) (f : StgBuf → Bool) (d : Dev) (hk : Same al bd d) (w0 : al.kv = true := by assumption) : Same al bd (dropBufs b f d) := by
  unfold dropBufs
  repeat' (first | with_reducible (first | assumption | apply modKv_same | refine ite_same ?_ ?_ | intro _ | split) | dsimp only)

theorem releaseRegion_same {al : Allow} {bd : Dev} (b idx rk : Nat) (d : Dev) (hk : Same al bd d) (w0 : al.kv = true := by assumption) : Same al bd (releaseRegion b idx rk d) := by
  unfold releaseRegion
  repeat' (first | with_reducible (first | assumption | apply modKv_same | apply acceptEdit_same | apply dropBufs_same | refine ite_same ?_ ?_ | intro _ | split) | dsimp only)

theorem cacheLook_same {al : Allow} {bd : Dev} (b key : Nat) (fill : Bool) (d : Dev) (hk : Same al bd d) (w0 : al.regs = true := by assumption) (w1 : al.kv = true := by assumption) : Same al bd (cacheLook b key fill d) := by
  unfold cacheLook
  repeat' (first | with_reducible (first | assumption | apply bump_same | apply putKv_same | refine ite_same ?_ ?_ | intro _ | split) | dsimp only)

theorem publishEdits_same {al : Allow} {bd : Dev} (b : Nat) (d : Dev) (hk : Same al bd d) (w0 : al.regs = true := by assumption) (w1 : al.mem = true := by assumption) (w2 : al.poison = true := by assumption) (w3 : al.kv = true := by assumption) : Same al bd (publishEdits b d).2 := by
  unfold publishEdits
  repeat' (first | with_reducible (first | assumption | apply addCtr_same | apply forEach_same | apply writeTables_same | apply putKv_same | apply unrefFrame_same | apply foldl_same | apply foldl_same_snd | apply foldl_same_thd | refine ite_same ?_ ?_ | intro _ | split) | dsimp only)

theorem generationEnd_same {al : Allow} {bd : Dev} (b : Nat) (d : Dev) (hk : Same al bd d) (w0 : al.kv = true := by assumption) : Same al bd (generationEnd b d) := by
  unfold generationEnd
  repeat' (first | with_reducible (first | assumption | apply modKv_same | apply foldl_same | apply foldl_same_snd | apply foldl_same_thd | refine ite_same ?_ ?_ | intro _ | split) | dsimp only)

theorem takeRegion_same {al : Allow} {bd : Dev} (p b rk model mode maxlen prefixLen : Nat) (r : List Byte) (d : Dev) (hk : Same al bd d) (w0 : al.kv = true := by assumption) : ∀ d1, takeRegion p b rk model mode maxlen prefixLen r d = some d1 → Same al bd d1 := by
  intro d1 hd1
  unfold takeRegion at hd1
  obtain ⟨base, _, rfl⟩ := Option.map_eq_some_iff.1 hd1
  exact modKv_same _ _ _ hk

theorem modRegion_same {al : Allow} {bd : Dev} (b rk : Nat) (f : Region → Region) (d : Dev) (hk : Same al bd d) (w0 : al.kv = true := by assumption) : Same al bd (modRegion b rk f d) := by
  unfold modRegion
  repeat' (first | with_reducible (first | assumption | apply modKv_same | refine ite_same ?_ ?_ | intro _ | split) | dsimp only)

theorem putTile_same {al : Allow} {bd : Dev} (f c t : Nat) (x : Tile) (d : Dev) (hk : Same al bd d) (w0 : al.fret = true := by assumption) : Same al bd (putTile f c t x d) := by
  unfold putTile
  repeat' (first | with_reducible (first | assumption | refine ite_same ?_ ?_ | intro _ | split) | simp only [same_fret, w0] | dsimp only)

theorem modTile_same {al : Allow} {bd : Dev} (f c t : Nat) (g : Tile → Tile) (d : Dev) (hk : Same al bd d) (w0 : al.fret = true := by assumption) : Same al bd (modTile f c t g d) := by
  unfold modTile
  repeat' (first | with_reducible (first | assumption | apply putTile_same | refine ite_same ?_ ?_ | intro _ | split) | dsimp only)

theorem putCourse_same {al : Allow} {bd : Dev} (f c : Nat) (x : Course) (d : Dev) (hk : Same al bd d) (w0 : al.fret = true := by assumption) : Same al bd (putCourse f c x d) := by
  unfold putCourse
  repeat' (first | with_reducible (first | assumption | refine ite_same ?_ ?_ | intro _ | split) | simp only [same_fret, w0] | dsimp only)

theorem modCourse_same {al : Allow} {bd : Dev} (f c : Nat) (g : Course → Course) (d : Dev) (hk : Same al bd d) (w0 : al.fret = true := by assumption) : Same al bd (modCourse f c g d) := by
  unfold modCourse
  repeat' (first | with_reducible (first | assumption | apply putCourse_same | refine ite_same ?_ ?_ | intro _ | split) | dsimp only)

theorem modDie_same {al : Allow} {bd : Dev} (x : Nat) (g : Die → Die) (d : Dev) (hk : Same al bd d) (w0 : al.fret = true := by assumption) : Same al bd (modDie x g d) := by
  unfold modDie
  repeat' (first | with_reducible (first | assumption | refine ite_same ?_ ?_ | intro _ | split) | simp only [same_fret, w0] | dsimp only)

theorem calStart_same {al : Allow} {bd : Dev} (f kind : Nat) (d : Dev) (hk : Same al bd d) (w0 : al.fret = true := by assumption) : Same al bd (calStart f kind d) := by
  unfold calStart
  repeat' (first | with_reducible (first | assumption | apply modDie_same | refine ite_same ?_ ?_ | intro _ | split) | dsimp only)

theorem putSlot_same {al : Allow} {bd : Dev} (f c s : Nat) (x : Slot) (d : Dev) (hk : Same al bd d) (w0 : al.fret = true := by assumption) : Same al bd (putSlot f c s x d) := by
  unfold putSlot
  repeat' (first | with_reducible (first | assumption | apply modCourse_same | refine ite_same ?_ ?_ | intro _ | split) | dsimp only)

theorem modSlot_same {al : Allow} {bd : Dev} (f c s : Nat) (g : Slot → Slot) (d : Dev) (hk : Same al bd d) (w0 : al.fret = true := by assumption) : Same al bd (modSlot f c s g d) := by
  unfold modSlot
  repeat' (first | with_reducible (first | assumption | apply putSlot_same | refine ite_same ?_ ?_ | intro _ | split) | dsimp only)

theorem modPlane_same {al : Allow} {bd : Dev} (f c t : Nat) (b : Bool) (g : Plane → Plane) (d : Dev) (hk : Same al bd d) (w0 : al.fret = true := by assumption) : Same al bd (modPlane f c t b g d) := by
  unfold modPlane
  repeat' (first | with_reducible (first | assumption | apply modTile_same | refine ite_same ?_ ?_ | intro _ | split) | dsimp only)

theorem setTmap_same {al : Allow} {bd : Dev} (f c w t : Nat) (d : Dev) (hk : Same al bd d) (w0 : al.fret = true := by assumption) : Same al bd (setTmap f c w t d) := by
  unfold setTmap
  repeat' (first | with_reducible (first | assumption | apply modCourse_same | refine ite_same ?_ ?_ | intro _ | split) | dsimp only)

theorem clearSlotWork_same {al : Allow} {bd : Dev} (f c s : Nat) (d : Dev) (hk : Same al bd d) (w0 : al.fret = true := by assumption) : Same al bd (clearSlotWork f c s d) := by
  unfold clearSlotWork
  repeat' (first | with_reducible (first | assumption | apply forEach_same | apply modTile_same | apply modCourse_same | apply modSlot_same | refine ite_same ?_ ?_ | intro _ | split) | dsimp only)

theorem clearEf_same {al : Allow} {bd : Dev} (f c s : Nat) (d : Dev) (hk : Same al bd d) (w0 : al.fret = true := by assumption) : Same al bd (clearEf f c s d) := by
  unfold clearEf
  repeat' (first | with_reducible (first | assumption | apply modCourse_same | refine ite_same ?_ ?_ | intro _ | split) | dsimp only)

theorem emptySlotPlanes_same {al : Allow} {bd : Dev} (f c s : Nat) (d : Dev) (hk : Same al bd d) (w0 : al.fret = true := by assumption) : Same al bd (emptySlotPlanes f c s d) := by
  unfold emptySlotPlanes
  repeat' (first | with_reducible (first | assumption | apply forEach_same | apply modTile_same | refine ite_same ?_ ?_ | intro _ | split) | dsimp only)

theorem resetSlot_same {al : Allow} {bd : Dev} (f c s : Nat) (d : Dev) (hk : Same al bd d) (w0 : al.fret = true := by assumption) : Same al bd (resetSlot f c s d) := by
  unfold resetSlot
  repeat' (first | with_reducible (first | assumption | apply clearSlotWork_same | apply clearEf_same | apply emptySlotPlanes_same | refine ite_same ?_ ?_ | intro _ | split) | dsimp only)

theorem modStream_same {al : Allow} {bd : Dev} (i : Nat) (f : Stream → Stream) (d : Dev) (hk : Same al bd d) (w0 : al.streams = true := by assumption) : Same al bd (modStream i f d) := by
  unfold modStream
  repeat' (first | with_reducible (first | assumption | refine ite_same ?_ ?_ | intro _ | split) | simp only [same_streams, w0] | dsimp only)

theorem streamMsg_same {al : Allow} {bd : Dev} (s : Stream) (ty : Byte) (pay : List Byte) (d : Dev) (hk : Same al bd d) (w0 : al.strand = true := by assumption) (w1 : al.tx = true := by assumption) : Same al bd (streamMsg s ty pay d) := by
  unfold streamMsg
  repeat' (first | with_reducible (first | assumption | apply queueMsg_same | refine ite_same ?_ ?_ | intro _ | split) | dsimp only)

theorem sendStatus_same {al : Allow} {bd : Dev} (i : Nat) (d : Dev) (hk : Same al bd d) (w0 : al.strand = true := by assumption) (w1 : al.tx = true := by assumption) : Same al bd (sendStatus i d) := by
  unfold sendStatus
  repeat' (first | with_reducible (first | assumption | apply streamMsg_same | refine ite_same ?_ ?_ | intro _ | split) | dsimp only)

theorem modSched_same {al : Allow} {bd : Dev} (p : Nat) (f : Sched → Sched) (d : Dev) (hk : Same al bd d) (w0 : al.scheds = true := by assumption) : Same al bd (modSched p f d) := by
  unfold modSched
  repeat' (first | with_reducible (first | assumption | refine ite_same ?_ ?_ | intro _ | split) | simp only [same_scheds, w0] | dsimp only)

theorem setAtRisk_same {al : Allow} {bd : Dev} (i : Nat) (v : Bool) (d : Dev) (hk : Same al bd d) (w0 : al.strand = true := by assumption) (w1 : al.streams = true := by assumption) (w2 : al.scheds = true := by assumption) (w3 : al.tx = true := by assumption) : Same al bd (setAtRisk i v d) := by
  unfold setAtRisk
  repeat' (first | with_reducible (first | assumption | apply modStream_same | apply sendStatus_same | apply modSched_same | refine ite_same ?_ ?_ | intro _ | split) | dsimp only)

theorem windowEvent_same {al : Allow} {bd : Dev} (p ty model window cause epoch handle : Nat) (d : Dev) (hk : Same al bd d) (w0 : al.regs = true := by assumption) (w1 : al.strand = true := by assumption) (w2 : al.peg = true := by assumption) (w3 : al.tx = true := by assumption) : Same al bd (windowEvent p ty model window cause epoch handle d) := by
  unfold windowEvent
  repeat' (first | with_reducible (first | assumption | apply raiseEvent_same | refine ite_same ?_ ?_ | intro _ | split) | dsimp only)

theorem openWaiting_same {al : Allow} {bd : Dev} (d : Dev) (hk : Same al bd d) (w0 : al.regs = true := by assumption) (w1 : al.strand = true := by assumption) (w2 : al.peg = true := by assumption) (w3 : al.loads = true := by assumption) (w4 : al.tx = true := by assumption) : Same al bd (openWaiting d) := by
  unfold openWaiting
  repeat' (first | with_reducible (first | assumption | apply forEach_same | apply windowEvent_same | refine ite_same ?_ ?_ | intro _ | split) | simp only [same_loads, w3] | dsimp only)

theorem settleRefs_same {al : Allow} {bd : Dev} (d : Dev) (hk : Same al bd d) (w0 : al.regs = true := by assumption) (w1 : al.strand = true := by assumption) (w2 : al.peg = true := by assumption) (w3 : al.loads = true := by assumption) (w4 : al.tx = true := by assumption) : Same al bd (settleRefs d) := by
  unfold settleRefs
  repeat' (first | with_reducible (first | assumption | apply openWaiting_same | refine ite_same ?_ ?_ | intro _ | split) | simp only [same_loads, w3] | dsimp only)

theorem dropWalks_same {al : Allow} {bd : Dev} (b i : Nat) (d : Dev) (hk : Same al bd d) (w0 : al.kv = true := by assumption) : Same al bd (dropWalks b i d) := by
  unfold dropWalks
  repeat' (first | with_reducible (first | assumption | apply modKv_same | refine ite_same ?_ ?_ | intro _ | split) | dsimp only)

theorem releaseStream_same {al : Allow} {bd : Dev} (i : Nat) (d : Dev) (hk : Same al bd d) (w0 : al.kv = true := by assumption) : Same al bd (releaseStream i d) := by
  unfold releaseStream
  repeat' (first | with_reducible (first | assumption | apply releaseRegion_same | refine ite_same ?_ ?_ | intro _ | split) | dsimp only)

theorem tryFree_same {al : Allow} {bd : Dev} (i : Nat) (d : Dev) (hk : Same al bd d) (w0 : al.streams = true := by assumption) (w1 : al.scheds = true := by assumption) : Same al bd (tryFree i d) := by
  unfold tryFree
  repeat' (first | with_reducible (first | assumption | apply modSched_same | refine ite_same ?_ ?_ | intro _ | split) | simp only [same_streams, w0] | dsimp only)

theorem endStream_same {al : Allow} {bd : Dev} (i reason : Nat) (d : Dev) (hk : Same al bd d) (w0 : al.regs = true := by assumption) (w1 : al.strand = true := by assumption) (w2 : al.peg = true := by assumption) (w3 : al.loads = true := by assumption) (w4 : al.streams = true := by assumption) (w5 : al.scheds = true := by assumption) (w6 : al.kv = true := by assumption) (w7 : al.tx = true := by assumption) : Same al bd (endStream i reason d) := by
  unfold endStream
  repeat' (first | with_reducible (first | assumption | apply dropBufs_same | apply modStream_same | apply sendStatus_same | apply modSched_same | apply settleRefs_same | apply dropWalks_same | apply releaseStream_same | apply tryFree_same | refine ite_same ?_ ?_ | intro _ | split) | dsimp only)

theorem leaveBatch_same {al : Allow} {bd : Dev} (i batch : Nat) (d : Dev) (hk : Same al bd d) (w0 : al.regs = true := by assumption) (w1 : al.strand = true := by assumption) (w2 : al.peg = true := by assumption) (w3 : al.loads = true := by assumption) (w4 : al.streams = true := by assumption) (w5 : al.scheds = true := by assumption) (w6 : al.kv = true := by assumption) (w7 : al.tx = true := by assumption) : Same al bd (leaveBatch i batch d) := by
  unfold leaveBatch
  repeat' (first | with_reducible (first | assumption | apply modStream_same | apply settleRefs_same | apply releaseStream_same | apply tryFree_same | refine ite_same ?_ ?_ | intro _ | split) | dsimp only)

theorem rstEvent_same {al : Allow} {bd : Dev} (p ty scope source cause stage die course stream arg : Nat) (persist : Bool) (d : Dev) (hk : Same al bd d) (w0 : al.regs = true := by assumption) (w1 : al.strand = true := by assumption) (w2 : al.peg = true := by assumption) (w3 : al.tx = true := by assumption) : Same al bd (rstEvent p ty scope source cause stage die course stream arg persist d) := by
  unfold rstEvent
  repeat' (first | with_reducible (first | assumption | apply raiseEvent_same | refine ite_same ?_ ?_ | intro _ | split) | dsimp only)

theorem rollback_same {al : Allow} {bd : Dev} (i : Nat) (d : Dev) (hk : Same al bd d) (w0 : al.regs = true := by assumption) (w1 : al.strand = true := by assumption) (w2 : al.peg = true := by assumption) (w3 : al.loads = true := by assumption) (w4 : al.streams = true := by assumption) (w5 : al.scheds = true := by assumption) (w6 : al.kv = true := by assumption) (w7 : al.tx = true := by assumption) : Same al bd (rollback i d) := by
  unfold rollback
  repeat' (first | with_reducible (first | assumption | apply bump_same | apply dropBufs_same | apply modStream_same | apply dropWalks_same | apply endStream_same | apply foldl_same | apply foldl_same_snd | apply foldl_same_thd | refine ite_same ?_ ?_ | intro _ | split) | dsimp only)

theorem discardBatches_same {al : Allow} {bd : Dev} (p : Nat) (d : Dev) (hk : Same al bd d) (w0 : al.fret = true := by assumption) (w1 : al.scheds = true := by assumption) : Same al bd (discardBatches p d) := by
  unfold discardBatches
  repeat' (first | with_reducible (first | assumption | apply forEach_same | apply ringDrop_same | apply modSlot_same | apply clearSlotWork_same | apply modSched_same | refine ite_same ?_ ?_ | intro _ | split) | dsimp only)

theorem dropSteps_same {al : Allow} {bd : Dev} (i : Nat) (d : Dev) (hk : Same al bd d) (w0 : al.streams = true := by assumption) (w1 : al.scheds = true := by assumption) (w2 : al.kv = true := by assumption) : Same al bd (dropSteps i d) := by
  unfold dropSteps
  repeat' (first | with_reducible (first | assumption | apply modStream_same | apply releaseStream_same | apply tryFree_same | refine ite_same ?_ ?_ | intro _ | split) | dsimp only)

theorem discardAndSort_same {al : Allow} {bd : Dev} (p : Nat) (failing : Nat → Bool) (reason : Nat) (d : Dev) (hk : Same al bd d) (w0 : al.regs = true := by assumption) (w1 : al.strand = true := by assumption) (w2 : al.peg = true := by assumption) (w3 : al.fret = true := by assumption) (w4 : al.loads = true := by assumption) (w5 : al.streams = true := by assumption) (w6 : al.scheds = true := by assumption) (w7 : al.kv = true := by assumption) (w8 : al.tx = true := by assumption) : Same al bd (discardAndSort p failing reason d) := by
  unfold discardAndSort
  repeat' (first | with_reducible (first | assumption | apply forEach_same | apply modStream_same | apply settleRefs_same | apply endStream_same | apply rollback_same | apply discardBatches_same | apply dropSteps_same | refine ite_same ?_ ?_ | intro _ | split) | dsimp only)

theorem resetStage_same {al : Allow} {bd : Dev} (p stage : Nat) (d : Dev) (hk : Same al bd d) (w0 : al.fret = true := by assumption) : Same al bd (resetStage p stage d) := by
  unfold resetStage
  repeat' (first | with_reducible (first | assumption | apply forEach_same | apply resetSlot_same | refine ite_same ?_ ?_ | intro _ | split) | dsimp only)

theorem addSub_same {al : Allow} {bd : Dev} (x : SubReset) (d : Dev) (hk : Same al bd d) (w0 : al.rst = true := by assumption) : Same al bd (addSub x d) := by
  unfold addSub
  repeat' (first | with_reducible (first | assumption | refine ite_same ?_ ?_ | intro _ | split) | simp only [same_rst, w0] | dsimp only)

theorem stageFault_same {al : Allow} {bd : Dev} (p stage cause f c : Nat) (bridge : Bool) (batch : Option Nat) (failed : Option Nat) (d : Dev) (hk : Same al bd d) (w0 : al.regs = true := by assumption) (w1 : al.strand = true := by assumption) (w2 : al.peg = true := by assumption) (w3 : al.rst = true := by assumption) (w4 : al.fret = true := by assumption) (w5 : al.loads = true := by assumption) (w6 : al.streams = true := by assumption) (w7 : al.scheds = true := by assumption) (w8 : al.kv = true := by assumption) (w9 : al.tx = true := by assumption) : Same al bd (stageFault p stage cause f c bridge batch failed d) := by
  unfold stageFault
  repeat' (first | with_reducible (first | assumption | apply regPut_same | apply bump_same | apply rstEvent_same | apply discardAndSort_same | apply resetStage_same | apply addSub_same | refine ite_same ?_ ?_ | intro _ | split) | dsimp only)

theorem slotFault_same {al : Allow} {bd : Dev} (cause f c s : Nat) (failed : Option Nat) (d : Dev) (hk : Same al bd d) (w0 : al.regs = true := by assumption) (w1 : al.strand = true := by assumption) (w2 : al.peg = true := by assumption) (w3 : al.rst = true := by assumption) (w4 : al.fret = true := by assumption) (w5 : al.loads = true := by assumption) (w6 : al.streams = true := by assumption) (w7 : al.scheds = true := by assumption) (w8 : al.kv = true := by assumption) (w9 : al.tx = true := by assumption) : Same al bd (slotFault cause f c s failed d) := by
  unfold slotFault
  repeat' (first | with_reducible (first | assumption | apply stageFault_same | refine ite_same ?_ ?_ | intro _ | split) | dsimp only)

end Sys2Proof.Machine
end

