-- ==== Sys2Proof/Laws/FrameFret.lean ====
section
/-! SUPPORT. The fields that the operations of the Fret dies: planes, Capo, plucks, checks, Tailpiece, self-test and Drone may change, one lemma each (Laws/Frame.lean). -/

namespace Sys2Proof.Machine

set_option linter.unusedSimpArgs false

theorem tileRecord_same {al : Allow} {bd : Dev} (ty f c t group layer res stream colmask : Nat) (persist : Bool) (d : Dev) (hk : Same al bd d) (w0 : al.regs = true := by assumption) (w1 : al.strand = true := by assumption) (w2 : al.peg = true := by assumption) (w3 : al.tx = true := by assumption) : Same al bd (tileRecord ty f c t group layer res stream colmask persist d) := by
  unfold tileRecord
  repeat' (first | with_reducible (first | assumption | apply errRecord_same | refine ite_same ?_ ?_ | intro _ | split) | dsimp only)

theorem startLoad_same {al : Allow} {bd : Dev} (f c t s : Nat) (b : Bool) (a : Nat) (repair : Bool) (errs : List (Nat × Nat)) (d : Dev) (hk : Same al bd d) (w0 : al.regs = true := by assumption) (w1 : al.strand = true := by assumption) (w2 : al.peg = true := by assumption) (w3 : al.rst = true := by assumption) (w4 : al.links = true := by assumption) (w5 : al.fret = true := by assumption) (w6 : al.poison = true := by assumption) (w7 : al.loads = true := by assumption) (w8 : al.streams = true := by assumption) (w9 : al.scheds = true := by assumption) (w10 : al.kv = true := by assumption) (w11 : al.tx = true := by assumption) : Same al bd (startLoad f c t s b a repair errs d) := by
  unfold startLoad
  repeat' (first | with_reducible (first | assumption | apply neckBulk_same | apply hbmCount_same | apply hbmReadEcc_same | apply modPlane_same | apply slotFault_same | refine ite_same ?_ ?_ | intro _ | split) | dsimp only)

theorem dropStale_same {al : Allow} {bd : Dev} (f c t s w : Nat) (d : Dev) (hk : Same al bd d) (w0 : al.fret = true := by assumption) : Same al bd (dropStale f c t s w d) := by
  unfold dropStale
  repeat' (first | with_reducible (first | assumption | apply modTile_same | refine ite_same ?_ ?_ | intro _ | split) | dsimp only)

theorem farStarted_same {al : Allow} {bd : Dev} (f c w : Nat) (q : PassD) (d : Dev) (hk : Same al bd d) (w0 : al.loads = true := by assumption) : Same al bd (farStarted f c w q d) := by
  unfold farStarted
  repeat' (first | with_reducible (first | assumption | refine ite_same ?_ ?_ | intro _ | split) | simp only [same_loads, w0] | dsimp only)

theorem passLoad_same {al : Allow} {bd : Dev} (f c t s w : Nat) (b : Bool) (q : PassD) (errs : List (Nat × Nat)) (d : Dev) (hk : Same al bd d) (w0 : al.regs = true := by assumption) (w1 : al.strand = true := by assumption) (w2 : al.peg = true := by assumption) (w3 : al.rst = true := by assumption) (w4 : al.links = true := by assumption) (w5 : al.fret = true := by assumption) (w6 : al.poison = true := by assumption) (w7 : al.loads = true := by assumption) (w8 : al.streams = true := by assumption) (w9 : al.scheds = true := by assumption) (w10 : al.kv = true := by assumption) (w11 : al.tx = true := by assumption) : Same al bd (passLoad f c t s w b q errs d) := by
  unfold passLoad
  repeat' (first | with_reducible (first | assumption | apply bump_same | apply modTile_same | apply slotFault_same | apply startLoad_same | apply farStarted_same | refine ite_same ?_ ?_ | intro _ | split) | dsimp only)

theorem planeLoadStart_same {al : Allow} {bd : Dev} (f c t : Nat) (errs : List (Nat × Nat)) (d : Dev) (hk : Same al bd d) (w0 : al.regs = true := by assumption) (w1 : al.strand = true := by assumption) (w2 : al.peg = true := by assumption) (w3 : al.rst = true := by assumption) (w4 : al.links = true := by assumption) (w5 : al.fret = true := by assumption) (w6 : al.poison = true := by assumption) (w7 : al.loads = true := by assumption) (w8 : al.streams = true := by assumption) (w9 : al.scheds = true := by assumption) (w10 : al.kv = true := by assumption) (w11 : al.tx = true := by assumption) : Same al bd (planeLoadStart f c t errs d) := by
  unfold planeLoadStart
  repeat' (first | with_reducible (first | assumption | apply startLoad_same | apply dropStale_same | apply passLoad_same | refine ite_same ?_ ?_ | intro _ | split) | dsimp only)

theorem landSegment_same {al : Allow} {bd : Dev} (f c t s : Nat) (b : Bool) (k : Nat) (parityOk : Bool) (d : Dev) (hk : Same al bd d) (w0 : al.regs = true := by assumption) (w1 : al.strand = true := by assumption) (w2 : al.peg = true := by assumption) (w3 : al.rst = true := by assumption) (w4 : al.fret = true := by assumption) (w5 : al.loads = true := by assumption) (w6 : al.streams = true := by assumption) (w7 : al.scheds = true := by assumption) (w8 : al.kv = true := by assumption) (w9 : al.tx = true := by assumption) : Same al bd (landSegment f c t s b k parityOk d) := by
  unfold landSegment
  repeat' (first | with_reducible (first | assumption | apply bump_same | apply modPlane_same | apply slotFault_same | apply tileRecord_same | refine ite_same ?_ ?_ | intro _ | split) | dsimp only)

theorem landEnd_same {al : Allow} {bd : Dev} (f c t s : Nat) (b : Bool) (d : Dev) (hk : Same al bd d) (w0 : al.regs = true := by assumption) (w1 : al.strand = true := by assumption) (w2 : al.peg = true := by assumption) (w3 : al.rst = true := by assumption) (w4 : al.fret = true := by assumption) (w5 : al.loads = true := by assumption) (w6 : al.streams = true := by assumption) (w7 : al.scheds = true := by assumption) (w8 : al.kv = true := by assumption) (w9 : al.tx = true := by assumption) : Same al bd (landEnd f c t s b d) := by
  unfold landEnd
  repeat' (first | with_reducible (first | assumption | apply modPlane_same | apply slotFault_same | refine ite_same ?_ ?_ | intro _ | split) | dsimp only)

theorem rowSegmentArrival_same {al : Allow} {bd : Dev} (f c t row g : Nat) (b parityOk : Bool) (errs : List (Nat × Nat)) (d : Dev) (hk : Same al bd d) (w0 : al.regs = true := by assumption) (w1 : al.strand = true := by assumption) (w2 : al.peg = true := by assumption) (w3 : al.rst = true := by assumption) (w4 : al.links = true := by assumption) (w5 : al.fret = true := by assumption) (w6 : al.poison = true := by assumption) (w7 : al.loads = true := by assumption) (w8 : al.streams = true := by assumption) (w9 : al.scheds = true := by assumption) (w10 : al.kv = true := by assumption) (w11 : al.tx = true := by assumption) : Same al bd (rowSegmentArrival f c t row g b parityOk errs d) := by
  unfold rowSegmentArrival
  repeat' (first | with_reducible (first | assumption | apply neckBulk_same | apply hbmReadEcc_same | apply modPlane_same | apply landSegment_same | refine ite_same ?_ ?_ | intro _ | split) | dsimp only)

theorem loadEndMarker_same {al : Allow} {bd : Dev} (f c t : Nat) (b : Bool) (d : Dev) (hk : Same al bd d) (w0 : al.regs = true := by assumption) (w1 : al.strand = true := by assumption) (w2 : al.peg = true := by assumption) (w3 : al.rst = true := by assumption) (w4 : al.links = true := by assumption) (w5 : al.fret = true := by assumption) (w6 : al.loads = true := by assumption) (w7 : al.streams = true := by assumption) (w8 : al.scheds = true := by assumption) (w9 : al.kv = true := by assumption) (w10 : al.tx = true := by assumption) : Same al bd (loadEndMarker f c t b d) := by
  unfold loadEndMarker
  repeat' (first | with_reducible (first | assumption | apply neckBulk_same | apply modPlane_same | apply landEnd_same | refine ite_same ?_ ?_ | intro _ | split) | dsimp only)

theorem dropSamples_same {al : Allow} {bd : Dev} (f c : Nat) (gone : Sample → Bool) (d : Dev) (hk : Same al bd d) (w0 : al.regs = true := by assumption) (w1 : al.fret = true := by assumption) : Same al bd (dropSamples f c gone d) := by
  unfold dropSamples
  repeat' (first | with_reducible (first | assumption | apply addCtr_same | apply choice_same | apply forEach_same | apply modCourse_same | refine ite_same ?_ ?_ | intro _ | split) | dsimp only)

theorem planeDrained_same {al : Allow} {bd : Dev} (f c t : Nat) (b : Bool) (waited : Nat) (d : Dev) (hk : Same al bd d) (w0 : al.regs = true := by assumption) (w1 : al.strand = true := by assumption) (w2 : al.peg = true := by assumption) (w3 : al.rst = true := by assumption) (w4 : al.fret = true := by assumption) (w5 : al.loads = true := by assumption) (w6 : al.streams = true := by assumption) (w7 : al.scheds = true := by assumption) (w8 : al.kv = true := by assumption) (w9 : al.tx = true := by assumption) : Same al bd (planeDrained f c t b waited d) := by
  unfold planeDrained
  repeat' (first | with_reducible (first | assumption | apply addCtr_same | apply forEach_same | apply modPlane_same | apply landSegment_same | apply landEnd_same | apply dropSamples_same | refine ite_same ?_ ?_ | intro _ | split) | dsimp only)

theorem modPluck_same {al : Allow} {bd : Dev} (f c id : Nat) (g : Pluck → Pluck) (d : Dev) (hk : Same al bd d) (w0 : al.fret = true := by assumption) : Same al bd (modPluck f c id g d) := by
  unfold modPluck
  repeat' (first | with_reducible (first | assumption | apply modCourse_same | refine ite_same ?_ ?_ | intro _ | split) | dsimp only)

theorem retirePluck_same {al : Allow} {bd : Dev} (f c id : Nat) (d : Dev) (hk : Same al bd d) (w0 : al.fret = true := by assumption) : Same al bd (retirePluck f c id d) := by
  unfold retirePluck
  repeat' (first | with_reducible (first | assumption | apply modCourse_same | refine ite_same ?_ ?_ | intro _ | split) | dsimp only)

theorem sendTerms_same {al : Allow} {bd : Dev} (f c : Nat) (p : Pluck) (g : Nat) (terms : List Term) (d : Dev) (hk : Same al bd d) (w0 : al.fret = true := by assumption) : Same al bd (sendTerms f c p g terms d) := by
  unfold sendTerms
  repeat' (first | with_reducible (first | assumption | apply modCourse_same | apply modPluck_same | refine ite_same ?_ ?_ | intro _ | split) | dsimp only)

theorem settleGroup_same {al : Allow} {bd : Dev} (f c : Nat) (p : Pluck) (g outcome : Nat) (d : Dev) (hk : Same al bd d) (w0 : al.fret = true := by assumption) : Same al bd (settleGroup f c p g outcome d) := by
  unfold settleGroup
  repeat' (first | with_reducible (first | assumption | apply modPluck_same | apply sendTerms_same | refine ite_same ?_ ?_ | intro _ | split) | dsimp only)

theorem addBacklog_same {al : Allow} {bd : Dev} (f c n : Nat) (d : Dev) (hk : Same al bd d) (w0 : al.fret = true := by assumption) : Same al bd (addBacklog f c n d) := by
  unfold addBacklog
  repeat' (first | with_reducible (first | assumption | apply modCourse_same | refine ite_same ?_ ?_ | intro _ | split) | dsimp only)

theorem subBacklog_same {al : Allow} {bd : Dev} (f c n : Nat) (d : Dev) (hk : Same al bd d) (w0 : al.fret = true := by assumption) : Same al bd (subBacklog f c n d) := by
  unfold subBacklog
  repeat' (first | with_reducible (first | assumption | apply modCourse_same | refine ite_same ?_ ?_ | intro _ | split) | dsimp only)

theorem countErr_same {al : Allow} {bd : Dev} (f c t : Nat) (d : Dev) (hk : Same al bd d) (w0 : al.regs = true := by assumption) : Same al bd (countErr f c t d) := by
  unfold countErr
  repeat' (first | with_reducible (first | assumption | apply addField_same | refine ite_same ?_ ?_ | intro _ | split) | dsimp only)

theorem wtileRecord_same {al : Allow} {bd : Dev} (ty f c t : Nat) (w? : Option Nat) (persist : Bool) (d : Dev) (hk : Same al bd d) (w0 : al.regs = true := by assumption) (w1 : al.strand = true := by assumption) (w2 : al.peg = true := by assumption) (w3 : al.tx = true := by assumption) : Same al bd (wtileRecord ty f c t w? persist d) := by
  unfold wtileRecord
  repeat' (first | with_reducible (first | assumption | apply errRecord_same | refine ite_same ?_ ?_ | intro _ | split) | dsimp only)

theorem putRetMap_same {al : Allow} {bd : Dev} (l : List Nat) (d : Dev) (hk : Same al bd d) (w0 : al.flash = true := by assumption) : Same al bd (putRetMap l d) := by
  unfold putRetMap
  repeat' (first | with_reducible (first | assumption | refine ite_same ?_ ?_ | intro _ | split) | simp only [same_flash, w0] | dsimp only)

theorem assignTile_same {al : Allow} {bd : Dev} (f c w t : Nat) (d : Dev) (hk : Same al bd d) (w0 : al.fret = true := by assumption) : Same al bd (assignTile f c w t d) := by
  unfold assignTile
  repeat' (first | with_reducible (first | assumption | apply modTile_same | apply modCourse_same | refine ite_same ?_ ?_ | intro _ | split) | dsimp only)

theorem coverTile_same {al : Allow} {bd : Dev} (f c w : Nat) (d : Dev) (hk : Same al bd d) (w0 : al.fret = true := by assumption) : Same al bd (coverTile f c w d) := by
  unfold coverTile
  repeat' (first | with_reducible (first | assumption | apply modTile_same | apply modCourse_same | apply setTmap_same | refine ite_same ?_ ?_ | intro _ | split) | dsimp only)

theorem voidPlucks_same {al : Allow} {bd : Dev} (f c : Nat) (which : Pluck → Bool) (d : Dev) (hk : Same al bd d) (w0 : al.fret = true := by assumption) : Same al bd (voidPlucks f c which d).2 := by
  unfold voidPlucks
  repeat' (first | with_reducible (first | assumption | apply forEach_same | apply modCourse_same | apply modPluck_same | refine ite_same ?_ ?_ | intro _ | split) | dsimp only)

theorem retireTile_same {al : Allow} {bd : Dev} (f c t : Nat) (d : Dev) (hk : Same al bd d) (w0 : al.regs = true := by assumption) (w1 : al.flash = true := by assumption) (w2 : al.strand = true := by assumption) (w3 : al.peg = true := by assumption) (w4 : al.fret = true := by assumption) (w5 : al.tx = true := by assumption) : Same al bd (retireTile f c t d) := by
  unfold retireTile
  repeat' (first | with_reducible (first | assumption | apply forEach_same | apply modSlot_same | apply bump_same | apply modTile_same | apply modCourse_same | apply wtileRecord_same | apply putRetMap_same | apply assignTile_same | apply coverTile_same | apply voidPlucks_same | refine ite_same ?_ ?_ | intro _ | split) | dsimp only)

theorem markSuspect_same {al : Allow} {bd : Dev} (f c t : Nat) (d : Dev) (hk : Same al bd d) (w0 : al.regs = true := by assumption) (w1 : al.flash = true := by assumption) (w2 : al.strand = true := by assumption) (w3 : al.peg = true := by assumption) (w4 : al.fret = true := by assumption) (w5 : al.tx = true := by assumption) : Same al bd (markSuspect f c t d) := by
  unfold markSuspect
  repeat' (first | with_reducible (first | assumption | apply modTile_same | apply modCourse_same | apply countErr_same | apply assignTile_same | apply retireTile_same | refine ite_same ?_ ?_ | intro _ | split) | dsimp only)

theorem modBuf_same {al : Allow} {bd : Dev} (f c s : Nat) (b : Bool) (g : Buf → Buf) (d : Dev) (hk : Same al bd d) (w0 : al.fret = true := by assumption) : Same al bd (modBuf f c s b g d) := by
  unfold modBuf
  repeat' (first | with_reducible (first | assumption | apply modSlot_same | refine ite_same ?_ ?_ | intro _ | split) | dsimp only)

theorem assignNext_same {al : Allow} {bd : Dev} (f c s : Nat) (d : Dev) (hk : Same al bd d) (w0 : al.fret = true := by assumption) : Same al bd (assignNext f c s d) := by
  unfold assignNext
  repeat' (first | with_reducible (first | assumption | apply modSlot_same | apply modBuf_same | refine ite_same ?_ ?_ | intro _ | split) | dsimp only)

theorem assignVec_same {al : Allow} {bd : Dev} (f c s : Nat) (q : PassD) (v : VecId) (d : Dev) (hk : Same al bd d) (w0 : al.fret = true := by assumption) : Same al bd (assignVec f c s q v d) := by
  unfold assignVec
  repeat' (first | with_reducible (first | assumption | apply forEach_same | apply assignNext_same | refine ite_same ?_ ?_ | intro _ | split) | dsimp only)

theorem handOver_same {al : Allow} {bd : Dev} (f c s layer : Nat) (v : VecId) (d : Dev) (hk : Same al bd d) (w0 : al.fret = true := by assumption) : Same al bd (handOver f c s layer v d) := by
  unfold handOver
  repeat' (first | with_reducible (first | assumption | apply modCourse_same | refine ite_same ?_ ?_ | intro _ | split) | dsimp only)

theorem assignGroup_same {al : Allow} {bd : Dev} (f c s : Nat) (q : PassD) (vs : List VecId) (d : Dev) (hk : Same al bd d) (w0 : al.fret = true := by assumption) : Same al bd (assignGroup f c s q vs d) := by
  unfold assignGroup
  repeat' (first | with_reducible (first | assumption | apply forEach_same | apply assignVec_same | apply handOver_same | refine ite_same ?_ ?_ | intro _ | split) | dsimp only)

theorem leaveService_same {al : Allow} {bd : Dev} (f c t : Nat) (d : Dev) (hk : Same al bd d) (w0 : al.fret = true := by assumption) : Same al bd (leaveService f c t d) := by
  unfold leaveService
  repeat' (first | with_reducible (first | assumption | apply modTile_same | refine ite_same ?_ ?_ | intro _ | split) | dsimp only)

theorem freeServer_same {al : Allow} {bd : Dev} (f c p : Nat) (d : Dev) (hk : Same al bd d) (w0 : al.fret = true := by assumption) : Same al bd (freeServer f c p d) := by
  unfold freeServer
  repeat' (first | with_reducible (first | assumption | apply modTile_same | refine ite_same ?_ ?_ | intro _ | split) | dsimp only)

theorem switchTile_same {al : Allow} {bd : Dev} (f c w layer : Nat) (d : Dev) (hk : Same al bd d) (w0 : al.fret = true := by assumption) : Same al bd (switchTile f c w layer d) := by
  unfold switchTile
  repeat' (first | with_reducible (first | assumption | apply modTile_same | apply modCourse_same | apply setTmap_same | apply coverTile_same | apply leaveService_same | apply freeServer_same | refine ite_same ?_ ?_ | intro _ | split) | dsimp only)

theorem swapTile_same {al : Allow} {bd : Dev} (f c t layer : Nat) (d : Dev) (hk : Same al bd d) (w0 : al.fret = true := by assumption) : Same al bd (swapTile f c t layer d) := by
  unfold swapTile
  repeat' (first | with_reducible (first | assumption | apply modTile_same | refine ite_same ?_ ?_ | intro _ | split) | dsimp only)

theorem passStart_same {al : Allow} {bd : Dev} (f c s stall : Nat) (d : Dev) (hk : Same al bd d) (w0 : al.regs = true := by assumption) (w1 : al.strand = true := by assumption) (w2 : al.peg = true := by assumption) (w3 : al.rst = true := by assumption) (w4 : al.fret = true := by assumption) (w5 : al.loads = true := by assumption) (w6 : al.streams = true := by assumption) (w7 : al.scheds = true := by assumption) (w8 : al.kv = true := by assumption) (w9 : al.tx = true := by assumption) : Same al bd (passStart f c s stall d) := by
  unfold passStart
  repeat' (first | with_reducible (first | assumption | apply regSetField_same | apply addCtr_same | apply forEach_same | apply modCourse_same | apply modSlot_same | apply modSched_same | apply slotFault_same | apply switchTile_same | apply swapTile_same | refine ite_same ?_ ?_ | intro _ | split) | dsimp only)

theorem sliceArrival_same {al : Allow} {bd : Dev} (f c w stream scale : Nat) (payload : List Byte) (outl : List Byte) (d : Dev) (hk : Same al bd d) (w0 : al.fret = true := by assumption) : Same al bd (sliceArrival f c w stream scale payload outl d) := by
  unfold sliceArrival
  repeat' (first | with_reducible (first | assumption | apply ringTake_same | apply modTile_same | apply modCourse_same | refine ite_same ?_ ?_ | intro _ | split) | dsimp only)

theorem addClips_same {al : Allow} {bd : Dev} (f c : Nat) (p : Pluck) (n : Nat) (d : Dev) (hk : Same al bd d) (w0 : al.fret = true := by assumption) : Same al bd (addClips f c p n d) := by
  unfold addClips
  repeat' (first | with_reducible (first | assumption | apply modTile_same | apply modCourse_same | refine ite_same ?_ ?_ | intro _ | split) | dsimp only)

theorem windowEnds_same {al : Allow} {bd : Dev} (f c id : Nat) (d : Dev) (hk : Same al bd d) (w0 : al.fret = true := by assumption) : Same al bd (windowEnds f c id d) := by
  unfold windowEnds
  repeat' (first | with_reducible (first | assumption | apply modTile_same | refine ite_same ?_ ?_ | intro _ | split) | dsimp only)

theorem convertPluck_same {al : Allow} {bd : Dev} (f c : Nat) (evs : List ConvEv) (p : Pluck) (d : Dev) (hk : Same al bd d) (w0 : al.regs = true := by assumption) (w1 : al.fret = true := by assumption) : Same al bd (convertPluck f c evs p d) := by
  unfold convertPluck
  repeat' (first | with_reducible (first | assumption | apply addCtr_same | apply choice_same | apply forEach_same | apply modTile_same | apply modSlot_same | apply modPluck_same | apply retirePluck_same | apply addBacklog_same | apply addClips_same | apply windowEnds_same | apply foldl_same | apply foldl_same_snd | apply foldl_same_thd | refine ite_same ?_ ?_ | intro _ | split) | dsimp only)

theorem convertAll_same {al : Allow} {bd : Dev} (f c : Nat) (evs : List ConvEv) (d : Dev) (hk : Same al bd d) (w0 : al.regs = true := by assumption) (w1 : al.fret = true := by assumption) : Same al bd (convertAll f c evs d) := by
  unfold convertAll
  repeat' (first | with_reducible (first | assumption | apply forEach_same | apply convertPluck_same | refine ite_same ?_ ?_ | intro _ | split) | dsimp only)

theorem applyUpset_same {al : Allow} {bd : Dev} (f c : Nat) (u : Upset) (d : Dev) (hk : Same al bd d) (w0 : al.fret = true := by assumption) : Same al bd (applyUpset f c u d) := by
  unfold applyUpset
  repeat' (first | with_reducible (first | assumption | apply modPlane_same | refine ite_same ?_ ?_ | intro _ | split) | dsimp only)

theorem windowDecide_same {al : Allow} {bd : Dev} (f c : Nat) (ms : List Demand) (d : Dev) (hk : Same al bd d) (w0 : al.regs = true := by assumption) (w1 : al.fret = true := by assumption) : Same al bd (windowDecide f c ms d).2 := by
  unfold windowDecide
  simp only
  have k1 : ∀ l : List Nat, Same al bd (forEach l (fun s => modSlot f c s fun y => { y with wins := y.wins + 1 }) d) :=
    fun l => forEach_same (fun s e he => modSlot_same _ _ _ _ _ he) hk
  split
  · exact addBacklog_same _ _ _ _ (k1 _)
  · split
    · exact addBacklog_same _ _ _ _ (modSlot_same _ _ _ _ _ (bump_same _ _ (k1 _)))
    · exact choice_same _ _ _ (addCtr_same _ _ _ (bump_same _ _ (modSlot_same _ _ _ _ _ (addBacklog_same _ _ _ _
        (modSlot_same _ _ _ _ _ (bump_same _ _ (k1 _)))))))

theorem startPluck_same {al : Allow} {bd : Dev} (f c : Nat) (p : Pluck) (d : Dev) (hk : Same al bd d) (w0 : al.regs = true := by assumption) (w1 : al.fret = true := by assumption) : Same al bd (startPluck f c p d) := by
  unfold startPluck
  repeat' (first | with_reducible (first | assumption | apply bump_same | apply add64_same | apply choice_same | apply modTile_same | apply modCourse_same | apply modSlot_same | apply foldl_same | apply foldl_same_snd | apply foldl_same_thd | refine ite_same ?_ ?_ | intro _ | split) | dsimp only)

theorem doTake_same {al : Allow} {bd : Dev} (f c : Nat) (k : Take) (i : Nat) (g : Grant) (d : Dev) (hk : Same al bd d) (w0 : al.regs = true := by assumption) (w1 : al.fret = true := by assumption) : Same al bd (doTake f c k i g d) := by
  unfold doTake
  repeat' (first | with_reducible (first | assumption | apply addCtr_same | apply bump_same | apply modTile_same | apply modCourse_same | apply startPluck_same | refine ite_same ?_ ?_ | intro _ | split) | dsimp only)

theorem purgeSets_same {al : Allow} {bd : Dev} (f c : Nat) (d : Dev) (hk : Same al bd d) (w0 : al.fret = true := by assumption) : Same al bd (purgeSets f c d) := by
  unfold purgeSets
  repeat' (first | with_reducible (first | assumption | apply modCourse_same | refine ite_same ?_ ?_ | intro _ | split) | dsimp only)

theorem reserve_same {al : Allow} {bd : Dev} (f c : Nat) (k : Take) (d : Dev) (hk : Same al bd d) (w0 : al.fret = true := by assumption) : Same al bd (reserve f c k d) := by
  unfold reserve
  repeat' (first | with_reducible (first | assumption | apply modTile_same | apply assignVec_same | apply handOver_same | refine ite_same ?_ ?_ | intro _ | split) | dsimp only)

theorem collectTakes_same {al : Allow} {bd : Dev} (f c k : Nat) (go : List Nat) (d : Dev) (hk : Same al bd d) (w0 : al.fret = true := by assumption) : Same al bd (collectTakes f c k go d).2 := by
  induction k generalizing go d with
  | zero => exact hk
  | succ k ih =>
    unfold collectTakes
    split
    · exact hk
    · exact ih _ _ (forEach_same (fun k e he => reserve_same _ _ _ _ he) hk)

theorem unTake_same {al : Allow} {bd : Dev} (f c : Nat) (k : Take) (d : Dev) (hk : Same al bd d) (w0 : al.fret = true := by assumption) : Same al bd (unTake f c k d) := by
  unfold unTake
  repeat' (first | with_reducible (first | assumption | apply modTile_same | refine ite_same ?_ ?_ | intro _ | split) | dsimp only)

theorem runTakes_same {al : Allow} {bd : Dev} (f c : Nat) (g : Grant) (i : Nat) (ks : List Take) (d : Dev) (hk : Same al bd d) (w0 : al.regs = true := by assumption) (w1 : al.fret = true := by assumption) : Same al bd (runTakes f c g i ks d) := by
  induction ks generalizing i d with
  | nil => exact hk
  | cons k r ih =>
    have h1 := doTake_same f c k i g d hk
    unfold runTakes
    dsimp only
    split
    · exact forEach_same (fun k e he => unTake_same _ _ _ _ he) h1
    · exact ih _ _ h1

theorem takeAll_same {al : Allow} {bd : Dev} (f c : Nat) (go : List Nat) (d : Dev) (hk : Same al bd d) (w0 : al.regs = true := by assumption) (w1 : al.fret = true := by assumption) : Same al bd (takeAll f c go d) := by
  unfold takeAll
  repeat' (first | with_reducible (first | assumption | apply forEach_same | apply windowDecide_same | apply collectTakes_same | apply runTakes_same | refine ite_same ?_ ?_ | intro _ | split) | dsimp only)

theorem pluckPeriodOf_same {al : Allow} {bd : Dev} (f c : Nat) (go : List Nat) (convs : List ConvEv) (upsets : List Upset) (backlog : Nat) (d : Dev) (hk : Same al bd d) (w0 : al.regs = true := by assumption) (w1 : al.fret = true := by assumption) : Same al bd (pluckPeriodOf f c go convs upsets backlog d) := by
  unfold pluckPeriodOf
  repeat' (first | with_reducible (first | assumption | apply addCtr_same | apply forEach_same | apply modCourse_same | apply convertAll_same | apply applyUpset_same | apply purgeSets_same | apply takeAll_same | refine ite_same ?_ ?_ | intro _ | split) | dsimp only)

theorem encorePassEnd_same {al : Allow} {bd : Dev} (f c s : Nat) (d : Dev) (hk : Same al bd d) (w0 : al.fret = true := by assumption) : Same al bd (encorePassEnd f c s d) := by
  unfold encorePassEnd
  repeat' (first | with_reducible (first | assumption | apply modSlot_same | refine ite_same ?_ ?_ | intro _ | split) | dsimp only)

theorem passGroup_same {al : Allow} {bd : Dev} (f c : Nat) (p : Pluck) (g outcome : Nat) (d : Dev) (hk : Same al bd d) (w0 : al.fret = true := by assumption) : Same al bd (passGroup f c p g outcome d) := by
  unfold passGroup
  repeat' (first | with_reducible (first | assumption | apply modPluck_same | apply settleGroup_same | apply addBacklog_same | refine ite_same ?_ ?_ | intro _ | split) | dsimp only)

theorem advanceGroup_same {al : Allow} {bd : Dev} (f c id g : Nat) (d : Dev) (hk : Same al bd d) (w0 : al.regs = true := by assumption) (w1 : al.fret = true := by assumption) : Same al bd (advanceGroup f c id g d) := by
  unfold advanceGroup
  repeat' (first | with_reducible (first | assumption | apply bump_same | apply modPluck_same | apply settleGroup_same | apply addBacklog_same | apply passGroup_same | refine ite_same ?_ ?_ | intro _ | split) | dsimp only)

theorem groupHandon_same {al : Allow} {bd : Dev} (f c t g : Nat) (d : Dev) (hk : Same al bd d) (w0 : al.regs = true := by assumption) (w1 : al.fret = true := by assumption) : Same al bd (groupHandon f c t g d) := by
  unfold groupHandon
  repeat' (first | with_reducible (first | assumption | apply modPluck_same | apply addBacklog_same | apply advanceGroup_same | refine ite_same ?_ ?_ | intro _ | split) | dsimp only)

theorem reconvertResult_same {al : Allow} {bd : Dev} (f c t col : Nat) (dev : Int) (unsettled badParity : Bool) (d : Dev) (hk : Same al bd d) (w0 : al.regs = true := by assumption) (w1 : al.fret = true := by assumption) : Same al bd (reconvertResult f c t col dev unsettled badParity d) := by
  unfold reconvertResult
  repeat' (first | with_reducible (first | assumption | apply bump_same | apply modSlot_same | apply modPluck_same | apply addBacklog_same | apply addClips_same | apply windowEnds_same | apply advanceGroup_same | refine ite_same ?_ ?_ | intro _ | split) | dsimp only)

theorem columnRecomputeDone_same {al : Allow} {bd : Dev} (f c t col : Nat) (d : Dev) (hk : Same al bd d) (w0 : al.regs = true := by assumption) (w1 : al.fret = true := by assumption) : Same al bd (columnRecomputeDone f c t col d) := by
  unfold columnRecomputeDone
  repeat' (first | with_reducible (first | assumption | apply bump_same | apply modPluck_same | apply subBacklog_same | apply advanceGroup_same | refine ite_same ?_ ?_ | intro _ | split) | dsimp only)

theorem setExact_same {al : Allow} {bd : Dev} (f c id : Nat) (pl : Plane) (cols : List Nat) (d : Dev) (hk : Same al bd d) (w0 : al.fret = true := by assumption) : Same al bd (setExact f c id pl cols d) := by
  unfold setExact
  repeat' (first | with_reducible (first | assumption | apply modPluck_same | apply foldl_same | apply foldl_same_snd | apply foldl_same_thd | refine ite_same ?_ ?_ | intro _ | split) | dsimp only)

theorem cellOutcome_same {al : Allow} {bd : Dev} (f c t : Nat) (b : Bool) (id slot : Nat) (d : Dev) (hk : Same al bd d) (w0 : al.regs = true := by assumption) (w1 : al.fret = true := by assumption) : Same al bd (cellOutcome f c t b id slot d) := by
  unfold cellOutcome
  repeat' (first | with_reducible (first | assumption | apply addCtr_same | apply modSlot_same | apply modPlane_same | apply voidPlucks_same | refine ite_same ?_ ?_ | intro _ | split) | dsimp only)

theorem groupRecomputeDone_same {al : Allow} {bd : Dev} (f c t g : Nat) (d : Dev) (hk : Same al bd d) (w0 : al.regs = true := by assumption) (w1 : al.flash = true := by assumption) (w2 : al.strand = true := by assumption) (w3 : al.peg = true := by assumption) (w4 : al.fret = true := by assumption) (w5 : al.tx = true := by assumption) : Same al bd (groupRecomputeDone f c t g d) := by
  unfold groupRecomputeDone
  repeat' (first | with_reducible (first | assumption | apply addCtr_same | apply bump_same | apply tileRecord_same | apply modPluck_same | apply settleGroup_same | apply subBacklog_same | apply markSuspect_same | apply setExact_same | apply cellOutcome_same | refine ite_same ?_ ?_ | intro _ | split) | dsimp only)

theorem readRows_same {al : Allow} {bd : Dev} (b a : Nat) (rows : List Nat) (errs : List (Nat × Nat)) (d : Dev) (hk : Same al bd d) (w0 : al.regs = true := by assumption) (w1 : al.strand = true := by assumption) (w2 : al.peg = true := by assumption) (w3 : al.poison = true := by assumption) (w4 : al.tx = true := by assumption) : Same al bd (readRows b a rows errs d) := by
  unfold readRows
  repeat' (first | with_reducible (first | assumption | apply forEach_same | apply hbmReadEcc_same | refine ite_same ?_ ?_ | intro _ | split) | dsimp only)

theorem fetchPluck_same {al : Allow} {bd : Dev} (f c : Nat) (p : Pluck) (d : Dev) (hk : Same al bd d) (w0 : al.fret = true := by assumption) : Same al bd (fetchPluck f c p d) := by
  unfold fetchPluck
  repeat' (first | with_reducible (first | assumption | apply forEach_same | apply modPluck_same | apply sendTerms_same | refine ite_same ?_ ?_ | intro _ | split) | dsimp only)

theorem queueMsgs_same {al : Allow} {bd : Dev} (f c : Nat) (ms : List TermMsg) (d : Dev) (hk : Same al bd d) (w0 : al.fret = true := by assumption) : Same al bd (queueMsgs f c ms d) := by
  unfold queueMsgs
  repeat' (first | with_reducible (first | assumption | apply modCourse_same | refine ite_same ?_ ?_ | intro _ | split) | dsimp only)

theorem countTerms_same {al : Allow} {bd : Dev} (f c : Nat) (recs : List WRec) (fp4 : Bool) (s : Slice) (d : Dev) (hk : Same al bd d) (w0 : al.regs = true := by assumption) : Same al bd (countTerms f c recs fp4 s d) := by
  unfold countTerms
  repeat' (first | with_reducible (first | assumption | apply addCtr_same | refine ite_same ?_ ?_ | intro _ | split) | dsimp only)

theorem fetchCovered_same {al : Allow} {bd : Dev} (f c w s : Nat) (errs : List (Nat × Nat)) (q : PassD) (d : Dev) (hk : Same al bd d) (w0 : al.regs = true := by assumption) (w1 : al.strand = true := by assumption) (w2 : al.peg = true := by assumption) (w3 : al.rst = true := by assumption) (w4 : al.links = true := by assumption) (w5 : al.fret = true := by assumption) (w6 : al.poison = true := by assumption) (w7 : al.loads = true := by assumption) (w8 : al.streams = true := by assumption) (w9 : al.scheds = true := by assumption) (w10 : al.kv = true := by assumption) (w11 : al.tx = true := by assumption) : Same al bd (fetchCovered f c w s errs q d) := by
  unfold fetchCovered
  repeat' (first | with_reducible (first | assumption | apply forEach_same | apply neckBulk_same | apply hbmCount_same | apply modCourse_same | apply slotFault_same | apply assignGroup_same | apply readRows_same | apply queueMsgs_same | apply countTerms_same | refine ite_same ?_ ?_ | intro _ | split) | dsimp only)

theorem fetchedRowArrival_same {al : Allow} {bd : Dev} (f c w : Nat) (errs : List (Nat × Nat)) (d : Dev) (hk : Same al bd d) (w0 : al.regs = true := by assumption) (w1 : al.strand = true := by assumption) (w2 : al.peg = true := by assumption) (w3 : al.rst = true := by assumption) (w4 : al.links = true := by assumption) (w5 : al.fret = true := by assumption) (w6 : al.poison = true := by assumption) (w7 : al.loads = true := by assumption) (w8 : al.streams = true := by assumption) (w9 : al.scheds = true := by assumption) (w10 : al.kv = true := by assumption) (w11 : al.tx = true := by assumption) : Same al bd (fetchedRowArrival f c w errs d) := by
  unfold fetchedRowArrival
  repeat' (first | with_reducible (first | assumption | apply neckBulk_same | apply hbmCount_same | apply slotFault_same | apply readRows_same | apply fetchPluck_same | apply fetchCovered_same | refine ite_same ?_ ?_ | intro _ | split) | dsimp only)

theorem repairSwap_same {al : Allow} {bd : Dev} (f c t : Nat) (d : Dev) (hk : Same al bd d) (w0 : al.fret = true := by assumption) : Same al bd (repairSwap f c t d) := by
  unfold repairSwap
  repeat' (first | with_reducible (first | assumption | apply modTile_same | apply modSlot_same | refine ite_same ?_ ?_ | intro _ | split) | dsimp only)

theorem exactTile_same {al : Allow} {bd : Dev} (f c s w : Nat) (q : PassD) (vs : List (Nat × VecId × Slice)) (rest : List Slice) (d : Dev) (hk : Same al bd d) (w0 : al.regs = true := by assumption) (w1 : al.flash = true := by assumption) (w2 : al.strand = true := by assumption) (w3 : al.peg = true := by assumption) (w4 : al.fret = true := by assumption) (w5 : al.tx = true := by assumption) : Same al bd (exactTile f c s w q vs rest d) := by
  unfold exactTile
  repeat' (first | with_reducible (first | assumption | apply bump_same | apply forEach_same | apply modTile_same | apply modCourse_same | apply tileRecord_same | apply markSuspect_same | apply cellOutcome_same | apply queueMsgs_same | apply countTerms_same | refine ite_same ?_ ?_ | intro _ | split) | dsimp only)

theorem orderMsgs_same {al : Allow} {bd : Dev} (f c len n : Nat) (d : Dev) (hk : Same al bd d) (w0 : al.fret = true := by assumption) : Same al bd (orderMsgs f c len n d) := by
  unfold orderMsgs
  repeat' (first | with_reducible (first | assumption | apply modCourse_same))

theorem exactGroupDone_same {al : Allow} {bd : Dev} (f c s stall : Nat) (d : Dev) (hk : Same al bd d) (w0 : al.regs = true := by assumption) (w1 : al.flash = true := by assumption) (w2 : al.strand = true := by assumption) (w3 : al.peg = true := by assumption) (w4 : al.fret = true := by assumption) (w5 : al.tx = true := by assumption) : Same al bd (exactGroupDone f c s stall d) := by
  unfold exactGroupDone
  repeat' (first | with_reducible (first | assumption | apply addCtr_same | apply bump_same | apply forEach_same | apply assignGroup_same | apply exactTile_same | apply orderMsgs_same | apply foldl_same | apply foldl_same_snd | apply foldl_same_thd | refine ite_same ?_ ?_ | intro _ | split) | dsimp only)

theorem sendSlice_same {al : Allow} {bd : Dev} (p b stage slice scale stream : Nat) (codes outs : List Byte) (d : Dev) (hk : Same al bd d) (w0 : al.regs = true := by assumption) (w1 : al.links = true := by assumption) (w2 : al.fret = true := by assumption) (w3 : al.tx = true := by assumption) : Same al bd (sendSlice p b stage slice scale stream codes outs d) := by
  unfold sendSlice
  repeat' (first | with_reducible (first | assumption | apply forEach_same | apply fretInject_same | refine ite_same ?_ ?_ | intro _ | split) | dsimp only)

theorem flagStream_same {al : Allow} {bd : Dev} (i pos k : Nat) (d : Dev) (hk : Same al bd d) (w0 : al.streams = true := by assumption) : Same al bd (flagStream i pos k d) := by
  unfold flagStream
  repeat' (first | with_reducible (first | assumption | apply modStream_same | refine ite_same ?_ ?_ | intro _ | split) | dsimp only)

theorem satMark_same {al : Allow} {bd : Dev} (ctr : Nat) (v : VecId) (d : Dev) (hk : Same al bd d) (w0 : al.regs = true := by assumption) (w1 : al.streams = true := by assumption) : Same al bd (satMark ctr v d) := by
  unfold satMark
  repeat' (first | with_reducible (first | assumption | apply bump_same | apply flagStream_same | refine ite_same ?_ ?_ | intro _ | split) | dsimp only)

theorem modVSlot_same {al : Allow} {bd : Dev} (f c s : Nat) (u : VSlot) (g : VSlot → VSlot) (d : Dev) (hk : Same al bd d) (w0 : al.fret = true := by assumption) : Same al bd (modVSlot f c s u g d) := by
  unfold modVSlot
  repeat' (first | with_reducible (first | assumption | apply modSlot_same | refine ite_same ?_ ?_ | intro _ | split) | dsimp only)

theorem ownLeaf_same {al : Allow} {bd : Dev} (f c : Nat) (x : Leaf) (d : Dev) (hk : Same al bd d) (w0 : al.fret = true := by assumption) : Same al bd (ownLeaf f c x d) := by
  unfold ownLeaf
  repeat' (first | with_reducible (first | assumption | apply modVSlot_same | refine ite_same ?_ ?_ | intro _ | split) | dsimp only)

theorem narrowKb_same {al : Allow} {bd : Dev} (f c : Nat) (x : KbReg) (d : Dev) (hk : Same al bd d) (w0 : al.regs = true := by assumption) (w1 : al.fret = true := by assumption) (w2 : al.streams = true := by assumption) : Same al bd (narrowKb f c x d) := by
  unfold narrowKb
  repeat' (first | with_reducible (first | assumption | apply forEach_same | apply modCourse_same | apply satMark_same | apply ownLeaf_same | refine ite_same ?_ ?_ | intro _ | split) | dsimp only)

theorem sendLeaf_same {al : Allow} {bd : Dev} (f c : Nat) (x : Leaf) (d : Dev) (hk : Same al bd d) (w0 : al.regs = true := by assumption) (w1 : al.links = true := by assumption) (w2 : al.fret = true := by assumption) (w3 : al.tx = true := by assumption) : Same al bd (sendLeaf f c x d) := by
  unfold sendLeaf
  repeat' (first | with_reducible (first | assumption | apply forEach_same | apply fretInject_same | apply modCourse_same | refine ite_same ?_ ?_ | intro _ | split) | dsimp only)

theorem sendLeaves_same {al : Allow} {bd : Dev} (f c : Nat) (d : Dev) (hk : Same al bd d) (w0 : al.regs = true := by assumption) (w1 : al.links = true := by assumption) (w2 : al.fret = true := by assumption) (w3 : al.tx = true := by assumption) : Same al bd (sendLeaves f c d) := by
  unfold sendLeaves
  repeat' (first | with_reducible (first | assumption | apply forEach_same | apply sendLeaf_same | refine ite_same ?_ ?_ | intro _ | split) | dsimp only)

theorem freeSet_same {al : Allow} {bd : Dev} (f c : Nat) (m : TermMsg) (d : Dev) (hk : Same al bd d) (w0 : al.fret = true := by assumption) : Same al bd (freeSet f c m d) := by
  unfold freeSet
  repeat' (first | with_reducible (first | assumption | apply modCourse_same | refine ite_same ?_ ?_ | intro _ | split) | dsimp only)

theorem settleKb_same {al : Allow} {bd : Dev} (f c : Nat) (m : TermMsg) (oslice leaf : Nat) (d : Dev) (hk : Same al bd d) (w0 : al.regs = true := by assumption) (w1 : al.links = true := by assumption) (w2 : al.fret = true := by assumption) (w3 : al.streams = true := by assumption) (w4 : al.tx = true := by assumption) : Same al bd (settleKb f c m oslice leaf d) := by
  unfold settleKb
  repeat' (first | with_reducible (first | assumption | apply modCourse_same | apply narrowKb_same | apply sendLeaves_same | apply freeSet_same | refine ite_same ?_ ?_ | intro _ | split) | dsimp only)

theorem openKbs_same {al : Allow} {bd : Dev} (f c : Nat) (m : TermMsg) (d : Dev) (hk : Same al bd d) (w0 : al.fret = true := by assumption) : Same al bd (openKbs f c m d) := by
  unfold openKbs
  repeat' (first | with_reducible (first | assumption | apply modCourse_same | refine ite_same ?_ ?_ | intro _ | split) | dsimp only)

theorem dataParity_same {al : Allow} {bd : Dev} (f c slot t g layer stream : Nat) (d : Dev) (hk : Same al bd d) (w0 : al.regs = true := by assumption) (w1 : al.strand = true := by assumption) (w2 : al.peg = true := by assumption) (w3 : al.rst = true := by assumption) (w4 : al.fret = true := by assumption) (w5 : al.loads = true := by assumption) (w6 : al.streams = true := by assumption) (w7 : al.scheds = true := by assumption) (w8 : al.kv = true := by assumption) (w9 : al.tx = true := by assumption) : Same al bd (dataParity f c slot t g layer stream d) := by
  unfold dataParity
  repeat' (first | with_reducible (first | assumption | apply bump_same | apply slotFault_same | apply tileRecord_same | refine ite_same ?_ ?_ | intro _ | split) | dsimp only)

theorem slotParity_same {al : Allow} {bd : Dev} (f c slot layer stream : Nat) (d : Dev) (hk : Same al bd d) (w0 : al.regs = true := by assumption) (w1 : al.strand = true := by assumption) (w2 : al.peg = true := by assumption) (w3 : al.rst = true := by assumption) (w4 : al.fret = true := by assumption) (w5 : al.loads = true := by assumption) (w6 : al.streams = true := by assumption) (w7 : al.scheds = true := by assumption) (w8 : al.kv = true := by assumption) (w9 : al.tx = true := by assumption) : Same al bd (slotParity f c slot layer stream d) := by
  unfold slotParity
  repeat' (first | with_reducible (first | assumption | apply bump_same | apply errRecord_same | apply slotFault_same | refine ite_same ?_ ?_ | intro _ | split) | dsimp only)

theorem assignWaiting_same {al : Allow} {bd : Dev} (f c : Nat) (d : Dev) (hk : Same al bd d) (w0 : al.fret = true := by assumption) : Same al bd (assignWaiting f c d) := by
  unfold assignWaiting
  repeat' (first | with_reducible (first | assumption | apply forEach_same | apply assignVec_same | refine ite_same ?_ ?_ | intro _ | split) | dsimp only)

theorem sumTerms_same {al : Allow} {bd : Dev} (f c : Nat) (m : TermMsg) (d : Dev) (hk : Same al bd d) (w0 : al.regs = true := by assumption) (w1 : al.links = true := by assumption) (w2 : al.fret = true := by assumption) (w3 : al.streams = true := by assumption) (w4 : al.tx = true := by assumption) : Same al bd (sumTerms f c m d) := by
  unfold sumTerms
  repeat' (first | with_reducible (first | assumption | apply addCtr_same | apply modCourse_same | apply settleKb_same | apply openKbs_same | refine ite_same ?_ ?_ | intro _ | split) | dsimp only)

theorem groupLeft_same {al : Allow} {bd : Dev} (f c : Nat) (m : TermMsg) (d : Dev) (hk : Same al bd d) (w0 : al.fret = true := by assumption) : Same al bd (groupLeft f c m d) := by
  unfold groupLeft
  repeat' (first | with_reducible (first | assumption | apply modPluck_same | apply retirePluck_same | refine ite_same ?_ ?_ | intro _ | split) | dsimp only)

theorem termArrival_same {al : Allow} {bd : Dev} (f c : Nat) (parityErr inside : Bool) (d : Dev) (hk : Same al bd d) (w0 : al.regs = true := by assumption) (w1 : al.strand = true := by assumption) (w2 : al.peg = true := by assumption) (w3 : al.rst = true := by assumption) (w4 : al.links = true := by assumption) (w5 : al.fret = true := by assumption) (w6 : al.loads = true := by assumption) (w7 : al.streams = true := by assumption) (w8 : al.scheds = true := by assumption) (w9 : al.kv = true := by assumption) (w10 : al.tx = true := by assumption) : Same al bd (termArrival f c parityErr inside d) := by
  unfold termArrival
  repeat' (first | with_reducible (first | assumption | apply modCourse_same | apply purgeSets_same | apply dataParity_same | apply assignWaiting_same | apply sumTerms_same | apply groupLeft_same | refine ite_same ?_ ?_ | intro _ | split) | dsimp only)

theorem dataFlit_same {al : Allow} {bd : Dev} (f c s stream : Nat) (payload : List Byte) (d : Dev) (hk : Same al bd d) (w0 : al.fret = true := by assumption) : Same al bd (dataFlit f c s stream payload d) := by
  unfold dataFlit
  repeat' (first | with_reducible (first | assumption | apply ringTake_same | apply assignVec_same | apply modVSlot_same | refine ite_same ?_ ?_ | intro _ | split) | dsimp only)

theorem treeResult_same {al : Allow} {bd : Dev} (f c s slice col : Nat) (parityErr : Bool) (d : Dev) (hk : Same al bd d) (w0 : al.regs = true := by assumption) (w1 : al.strand = true := by assumption) (w2 : al.peg = true := by assumption) (w3 : al.rst = true := by assumption) (w4 : al.fret = true := by assumption) (w5 : al.loads = true := by assumption) (w6 : al.streams = true := by assumption) (w7 : al.scheds = true := by assumption) (w8 : al.kv = true := by assumption) (w9 : al.tx = true := by assumption) : Same al bd (treeResult f c s slice col parityErr d) := by
  unfold treeResult
  repeat' (first | with_reducible (first | assumption | apply forEach_same | apply satMark_same | apply modVSlot_same | apply slotParity_same | refine ite_same ?_ ?_ | intro _ | split) | dsimp only)

theorem bufferSealed_same {al : Allow} {bd : Dev} (f c s : Nat) (b : Bool) (wait : Nat) (d : Dev) (hk : Same al bd d) (w0 : al.regs = true := by assumption) (w1 : al.strand = true := by assumption) (w2 : al.peg = true := by assumption) (w3 : al.rst = true := by assumption) (w4 : al.fret = true := by assumption) (w5 : al.loads = true := by assumption) (w6 : al.streams = true := by assumption) (w7 : al.scheds = true := by assumption) (w8 : al.kv = true := by assumption) (w9 : al.tx = true := by assumption) : Same al bd (bufferSealed f c s b wait d) := by
  unfold bufferSealed
  repeat' (first | with_reducible (first | assumption | apply addCtr_same | apply forEach_same | apply modCourse_same | apply modSlot_same | apply modBuf_same | apply passStart_same | refine ite_same ?_ ?_ | intro _ | split) | dsimp only)

theorem putEf_same {al : Allow} {bd : Dev} (f c k : Nat) (e : EfSet) (d : Dev) (hk : Same al bd d) (w0 : al.fret = true := by assumption) : Same al bd (putEf f c k e d) := by
  unfold putEf
  repeat' (first | with_reducible (first | assumption | apply modCourse_same | refine ite_same ?_ ?_ | intro _ | split) | dsimp only)

theorem sendG4_same {al : Allow} {bd : Dev} (f c s p stage sl efpos : Nat) (v : VecId) (y : List Dy) (d : Dev) (hk : Same al bd d) (w0 : al.regs = true := by assumption) (w1 : al.links = true := by assumption) (w2 : al.fret = true := by assumption) (w3 : al.streams = true := by assumption) (w4 : al.tx = true := by assumption) : Same al bd (sendG4 f c s p stage sl efpos v y d) := by
  unfold sendG4
  repeat' (first | with_reducible (first | assumption | apply addCtr_same | apply bump_same | apply sendSlice_same | apply flagStream_same | apply putEf_same | refine ite_same ?_ ?_ | intro _ | split) | dsimp only)

theorem sendOperands_same {al : Allow} {bd : Dev} (p b stage sl use stream bytes : Nat) (vals : List Nat) (d : Dev) (hk : Same al bd d) (w0 : al.regs = true := by assumption) (w1 : al.links = true := by assumption) (w2 : al.fret = true := by assumption) (w3 : al.tx = true := by assumption) : Same al bd (sendOperands p b stage sl use stream bytes vals d) := by
  unfold sendOperands
  repeat' (first | with_reducible (first | assumption | apply forEach_same | apply fretInject_same | refine ite_same ?_ ?_ | intro _ | split) | dsimp only)

theorem sendWide_same {al : Allow} {bd : Dev} (f c s p stage sl : Nat) (v : VecId) (y : List Dy) (d : Dev) (hk : Same al bd d) (w0 : al.regs = true := by assumption) (w1 : al.links = true := by assumption) (w2 : al.fret = true := by assumption) (w3 : al.tx = true := by assumption) : Same al bd (sendWide f c s p stage sl v y d) := by
  unfold sendWide
  repeat' (first | with_reducible (first | assumption | apply addCtr_same | apply forEach_same | apply fretInject_same | apply sendOperands_same | refine ite_same ?_ ?_ | intro _ | split) | dsimp only)

theorem voidEf_same {al : Allow} {bd : Dev} (f c s : Nat) (d : Dev) (hk : Same al bd d) (w0 : al.fret = true := by assumption) : Same al bd (voidEf f c s d) := by
  unfold voidEf
  repeat' (first | with_reducible (first | assumption | apply forEach_same | apply putEf_same | refine ite_same ?_ ?_ | intro _ | split) | dsimp only)

theorem drainSlot_same {al : Allow} {bd : Dev} (f c s : Nat) (u : VSlot) (d : Dev) (hk : Same al bd d) (w0 : al.regs = true := by assumption) (w1 : al.strand = true := by assumption) (w2 : al.peg = true := by assumption) (w3 : al.links = true := by assumption) (w4 : al.fret = true := by assumption) (w5 : al.loads = true := by assumption) (w6 : al.streams = true := by assumption) (w7 : al.scheds = true := by assumption) (w8 : al.kv = true := by assumption) (w9 : al.tx = true := by assumption) : Same al bd (drainSlot f c s u d) := by
  unfold drainSlot
  repeat' (first | with_reducible (first | assumption | apply bump_same | apply forEach_same | apply endStream_same | apply satMark_same | apply sendG4_same | apply sendWide_same | apply voidEf_same | refine ite_same ?_ ?_ | intro _ | split) | dsimp only)

theorem bufferDrainStart_same {al : Allow} {bd : Dev} (f c s : Nat) (b : Bool) (par : Option Nat) (d : Dev) (hk : Same al bd d) (w0 : al.regs = true := by assumption) (w1 : al.strand = true := by assumption) (w2 : al.peg = true := by assumption) (w3 : al.rst = true := by assumption) (w4 : al.links = true := by assumption) (w5 : al.fret = true := by assumption) (w6 : al.loads = true := by assumption) (w7 : al.streams = true := by assumption) (w8 : al.scheds = true := by assumption) (w9 : al.kv = true := by assumption) (w10 : al.tx = true := by assumption) : Same al bd (bufferDrainStart f c s b par d) := by
  unfold bufferDrainStart
  repeat' (first | with_reducible (first | assumption | apply forEach_same | apply modBuf_same | apply slotParity_same | apply drainSlot_same | refine ite_same ?_ ?_ | intro _ | split) | dsimp only)

theorem bufferDrainDone_same {al : Allow} {bd : Dev} (f c s : Nat) (b : Bool) (d : Dev) (hk : Same al bd d) (w0 : al.regs = true := by assumption) (w1 : al.strand = true := by assumption) (w2 : al.peg = true := by assumption) (w3 : al.rst = true := by assumption) (w4 : al.fret = true := by assumption) (w5 : al.loads = true := by assumption) (w6 : al.streams = true := by assumption) (w7 : al.scheds = true := by assumption) (w8 : al.kv = true := by assumption) (w9 : al.tx = true := by assumption) : Same al bd (bufferDrainDone f c s b d) := by
  unfold bufferDrainDone
  repeat' (first | with_reducible (first | assumption | apply bump_same | apply forEach_same | apply modCourse_same | apply modSlot_same | apply modBuf_same | apply passStart_same | refine ite_same ?_ ?_ | intro _ | split) | dsimp only)

theorem capoAdvisory_same {al : Allow} {bd : Dev} (f c s layer : Nat) (a : AdvTag) (d : Dev) (hk : Same al bd d) (w0 : al.regs = true := by assumption) (w1 : al.strand = true := by assumption) (w2 : al.peg = true := by assumption) (w3 : al.tx = true := by assumption) : Same al bd (capoAdvisory f c s layer a d) := by
  unfold capoAdvisory
  repeat' (first | with_reducible (first | assumption | apply regPut_same | apply bump_same | apply raiseEvent_same | refine ite_same ?_ ?_ | intro _ | split) | dsimp only)

theorem advisoryPass_same {al : Allow} {bd : Dev} (f c s : Nat) (q : PassD) (d : Dev) (hk : Same al bd d) (w0 : al.regs = true := by assumption) (w1 : al.strand = true := by assumption) (w2 : al.peg = true := by assumption) (w3 : al.fret = true := by assumption) (w4 : al.tx = true := by assumption) : Same al bd (advisoryPass f c s q d) := by
  unfold advisoryPass
  repeat' (first | with_reducible (first | assumption | apply modSlot_same | apply capoAdvisory_same | refine ite_same ?_ ?_ | intro _ | split) | dsimp only)

theorem passEnd_same {al : Allow} {bd : Dev} (f c s : Nat) (d : Dev) (hk : Same al bd d) (w0 : al.regs = true := by assumption) (w1 : al.strand = true := by assumption) (w2 : al.peg = true := by assumption) (w3 : al.fret = true := by assumption) (w4 : al.tx = true := by assumption) : Same al bd (passEnd f c s d) := by
  unfold passEnd
  repeat' (first | with_reducible (first | assumption | apply modSlot_same | apply advisoryPass_same | refine ite_same ?_ ?_ | intro _ | split) | dsimp only)

theorem selftestStart_same {al : Allow} {bd : Dev} (f c t : Nat) (d : Dev) (hk : Same al bd d) (w0 : al.fret = true := by assumption) : Same al bd (selftestStart f c t d) := by
  unfold selftestStart
  repeat' (first | with_reducible (first | assumption | apply modTile_same | apply modCourse_same | refine ite_same ?_ ?_ | intro _ | split) | dsimp only)

theorem dropTest_same {al : Allow} {bd : Dev} (f c t : Nat) (d : Dev) (hk : Same al bd d) (w0 : al.fret = true := by assumption) : Same al bd (dropTest f c t d) := by
  unfold dropTest
  repeat' (first | with_reducible (first | assumption | apply modCourse_same | refine ite_same ?_ ?_ | intro _ | split) | dsimp only)

theorem startObservation_same {al : Allow} {bd : Dev} (f c t : Nat) (d : Dev) (hk : Same al bd d) (w0 : al.fret = true := by assumption) : Same al bd (startObservation f c t d) := by
  unfold startObservation
  repeat' (first | with_reducible (first | assumption | apply modTile_same | refine ite_same ?_ ?_ | intro _ | split) | dsimp only)

theorem retireColumn_same {al : Allow} {bd : Dev} (f c t col : Nat) (d : Dev) (hk : Same al bd d) (w0 : al.regs = true := by assumption) (w1 : al.fret = true := by assumption) : Same al bd (retireColumn f c t col d) := by
  unfold retireColumn
  repeat' (first | with_reducible (first | assumption | apply bump_same | apply modTile_same | refine ite_same ?_ ?_ | intro _ | split) | dsimp only)

theorem returnToService_same {al : Allow} {bd : Dev} (f c t : Nat) (d : Dev) (hk : Same al bd d) (w0 : al.fret = true := by assumption) : Same al bd (returnToService f c t d) := by
  unfold returnToService
  repeat' (first | with_reducible (first | assumption | apply assignTile_same | refine ite_same ?_ ?_ | intro _ | split) | dsimp only)

theorem keeperDone_same {al : Allow} {bd : Dev} (f kat scan : Nat) (d : Dev) (hk : Same al bd d) (w0 : al.fret = true := by assumption) : Same al bd (keeperDone f kat scan d) := by
  unfold keeperDone
  repeat' (first | with_reducible (first | assumption | refine ite_same ?_ ?_ | intro _ | split) | simp only [same_fret, w0] | dsimp only)

theorem testRecord_same {al : Allow} {bd : Dev} (f c t res col : Nat) (d : Dev) (hk : Same al bd d) (w0 : al.regs = true := by assumption) (w1 : al.strand = true := by assumption) (w2 : al.peg = true := by assumption) (w3 : al.tx = true := by assumption) : Same al bd (testRecord f c t res col d) := by
  unfold testRecord
  repeat' (first | with_reducible (first | assumption | apply tileRecord_same | refine ite_same ?_ ?_ | intro _ | split) | dsimp only)

theorem passObserved_same {al : Allow} {bd : Dev} (f c t : Nat) (d : Dev) (hk : Same al bd d) (w0 : al.regs = true := by assumption) (w1 : al.fret = true := by assumption) : Same al bd (passObserved f c t d) := by
  unfold passObserved
  repeat' (first | with_reducible (first | assumption | apply addField_same | apply bump_same | apply startObservation_same | refine ite_same ?_ ?_ | intro _ | split) | dsimp only)

theorem classifyBad_same {al : Allow} {bd : Dev} (f c t res col : Nat) (d : Dev) (hk : Same al bd d) (w0 : al.regs = true := by assumption) (w1 : al.flash = true := by assumption) (w2 : al.strand = true := by assumption) (w3 : al.peg = true := by assumption) (w4 : al.fret = true := by assumption) (w5 : al.tx = true := by assumption) : Same al bd (classifyBad f c t res col d) := by
  unfold classifyBad
  repeat' (first | with_reducible (first | assumption | apply retireTile_same | apply startObservation_same | apply retireColumn_same | apply testRecord_same | refine ite_same ?_ ?_ | intro _ | split) | dsimp only)

theorem classify_same {al : Allow} {bd : Dev} (f c t res col : Nat) (q : TestReq) (d : Dev) (hk : Same al bd d) (w0 : al.regs = true := by assumption) (w1 : al.flash = true := by assumption) (w2 : al.strand = true := by assumption) (w3 : al.peg = true := by assumption) (w4 : al.fret = true := by assumption) (w5 : al.tx = true := by assumption) : Same al bd (classify f c t res col q d) := by
  unfold classify
  repeat' (first | with_reducible (first | assumption | apply modTile_same | apply passObserved_same | apply classifyBad_same | refine ite_same ?_ ?_ | intro _ | split) | dsimp only)

theorem reinstateTile_same {al : Allow} {bd : Dev} (f c t : Nat) (d : Dev) (hk : Same al bd d) (w0 : al.regs = true := by assumption) (w1 : al.flash = true := by assumption) (w2 : al.fret = true := by assumption) : Same al bd (reinstateTile f c t d) := by
  unfold reinstateTile
  repeat' (first | with_reducible (first | assumption | apply putRetMap_same | apply passObserved_same | refine ite_same ?_ ?_ | intro _ | split) | dsimp only)

theorem bringUpKat_same {al : Allow} {bd : Dev} (f c t kat col : Nat) (d : Dev) (hk : Same al bd d) (w0 : al.regs = true := by assumption) (w1 : al.flash = true := by assumption) (w2 : al.strand = true := by assumption) (w3 : al.peg = true := by assumption) (w4 : al.fret = true := by assumption) (w5 : al.tx = true := by assumption) : Same al bd (bringUpKat f c t kat col d) := by
  unfold bringUpKat
  repeat' (first | with_reducible (first | assumption | apply bump_same | apply modTile_same | apply retireTile_same | apply retireColumn_same | apply testRecord_same | refine ite_same ?_ ?_ | intro _ | split) | dsimp only)

theorem selftestResult_same {al : Allow} {bd : Dev} (f c t kat scan katCol scanCol : Nat) (d : Dev) (hk : Same al bd d) (w0 : al.regs = true := by assumption) (w1 : al.flash = true := by assumption) (w2 : al.strand = true := by assumption) (w3 : al.peg = true := by assumption) (w4 : al.fret = true := by assumption) (w5 : al.tx = true := by assumption) : Same al bd (selftestResult f c t kat scan katCol scanCol d) := by
  unfold selftestResult
  repeat' (first | with_reducible (first | assumption | apply addCtr_same | apply modTile_same | apply dropTest_same | apply returnToService_same | apply keeperDone_same | apply classify_same | apply reinstateTile_same | apply bringUpKat_same | refine ite_same ?_ ?_ | intro _ | split) | dsimp only)

theorem periodicScanDue_same {al : Allow} {bd : Dev} (f c t : Nat) (d : Dev) (hk : Same al bd d) (w0 : al.fret = true := by assumption) : Same al bd (periodicScanDue f c t d) := by
  unfold periodicScanDue
  repeat' (first | with_reducible (first | assumption | apply modCourse_same | apply assignTile_same | refine ite_same ?_ ?_ | intro _ | split) | dsimp only)

theorem observationEnd_same {al : Allow} {bd : Dev} (f c t : Nat) (d : Dev) (hk : Same al bd d) (w0 : al.fret = true := by assumption) : Same al bd (observationEnd f c t d) := by
  unfold observationEnd
  repeat' (first | with_reducible (first | assumption | apply modTile_same | refine ite_same ?_ ?_ | intro _ | split) | dsimp only)

theorem tileCommand_same {al : Allow} {bd : Dev} (f action c t : Nat) (d : Dev) (hk : Same al bd d) (w0 : al.fret = true := by assumption) : Same al bd (tileCommand f action c t d) := by
  unfold tileCommand
  repeat' (first | with_reducible (first | assumption | apply modCourse_same | apply assignTile_same | refine ite_same ?_ ?_ | intro _ | split) | simp only [same_fret, w0] | dsimp only)

theorem droneSampleDone_same {al : Allow} {bd : Dev} (f c : Nat) (d : Dev) (hk : Same al bd d) (w0 : al.regs = true := by assumption) (w1 : al.flash = true := by assumption) (w2 : al.strand = true := by assumption) (w3 : al.peg = true := by assumption) (w4 : al.fret = true := by assumption) (w5 : al.tx = true := by assumption) : Same al bd (droneSampleDone f c d) := by
  unfold droneSampleDone
  repeat' (first | with_reducible (first | assumption | apply bump_same | apply modTile_same | apply modCourse_same | apply tileRecord_same | apply markSuspect_same | apply foldl_same | apply foldl_same_snd | apply foldl_same_thd | refine ite_same ?_ ?_ | intro _ | split) | dsimp only)

theorem droneRefit_same {al : Allow} {bd : Dev} (f c t band col : Nat) (d : Dev) (hk : Same al bd d) (w0 : al.free = true := by assumption) (w1 : al.regs = true := by assumption) (w2 : al.fret = true := by assumption) : Same al bd (droneRefit f c t band col d) := by
  unfold droneRefit
  repeat' (first | with_reducible (first | assumption | apply bump_same | apply draw_same | apply modTile_same | refine ite_same ?_ ?_ | intro _ | split) | dsimp only)

theorem qualityAlarm_same {al : Allow} {bd : Dev} (f c t : Nat) (d : Dev) (hk : Same al bd d) (w0 : al.regs = true := by assumption) (w1 : al.strand = true := by assumption) (w2 : al.peg = true := by assumption) (w3 : al.fret = true := by assumption) (w4 : al.tx = true := by assumption) : Same al bd (qualityAlarm f c t d) := by
  unfold qualityAlarm
  repeat' (first | with_reducible (first | assumption | apply bump_same | apply raiseEvent_same | apply modTile_same | refine ite_same ?_ ?_ | intro _ | split) | dsimp only)

theorem qualityPublish_same {al : Allow} {bd : Dev} (f c t : Nat) (d : Dev) (hk : Same al bd d) (w0 : al.regs = true := by assumption) (w1 : al.strand = true := by assumption) (w2 : al.peg = true := by assumption) (w3 : al.fret = true := by assumption) (w4 : al.tx = true := by assumption) : Same al bd (qualityPublish f c t d) := by
  unfold qualityPublish
  repeat' (first | with_reducible (first | assumption | apply modTile_same | apply qualityAlarm_same | refine ite_same ?_ ?_ | intro _ | split) | dsimp only)

theorem foldWindowEnd_same {al : Allow} {bd : Dev} (f c s : Nat) (d : Dev) (hk : Same al bd d) (w0 : al.regs = true := by assumption) (w1 : al.fret = true := by assumption) : Same al bd (foldWindowEnd f c s d) := by
  unfold foldWindowEnd
  repeat' (first | with_reducible (first | assumption | apply regSetField_same | apply bump_same | apply choice_same | apply modSlot_same | refine ite_same ?_ ?_ | intro _ | split) | dsimp only)

theorem bandUpdate_same {al : Allow} {bd : Dev} (die : Nat) (d : Dev) (hk : Same al bd d) (w0 : al.regs = true := by assumption) (w1 : al.fret = true := by assumption) : Same al bd (bandUpdate die d) := by
  unfold bandUpdate
  repeat' (first | with_reducible (first | assumption | apply bump_same | apply modDie_same | refine ite_same ?_ ?_ | intro _ | split) | dsimp only)

theorem sensorSample_same {al : Allow} {bd : Dev} (die k : Nat) (v : Half) (d : Dev) (hk : Same al bd d) (w0 : al.regs = true := by assumption) (w1 : al.strand = true := by assumption) (w2 : al.peg = true := by assumption) (w3 : al.pwr = true := by assumption) (w4 : al.fret = true := by assumption) (w5 : al.tx = true := by assumption) : Same al bd (sensorSample die k v d) := by
  unfold sensorSample
  repeat' (first | with_reducible (first | assumption | apply thermalCheck_same | apply fastUpdate_same | apply snWrite_same | apply bandUpdate_same | refine ite_same ?_ ?_ | intro _ | split) | dsimp only)

theorem powerSensorSample_same {al : Allow} {bd : Dev} (hbms : List (Nat × Nat × Half)) (vin iin pin : Half) (d : Dev) (hk : Same al bd d) (w0 : al.regs = true := by assumption) (w1 : al.strand = true := by assumption) (w2 : al.peg = true := by assumption) (w3 : al.pwr = true := by assumption) (w4 : al.fret = true := by assumption) (w5 : al.tx = true := by assumption) : Same al bd (powerSensorSample hbms vin iin pin d) := by
  unfold powerSensorSample
  repeat' (first | with_reducible (first | assumption | apply forEach_same | apply powerSample_same | apply bandUpdate_same | refine ite_same ?_ ?_ | intro _ | split) | dsimp only)

theorem fitRange_same {al : Allow} {bd : Dev} (f : Nat) (x : Fit) (d : Dev) (hk : Same al bd d) (w0 : al.regs = true := by assumption) (w1 : al.flash = true := by assumption) (w2 : al.strand = true := by assumption) (w3 : al.peg = true := by assumption) (w4 : al.fret = true := by assumption) (w5 : al.tx = true := by assumption) : Same al bd (fitRange f x d) := by
  unfold fitRange
  repeat' (first | with_reducible (first | assumption | apply bump_same | apply modTile_same | apply retireTile_same | refine ite_same ?_ ?_ | intro _ | split) | dsimp only)

theorem calCommit_same {al : Allow} {bd : Dev} (f : Nat) (temp : Int) (fits : List Fit) (mses : List CalMse) (d : Dev) (hk : Same al bd d) (w0 : al.regs = true := by assumption) (w1 : al.flash = true := by assumption) (w2 : al.strand = true := by assumption) (w3 : al.peg = true := by assumption) (w4 : al.fret = true := by assumption) (w5 : al.tx = true := by assumption) : Same al bd (calCommit f temp fits mses d) := by
  unfold calCommit
  repeat' (first | with_reducible (first | assumption | apply forEach_same | apply modTile_same | apply modDie_same | apply qualityAlarm_same | apply fitRange_same | refine ite_same ?_ ?_ | intro _ | split) | dsimp only)

end Sys2Proof.Machine
end

