-- ==== Sys2Proof/Laws/FrameWork.lean ====
section
/-! SUPPORT. The fields that the operations of weight loads, KV, stream requests, the scheduler and Pick may change, one lemma each (Laws/Frame.lean). -/

namespace Sys2Proof.Machine

set_option linter.unusedSimpArgs false

theorem modWindow_same {al : Allow} {bd : Dev} (n : Nat) (f : Window → Window) (d : Dev) (hk : Same al bd d) (w0 : al.loads = true := by assumption) : Same al bd (modWindow n f d) := by
  unfold modWindow
  repeat' (first | with_reducible (first | assumption | refine ite_same ?_ ?_ | intro _ | split) | simp only [same_loads, w0] | dsimp only)

theorem dropWindow_same {al : Allow} {bd : Dev} (n : Nat) (d : Dev) (hk : Same al bd d) (w0 : al.loads = true := by assumption) : Same al bd (dropWindow n d) := by
  unfold dropWindow
  repeat' (first | with_reducible (first | assumption | refine ite_same ?_ ?_ | intro _ | split) | simp only [same_loads, w0] | dsimp only)

theorem retireEpoch_same {al : Allow} {bd : Dev} (p m after : Nat) (by_ : Option Nat) (d : Dev) (hk : Same al bd d) (w0 : al.loads = true := by assumption) : Same al bd (retireEpoch p m after by_ d) := by
  unfold retireEpoch
  repeat' (first | with_reducible (first | assumption | refine ite_same ?_ ?_ | intro _ | split) | simp only [same_loads, w0] | dsimp only)

theorem putWindow_same {al : Allow} {bd : Dev} (w : Window) (d : Dev) (hk : Same al bd d) (w0 : al.loads = true := by assumption) : Same al bd (putWindow w d) := by
  unfold putWindow
  repeat' (first | with_reducible (first | assumption | refine ite_same ?_ ?_ | intro _ | split) | simp only [same_loads, w0] | dsimp only)

theorem doLoadBegin_same {al : Allow} {bd : Dev} (p aid : Nat) (m : Dgram) (d : Dev) (hk : Same al bd d) (w0 : al.regs = true := by assumption) (w1 : al.strand = true := by assumption) (w2 : al.peg = true := by assumption) (w3 : al.loads = true := by assumption) (w4 : al.tx = true := by assumption) : Same al bd (doLoadBegin p aid m d) := by
  unfold doLoadBegin
  repeat' (first | with_reducible (first | assumption | apply sendReply_same | apply settleRefs_same | apply retireEpoch_same | apply putWindow_same | refine ite_same ?_ ?_ | intro _ | split) | dsimp only)

theorem retireGen_same {al : Allow} {bd : Dev} (slot : Nat) (d : Dev) (hk : Same al bd d) (w0 : al.regs = true := by assumption) (w1 : al.strand = true := by assumption) (w2 : al.peg = true := by assumption) (w3 : al.loads = true := by assumption) (w4 : al.tx = true := by assumption) : Same al bd (retireGen slot d) := by
  unfold retireGen
  repeat' (first | with_reducible (first | assumption | apply settleRefs_same | refine ite_same ?_ ?_ | intro _ | split) | simp only [same_loads, w3] | dsimp only)

theorem doAdapterLoad_same {al : Allow} {bd : Dev} (p aid : Nat) (m : Dgram) (d : Dev) (hk : Same al bd d) (w0 : al.regs = true := by assumption) (w1 : al.strand = true := by assumption) (w2 : al.peg = true := by assumption) (w3 : al.loads = true := by assumption) (w4 : al.tx = true := by assumption) : Same al bd (doAdapterLoad p aid m d) := by
  unfold doAdapterLoad
  repeat' (first | with_reducible (first | assumption | apply sendReply_same | apply putWindow_same | apply retireGen_same | refine ite_same ?_ ?_ | intro _ | split) | dsimp only)

theorem abortWindow_same {al : Allow} {bd : Dev} (w : Window) (cause : Nat) (d : Dev) (hk : Same al bd d) (w0 : al.regs = true := by assumption) (w1 : al.strand = true := by assumption) (w2 : al.peg = true := by assumption) (w3 : al.loads = true := by assumption) (w4 : al.tx = true := by assumption) : Same al bd (abortWindow w cause d) := by
  unfold abortWindow
  repeat' (first | with_reducible (first | assumption | apply bump_same | apply windowEvent_same | apply settleRefs_same | apply dropWindow_same | refine ite_same ?_ ?_ | intro _ | split) | simp only [same_loads, w3] | dsimp only)

theorem doLoadAbort_same {al : Allow} {bd : Dev} (p aid : Nat) (m : Dgram) (d : Dev) (hk : Same al bd d) (w0 : al.regs = true := by assumption) (w1 : al.strand = true := by assumption) (w2 : al.peg = true := by assumption) (w3 : al.loads = true := by assumption) (w4 : al.tx = true := by assumption) : Same al bd (doLoadAbort p aid m d) := by
  unfold doLoadAbort
  repeat' (first | with_reducible (first | assumption | apply sendReply_same | apply abortWindow_same | refine ite_same ?_ ?_ | intro _ | split) | dsimp only)

theorem windowIdleTimeout_same {al : Allow} {bd : Dev} (n : Nat) (d : Dev) (hk : Same al bd d) (w0 : al.regs = true := by assumption) (w1 : al.strand = true := by assumption) (w2 : al.peg = true := by assumption) (w3 : al.loads = true := by assumption) (w4 : al.tx = true := by assumption) : Same al bd (windowIdleTimeout n d) := by
  unfold windowIdleTimeout
  repeat' (first | with_reducible (first | assumption | apply abortWindow_same | refine ite_same ?_ ?_ | intro _ | split) | dsimp only)

theorem writeShard_same {al : Allow} {bd : Dev} (qp p b j off : Nat) (w : Window) (data : List Byte) (d : Dev) (hk : Same al bd d) (w0 : al.regs = true := by assumption) (w1 : al.links = true := by assumption) (w2 : al.mem = true := by assumption) (w3 : al.poison = true := by assumption) (w4 : al.loads = true := by assumption) (w5 : al.tx = true := by assumption) : Same al bd (writeShard qp p b j off w data d) := by
  unfold writeShard
  repeat' (first | with_reducible (first | assumption | apply bump_same | apply send_same | apply bridgeBulk_same | apply hbmCount_same | apply hbmWrite_same | apply modWindow_same | refine ite_same ?_ ?_ | intro _ | split) | dsimp only)

theorem rdmaWriteLoad_same {al : Allow} {bd : Dev} (qp p : Nat) (key : Word) (va : DWord) (ce : Bool) (data : List Byte) (d : Dev) (hk : Same al bd d) (w0 : al.regs = true := by assumption) (w1 : al.eth = true := by assumption) (w2 : al.links = true := by assumption) (w3 : al.mem = true := by assumption) (w4 : al.poison = true := by assumption) (w5 : al.loads = true := by assumption) (w6 : al.tx = true := by assumption) : Same al bd (rdmaWriteLoad qp p key va ce data d) := by
  unfold rdmaWriteLoad
  repeat' (first | with_reducible (first | assumption | apply bump_same | apply send_same | apply ceOnRdma_same | apply rdmaFirewallRefuse_same | apply writeShard_same | refine ite_same ?_ ?_ | intro _ | split) | dsimp only)

theorem noWindow_same {al : Allow} {bd : Dev} (p aid : Nat) (m : Dgram) (d : Dev) (hk : Same al bd d) (w0 : al.strand = true := by assumption) (w1 : al.tx = true := by assumption) : Same al bd (noWindow p aid m d) := by
  unfold noWindow
  repeat' (first | with_reducible (first | assumption | apply sendReply_same | refine ite_same ?_ ?_ | intro _ | split) | dsimp only)

theorem doLoadCommit_same {al : Allow} {bd : Dev} (p aid : Nat) (m : Dgram) (d : Dev) (hk : Same al bd d) (w0 : al.strand = true := by assumption) (w1 : al.loads = true := by assumption) (w2 : al.tx = true := by assumption) : Same al bd (doLoadCommit p aid m d) := by
  unfold doLoadCommit
  repeat' (first | with_reducible (first | assumption | apply sendReply_same | apply modWindow_same | apply noWindow_same | refine ite_same ?_ ?_ | intro _ | split) | dsimp only)

theorem replyCommit_same {al : Allow} {bd : Dev} (w : Window) (st epoch : Nat) (missing : List Nat) (d : Dev) (hk : Same al bd d) (w0 : al.strand = true := by assumption) (w1 : al.tx = true := by assumption) : Same al bd (replyCommit w st epoch missing d) := by
  unfold replyCommit
  repeat' (first | with_reducible (first | assumption | apply sendReply_same | refine ite_same ?_ ?_ | intro _ | split) | dsimp only)

theorem commitEpoch_same {al : Allow} {bd : Dev} (w : Window) (blocks : List (Nat × Nat)) (d : Dev) (hk : Same al bd d) (w0 : al.loads = true := by assumption) : Same al bd (commitEpoch w blocks d) := by
  unfold commitEpoch
  repeat' (first | with_reducible (first | assumption | apply retireEpoch_same | apply foldl_same | apply foldl_same_snd | apply foldl_same_thd | refine ite_same ?_ ?_ | intro _ | split) | simp only [same_loads, w0] | dsimp only)

theorem commitGen_same {al : Allow} {bd : Dev} (w : Window) (slot gen : Nat) (d : Dev) (hk : Same al bd d) (w0 : al.regs = true := by assumption) (w1 : al.strand = true := by assumption) (w2 : al.peg = true := by assumption) (w3 : al.loads = true := by assumption) (w4 : al.tx = true := by assumption) : Same al bd (commitGen w slot gen d) := by
  unfold commitGen
  repeat' (first | with_reducible (first | assumption | apply retireGen_same | refine ite_same ?_ ?_ | intro _ | split) | simp only [same_loads, w3] | dsimp only)

theorem loadCommitResult_same {al : Allow} {bd : Dev} (n : Nat) (nonFinite : Bool) (d : Dev) (hk : Same al bd d) (w0 : al.regs = true := by assumption) (w1 : al.strand = true := by assumption) (w2 : al.peg = true := by assumption) (w3 : al.loads = true := by assumption) (w4 : al.tx = true := by assumption) : Same al bd (loadCommitResult n nonFinite d) := by
  unfold loadCommitResult
  repeat' (first | with_reducible (first | assumption | apply bump_same | apply forEach_same | apply settleRefs_same | apply modWindow_same | apply dropWindow_same | apply replyCommit_same | apply commitEpoch_same | apply commitGen_same | refine ite_same ?_ ?_ | intro _ | split) | dsimp only)

theorem dropPrefix_same {al : Allow} {bd : Dev} (h : Nat) (d : Dev) (hk : Same al bd d) (w0 : al.regs = true := by assumption) (w1 : al.strand = true := by assumption) (w2 : al.peg = true := by assumption) (w3 : al.loads = true := by assumption) (w4 : al.prefixes = true := by assumption) (w5 : al.kv = true := by assumption) (w6 : al.tx = true := by assumption) : Same al bd (dropPrefix h d) := by
  unfold dropPrefix
  repeat' (first | with_reducible (first | assumption | apply forEach_same | apply unrefFrame_same | apply settleRefs_same | refine ite_same ?_ ?_ | intro _ | split) | simp only [same_prefixes, w4] | dsimp only)

theorem dropEpochPrefixes_same {al : Allow} {bd : Dev} (e : Epoch) (d : Dev) (hk : Same al bd d) (w0 : al.regs = true := by assumption) (w1 : al.strand = true := by assumption) (w2 : al.peg = true := by assumption) (w3 : al.loads = true := by assumption) (w4 : al.prefixes = true := by assumption) (w5 : al.kv = true := by assumption) (w6 : al.tx = true := by assumption) : Same al bd (dropEpochPrefixes e d) := by
  unfold dropEpochPrefixes
  repeat' (first | with_reducible (first | assumption | apply forEach_same | apply windowEvent_same | apply dropPrefix_same | refine ite_same ?_ ?_ | intro _ | split) | dsimp only)

theorem retireStream_same {al : Allow} {bd : Dev} (i : Nat) (d : Dev) (hk : Same al bd d) (w0 : al.regs = true := by assumption) (w1 : al.strand = true := by assumption) (w2 : al.peg = true := by assumption) (w3 : al.loads = true := by assumption) (w4 : al.streams = true := by assumption) (w5 : al.scheds = true := by assumption) (w6 : al.kv = true := by assumption) (w7 : al.tx = true := by assumption) : Same al bd (retireStream i d) := by
  unfold retireStream
  repeat' (first | with_reducible (first | assumption | apply bump_same | apply endStream_same | refine ite_same ?_ ?_ | intro _ | split) | dsimp only)

theorem epochRetireBy_same {al : Allow} {bd : Dev} (p m : Nat) (d : Dev) (hk : Same al bd d) (w0 : al.regs = true := by assumption) (w1 : al.strand = true := by assumption) (w2 : al.peg = true := by assumption) (w3 : al.loads = true := by assumption) (w4 : al.streams = true := by assumption) (w5 : al.prefixes = true := by assumption) (w6 : al.scheds = true := by assumption) (w7 : al.kv = true := by assumption) (w8 : al.tx = true := by assumption) : Same al bd (epochRetireBy p m d) := by
  unfold epochRetireBy
  repeat' (first | with_reducible (first | assumption | apply forEach_same | apply settleRefs_same | apply dropEpochPrefixes_same | apply retireStream_same | refine ite_same ?_ ?_ | intro _ | split) | dsimp only)

theorem layoutChange_same {al : Allow} {bd : Dev} (p m : Nat) (d : Dev) (hk : Same al bd d) (w0 : al.regs = true := by assumption) (w1 : al.strand = true := by assumption) (w2 : al.peg = true := by assumption) (w3 : al.loads = true := by assumption) (w4 : al.streams = true := by assumption) (w5 : al.prefixes = true := by assumption) (w6 : al.scheds = true := by assumption) (w7 : al.kv = true := by assumption) (w8 : al.tx = true := by assumption) : Same al bd (layoutChange p m d) := by
  unfold layoutChange
  repeat' (first | with_reducible (first | assumption | apply bump_same | apply forEach_same | apply settleRefs_same | apply endStream_same | apply abortWindow_same | apply dropEpochPrefixes_same | refine ite_same ?_ ?_ | intro _ | split) | simp only [same_loads, w3] | dsimp only)

theorem farPrefetchStart_same {al : Allow} {bd : Dev} (p m : Nat) (e : Word) (tag : Nat) (d : Dev) (hk : Same al bd d) (w0 : al.loads = true := by assumption) (w1 : al.tx = true := by assumption) : Same al bd (farPrefetchStart p m e tag d) := by
  unfold farPrefetchStart
  repeat' (first | with_reducible (first | assumption | apply send_same | apply forEach_same | refine ite_same ?_ ?_ | intro _ | split) | simp only [same_loads, w0] | dsimp only)

theorem farLayerLanded_same {al : Allow} {bd : Dev} (shards : List (Nat × List Byte)) (d : Dev) (hk : Same al bd d) (w0 : al.regs = true := by assumption) (w1 : al.strand = true := by assumption) (w2 : al.peg = true := by assumption) (w3 : al.rst = true := by assumption) (w4 : al.links = true := by assumption) (w5 : al.fret = true := by assumption) (w6 : al.mem = true := by assumption) (w7 : al.poison = true := by assumption) (w8 : al.loads = true := by assumption) (w9 : al.streams = true := by assumption) (w10 : al.scheds = true := by assumption) (w11 : al.kv = true := by assumption) (w12 : al.tx = true := by assumption) : Same al bd (farLayerLanded shards d) := by
  unfold farLayerLanded
  repeat' (first | with_reducible (first | assumption | apply bridgeBulk_same | apply hbmCount_same | apply hbmWrite_same | apply stageFault_same | apply foldl_same | apply foldl_same_snd | apply foldl_same_thd | refine ite_same ?_ ?_ | intro _ | split) | simp only [same_loads, w8] | dsimp only)

theorem farReadTimeout_same {al : Allow} {bd : Dev} (b : Nat) (exhausted : Bool) (d : Dev) (hk : Same al bd d) (w0 : al.regs = true := by assumption) (w1 : al.strand = true := by assumption) (w2 : al.peg = true := by assumption) (w3 : al.rst = true := by assumption) (w4 : al.fret = true := by assumption) (w5 : al.loads = true := by assumption) (w6 : al.streams = true := by assumption) (w7 : al.scheds = true := by assumption) (w8 : al.kv = true := by assumption) (w9 : al.tx = true := by assumption) : Same al bd (farReadTimeout b exhausted d) := by
  unfold farReadTimeout
  repeat' (first | with_reducible (first | assumption | apply bump_same | apply stageFault_same | refine ite_same ?_ ?_ | intro _ | split) | simp only [same_loads, w5] | dsimp only)

theorem bridgeRouted_same {al : Allow} {bd : Dev} (p b stream : Nat) (dests : List (Nat × Nat × Nat × Nat × Nat)) (flits : Nat → List (Nat × List Byte)) (d : Dev) (hk : Same al bd d) (w0 : al.regs = true := by assumption) (w1 : al.links = true := by assumption) (w2 : al.tx = true := by assumption) : Same al bd (bridgeRouted p b stream dests flits d) := by
  unfold bridgeRouted
  repeat' (first | with_reducible (first | assumption | apply forEach_same | apply nodeInject_same | refine ite_same ?_ ?_ | intro _ | split) | dsimp only)

theorem bridgeOperands_same {al : Allow} {bd : Dev} (p b stage sl : Nat) (v : VecId) (y : List Dy) (d : Dev) (hk : Same al bd d) (w0 : al.regs = true := by assumption) (w1 : al.links = true := by assumption) (w2 : al.tx = true := by assumption) : Same al bd (bridgeOperands p b stage sl v y d) := by
  unfold bridgeOperands
  repeat' (first | with_reducible (first | assumption | apply addCtr_same | apply forEach_same | apply nodeInject_same | refine ite_same ?_ ?_ | intro _ | split) | dsimp only)

theorem bridgeG4_same {al : Allow} {bd : Dev} (p b codes : Nat) (v : VecId) (y : List Dy) (dests : List (Nat × Nat × Nat × Nat × Nat)) (d : Dev) (hk : Same al bd d) (w0 : al.regs = true := by assumption) (w1 : al.links = true := by assumption) (w2 : al.streams = true := by assumption) (w3 : al.tx = true := by assumption) : Same al bd (bridgeG4 p b codes v y dests d) := by
  unfold bridgeG4
  repeat' (first | with_reducible (first | assumption | apply addCtr_same | apply bump_same | apply flagStream_same | apply bridgeRouted_same | refine ite_same ?_ ?_ | intro _ | split) | dsimp only)

theorem bridgeWide_same {al : Allow} {bd : Dev} (p b fmt : Nat) (v : VecId) (y : List Dy) (dests : List (Nat × Nat × Nat × Nat × Nat)) (d : Dev) (hk : Same al bd d) (w0 : al.regs = true := by assumption) (w1 : al.links = true := by assumption) (w2 : al.tx = true := by assumption) : Same al bd (bridgeWide p b fmt v y dests d) := by
  unfold bridgeWide
  repeat' (first | with_reducible (first | assumption | apply bridgeRouted_same | refine ite_same ?_ ?_ | intro _ | split) | dsimp only)

theorem bridgeSlice_same {al : Allow} {bd : Dev} (p b stage sl codes : Nat) (port : Bool) (v : VecId) (y : List Dy) (d : Dev) (hk : Same al bd d) (w0 : al.regs = true := by assumption) (w1 : al.links = true := by assumption) (w2 : al.streams = true := by assumption) (w3 : al.tx = true := by assumption) : Same al bd (bridgeSlice p b stage sl codes port v y d) := by
  unfold bridgeSlice
  repeat' (first | with_reducible (first | assumption | apply addCtr_same | apply bridgeOperands_same | apply bridgeG4_same | apply bridgeWide_same | refine ite_same ?_ ?_ | intro _ | split) | dsimp only)

theorem bridgeOut_same {al : Allow} {bd : Dev} (p b stage codes : Nat) (v : VecId) (y : List Dy) (d : Dev) (hk : Same al bd d) (w0 : al.regs = true := by assumption) (w1 : al.links = true := by assumption) (w2 : al.streams = true := by assumption) (w3 : al.tx = true := by assumption) : Same al bd (bridgeOut p b stage codes v y d) := by
  unfold bridgeOut
  repeat' (first | with_reducible (first | assumption | apply forEach_same | apply bridgeSlice_same | refine ite_same ?_ ?_ | intro _ | split) | dsimp only)

theorem kvFault_same {al : Allow} {bd : Dev} (b i : Nat) (d : Dev) (hk : Same al bd d) (w0 : al.regs = true := by assumption) (w1 : al.strand = true := by assumption) (w2 : al.peg = true := by assumption) (w3 : al.loads = true := by assumption) (w4 : al.streams = true := by assumption) (w5 : al.scheds = true := by assumption) (w6 : al.kv = true := by assumption) (w7 : al.tx = true := by assumption) : Same al bd (kvFault b i d) := by
  unfold kvFault
  repeat' (first | with_reducible (first | assumption | apply bump_same | apply endStream_same | refine ite_same ?_ ?_ | intro _ | split) | dsimp only)

theorem putKvStep_same {al : Allow} {bd : Dev} (b : Nat) (x : KvStep) (d : Dev) (hk : Same al bd d) (w0 : al.kv = true := by assumption) : Same al bd (putKvStep b x d) := by
  unfold putKvStep
  repeat' (first | with_reducible (first | assumption | apply modKv_same | refine ite_same ?_ ?_ | intro _ | split) | dsimp only)

theorem stagePeak_same {al : Allow} {bd : Dev} (b : Nat) (d : Dev) (hk : Same al bd d) (w0 : al.regs = true := by assumption) : Same al bd (stagePeak b d) := by
  unfold stagePeak
  repeat' (first | with_reducible (first | assumption | apply regSetField_same | refine ite_same ?_ ?_ | intro _ | split) | dsimp only)

theorem stageBytes_same {al : Allow} {bd : Dev} (b i lk first off : Nat) (bytes : List (Nat × Byte)) (d : Dev) (hk : Same al bd d) (w0 : al.kv = true := by assumption) : Same al bd (stageBytes b i lk first off bytes d) := by
  unfold stageBytes
  repeat' (first | with_reducible (first | assumption | apply modKv_same | apply foldl_same | apply foldl_same_snd | apply foldl_same_thd | refine ite_same ?_ ?_ | intro _ | split) | dsimp only)

theorem directBytes_same {al : Allow} {bd : Dev} (b addr : Nat) (lay : List Byte) (pos : Nat) (x : KvStep) (bytes : List (Nat × Byte)) (errs : List (Nat × Nat)) (d : Dev) (hk : Same al bd d) (w0 : al.regs = true := by assumption) (w1 : al.strand = true := by assumption) (w2 : al.peg = true := by assumption) (w3 : al.mem = true := by assumption) (w4 : al.poison = true := by assumption) (w5 : al.tx = true := by assumption) : Same al bd (directBytes b addr lay pos x bytes errs d) := by
  unfold directBytes
  repeat' (first | with_reducible (first | assumption | apply forEach_same | apply setByte_same | apply hbmWrite_same | apply hbmReadEcc_same | refine ite_same ?_ ?_ | intro _ | split) | dsimp only)

theorem appendPiece_same {al : Allow} {bd : Dev} (b i lk l pos kind head : Nat) (r : Region) (lay : List Byte) (st : StepRec) (bytes : List (Nat × Byte)) (errs : List (Nat × Nat)) (d : Dev) (hk : Same al bd d) (w0 : al.regs = true := by assumption) (w1 : al.strand = true := by assumption) (w2 : al.peg = true := by assumption) (w3 : al.mem = true := by assumption) (w4 : al.poison = true := by assumption) (w5 : al.loads = true := by assumption) (w6 : al.streams = true := by assumption) (w7 : al.scheds = true := by assumption) (w8 : al.kv = true := by assumption) (w9 : al.tx = true := by assumption) : Same al bd (appendPiece b i lk l pos kind head r lay st bytes errs d) := by
  unfold appendPiece
  repeat' (first | with_reducible (first | assumption | apply bump_same | apply choice_same | apply hbmCount_same | apply modKv_same | apply cacheLook_same | apply kvFault_same | apply putKvStep_same | apply stagePeak_same | apply stageBytes_same | apply directBytes_same | refine ite_same ?_ ?_ | intro _ | split) | dsimp only)

theorem kvAppendPiece_same {al : Allow} {bd : Dev} (b i : Nat) (draft : Bool) (l pos kind head : Nat) (bf16 : Bool) (data : List Byte) (errs : List (Nat × Nat)) (d : Dev) (hk : Same al bd d) (w0 : al.regs = true := by assumption) (w1 : al.strand = true := by assumption) (w2 : al.peg = true := by assumption) (w3 : al.mem = true := by assumption) (w4 : al.poison = true := by assumption) (w5 : al.loads = true := by assumption) (w6 : al.streams = true := by assumption) (w7 : al.scheds = true := by assumption) (w8 : al.kv = true := by assumption) (w9 : al.tx = true := by assumption) : Same al bd (kvAppendPiece b i draft l pos kind head bf16 data errs d) := by
  unfold kvAppendPiece
  repeat' (first | with_reducible (first | assumption | apply putKvStep_same | apply appendPiece_same | refine ite_same ?_ ?_ | intro _ | split) | dsimp only)

theorem modGen_same {al : Allow} {bd : Dev} (b : Nat) (g : Word) (f : KvGen → KvGen) (d : Dev) (hk : Same al bd d) (w0 : al.kv = true := by assumption) : Same al bd (modGen b g f d) := by
  unfold modGen
  repeat' (first | with_reducible (first | assumption | apply modKv_same | refine ite_same ?_ ?_ | intro _ | split) | dsimp only)

theorem attentionStep_same {al : Allow} {bd : Dev} (b i lk : Nat) (appends : Bool) (d : Dev) (hk : Same al bd d) (w0 : al.regs = true := by assumption) (w1 : al.strand = true := by assumption) (w2 : al.peg = true := by assumption) (w3 : al.loads = true := by assumption) (w4 : al.streams = true := by assumption) (w5 : al.scheds = true := by assumption) (w6 : al.kv = true := by assumption) (w7 : al.tx = true := by assumption) : Same al bd (attentionStep b i lk appends d) := by
  unfold attentionStep
  repeat' (first | with_reducible (first | assumption | apply bump_same | apply modKv_same | apply endStream_same | apply modGen_same | refine ite_same ?_ ?_ | intro _ | split) | dsimp only)

theorem readPages_same {al : Allow} {bd : Dev} (b i lk l : Nat) (m : Option Nat) (fill : Bool) (r : Region) (lay : List Byte) (errs : List (Nat × Nat))
    (ps : List (Nat × List Nat)) (d : Dev) (hk : Same al bd d) (w0 : al.regs = true := by assumption) (w1 : al.strand = true := by assumption) (w2 : al.peg = true := by assumption) (w3 : al.poison = true := by assumption) (w4 : al.kv = true := by assumption) (w5 : al.tx = true := by assumption) : Same al bd (readPages b i lk l m fill r lay errs ps d).2 := by
  induction ps generalizing d with
  | nil => exact hk
  | cons x rest ih =>
    obtain ⟨va, ps⟩ := x
    have h1 := cacheLook_same b (pageKeyOf r lay va) fill d hk
    unfold readPages
    dsimp only
    split
    · exact h1
    · have h2 := fun (as_ : List Nat) (g : Nat → List (Nat × Nat)) => forEach_same (l := as_)
        (fun a e he => hbmReadEcc_same b a (kvStride lay) (g a) e he) (hbmCount_same r.part (kvStride lay * as_.length) _ h1)
      split
      · exact h2 _ _
      · exact ih _ (h2 _ _)

theorem readGroups_same {al : Allow} {bd : Dev} (b i lk : Nat) (w : Walk) (m : Option Nat) (fill : Bool) (r : Region) (lay : List Byte) (win : Nat)
    (qs : List (List Nat)) (errs : List (Nat × Nat)) (d : Dev) (hk : Same al bd d) (w0 : al.regs = true := by assumption) (w1 : al.strand = true := by assumption) (w2 : al.peg = true := by assumption) (w3 : al.poison = true := by assumption) (w4 : al.kv = true := by assumption) (w5 : al.tx = true := by assumption) : Same al bd (readGroups b i lk w m fill r lay win qs errs d).2 := by
  induction qs generalizing errs d with
  | nil => exact hk
  | cons x rest ih =>
    have h1 := readPages_same b i lk (lk / 2) m fill r lay errs (walkPages b (lk / 2) w x m r lay win d) d hk
    unfold readGroups
    dsimp only
    split
    · exact ih _ _ h1
    · exact h1

theorem flushBuf_same {al : Allow} {bd : Dev} (b : Nat) (s : StgBuf) (d : Dev) (hk : Same al bd d) (w0 : al.regs = true := by assumption) (w1 : al.strand = true := by assumption) (w2 : al.peg = true := by assumption) (w3 : al.mem = true := by assumption) (w4 : al.poison = true := by assumption) (w5 : al.loads = true := by assumption) (w6 : al.streams = true := by assumption) (w7 : al.scheds = true := by assumption) (w8 : al.kv = true := by assumption) (w9 : al.tx = true := by assumption) : Same al bd (flushBuf b s d) := by
  unfold flushBuf
  repeat' (first | with_reducible (first | assumption | apply forEach_same | apply hbmCount_same | apply hbmWrite_same | apply poisonWord_same | apply cacheLook_same | apply kvFault_same | refine ite_same ?_ ?_ | intro _ | split) | dsimp only)

theorem flushStep_same {al : Allow} {bd : Dev} (b i lk pos0 count : Nat) (d : Dev) (hk : Same al bd d) (w0 : al.regs = true := by assumption) (w1 : al.strand = true := by assumption) (w2 : al.peg = true := by assumption) (w3 : al.mem = true := by assumption) (w4 : al.poison = true := by assumption) (w5 : al.loads = true := by assumption) (w6 : al.streams = true := by assumption) (w7 : al.scheds = true := by assumption) (w8 : al.kv = true := by assumption) (w9 : al.tx = true := by assumption) : Same al bd (flushStep b i lk pos0 count d) := by
  unfold flushStep
  repeat' (first | with_reducible (first | assumption | apply forEach_same | apply modKv_same | apply flushBuf_same | refine ite_same ?_ ?_ | intro _ | split) | dsimp only)

theorem settleBufs_same {al : Allow} {bd : Dev} (b i : Nat) (d : Dev) (hk : Same al bd d) (w0 : al.regs = true := by assumption) (w1 : al.strand = true := by assumption) (w2 : al.peg = true := by assumption) (w3 : al.mem = true := by assumption) (w4 : al.poison = true := by assumption) (w5 : al.loads = true := by assumption) (w6 : al.streams = true := by assumption) (w7 : al.scheds = true := by assumption) (w8 : al.kv = true := by assumption) (w9 : al.tx = true := by assumption) : Same al bd (settleBufs b i d) := by
  unfold settleBufs
  repeat' (first | with_reducible (first | assumption | apply bump_same | apply forEach_same | apply dropBufs_same | apply flushBuf_same | refine ite_same ?_ ?_ | intro _ | split) | dsimp only)

theorem reclaimWindow_same {al : Allow} {bd : Dev} (b rk : Nat) (d : Dev) (hk : Same al bd d) (w0 : al.kv = true := by assumption) : Same al bd (reclaimWindow b rk d) := by
  unfold reclaimWindow
  repeat' (first | with_reducible (first | assumption | apply forEach_same | apply acceptEdit_same | refine ite_same ?_ ?_ | intro _ | split) | dsimp only)

theorem setLen_same {al : Allow} {bd : Dev} (b i n : Nat) (d : Dev) (hk : Same al bd d) (w0 : al.kv = true := by assumption) : Same al bd (setLen b i n d) := by
  unfold setLen
  repeat' (first | with_reducible (first | assumption | apply modRegion_same | apply reclaimWindow_same | refine ite_same ?_ ?_ | intro _ | split) | dsimp only)

theorem attVector_same {al : Allow} {bd : Dev} (b i lk l pos : Nat) (w : Walk) (m : Option Nat) (r : Region) (lay : List Byte) (win : Nat) (d : Dev) (hk : Same al bd d) (w0 : al.regs = true := by assumption) (w1 : al.streams = true := by assumption) : Same al bd (attVector b i lk l pos w m r lay win d).2 := by
  unfold attVector
  repeat' (first | with_reducible (first | assumption | apply addCtr_same | apply bump_same | apply flagStream_same | apply foldl_same | apply foldl_same_snd | apply foldl_same_thd | refine ite_same ?_ ?_ | intro _ | split) | dsimp only)

theorem finishWalk_same {al : Allow} {bd : Dev} (b i lk : Nat) (w : Walk) (m : Option Nat) (r : Region) (lay : List Byte) (s : Stream) (d : Dev) (hk : Same al bd d) (w0 : al.regs = true := by assumption) (w1 : al.strand = true := by assumption) (w2 : al.peg = true := by assumption) (w3 : al.links = true := by assumption) (w4 : al.mem = true := by assumption) (w5 : al.poison = true := by assumption) (w6 : al.loads = true := by assumption) (w7 : al.streams = true := by assumption) (w8 : al.scheds = true := by assumption) (w9 : al.kv = true := by assumption) (w10 : al.tx = true := by assumption) : Same al bd (finishWalk b i lk w m r lay s d) := by
  unfold finishWalk
  repeat' (first | with_reducible (first | assumption | apply forEach_same | apply bridgeOut_same | apply flushStep_same | apply setLen_same | apply attVector_same | refine ite_same ?_ ?_ | intro _ | split) | dsimp only)

theorem markStaged_same {al : Allow} {bd : Dev} (b i lk : Nat) (lay : List Byte) (words : List (Nat × Nat)) (d : Dev) (hk : Same al bd d) (w0 : al.kv = true := by assumption) : Same al bd (markStaged b i lk lay words d) := by
  unfold markStaged
  repeat' (first | with_reducible (first | assumption | apply modKv_same | refine ite_same ?_ ?_ | intro _ | split) | dsimp only)

theorem attentionOutput_same {al : Allow} {bd : Dev} (b i lk : Nat) (errs words : List (Nat × Nat)) (d : Dev) (hk : Same al bd d) (w0 : al.regs = true := by assumption) (w1 : al.strand = true := by assumption) (w2 : al.peg = true := by assumption) (w3 : al.links = true := by assumption) (w4 : al.mem = true := by assumption) (w5 : al.poison = true := by assumption) (w6 : al.loads = true := by assumption) (w7 : al.streams = true := by assumption) (w8 : al.scheds = true := by assumption) (w9 : al.kv = true := by assumption) (w10 : al.tx = true := by assumption) : Same al bd (attentionOutput b i lk errs words d) := by
  unfold attentionOutput
  repeat' (first | with_reducible (first | assumption | apply bump_same | apply modKv_same | apply endStream_same | apply kvFault_same | apply modGen_same | apply readGroups_same | apply finishWalk_same | apply markStaged_same | refine ite_same ?_ ?_ | intro _ | split) | dsimp only)

theorem stagingFlushAck_same {al : Allow} {bd : Dev} (b i lk first : Nat) (d : Dev) (hk : Same al bd d) (w0 : al.regs = true := by assumption) (w1 : al.kv = true := by assumption) : Same al bd (stagingFlushAck b i lk first d) := by
  unfold stagingFlushAck
  repeat' (first | with_reducible (first | assumption | apply bump_same | apply modKv_same | refine ite_same ?_ ?_ | intro _ | split) | dsimp only)

theorem startUnpark_same {al : Allow} {bd : Dev} (i : Nat) (d : Dev) (hk : Same al bd d) (w0 : al.strand = true := by assumption) (w1 : al.streams = true := by assumption) (w2 : al.kv = true := by assumption) (w3 : al.tx = true := by assumption) : Same al bd (startUnpark i d) := by
  unfold startUnpark
  repeat' (first | with_reducible (first | assumption | apply modKv_same | apply modStream_same | apply sendStatus_same | refine ite_same ?_ ?_ | intro _ | split) | dsimp only)

theorem parkDone_same {al : Allow} {bd : Dev} (i ttl : Nat) (d : Dev) (hk : Same al bd d) (w0 : al.strand = true := by assumption) (w1 : al.streams = true := by assumption) (w2 : al.kv = true := by assumption) (w3 : al.tx = true := by assumption) : Same al bd (parkDone i ttl d) := by
  unfold parkDone
  repeat' (first | with_reducible (first | assumption | apply modStream_same | apply startUnpark_same | refine ite_same ?_ ?_ | intro _ | split) | dsimp only)

theorem afterEdit_same {al : Allow} {bd : Dev} (b : Nat) (e : Edit) (d : Dev) (hk : Same al bd d) (w0 : al.strand = true := by assumption) (w1 : al.streams = true := by assumption) (w2 : al.scheds = true := by assumption) (w3 : al.kv = true := by assumption) (w4 : al.tx = true := by assumption) : Same al bd (afterEdit b e d) := by
  unfold afterEdit
  repeat' (first | with_reducible (first | assumption | apply modRegion_same | apply modStream_same | apply tryFree_same | apply startUnpark_same | apply parkDone_same | refine ite_same ?_ ?_ | intro _ | split) | dsimp only)

theorem editPublish_same {al : Allow} {bd : Dev} (b wait : Nat) (d : Dev) (hk : Same al bd d) (w0 : al.regs = true := by assumption) (w1 : al.strand = true := by assumption) (w2 : al.mem = true := by assumption) (w3 : al.poison = true := by assumption) (w4 : al.streams = true := by assumption) (w5 : al.scheds = true := by assumption) (w6 : al.kv = true := by assumption) (w7 : al.tx = true := by assumption) : Same al bd (editPublish b wait d) := by
  unfold editPublish
  repeat' (first | with_reducible (first | assumption | apply addCtr_same | apply forEach_same | apply publishEdits_same | apply afterEdit_same | refine ite_same ?_ ?_ | intro _ | split) | dsimp only)

theorem editDataTransferDone_same {al : Allow} {bd : Dev} (b : Nat) (data : List Byte) (d : Dev) (hk : Same al bd d) (w0 : al.regs = true := by assumption) (w1 : al.links = true := by assumption) (w2 : al.mem = true := by assumption) (w3 : al.poison = true := by assumption) (w4 : al.kv = true := by assumption) (w5 : al.tx = true := by assumption) : Same al bd (editDataTransferDone b data d) := by
  unfold editDataTransferDone
  repeat' (first | with_reducible (first | assumption | apply send_same | apply bridgeBulk_same | apply hbmRead_same | apply hbmCount_same | apply hbmWrite_same | apply carryPoison_same | apply modKv_same | apply refFrame_same | apply acceptEdit_same | refine ite_same ?_ ?_ | intro _ | split) | dsimp only)

theorem acceptTruncate_same {al : Allow} {bd : Dev} (b i n : Nat) (d : Dev) (hk : Same al bd d) (w0 : al.regs = true := by assumption) (w1 : al.strand = true := by assumption) (w2 : al.peg = true := by assumption) (w3 : al.mem = true := by assumption) (w4 : al.poison = true := by assumption) (w5 : al.loads = true := by assumption) (w6 : al.streams = true := by assumption) (w7 : al.scheds = true := by assumption) (w8 : al.kv = true := by assumption) (w9 : al.tx = true := by assumption) : Same al bd (acceptTruncate b i n d) := by
  unfold acceptTruncate
  repeat' (first | with_reducible (first | assumption | apply forEach_same | apply modKv_same | apply acceptEdit_same | apply settleBufs_same | refine ite_same ?_ ?_ | intro _ | split) | dsimp only)

theorem doTableEdit_same {al : Allow} {bd : Dev} (p aid : Nat) (m : Dgram) (d : Dev) (hk : Same al bd d) (w0 : al.regs = true := by assumption) (w1 : al.strand = true := by assumption) (w2 : al.peg = true := by assumption) (w3 : al.mem = true := by assumption) (w4 : al.poison = true := by assumption) (w5 : al.loads = true := by assumption) (w6 : al.streams = true := by assumption) (w7 : al.scheds = true := by assumption) (w8 : al.kv = true := by assumption) (w9 : al.tx = true := by assumption) : Same al bd (doTableEdit p aid m d) := by
  unfold doTableEdit
  repeat' (first | with_reducible (first | assumption | apply forEach_same | apply sendReply_same | apply acceptTruncate_same | refine ite_same ?_ ?_ | intro _ | split) | dsimp only)

theorem cnsSendAll_same {al : Allow} {bd : Dev} (kind : Nat) (data : List Byte) (d : Dev) (hk : Same al bd d) (w0 : al.tx = true := by assumption) : Same al bd (cnsSendAll kind data d) := by
  unfold cnsSendAll
  repeat' (first | with_reducible (first | assumption | apply send_same | apply forEach_same | refine ite_same ?_ ?_ | intro _ | split) | dsimp only)

theorem cnsPortSend_same {al : Allow} {bd : Dev} (stage sl : Nat) (bytes : List Byte) (d : Dev) (hk : Same al bd d) (w0 : al.regs = true := by assumption) (w1 : al.tx = true := by assumption) : Same al bd (cnsPortSend stage sl bytes d) := by
  unfold cnsPortSend
  repeat' (first | with_reducible (first | assumption | apply addWrap_same | apply send_same | apply forEach_same | refine ite_same ?_ ?_ | intro _ | split) | dsimp only)

theorem modCns_same {al : Allow} {bd : Dev} (f : Cns → Cns) (d : Dev) (hk : Same al bd d) (w0 : al.cns = true := by assumption) : Same al bd (modCns f d) := by
  unfold modCns
  repeat' (first | with_reducible (first | assumption | refine ite_same ?_ ?_ | intro _ | split) | simp only [same_cns, w0] | dsimp only)

theorem feedToks_same {al : Allow} {bd : Dev} (i : Nat) (l : List Nat) (d : Dev) (hk : Same al bd d) (w0 : al.streams = true := by assumption) : Same al bd (feedToks i l d) := by
  unfold feedToks
  repeat' (first | with_reducible (first | assumption | apply modStream_same | apply foldl_same | apply foldl_same_snd | apply foldl_same_thd | refine ite_same ?_ ?_ | intro _ | split) | dsimp only)

theorem feedRows_same {al : Allow} {bd : Dev} (i n : Nat) (data : List Byte) (d : Dev) (hk : Same al bd d) (w0 : al.streams = true := by assumption) : Same al bd (feedRows i n data d) := by
  unfold feedRows
  repeat' (first | with_reducible (first | assumption | apply modStream_same | apply foldl_same | apply foldl_same_snd | apply foldl_same_thd | refine ite_same ?_ ?_ | intro _ | split) | dsimp only)

theorem writeMaskRow_same {al : Allow} {bd : Dev} (b : Nat) (r : Region) (q : Nat) (bytes : List Byte) (d : Dev) (hk : Same al bd d) (w0 : al.mem = true := by assumption) : Same al bd (writeMaskRow b r q bytes d) := by
  unfold writeMaskRow
  repeat' (first | with_reducible (first | assumption | apply forEach_same | apply setByte_same | refine ite_same ?_ ?_ | intro _ | split) | dsimp only)

theorem maskRowTo_same {al : Allow} {bd : Dev} (b q : Nat) (bytes : List Byte) (rk : Nat) (d : Dev) (hk : Same al bd d) (w0 : al.mem = true := by assumption) (w1 : al.kv = true := by assumption) : Same al bd (maskRowTo b q bytes rk d) := by
  unfold maskRowTo
  repeat' (first | with_reducible (first | assumption | apply modRegion_same | apply writeMaskRow_same | refine ite_same ?_ ?_ | intro _ | split) | dsimp only)

theorem feedMask_same {al : Allow} {bd : Dev} (i rk b k : Nat) (d : Dev) (hk : Same al bd d) (w0 : al.mem = true := by assumption) (w1 : al.streams = true := by assumption) (w2 : al.kv = true := by assumption) : Same al bd (feedMask i rk b k d) := by
  induction k generalizing d with
  | zero => exact hk
  | succ k ih =>
    unfold feedMask
    split
    · dsimp only
      split
      · exact hk
      · exact ih _ (modStream_same _ _ _ (forEach_same (fun a e he => maskRowTo_same _ _ _ _ _ he) hk))
    · exact hk

theorem feedMaskBytes_same {al : Allow} {bd : Dev} (i : Nat) (data : List Byte) (d : Dev) (hk : Same al bd d) (w0 : al.mem = true := by assumption) (w1 : al.streams = true := by assumption) (w2 : al.kv = true := by assumption) : Same al bd (feedMaskBytes i data d) := by
  unfold feedMaskBytes
  repeat' (first | with_reducible (first | assumption | apply modStream_same | apply feedMask_same | refine ite_same ?_ ?_ | intro _ | split) | dsimp only)

theorem takeRegions_same {al : Allow} {bd : Dev} (p b i model mode maxlen prefixLen : Nat) (draft : Bool) (d : Dev) (hk : Same al bd d) (w0 : al.kv = true := by assumption) :
    ∀ d1, takeRegions p b i model mode maxlen prefixLen draft d = some d1 → Same al bd d1 := by
  intro d1 h
  unfold takeRegions at h
  generalize (if draft then regRec p model true d else none) = dl at h
  cases hr : regRec p model false d with
  | none => rw [hr] at h; injection h with h; exact h ▸ hk
  | some lay =>
    rw [hr] at h
    replace h := (Option.ite_none_left_eq_some.1 h).2
    cases h2 : takeRegion p b (regKey i false) model mode maxlen prefixLen lay d with
    | none => rw [h2] at h; contradiction
    | some d2 =>
      rw [h2] at h
      have k2 := (takeRegion_same _ _ _ _ _ _ _ _ _ hk) d2 h2
      cases dl with
      | none => injection h with h; exact h ▸ k2
      | some dl => exact (takeRegion_same _ _ _ _ _ _ _ _ _ k2) d1 h

theorem mapMask_same {al : Allow} {bd : Dev} (p b i : Nat) (d : Dev) (hk : Same al bd d) (w0 : al.mem = true := by assumption) (w1 : al.poison = true := by assumption) (w2 : al.kv = true := by assumption) : Same al bd (mapMask p b i d) := by
  unfold mapMask
  repeat' (first | with_reducible (first | assumption | apply forEach_same | apply mapPage_same | refine ite_same ?_ ?_ | intro _ | split) | dsimp only)

theorem takePrefix_same {al : Allow} {bd : Dev} (b i rk : Nat) (x : Prefix) (frames : SMap Nat) (d : Dev) (hk : Same al bd d) (w0 : al.kv = true := by assumption) : Same al bd (takePrefix b i rk x frames d) := by
  unfold takePrefix
  repeat' (first | with_reducible (first | assumption | apply forEach_same | apply modKv_same | apply refFrame_same | apply acceptEdit_same | apply modRegion_same | refine ite_same ?_ ?_ | intro _ | split) | dsimp only)

theorem feed_same {al : Allow} {bd : Dev} (i : Nat) (data mask : List Byte) (d : Dev) (hk : Same al bd d) (w0 : al.mem = true := by assumption) (w1 : al.streams = true := by assumption) (w2 : al.kv = true := by assumption) : Same al bd (feed i data mask d) := by
  unfold feed
  repeat' (first | with_reducible (first | assumption | apply feedToks_same | apply feedRows_same | apply feedMaskBytes_same | refine ite_same ?_ ?_ | intro _ | split) | dsimp only)

theorem admitAccept_same {al : Allow} {bd : Dev} (p aid i : Nat) (m : Dgram) (z : AdmitLists) (e : Epoch) (d : Dev) (hk : Same al bd d) (w0 : al.free = true := by assumption) (w1 : al.regs = true := by assumption) (w2 : al.strand = true := by assumption) (w3 : al.mem = true := by assumption) (w4 : al.poison = true := by assumption) (w5 : al.streams = true := by assumption) (w6 : al.incarnation = true := by assumption) (w7 : al.kv = true := by assumption) (w8 : al.tx = true := by assumption) :
    Same al bd (admitAccept p aid i m z e d) := by
  have h1 := getD_same (takeRegions_same p (homeBridge p (u8 m.payload 0) d) i (u8 m.payload 0) (u8 m.payload 2) (u32 m.payload 4) (u32 m.payload 8)
    (u8 m.payload 0x12 != 0) d hk) hk
  unfold admitAccept
  extract_lets l model home d1 d2 s d3 d4 d5 d6 d7
  have k1 : Same al bd d1 := h1
  have k2 : Same al bd d2 := by
    clear_value d1
    unfold d2
    split
    · exact choice_same _ _ _ k1
    · exact k1
  have k3 : Same al bd d3 := by
    clear_value d2
    unfold d3; exact (same_streams_incarnation (by assumption) (by assumption)).2 k2
  have k4 : Same al bd d4 := mapMask_same _ _ _ _ k3
  have k5 : Same al bd d5 := by
    clear_value d4
    unfold d5
    split
    · exact k4
    · split
      · exact takePrefix_same _ _ _ _ _ _ (takePrefix_same _ _ _ _ _ _ k4)
      · exact k4
  have k6 : Same al bd d6 := feed_same _ _ _ _ (bump_same _ _ k5)
  have k7 : Same al bd d7 := by
    clear_value d6
    unfold d7
    split
    · split
      · exact cnsSendAll_same _ _ _ ((same_free (by assumption)).2 k6)
      · exact k6
    · exact k6
  exact sendReply_same _ _ _ _ _ _ _ k7

theorem doAdmit_same {al : Allow} {bd : Dev} (p aid : Nat) (m : Dgram) (d : Dev) (hk : Same al bd d) (w0 : al.free = true := by assumption) (w1 : al.regs = true := by assumption) (w2 : al.strand = true := by assumption) (w3 : al.mem = true := by assumption) (w4 : al.poison = true := by assumption) (w5 : al.streams = true := by assumption) (w6 : al.incarnation = true := by assumption) (w7 : al.kv = true := by assumption) (w8 : al.tx = true := by assumption) : Same al bd (doAdmit p aid m d) := by
  unfold doAdmit
  repeat' (first | with_reducible (first | assumption | apply bump_same | apply sendReply_same | apply admitAccept_same | refine ite_same ?_ ?_ | intro _ | split) | dsimp only)

theorem leavePause_same {al : Allow} {bd : Dev} (i : Nat) (d : Dev) (hk : Same al bd d) (w0 : al.streams = true := by assumption) : Same al bd (leavePause i d) := by
  unfold leavePause
  repeat' (first | with_reducible (first | assumption | apply modStream_same | refine ite_same ?_ ?_ | intro _ | split) | dsimp only)

theorem enterPause_same {al : Allow} {bd : Dev} (i : Nat) (d : Dev) (hk : Same al bd d) (w0 : al.strand = true := by assumption) (w1 : al.streams = true := by assumption) (w2 : al.tx = true := by assumption) : Same al bd (enterPause i d) := by
  unfold enterPause
  repeat' (first | with_reducible (first | assumption | apply modStream_same | apply sendStatus_same | refine ite_same ?_ ?_ | intro _ | split) | dsimp only)

theorem doAppend_same {al : Allow} {bd : Dev} (p aid : Nat) (m : Dgram) (d : Dev) (hk : Same al bd d) (w0 : al.strand = true := by assumption) (w1 : al.mem = true := by assumption) (w2 : al.streams = true := by assumption) (w3 : al.kv = true := by assumption) (w4 : al.tx = true := by assumption) : Same al bd (doAppend p aid m d) := by
  unfold doAppend
  repeat' (first | with_reducible (first | assumption | apply sendReply_same | apply modStream_same | apply feed_same | apply leavePause_same | refine ite_same ?_ ?_ | intro _ | split) | dsimp only)

theorem bareStream_same {al : Allow} {bd : Dev} (p aid : Nat) (m : Dgram) (f : Nat → Stream → Dev → Dev) (d : Dev) (h_f : ∀ x0 x1 e, Same al bd e → Same al bd (f x0 x1 e)) (hk : Same al bd d) (w0 : al.strand = true := by assumption) (w1 : al.tx = true := by assumption) : Same al bd (bareStream p aid m f d) := by
  unfold bareStream
  repeat' (first | with_reducible (first | assumption | apply sendReply_same | apply h_f | refine ite_same ?_ ?_ | intro _ | split) | dsimp only)

theorem doPause_same {al : Allow} {bd : Dev} (p aid : Nat) (m : Dgram) (d : Dev) (hk : Same al bd d) (w0 : al.strand = true := by assumption) (w1 : al.streams = true := by assumption) (w2 : al.tx = true := by assumption) : Same al bd (doPause p aid m d) := by
  unfold doPause
  repeat' (first | with_reducible (first | assumption | apply sendReply_same | apply modStream_same | apply enterPause_same | apply bareStream_same | refine ite_same ?_ ?_ | intro _ | split) | dsimp only)

theorem doResume_same {al : Allow} {bd : Dev} (p aid : Nat) (m : Dgram) (d : Dev) (hk : Same al bd d) (w0 : al.strand = true := by assumption) (w1 : al.streams = true := by assumption) (w2 : al.tx = true := by assumption) : Same al bd (doResume p aid m d) := by
  unfold doResume
  repeat' (first | with_reducible (first | assumption | apply sendReply_same | apply modStream_same | apply leavePause_same | apply bareStream_same | refine ite_same ?_ ?_ | intro _ | split) | dsimp only)

theorem doCancel_same {al : Allow} {bd : Dev} (p aid : Nat) (m : Dgram) (d : Dev) (hk : Same al bd d) (w0 : al.regs = true := by assumption) (w1 : al.strand = true := by assumption) (w2 : al.peg = true := by assumption) (w3 : al.loads = true := by assumption) (w4 : al.streams = true := by assumption) (w5 : al.scheds = true := by assumption) (w6 : al.kv = true := by assumption) (w7 : al.tx = true := by assumption) : Same al bd (doCancel p aid m d) := by
  unfold doCancel
  repeat' (first | with_reducible (first | assumption | apply sendReply_same | apply endStream_same | apply bareStream_same | refine ite_same ?_ ?_ | intro _ | split) | dsimp only)

theorem startPark_same {al : Allow} {bd : Dev} (i : Nat) (d : Dev) (hk : Same al bd d) (w0 : al.regs = true := by assumption) (w1 : al.strand = true := by assumption) (w2 : al.peg = true := by assumption) (w3 : al.mem = true := by assumption) (w4 : al.poison = true := by assumption) (w5 : al.loads = true := by assumption) (w6 : al.streams = true := by assumption) (w7 : al.scheds = true := by assumption) (w8 : al.kv = true := by assumption) (w9 : al.tx = true := by assumption) : Same al bd (startPark i d) := by
  unfold startPark
  repeat' (first | with_reducible (first | assumption | apply modKv_same | apply modStream_same | apply sendStatus_same | apply settleBufs_same | apply parkDone_same | refine ite_same ?_ ?_ | intro _ | split) | dsimp only)

theorem doPark_same {al : Allow} {bd : Dev} (p aid : Nat) (m : Dgram) (d : Dev) (hk : Same al bd d) (w0 : al.regs = true := by assumption) (w1 : al.strand = true := by assumption) (w2 : al.peg = true := by assumption) (w3 : al.mem = true := by assumption) (w4 : al.poison = true := by assumption) (w5 : al.loads = true := by assumption) (w6 : al.streams = true := by assumption) (w7 : al.scheds = true := by assumption) (w8 : al.kv = true := by assumption) (w9 : al.tx = true := by assumption) : Same al bd (doPark p aid m d) := by
  unfold doPark
  repeat' (first | with_reducible (first | assumption | apply sendReply_same | apply modStream_same | apply startPark_same | refine ite_same ?_ ?_ | intro _ | split) | dsimp only)

theorem parkExpiry_same {al : Allow} {bd : Dev} (i : Nat) (d : Dev) (hk : Same al bd d) (w0 : al.regs = true := by assumption) (w1 : al.strand = true := by assumption) (w2 : al.peg = true := by assumption) (w3 : al.loads = true := by assumption) (w4 : al.streams = true := by assumption) (w5 : al.scheds = true := by assumption) (w6 : al.kv = true := by assumption) (w7 : al.tx = true := by assumption) : Same al bd (parkExpiry i d) := by
  unfold parkExpiry
  repeat' (first | with_reducible (first | assumption | apply bump_same | apply endStream_same | refine ite_same ?_ ?_ | intro _ | split) | dsimp only)

theorem doUnpark_same {al : Allow} {bd : Dev} (p aid : Nat) (m : Dgram) (d : Dev) (hk : Same al bd d) (w0 : al.regs = true := by assumption) (w1 : al.strand = true := by assumption) (w2 : al.peg = true := by assumption) (w3 : al.loads = true := by assumption) (w4 : al.streams = true := by assumption) (w5 : al.scheds = true := by assumption) (w6 : al.kv = true := by assumption) (w7 : al.tx = true := by assumption) : Same al bd (doUnpark p aid m d) := by
  unfold doUnpark
  repeat' (first | with_reducible (first | assumption | apply sendReply_same | apply modStream_same | apply startUnpark_same | apply bareStream_same | apply parkExpiry_same | refine ite_same ?_ ?_ | intro _ | split) | dsimp only)

theorem takeFrames_same {al : Allow} {bd : Dev} (p b : Nat) (l : List (Nat × Nat × Bool)) (d : Dev) (hk : Same al bd d) (w0 : al.regs = true := by assumption) (w1 : al.mem = true := by assumption) (w2 : al.poison = true := by assumption) (w3 : al.kv = true := by assumption) : Same al bd (takeFrames p b l d).2 := by
  unfold takeFrames
  repeat' (first | with_reducible (first | assumption | apply hbmRead_same | apply hbmCount_same | apply hbmWrite_same | apply carryPoison_same | apply refFrame_same | apply foldl_same | apply foldl_same_snd | apply foldl_same_thd | refine ite_same ?_ ?_ | intro _ | split) | dsimp only)

theorem doPrefixRegister_same {al : Allow} {bd : Dev} (p aid : Nat) (m : Dgram) (d : Dev) (hk : Same al bd d) (w0 : al.strand = true := by assumption) (w1 : al.mem = true := by assumption) (w2 : al.poison = true := by assumption) (w3 : al.prefixes = true := by assumption) (w4 : al.kv = true := by assumption) (w5 : al.tx = true := by assumption) (wr : al.regs = true := by assumption) : Same al bd (doPrefixRegister p aid m d) := by
  unfold doPrefixRegister
  repeat' (first | with_reducible (first | assumption | apply sendReply_same | apply takeFrames_same | refine ite_same ?_ ?_ | intro _ | split) | simp only [same_prefixes, w3] | dsimp only)

theorem doPrefixDrop_same {al : Allow} {bd : Dev} (p aid : Nat) (m : Dgram) (d : Dev) (hk : Same al bd d) (w0 : al.regs = true := by assumption) (w1 : al.strand = true := by assumption) (w2 : al.peg = true := by assumption) (w3 : al.loads = true := by assumption) (w4 : al.prefixes = true := by assumption) (w5 : al.kv = true := by assumption) (w6 : al.tx = true := by assumption) : Same al bd (doPrefixDrop p aid m d) := by
  unfold doPrefixDrop
  repeat' (first | with_reducible (first | assumption | apply sendReply_same | apply dropPrefix_same | refine ite_same ?_ ?_ | intro _ | split) | dsimp only)

theorem refreshRisk_same {al : Allow} {bd : Dev} (p : Nat) (d : Dev) (hk : Same al bd d) (w0 : al.strand = true := by assumption) (w1 : al.streams = true := by assumption) (w2 : al.scheds = true := by assumption) (w3 : al.tx = true := by assumption) : Same al bd (refreshRisk p d) := by
  unfold refreshRisk
  repeat' (first | with_reducible (first | assumption | apply forEach_same | apply setAtRisk_same | refine ite_same ?_ ?_ | intro _ | split) | dsimp only)

theorem setSchedp_same {al : Allow} {bd : Dev} (i : Nat) (v : Bool) (d : Dev) (hk : Same al bd d) (w0 : al.strand = true := by assumption) (w1 : al.streams = true := by assumption) (w2 : al.tx = true := by assumption) : Same al bd (setSchedp i v d) := by
  unfold setSchedp
  repeat' (first | with_reducible (first | assumption | apply modStream_same | apply sendStatus_same | refine ite_same ?_ ?_ | intro _ | split) | dsimp only)

theorem schedulerPause_same {al : Allow} {bd : Dev} (p : Nat) (d : Dev) (hk : Same al bd d) (w0 : al.regs = true := by assumption) (w1 : al.strand = true := by assumption) (w2 : al.streams = true := by assumption) (w3 : al.tx = true := by assumption) : Same al bd (schedulerPause p d) := by
  unfold schedulerPause
  repeat' (first | with_reducible (first | assumption | apply bump_same | apply choice_same | apply forEach_same | apply enterPause_same | apply setSchedp_same | apply foldl_same | apply foldl_same_snd | apply foldl_same_thd | refine ite_same ?_ ?_ | intro _ | split) | dsimp only)

theorem schedulerResume_same {al : Allow} {bd : Dev} (p : Nat) (d : Dev) (hk : Same al bd d) (w0 : al.regs = true := by assumption) (w1 : al.strand = true := by assumption) (w2 : al.streams = true := by assumption) (w3 : al.scheds = true := by assumption) (w4 : al.tx = true := by assumption) : Same al bd (schedulerResume p d) := by
  unfold schedulerResume
  repeat' (first | with_reducible (first | assumption | apply bump_same | apply choice_same | apply forEach_same | apply modSched_same | apply leavePause_same | apply setSchedp_same | apply foldl_same | apply foldl_same_snd | apply foldl_same_thd | refine ite_same ?_ ?_ | intro _ | split) | dsimp only)

theorem atRiskTtft_same {al : Allow} {bd : Dev} (i : Nat) (d : Dev) (hk : Same al bd d) (w0 : al.strand = true := by assumption) (w1 : al.streams = true := by assumption) (w2 : al.scheds = true := by assumption) (w3 : al.tx = true := by assumption) : Same al bd (atRiskTtft i d) := by
  unfold atRiskTtft
  repeat' (first | with_reducible (first | assumption | apply setAtRisk_same | refine ite_same ?_ ?_ | intro _ | split) | dsimp only)

theorem refreshTok_same {al : Allow} {bd : Dev} (i : Nat) (s : Stream) (d : Dev) (hk : Same al bd d) (w0 : al.regs = true := by assumption) (w1 : al.streams = true := by assumption) : Same al bd (refreshTok i s d) := by
  unfold refreshTok
  repeat' (first | with_reducible (first | assumption | apply bump_same | apply modStream_same | refine ite_same ?_ ?_ | intro _ | split) | dsimp only)

theorem reserveStep_same {al : Allow} {bd : Dev} (i : Nat) (s : Stream) (pos0 n : Nat) (d : Dev) (hk : Same al bd d) (w0 : al.mem = true := by assumption) (w1 : al.poison = true := by assumption) (w2 : al.kv = true := by assumption) : ∀ d1, reserveStep i s pos0 n d = some d1 → Same al bd d1 := by
  intro d1 hd1
  unfold reserveStep at hd1
  repeat' (first | contradiction | (injection hd1 with hd1; subst hd1) | dsimp only at hd1 | split at hd1 | with_reducible (first | assumption | apply forEach_same | apply mapPage_same | refine ite_same ?_ ?_ | intro _ | split) | dsimp only)

theorem holdKv_same {al : Allow} {bd : Dev} (i : Nat) (s : Stream) (d : Dev) (hk : Same al bd d) (w0 : al.regs = true := by assumption) (w1 : al.streams = true := by assumption) : Same al bd (holdKv i s d) := by
  unfold holdKv
  repeat' (first | with_reducible (first | assumption | apply bump_same | apply modStream_same | refine ite_same ?_ ?_ | intro _ | split) | dsimp only)

theorem takeCands_same {al : Allow} {bd : Dev} (p bid : Nat) (img : List Byte) (cs l : List (Nat × Stream)) (room : Nat) (b : Forming)
    (d : Dev) (hk : Same al bd d) (w0 : al.regs = true := by assumption) (w1 : al.mem = true := by assumption) (w2 : al.poison = true := by assumption) (w3 : al.streams = true := by assumption) (w4 : al.kv = true := by assumption) : Same al bd (takeCands p bid img cs l room b d).2 := by
  induction l generalizing room b d with
  | nil => exact hk
  | cons x r ih =>
    obtain ⟨i, s⟩ := x
    unfold takeCands
    split
    · exact ih _ _ _ hk
    · split
      · exact ih _ _ _ (refreshTok_same _ _ _ hk)
      · split
        · refine ih _ _ _ ?_
          split
          · exact choice_same _ _ _ hk
          · exact hk
        · split
          · exact ih _ _ _ (holdKv_same _ _ _ hk)
          · next h => exact ih _ _ _ (modStream_same _ _ _ ((reserveStep_same _ _ _ _ _ hk) _ h))

theorem pushPasses_same {al : Allow} {bd : Dev} (p model bid : Nat) (epoch : Word) (vs : List VecId) (d : Dev) (hk : Same al bd d) (w0 : al.fret = true := by assumption) : Same al bd (pushPasses p model bid epoch vs d) := by
  unfold pushPasses
  repeat' (first | with_reducible (first | assumption | apply forEach_same | apply modSlot_same | refine ite_same ?_ ?_ | intro _ | split) | dsimp only)

theorem publishSteps_same {al : Allow} {bd : Dev} (p : Nat) (d : Dev) (hk : Same al bd d) (w0 : al.regs = true := by assumption) (w1 : al.strand = true := by assumption) (w2 : al.mem = true := by assumption) (w3 : al.poison = true := by assumption) (w4 : al.streams = true := by assumption) (w5 : al.scheds = true := by assumption) (w6 : al.kv = true := by assumption) (w7 : al.tx = true := by assumption) : Same al bd (publishSteps p d) := by
  unfold publishSteps
  repeat' (first | with_reducible (first | assumption | apply forEach_same | apply editPublish_same | refine ite_same ?_ ?_ | intro _ | split) | dsimp only)

theorem formBatch_same {al : Allow} {bd : Dev} (p : Nat) (cs : List (Nat × Stream)) (d : Dev) (hk : Same al bd d) (w0 : al.regs = true := by assumption) (w1 : al.strand = true := by assumption) (w2 : al.fret = true := by assumption) (w3 : al.mem = true := by assumption) (w4 : al.poison = true := by assumption) (w5 : al.streams = true := by assumption) (w6 : al.scheds = true := by assumption) (w7 : al.kv = true := by assumption) (w8 : al.tx = true := by assumption) : Same al bd (formBatch p cs d) := by
  unfold formBatch
  repeat' (first | with_reducible (first | assumption | apply bump_same | apply modSched_same | apply cnsSendAll_same | apply takeCands_same | apply pushPasses_same | apply publishSteps_same | refine ite_same ?_ ?_ | intro _ | split) | dsimp only)

theorem batchFormation_same {al : Allow} {bd : Dev} (p : Nat) (d : Dev) (hk : Same al bd d) (w0 : al.regs = true := by assumption) (w1 : al.strand = true := by assumption) (w2 : al.fret = true := by assumption) (w3 : al.mem = true := by assumption) (w4 : al.poison = true := by assumption) (w5 : al.streams = true := by assumption) (w6 : al.scheds = true := by assumption) (w7 : al.kv = true := by assumption) (w8 : al.tx = true := by assumption) : Same al bd (batchFormation p d) := by
  unfold batchFormation
  repeat' (first | with_reducible (first | assumption | apply forEach_same | apply modStream_same | apply refreshRisk_same | apply schedulerPause_same | apply refreshTok_same | apply formBatch_same | refine ite_same ?_ ?_ | intro _ | split) | dsimp only)

theorem kvHoldTimeout_same {al : Allow} {bd : Dev} (i : Nat) (d : Dev) (hk : Same al bd d) (w0 : al.regs = true := by assumption) (w1 : al.strand = true := by assumption) (w2 : al.peg = true := by assumption) (w3 : al.loads = true := by assumption) (w4 : al.streams = true := by assumption) (w5 : al.scheds = true := by assumption) (w6 : al.kv = true := by assumption) (w7 : al.tx = true := by assumption) : Same al bd (kvHoldTimeout i d) := by
  unfold kvHoldTimeout
  repeat' (first | with_reducible (first | assumption | apply bump_same | apply endStream_same | refine ite_same ?_ ?_ | intro _ | split) | dsimp only)

theorem settleBatches_same {al : Allow} {bd : Dev} (p : Nat) (d : Dev) (hk : Same al bd d) (w0 : al.scheds = true := by assumption) : Same al bd (settleBatches p d) := by
  unfold settleBatches
  repeat' (first | with_reducible (first | assumption | apply modSched_same | refine ite_same ?_ ?_ | intro _ | split) | dsimp only)

theorem maskRead_same {al : Allow} {bd : Dev} (s : Stream) (d : Dev) (hk : Same al bd d) (w0 : al.regs = true := by assumption) (w1 : al.links = true := by assumption) (w2 : al.tx = true := by assumption) : Same al bd (maskRead s d) := by
  unfold maskRead
  repeat' (first | with_reducible (first | assumption | apply bridgeBulk_same | refine ite_same ?_ ?_ | intro _ | split) | dsimp only)

theorem pickEmpty_same {al : Allow} {bd : Dev} (i home : Nat) (d : Dev) (hk : Same al bd d) (w0 : al.regs = true := by assumption) (w1 : al.strand = true := by assumption) (w2 : al.peg = true := by assumption) (w3 : al.loads = true := by assumption) (w4 : al.streams = true := by assumption) (w5 : al.scheds = true := by assumption) (w6 : al.kv = true := by assumption) (w7 : al.tx = true := by assumption) : Same al bd (pickEmpty i home d) := by
  unfold pickEmpty
  repeat' (first | with_reducible (first | assumption | apply bump_same | apply endStream_same | refine ite_same ?_ ?_ | intro _ | split) | dsimp only)

theorem draftStepDone_same {al : Allow} {bd : Dev} (i : Nat) (logits : List (List Word)) (d : Dev) (hk : Same al bd d) (w0 : al.regs = true := by assumption) (w1 : al.strand = true := by assumption) (w2 : al.peg = true := by assumption) (w3 : al.links = true := by assumption) (w4 : al.loads = true := by assumption) (w5 : al.streams = true := by assumption) (w6 : al.scheds = true := by assumption) (w7 : al.kv = true := by assumption) (w8 : al.tx = true := by assumption) : Same al bd (draftStepDone i logits d) := by
  unfold draftStepDone
  repeat' (first | with_reducible (first | assumption | apply addCtr_same | apply modStream_same | apply maskRead_same | apply pickEmpty_same | refine ite_same ?_ ?_ | intro _ | split) | dsimp only)

theorem emitTok_same {al : Allow} {bd : Dev} (i tok pos : Nat) (draft : Bool) (logp : Word) (d : Dev) (hk : Same al bd d) (w0 : al.regs = true := by assumption) (w1 : al.streams = true := by assumption) : Same al bd (emitTok i tok pos draft logp d) := by
  unfold emitTok
  repeat' (first | with_reducible (first | assumption | apply bump_same | apply modStream_same | apply foldl_same | apply foldl_same_snd | apply foldl_same_thd | refine ite_same ?_ ?_ | intro _ | split) | dsimp only)

theorem samplePos_same {al : Allow} {bd : Dev} (i pos : Nat) (z : List Dy) (d : Dev) (hk : Same al bd d) (w0 : al.regs = true := by assumption) (w1 : al.streams = true := by assumption) : Same al bd (samplePos i pos z d).1 := by
  unfold samplePos
  repeat' (first | with_reducible (first | assumption | apply emitTok_same | refine ite_same ?_ ?_ | intro _ | split) | dsimp only)

theorem testDraft_same {al : Allow} {bd : Dev} (i pos : Nat) (x : DraftTok) (z : List Dy) (d : Dev) (hk : Same al bd d) (w0 : al.regs = true := by assumption) (w1 : al.streams = true := by assumption) : Same al bd (testDraft i pos x z d).1 := by
  unfold testDraft
  repeat' (first | with_reducible (first | assumption | apply emitTok_same | refine ite_same ?_ ?_ | intro _ | split) | dsimp only)

theorem verifyBlock_same {al : Allow} {bd : Dev} (i pos : Nat) (l : List DraftTok) (z : List (List Dy)) (d : Dev) (hk : Same al bd d) (w0 : al.regs = true := by assumption) (w1 : al.streams = true := by assumption) :
    Same al bd (verifyBlock i pos l z d).1 := by
  induction l generalizing pos z d with
  | nil =>
    cases z with
    | nil => exact hk
    | cons z zs => exact samplePos_same _ _ _ _ hk
  | cons x xs ih =>
    cases z with
    | nil => exact hk
    | cons z zs =>
      have h1 := testDraft_same i pos x z d hk
      unfold verifyBlock
      dsimp only
      split
      · exact h1
      · split
        · exact h1
        · split
          all_goals
            split
            · exact h1
            · exact ih _ _ _ h1

theorem adaptDraft_same {al : Allow} {bd : Dev} (i home g acc : Nat) (d : Dev) (hk : Same al bd d) (w0 : al.regs = true := by assumption) (w1 : al.streams = true := by assumption) : Same al bd (adaptDraft i home g acc d) := by
  unfold adaptDraft
  repeat' (first | with_reducible (first | assumption | apply bump_same | apply modStream_same | refine ite_same ?_ ?_ | intro _ | split) | dsimp only)

theorem stepDone_same {al : Allow} {bd : Dev} (i : Nat) (st : StepRec) (n : Nat) (d : Dev) (hk : Same al bd d) (w0 : al.strand = true := by assumption) (w1 : al.streams = true := by assumption) (w2 : al.scheds = true := by assumption) (w3 : al.tx = true := by assumption) : Same al bd (stepDone i st n d) := by
  unfold stepDone
  repeat' (first | with_reducible (first | assumption | apply modStream_same | apply setAtRisk_same | apply settleBatches_same | apply foldl_same | apply foldl_same_snd | apply foldl_same_thd | refine ite_same ?_ ?_ | intro _ | split) | dsimp only)

theorem pickDecode_same {al : Allow} {bd : Dev} (i : Nat) (s : Stream) (st : StepRec) (logits : List (List Dy)) (d : Dev) (hk : Same al bd d) (w0 : al.regs = true := by assumption) (w1 : al.strand = true := by assumption) (w2 : al.peg = true := by assumption) (w3 : al.loads = true := by assumption) (w4 : al.streams = true := by assumption) (w5 : al.scheds = true := by assumption) (w6 : al.kv = true := by assumption) (w7 : al.tx = true := by assumption) : Same al bd (pickDecode i s st logits d) := by
  unfold pickDecode
  repeat' (first | with_reducible (first | assumption | apply modStream_same | apply setLen_same | apply pickEmpty_same | apply verifyBlock_same | apply adaptDraft_same | apply stepDone_same | refine ite_same ?_ ?_ | intro _ | split) | dsimp only)

theorem pickPrefill_same {al : Allow} {bd : Dev} (i : Nat) (s : Stream) (st : StepRec) (z : List Dy) (d : Dev) (hk : Same al bd d) (w0 : al.regs = true := by assumption) (w1 : al.strand = true := by assumption) (w2 : al.peg = true := by assumption) (w3 : al.loads = true := by assumption) (w4 : al.streams = true := by assumption) (w5 : al.scheds = true := by assumption) (w6 : al.kv = true := by assumption) (w7 : al.tx = true := by assumption) : Same al bd (pickPrefill i s st z d) := by
  unfold pickPrefill
  repeat' (first | with_reducible (first | assumption | apply pickEmpty_same | apply samplePos_same | apply stepDone_same | refine ite_same ?_ ?_ | intro _ | split) | dsimp only)

theorem pickSample_same {al : Allow} {bd : Dev} (i : Nat) (logits : List (List Word)) (d : Dev) (hk : Same al bd d) (w0 : al.regs = true := by assumption) (w1 : al.strand = true := by assumption) (w2 : al.peg = true := by assumption) (w3 : al.links = true := by assumption) (w4 : al.loads = true := by assumption) (w5 : al.streams = true := by assumption) (w6 : al.scheds = true := by assumption) (w7 : al.kv = true := by assumption) (w8 : al.tx = true := by assumption) : Same al bd (pickSample i logits d) := by
  unfold pickSample
  repeat' (first | with_reducible (first | assumption | apply maskRead_same | apply pickDecode_same | apply pickPrefill_same | refine ite_same ?_ ?_ | intro _ | split) | dsimp only)

theorem retireChunks_same {al : Allow} {bd : Dev} (i : Nat) (d : Dev) (hk : Same al bd d) (w0 : al.strand = true := by assumption) (w1 : al.streams = true := by assumption) (w2 : al.scheds = true := by assumption) (w3 : al.tx = true := by assumption) : Same al bd (retireChunks i d) := by
  unfold retireChunks
  repeat' (first | with_reducible (first | assumption | apply modStream_same | apply setAtRisk_same | apply settleBatches_same | refine ite_same ?_ ?_ | intro _ | split) | dsimp only)

theorem applyStop_same {al : Allow} {bd : Dev} (i : Nat) (s : Stream) (d : Dev) (hk : Same al bd d) (w0 : al.regs = true := by assumption) (w1 : al.strand = true := by assumption) (w2 : al.peg = true := by assumption) (w3 : al.loads = true := by assumption) (w4 : al.streams = true := by assumption) (w5 : al.scheds = true := by assumption) (w6 : al.kv = true := by assumption) (w7 : al.tx = true := by assumption) : Same al bd (applyStop i s d) := by
  unfold applyStop
  repeat' (first | with_reducible (first | assumption | apply modStream_same | apply endStream_same | apply enterPause_same | refine ite_same ?_ ?_ | intro _ | split) | dsimp only)

theorem applyBoundary_same {al : Allow} {bd : Dev} (i : Nat) (d : Dev) (hk : Same al bd d) (w0 : al.regs = true := by assumption) (w1 : al.strand = true := by assumption) (w2 : al.peg = true := by assumption) (w3 : al.mem = true := by assumption) (w4 : al.poison = true := by assumption) (w5 : al.loads = true := by assumption) (w6 : al.streams = true := by assumption) (w7 : al.scheds = true := by assumption) (w8 : al.kv = true := by assumption) (w9 : al.tx = true := by assumption) : Same al bd (applyBoundary i d) := by
  unfold applyBoundary
  repeat' (first | with_reducible (first | assumption | apply bump_same | apply modStream_same | apply endStream_same | apply retireStream_same | apply enterPause_same | apply startPark_same | refine ite_same ?_ ?_ | intro _ | split) | dsimp only)

theorem stepBoundary_same {al : Allow} {bd : Dev} (i : Nat) (d : Dev) (hk : Same al bd d) (w0 : al.regs = true := by assumption) (w1 : al.strand = true := by assumption) (w2 : al.peg = true := by assumption) (w3 : al.mem = true := by assumption) (w4 : al.poison = true := by assumption) (w5 : al.loads = true := by assumption) (w6 : al.streams = true := by assumption) (w7 : al.scheds = true := by assumption) (w8 : al.kv = true := by assumption) (w9 : al.tx = true := by assumption) : Same al bd (stepBoundary i d) := by
  unfold stepBoundary
  repeat' (first | with_reducible (first | assumption | apply settleRefs_same | apply dropSteps_same | apply settleBatches_same | apply retireChunks_same | apply applyStop_same | apply applyBoundary_same | refine ite_same ?_ ?_ | intro _ | split) | dsimp only)

theorem deadlineReached_same {al : Allow} {bd : Dev} (i : Nat) (d : Dev) (hk : Same al bd d) (w0 : al.regs = true := by assumption) (w1 : al.strand = true := by assumption) (w2 : al.peg = true := by assumption) (w3 : al.loads = true := by assumption) (w4 : al.streams = true := by assumption) (w5 : al.scheds = true := by assumption) (w6 : al.kv = true := by assumption) (w7 : al.tx = true := by assumption) : Same al bd (deadlineReached i d) := by
  unfold deadlineReached
  repeat' (first | with_reducible (first | assumption | apply bump_same | apply endStream_same | refine ite_same ?_ ?_ | intro _ | split) | dsimp only)

theorem recordFlit_same {al : Allow} {bd : Dev} (p b i : Nat) (x : OutRec) (d : Dev) (hk : Same al bd d) (w0 : al.regs = true := by assumption) (w1 : al.links = true := by assumption) (w2 : al.tx = true := by assumption) : Same al bd (recordFlit p b i x d) := by
  unfold recordFlit
  repeat' (first | with_reducible (first | assumption | apply nodeInject_same | refine ite_same ?_ ?_ | intro _ | split) | dsimp only)

theorem tokenRecordArrival_same {al : Allow} {bd : Dev} (i : Nat) (d : Dev) (hk : Same al bd d) (w0 : al.regs = true := by assumption) (w1 : al.strand = true := by assumption) (w2 : al.links = true := by assumption) (w3 : al.streams = true := by assumption) (w4 : al.scheds = true := by assumption) (w5 : al.tx = true := by assumption) : Same al bd (tokenRecordArrival i d) := by
  unfold tokenRecordArrival
  repeat' (first | with_reducible (first | assumption | apply send_same | apply forEach_same | apply modStream_same | apply streamMsg_same | apply tryFree_same | apply recordFlit_same | refine ite_same ?_ ?_ | intro _ | split) | dsimp only)

theorem tensorSlice_same {al : Allow} {bd : Dev} (p b stage codes : Nat) (v : VecId) (sl : Nat) (y : List (Option Dy)) (d : Dev) (hk : Same al bd d) (w0 : al.regs = true := by assumption) (w1 : al.strand = true := by assumption) (w2 : al.peg = true := by assumption) (w3 : al.links = true := by assumption) (w4 : al.loads = true := by assumption) (w5 : al.streams = true := by assumption) (w6 : al.scheds = true := by assumption) (w7 : al.kv = true := by assumption) (w8 : al.tx = true := by assumption) : Same al bd (tensorSlice p b stage codes v sl y d) := by
  unfold tensorSlice
  repeat' (first | with_reducible (first | assumption | apply bump_same | apply endStream_same | apply bridgeSlice_same | apply cnsPortSend_same | refine ite_same ?_ ?_ | intro _ | split) | dsimp only)

theorem bridgeTensorPass_same {al : Allow} {bd : Dev} (p b stage stream pos : Nat) (vals : List Word) (d : Dev) (hk : Same al bd d) (w0 : al.regs = true := by assumption) (w1 : al.strand = true := by assumption) (w2 : al.peg = true := by assumption) (w3 : al.links = true := by assumption) (w4 : al.loads = true := by assumption) (w5 : al.streams = true := by assumption) (w6 : al.scheds = true := by assumption) (w7 : al.kv = true := by assumption) (w8 : al.tx = true := by assumption) : Same al bd (bridgeTensorPass p b stage stream pos vals d) := by
  unfold bridgeTensorPass
  repeat' (first | with_reducible (first | assumption | apply when__same | apply forEach_same | apply modSched_same | apply tensorSlice_same | refine ite_same ?_ ?_ | intro _ | split) | dsimp only)

theorem stagePassTimeout_same {al : Allow} {bd : Dev} (f c s : Nat) (d : Dev) (hk : Same al bd d) (w0 : al.regs = true := by assumption) (w1 : al.strand = true := by assumption) (w2 : al.peg = true := by assumption) (w3 : al.rst = true := by assumption) (w4 : al.fret = true := by assumption) (w5 : al.loads = true := by assumption) (w6 : al.streams = true := by assumption) (w7 : al.scheds = true := by assumption) (w8 : al.kv = true := by assumption) (w9 : al.tx = true := by assumption) : Same al bd (stagePassTimeout f c s d) := by
  unfold stagePassTimeout
  repeat' (first | with_reducible (first | assumption | apply slotFault_same | apply passStart_same | refine ite_same ?_ ?_ | intro _ | split) | dsimp only)

end Sys2Proof.Machine
end

