-- ==== Sys2Proof/Laws/FrameSystem.lean ====
section
/-! SUPPORT. The fields that the operations of Tuning, the map, consorts, resets, power, management, attestation and the reception of datagrams may change, one lemma each (Laws/Frame.lean). -/

namespace Sys2Proof.Machine

set_option linter.unusedSimpArgs false

theorem tuneEvent_same {al : Allow} {bd : Dev} (p code sec rec barr : Nat) (serial : DWord) (d : Dev) (hk : Same al bd d) (w0 : al.regs = true := by assumption) (w1 : al.strand = true := by assumption) (w2 : al.peg = true := by assumption) (w3 : al.tx = true := by assumption) : Same al bd (tuneEvent p code sec rec barr serial d) := by
  unfold tuneEvent
  repeat' (first | with_reducible (first | assumption | apply raiseEvent_same | refine ite_same ?_ ?_ | intro _ | split) | dsimp only)

theorem tuneEnd_same {al : Allow} {bd : Dev} (p code sec rec barr : Nat) (d : Dev) (hk : Same al bd d) (w0 : al.regs = true := by assumption) (w1 : al.strand = true := by assumption) (w2 : al.peg = true := by assumption) (w3 : al.tunes = true := by assumption) (w4 : al.tx = true := by assumption) : Same al bd (tuneEnd p code sec rec barr d) := by
  unfold tuneEnd
  repeat' (first | with_reducible (first | assumption | apply regPut_same | apply bump_same | apply modTune_same | apply tuneEvent_same | refine ite_same ?_ ?_ | intro _ | split) | dsimp only)

theorem setBarr_same {al : Allow} {bd : Dev} (p n : Nat) (d : Dev) (hk : Same al bd d) (w0 : al.regs = true := by assumption) : Same al bd (setBarr p n d) := by
  unfold setBarr
  repeat' (first | with_reducible (first | assumption | apply regPut_same | refine ite_same ?_ ?_ | intro _ | split) | dsimp only)

theorem tuneLoad_same {al : Allow} {bd : Dev} (p : Nat) (d : Dev) (hk : Same al bd d) (w0 : al.tunes = true := by assumption) : Same al bd (tuneLoad p d) := by
  unfold tuneLoad
  repeat' (first | with_reducible (first | assumption | apply modTune_same | refine ite_same ?_ ?_ | intro _ | split) | dsimp only)

theorem tuneAbort_same {al : Allow} {bd : Dev} (p : Nat) (d : Dev) (hk : Same al bd d) (w0 : al.regs = true := by assumption) (w1 : al.strand = true := by assumption) (w2 : al.peg = true := by assumption) (w3 : al.tunes = true := by assumption) (w4 : al.tx = true := by assumption) : Same al bd (tuneAbort p d) := by
  unfold tuneAbort
  repeat' (first | with_reducible (first | assumption | apply tuneEnd_same | refine ite_same ?_ ?_ | intro _ | split) | dsimp only)

theorem tuningVerifyDone_same {al : Allow} {bd : Dev} (p : Nat) (d : Dev) (hk : Same al bd d) (w0 : al.regs = true := by assumption) (w1 : al.strand = true := by assumption) (w2 : al.peg = true := by assumption) (w3 : al.tunes = true := by assumption) (w4 : al.tx = true := by assumption) : Same al bd (tuningVerifyDone p d) := by
  unfold tuningVerifyDone
  repeat' (first | with_reducible (first | assumption | apply modTune_same | apply tuneEnd_same | refine ite_same ?_ ?_ | intro _ | split) | dsimp only)

theorem writeCourseRegs_same {al : Allow} {bd : Dev} (img : List Byte) (f c : Nat) (d : Dev) (hk : Same al bd d) (w0 : al.regs = true := by assumption) : Same al bd (writeCourseRegs img f c d) := by
  unfold writeCourseRegs
  repeat' (first | with_reducible (first | assumption | apply regPut_same | apply forEach_same | refine ite_same ?_ ?_ | intro _ | split) | dsimp only)

theorem putUse_same {al : Allow} {bd : Dev} (f c t : Nat) (m : BitVec 512) (d : Dev) (hk : Same al bd d) (w0 : al.fret = true := by assumption) : Same al bd (putUse f c t m d) := by
  unfold putUse
  repeat' (first | with_reducible (first | assumption | apply modTile_same | refine ite_same ?_ ?_ | intro _ | split) | dsimp only)

theorem placeTile_same {al : Allow} {bd : Dev} (f c w : Nat) (d : Dev) (hk : Same al bd d) (w0 : al.regs = true := by assumption) (w1 : al.strand = true := by assumption) (w2 : al.peg = true := by assumption) (w3 : al.fret = true := by assumption) (w4 : al.tx = true := by assumption) : Same al bd (placeTile f c w d) := by
  unfold placeTile
  repeat' (first | with_reducible (first | assumption | apply modTile_same | apply setTmap_same | apply wtileRecord_same | refine ite_same ?_ ?_ | intro _ | split) | dsimp only)

theorem clearCourse_same {al : Allow} {bd : Dev} (f c : Nat) (ws : List Nat) (d : Dev) (hk : Same al bd d) (w0 : al.regs = true := by assumption) (w1 : al.fret = true := by assumption) : Same al bd (clearCourse f c ws d) := by
  unfold clearCourse
  repeat' (first | with_reducible (first | assumption | apply forEach_same | apply modTile_same | apply modCourse_same | apply dropSamples_same | refine ite_same ?_ ?_ | intro _ | split) | dsimp only)

theorem applyCourse_same {al : Allow} {bd : Dev} (p : Nat) (img : List Byte) (f c : Nat) (d : Dev) (hk : Same al bd d) (w0 : al.regs = true := by assumption) (w1 : al.strand = true := by assumption) (w2 : al.peg = true := by assumption) (w3 : al.fret = true := by assumption) (w4 : al.tx = true := by assumption) : Same al bd (applyCourse p img f c d) := by
  unfold applyCourse
  repeat' (first | with_reducible (first | assumption | apply forEach_same | apply modSlot_same | apply writeCourseRegs_same | apply putUse_same | apply placeTile_same | apply clearCourse_same | refine ite_same ?_ ?_ | intro _ | split) | dsimp only)

theorem tuneApply_same {al : Allow} {bd : Dev} (p : Nat) (img : List Byte) (d : Dev) (hk : Same al bd d) (w0 : al.regs = true := by assumption) (w1 : al.strand = true := by assumption) (w2 : al.peg = true := by assumption) (w3 : al.fret = true := by assumption) (w4 : al.mem = true := by assumption) (w5 : al.poison = true := by assumption) (w6 : al.loads = true := by assumption) (w7 : al.tunes = true := by assumption) (w8 : al.streams = true := by assumption) (w9 : al.prefixes = true := by assumption) (w10 : al.scheds = true := by assumption) (w11 : al.kv = true := by assumption) (w12 : al.tx = true := by assumption) : Same al bd (tuneApply p img d) := by
  unfold tuneApply
  repeat' (first | with_reducible (first | assumption | apply forEach_same | apply hbmZero_same | apply modTune_same | apply layoutChange_same | apply applyCourse_same | refine ite_same ?_ ?_ | intro _ | split) | simp only [same_loads, w6] | dsimp only)

theorem barrierApply_same {al : Allow} {bd : Dev} (p : Nat) (l : TuneLoad) (d : Dev) (hk : Same al bd d) (w0 : al.regs = true := by assumption) (w1 : al.strand = true := by assumption) (w2 : al.peg = true := by assumption) (w3 : al.fret = true := by assumption) (w4 : al.mem = true := by assumption) (w5 : al.poison = true := by assumption) (w6 : al.loads = true := by assumption) (w7 : al.tunes = true := by assumption) (w8 : al.streams = true := by assumption) (w9 : al.prefixes = true := by assumption) (w10 : al.scheds = true := by assumption) (w11 : al.kv = true := by assumption) (w12 : al.tx = true := by assumption) : Same al bd (barrierApply p l d) := by
  unfold barrierApply
  repeat' (first | with_reducible (first | assumption | apply tuneEnd_same | apply setBarr_same | apply tuneApply_same | refine ite_same ?_ ?_ | intro _ | split) | dsimp only)

theorem tuningBarrierReached_same {al : Allow} {bd : Dev} (p : Nat) (d : Dev) (hk : Same al bd d) (w0 : al.regs = true := by assumption) (w1 : al.strand = true := by assumption) (w2 : al.peg = true := by assumption) (w3 : al.fret = true := by assumption) (w4 : al.mem = true := by assumption) (w5 : al.poison = true := by assumption) (w6 : al.loads = true := by assumption) (w7 : al.tunes = true := by assumption) (w8 : al.streams = true := by assumption) (w9 : al.prefixes = true := by assumption) (w10 : al.scheds = true := by assumption) (w11 : al.kv = true := by assumption) (w12 : al.tx = true := by assumption) : Same al bd (tuningBarrierReached p d) := by
  unfold tuningBarrierReached
  repeat' (first | with_reducible (first | assumption | apply barrierApply_same | refine ite_same ?_ ?_ | intro _ | split) | dsimp only)

theorem strumTune_same {al : Allow} {bd : Dev} (p : Nat) (d : Dev) (hk : Same al bd d) (w0 : al.regs = true := by assumption) (w1 : al.strand = true := by assumption) (w2 : al.peg = true := by assumption) (w3 : al.fret = true := by assumption) (w4 : al.mem = true := by assumption) (w5 : al.poison = true := by assumption) (w6 : al.loads = true := by assumption) (w7 : al.tunes = true := by assumption) (w8 : al.streams = true := by assumption) (w9 : al.prefixes = true := by assumption) (w10 : al.scheds = true := by assumption) (w11 : al.kv = true := by assumption) (w12 : al.tx = true := by assumption) : Same al bd (strumTune p d) := by
  unfold strumTune
  repeat' (first | with_reducible (first | assumption | apply barrierApply_same | refine ite_same ?_ ?_ | intro _ | split) | dsimp only)

theorem tuningBarrierTimeout_same {al : Allow} {bd : Dev} (p : Nat) (d : Dev) (hk : Same al bd d) (w0 : al.regs = true := by assumption) (w1 : al.strand = true := by assumption) (w2 : al.peg = true := by assumption) (w3 : al.tunes = true := by assumption) (w4 : al.tx = true := by assumption) : Same al bd (tuningBarrierTimeout p d) := by
  unfold tuningBarrierTimeout
  repeat' (first | with_reducible (first | assumption | apply tuneEnd_same | apply setBarr_same | refine ite_same ?_ ?_ | intro _ | split) | dsimp only)

theorem suspendCheck_same {al : Allow} {bd : Dev} (p : Nat) (moved : Option (Nat × Nat)) (d : Dev) (hk : Same al bd d) (w0 : al.regs = true := by assumption) (w1 : al.strand = true := by assumption) (w2 : al.peg = true := by assumption) (w3 : al.tunes = true := by assumption) (w4 : al.tx = true := by assumption) : Same al bd (suspendCheck p moved d) := by
  unfold suspendCheck
  repeat' (first | with_reducible (first | assumption | apply modTune_same | apply tuneEvent_same | refine ite_same ?_ ?_ | intro _ | split) | dsimp only)

theorem rdmaWriteTuneStaging_same {al : Allow} {bd : Dev} (qp p off : Nat) (ce : Bool) (data : List Byte) (d : Dev) (hk : Same al bd d) (w0 : al.regs = true := by assumption) (w1 : al.eth = true := by assumption) (w2 : al.tunes = true := by assumption) (w3 : al.tx = true := by assumption) : Same al bd (rdmaWriteTuneStaging qp p off ce data d) := by
  unfold rdmaWriteTuneStaging
  repeat' (first | with_reducible (first | assumption | apply bump_same | apply send_same | apply ceOnRdma_same | apply rdmaFirewallRefuse_same | apply modTune_same | refine ite_same ?_ ?_ | intro _ | split) | dsimp only)

theorem rdmaWriteMask_same {al : Allow} {bd : Dev} (qp p off : Nat) (ce : Bool) (data : List Byte) (d : Dev) (hk : Same al bd d) (w0 : al.regs = true := by assumption) (w1 : al.eth = true := by assumption) (w2 : al.links = true := by assumption) (w3 : al.mem = true := by assumption) (w4 : al.poison = true := by assumption) (w5 : al.tunes = true := by assumption) (w6 : al.tx = true := by assumption) : Same al bd (rdmaWriteMask qp p off ce data d) := by
  unfold rdmaWriteMask
  repeat' (first | with_reducible (first | assumption | apply send_same | apply ceOnRdma_same | apply rdmaFirewallRefuse_same | apply bridgeBulk_same | apply hbmCount_same | apply hbmWrite_same | apply modTune_same | refine ite_same ?_ ?_ | intro _ | split) | dsimp only)

theorem putMapStg_same {al : Allow} {bd : Dev} (p kind : Nat) (r : List Byte) (d : Dev) (hk : Same al bd d) (w0 : al.map = true := by assumption) : Same al bd (putMapStg p kind r d) := by
  unfold putMapStg
  repeat' (first | with_reducible (first | assumption | refine ite_same ?_ ?_ | intro _ | split) | simp only [same_map, w0] | dsimp only)

theorem mapCommit_same {al : Allow} {bd : Dev} (p : Nat) (d : Dev) (hk : Same al bd d) (w0 : al.map = true := by assumption) : Same al bd (mapCommit p d) := by
  unfold mapCommit
  repeat' (first | with_reducible (first | assumption | refine ite_same ?_ ?_ | intro _ | split) | simp only [same_map, w0] | dsimp only)

theorem mapDiscard_same {al : Allow} {bd : Dev} (p : Nat) (d : Dev) (hk : Same al bd d) (w0 : al.map = true := by assumption) : Same al bd (mapDiscard p d) := by
  unfold mapDiscard
  repeat' (first | with_reducible (first | assumption | apply forEach_same | apply putMapStg_same | refine ite_same ?_ ?_ | intro _ | split) | dsimp only)

theorem mapQpLoss_same {al : Allow} {bd : Dev} (old new_ : List Byte) (d : Dev) (hk : Same al bd d) (w0 : al.eth = true := by assumption) : Same al bd (mapQpLoss old new_ d) := by
  unfold mapQpLoss
  repeat' (first | with_reducible (first | assumption | refine ite_same ?_ ?_ | intro _ | split) | simp only [same_eth, w0] | dsimp only)

theorem newMacKey_same {al : Allow} {bd : Dev} (p : Nat) (old new_ : List Byte) (d : Dev) (hk : Same al bd d) (w0 : al.strand = true := by assumption) : Same al bd (newMacKey p old new_ d) := by
  unfold newMacKey
  repeat' (first | with_reducible (first | assumption | refine ite_same ?_ ?_ | intro _ | split) | simp only [same_strand, w0] | dsimp only)

theorem mapBarrier_same {al : Allow} {bd : Dev} (p : Nat) (d : Dev) (hk : Same al bd d) (w0 : al.regs = true := by assumption) (w1 : al.strand = true := by assumption) (w2 : al.eth = true := by assumption) (w3 : al.map = true := by assumption) (w4 : al.sync = true := by assumption) (w5 : al.peg = true := by assumption) (w6 : al.tunes = true := by assumption) (w7 : al.tx = true := by assumption) : Same al bd (mapBarrier p d) := by
  unfold mapBarrier
  repeat' (first | with_reducible (first | assumption | apply mapSyncLoss_same | apply suspendCheck_same | apply mapQpLoss_same | apply newMacKey_same | apply foldl_same | apply foldl_same_snd | apply foldl_same_thd | refine ite_same ?_ ?_ | intro _ | split) | simp only [same_map, w3] | dsimp only)

theorem courseHanded_same {al : Allow} {bd : Dev} (f c : Nat) (d : Dev) (hk : Same al bd d) (w0 : al.regs = true := by assumption) (w1 : al.fret = true := by assumption) : Same al bd (courseHanded f c d) := by
  unfold courseHanded
  repeat' (first | with_reducible (first | assumption | apply regSetField_same | apply forEach_same | apply clearCourse_same | refine ite_same ?_ ?_ | intro _ | split) | dsimp only)

theorem mapHandoverEnd_same {al : Allow} {bd : Dev} (k base count : Nat) (d : Dev) (hk : Same al bd d) (w0 : al.regs = true := by assumption) (w1 : al.map = true := by assumption) (w2 : al.fret = true := by assumption) : Same al bd (mapHandoverEnd k base count d) := by
  unfold mapHandoverEnd
  repeat' (first | with_reducible (first | assumption | apply forEach_same | apply courseHanded_same | refine ite_same ?_ ?_ | intro _ | split) | simp only [same_map, w1] | dsimp only)

theorem strumNote_same {al : Allow} {bd : Dev} (result : Nat) (d : Dev) (hk : Same al bd d) (w0 : al.regs = true := by assumption) (w1 : al.cns = true := by assumption) : Same al bd (strumNote result d) := by
  unfold strumNote
  repeat' (first | with_reducible (first | assumption | apply bump_same | apply modCns_same | refine ite_same ?_ ?_ | intro _ | split) | dsimp only)

theorem strumEvent_same {al : Allow} {bd : Dev} (result : Nat) (t : DWord) (d : Dev) (hk : Same al bd d) (w0 : al.regs = true := by assumption) (w1 : al.strand = true := by assumption) (w2 : al.peg = true := by assumption) (w3 : al.tx = true := by assumption) : Same al bd (strumEvent result t d) := by
  unfold strumEvent
  repeat' (first | with_reducible (first | assumption | apply raiseEvent_same | refine ite_same ?_ ?_ | intro _ | split) | dsimp only)

theorem strumCancel_same {al : Allow} {bd : Dev} (s : Strum) (d : Dev) (hk : Same al bd d) (w0 : al.regs = true := by assumption) (w1 : al.strand = true := by assumption) (w2 : al.peg = true := by assumption) (w3 : al.cns = true := by assumption) (w4 : al.tx = true := by assumption) : Same al bd (strumCancel s d) := by
  unfold strumCancel
  repeat' (first | with_reducible (first | assumption | apply strumNote_same | apply strumEvent_same | refine ite_same ?_ ?_ | intro _ | split) | dsimp only)

theorem cnsStop_same {al : Allow} {bd : Dev} (d : Dev) (hk : Same al bd d) (w0 : al.regs = true := by assumption) (w1 : al.strand = true := by assumption) (w2 : al.peg = true := by assumption) (w3 : al.loads = true := by assumption) (w4 : al.streams = true := by assumption) (w5 : al.scheds = true := by assumption) (w6 : al.kv = true := by assumption) (w7 : al.cns = true := by assumption) (w8 : al.tx = true := by assumption) : Same al bd (cnsStop d) := by
  unfold cnsStop
  repeat' (first | with_reducible (first | assumption | apply forEach_same | apply endStream_same | apply modCns_same | apply strumCancel_same | refine ite_same ?_ ?_ | intro _ | split) | dsimp only)

theorem cnsSettle_same {al : Allow} {bd : Dev} (d : Dev) (hk : Same al bd d) (w0 : al.cns = true := by assumption) : Same al bd (cnsSettle d) := by
  unfold cnsSettle
  repeat' (first | with_reducible (first | assumption | apply modCns_same | refine ite_same ?_ ?_ | intro _ | split) | dsimp only)

theorem consortJoin_same {al : Allow} {bd : Dev} (d : Dev) (hk : Same al bd d) (w0 : al.regs = true := by assumption) (w1 : al.strand = true := by assumption) (w2 : al.peg = true := by assumption) (w3 : al.pins = true := by assumption) (w4 : al.cns = true := by assumption) (w5 : al.tx = true := by assumption) : Same al bd (consortJoin d) := by
  unfold consortJoin
  repeat' (first | with_reducible (first | assumption | apply send_same | apply forEach_same | apply modCns_same | apply strumCancel_same | apply cnsSettle_same | refine ite_same ?_ ?_ | intro _ | split) | simp only [same_pins, w3] | dsimp only)

theorem consortJoinRequestRx_same {al : Allow} {bd : Dev} (m : Nat) (digest : List Byte) (serial : DWord) (cgen : Nat) (partOn : Bool) (streams : Nat) (timeOk : Bool) (d : Dev) (hk : Same al bd d) (w0 : al.cns = true := by assumption) (w1 : al.tx = true := by assumption) : Same al bd (consortJoinRequestRx m digest serial cgen partOn streams timeOk d) := by
  unfold consortJoinRequestRx
  repeat' (first | with_reducible (first | assumption | apply send_same | apply forEach_same | apply modCns_same | apply cnsSettle_same | refine ite_same ?_ ?_ | intro _ | split) | dsimp only)

theorem masterHeard_same {al : Allow} {bd : Dev} (d : Dev) (hk : Same al bd d) (w0 : al.cns = true := by assumption) : Same al bd (masterHeard d) := by
  unfold masterHeard
  repeat' (first | with_reducible (first | assumption | apply modCns_same | refine ite_same ?_ ?_ | intro _ | split) | dsimp only)

theorem consortJoinResultRx_same {al : Allow} {bd : Dev} (code : Nat) (joined : List Nat) (d : Dev) (hk : Same al bd d) (w0 : al.cns = true := by assumption) : Same al bd (consortJoinResultRx code joined d) := by
  unfold consortJoinResultRx
  repeat' (first | with_reducible (first | assumption | apply modCns_same | apply cnsSettle_same | apply masterHeard_same | refine ite_same ?_ ?_ | intro _ | split) | dsimp only)

theorem consortLeave_same {al : Allow} {bd : Dev} (d : Dev) (hk : Same al bd d) (w0 : al.regs = true := by assumption) (w1 : al.strand = true := by assumption) (w2 : al.peg = true := by assumption) (w3 : al.loads = true := by assumption) (w4 : al.streams = true := by assumption) (w5 : al.scheds = true := by assumption) (w6 : al.kv = true := by assumption) (w7 : al.cns = true := by assumption) (w8 : al.tx = true := by assumption) : Same al bd (consortLeave d) := by
  unfold consortLeave
  repeat' (first | with_reducible (first | assumption | apply cnsSendAll_same | apply modCns_same | apply cnsStop_same | refine ite_same ?_ ?_ | intro _ | split) | dsimp only)

theorem memberLost_same {al : Allow} {bd : Dev} (m : Nat) (d : Dev) (hk : Same al bd d) (w0 : al.regs = true := by assumption) (w1 : al.strand = true := by assumption) (w2 : al.peg = true := by assumption) (w3 : al.loads = true := by assumption) (w4 : al.streams = true := by assumption) (w5 : al.scheds = true := by assumption) (w6 : al.kv = true := by assumption) (w7 : al.cns = true := by assumption) (w8 : al.tx = true := by assumption) : Same al bd (memberLost m d) := by
  unfold memberLost
  repeat' (first | with_reducible (first | assumption | apply modCns_same | apply cnsStop_same | refine ite_same ?_ ?_ | intro _ | split) | dsimp only)

theorem memberAlignLost_same {al : Allow} {bd : Dev} (m : Nat) (d : Dev) (hk : Same al bd d) (w0 : al.regs = true := by assumption) (w1 : al.strand = true := by assumption) (w2 : al.peg = true := by assumption) (w3 : al.loads = true := by assumption) (w4 : al.streams = true := by assumption) (w5 : al.scheds = true := by assumption) (w6 : al.kv = true := by assumption) (w7 : al.cns = true := by assumption) (w8 : al.tx = true := by assumption) : Same al bd (memberAlignLost m d) := by
  unfold memberAlignLost
  repeat' (first | with_reducible (first | assumption | apply memberLost_same | refine ite_same ?_ ?_ | intro _ | split) | dsimp only)

theorem masterLost_same {al : Allow} {bd : Dev} (d : Dev) (hk : Same al bd d) (w0 : al.regs = true := by assumption) (w1 : al.strand = true := by assumption) (w2 : al.peg = true := by assumption) (w3 : al.loads = true := by assumption) (w4 : al.streams = true := by assumption) (w5 : al.scheds = true := by assumption) (w6 : al.kv = true := by assumption) (w7 : al.cns = true := by assumption) (w8 : al.tx = true := by assumption) : Same al bd (masterLost d) := by
  unfold masterLost
  repeat' (first | with_reducible (first | assumption | apply cnsStop_same | refine ite_same ?_ ?_ | intro _ | split) | dsimp only)

theorem consortPortTimeout_same {al : Allow} {bd : Dev} (m : Nat) (d : Dev) (hk : Same al bd d) (w0 : al.regs = true := by assumption) (w1 : al.strand = true := by assumption) (w2 : al.peg = true := by assumption) (w3 : al.loads = true := by assumption) (w4 : al.streams = true := by assumption) (w5 : al.scheds = true := by assumption) (w6 : al.kv = true := by assumption) (w7 : al.cns = true := by assumption) (w8 : al.tx = true := by assumption) : Same al bd (consortPortTimeout m d) := by
  unfold consortPortTimeout
  repeat' (first | with_reducible (first | assumption | apply memberLost_same | refine ite_same ?_ ?_ | intro _ | split) | dsimp only)

theorem setOffset_same {al : Allow} {bd : Dev} (o : Int) (d : Dev) (hk : Same al bd d) (w0 : al.cns = true := by assumption) : Same al bd (setOffset o d) := by
  unfold setOffset
  repeat' (first | with_reducible (first | assumption | apply modCns_same | refine ite_same ?_ ?_ | intro _ | split) | dsimp only)

theorem ptpSyncRx_same {al : Allow} {bd : Dev} (dom : Nat) (t1 : Int) (f2 f3 : Nat) (d : Dev) (hk : Same al bd d) (w0 : al.cns = true := by assumption) (w1 : al.tx = true := by assumption) : Same al bd (ptpSyncRx dom t1 f2 f3 d) := by
  unfold ptpSyncRx
  repeat' (first | with_reducible (first | assumption | apply send_same | apply modCns_same | apply masterHeard_same | apply setOffset_same | refine ite_same ?_ ?_ | intro _ | split) | dsimp only)

theorem ptpDelayRespRx_same {al : Allow} {bd : Dev} (dom : Nat) (t4 : Int) (d : Dev) (hk : Same al bd d) (w0 : al.time = true := by assumption) (w1 : al.cns = true := by assumption) : Same al bd (ptpDelayRespRx dom t4 d) := by
  unfold ptpDelayRespRx
  repeat' (first | with_reducible (first | assumption | apply modCns_same | apply setOffset_same | refine ite_same ?_ ?_ | intro _ | split) | simp only [same_time, w0] | dsimp only)

theorem ptpDelayReqRx_same {al : Allow} {bd : Dev} (dom : Nat) (d : Dev) (hk : Same al bd d) (w0 : al.tx = true := by assumption) : Same al bd (ptpDelayReqRx dom d) := by
  unfold ptpDelayReqRx
  repeat' (first | with_reducible (first | assumption | apply send_same | refine ite_same ?_ ?_ | intro _ | split) | dsimp only)

theorem ptpSyncInterval_same {al : Allow} {bd : Dev} (d : Dev) (hk : Same al bd d) (w0 : al.cns = true := by assumption) (w1 : al.tx = true := by assumption) : Same al bd (ptpSyncInterval d) := by
  unfold ptpSyncInterval
  repeat' (first | with_reducible (first | assumption | apply send_same | apply modCns_same | refine ite_same ?_ ?_ | intro _ | split) | dsimp only)

theorem clockSlew_same {al : Allow} {bd : Dev} (d : Dev) (hk : Same al bd d) (w0 : al.time = true := by assumption) (w1 : al.osc = true := by assumption) (w2 : al.cns = true := by assumption) : Same al bd (clockSlew d) := by
  unfold clockSlew
  repeat' (first | with_reducible (first | assumption | apply modCns_same | apply setOffset_same | refine ite_same ?_ ?_ | intro _ | split) | simp only [same_time_osc, w0, w1] | dsimp only)

theorem strumRequest_same {al : Allow} {bd : Dev} (action arg obj : Nat) (t : DWord) (d : Dev) (hk : Same al bd d) (w0 : al.cns = true := by assumption) (w1 : al.tx = true := by assumption) : Same al bd (strumRequest action arg obj t d) := by
  unfold strumRequest
  repeat' (first | with_reducible (first | assumption | apply cnsSendAll_same | apply modCns_same | refine ite_same ?_ ?_ | intro _ | split) | dsimp only)

theorem strumReceive_same {al : Allow} {bd : Dev} (cancel : Bool) (action arg obj : Nat) (t : DWord) (d : Dev) (hk : Same al bd d) (w0 : al.regs = true := by assumption) (w1 : al.strand = true := by assumption) (w2 : al.peg = true := by assumption) (w3 : al.cns = true := by assumption) (w4 : al.tx = true := by assumption) : Same al bd (strumReceive cancel action arg obj t d) := by
  unfold strumReceive
  repeat' (first | with_reducible (first | assumption | apply send_same | apply modCns_same | apply strumCancel_same | apply masterHeard_same | refine ite_same ?_ ?_ | intro _ | split) | dsimp only)

theorem strumAckRx_same {al : Allow} {bd : Dev} (m : Nat) (t : DWord) (d : Dev) (hk : Same al bd d) (w0 : al.cns = true := by assumption) : Same al bd (strumAckRx m t d) := by
  unfold strumAckRx
  repeat' (first | with_reducible (first | assumption | apply modCns_same | refine ite_same ?_ ?_ | intro _ | split) | dsimp only)

theorem strumAckDeadline_same {al : Allow} {bd : Dev} (d : Dev) (hk : Same al bd d) (w0 : al.regs = true := by assumption) (w1 : al.strand = true := by assumption) (w2 : al.peg = true := by assumption) (w3 : al.cns = true := by assumption) (w4 : al.tx = true := by assumption) : Same al bd (strumAckDeadline d) := by
  unfold strumAckDeadline
  repeat' (first | with_reducible (first | assumption | apply forEach_same | apply cnsSendAll_same | apply modCns_same | apply strumCancel_same | refine ite_same ?_ ?_ | intro _ | split) | dsimp only)

theorem strumAct_same {al : Allow} {bd : Dev} (s : Strum) (d : Dev) (hk : Same al bd d) (w0 : al.regs = true := by assumption) (w1 : al.strand = true := by assumption) (w2 : al.sync = true := by assumption) (w3 : al.peg = true := by assumption) (w4 : al.fret = true := by assumption) (w5 : al.mem = true := by assumption) (w6 : al.poison = true := by assumption) (w7 : al.loads = true := by assumption) (w8 : al.tunes = true := by assumption) (w9 : al.streams = true := by assumption) (w10 : al.prefixes = true := by assumption) (w11 : al.scheds = true := by assumption) (w12 : al.kv = true := by assumption) (w13 : al.cns = true := by assumption) (w14 : al.tx = true := by assumption) : Same al bd (strumAct s d) := by
  unfold strumAct
  repeat' (first | with_reducible (first | assumption | apply syncSet_same | apply modCns_same | apply strumTune_same | refine ite_same ?_ ?_ | intro _ | split) | dsimp only)

theorem strumFire_same {al : Allow} {bd : Dev} (d : Dev) (hk : Same al bd d) (w0 : al.regs = true := by assumption) (w1 : al.strand = true := by assumption) (w2 : al.sync = true := by assumption) (w3 : al.peg = true := by assumption) (w4 : al.fret = true := by assumption) (w5 : al.mem = true := by assumption) (w6 : al.poison = true := by assumption) (w7 : al.loads = true := by assumption) (w8 : al.tunes = true := by assumption) (w9 : al.streams = true := by assumption) (w10 : al.prefixes = true := by assumption) (w11 : al.scheds = true := by assumption) (w12 : al.kv = true := by assumption) (w13 : al.cns = true := by assumption) (w14 : al.tx = true := by assumption) : Same al bd (strumFire d) := by
  unfold strumFire
  repeat' (first | with_reducible (first | assumption | apply bump_same | apply forEach_same | apply modCns_same | apply strumNote_same | apply strumEvent_same | apply strumAct_same | refine ite_same ?_ ?_ | intro _ | split) | dsimp only)

theorem cnsSignal_same {al : Allow} {bd : Dev} (p aid o k : Nat) (m : Dgram) (d : Dev) (hk : Same al bd d) (w0 : al.regs = true := by assumption) (w1 : al.strand = true := by assumption) (w2 : al.sync = true := by assumption) (w3 : al.tx = true := by assumption) : Same al bd (cnsSignal p aid o k m d) := by
  unfold cnsSignal
  repeat' (first | with_reducible (first | assumption | apply send_same | apply sendReply_same | apply syncSignal_same | apply cnsSendAll_same | refine ite_same ?_ ?_ | intro _ | split) | dsimp only)

theorem doSignal_same {al : Allow} {bd : Dev} (p aid : Nat) (m : Dgram) (d : Dev) (hk : Same al bd d) (w0 : al.regs = true := by assumption) (w1 : al.strand = true := by assumption) (w2 : al.sync = true := by assumption) (w3 : al.tx = true := by assumption) : Same al bd (doSignal p aid m d) := by
  unfold doSignal
  repeat' (first | with_reducible (first | assumption | apply doSyncSignal_same | apply cnsSignal_same | refine ite_same ?_ ?_ | intro _ | split) | dsimp only)

theorem consortSyncUpdateRx_same {al : Allow} {bd : Dev} (k op : Nat) (v : DWord) (cycle : Nat) (d : Dev) (hk : Same al bd d) (w0 : al.regs = true := by assumption) (w1 : al.strand = true := by assumption) (w2 : al.sync = true := by assumption) (w3 : al.cns = true := by assumption) (w4 : al.tx = true := by assumption) : Same al bd (consortSyncUpdateRx k op v cycle d) := by
  unfold consortSyncUpdateRx
  repeat' (first | with_reducible (first | assumption | apply syncSet_same | apply syncSignal_same | apply cnsSendAll_same | apply masterHeard_same | refine ite_same ?_ ?_ | intro _ | split) | dsimp only)

theorem rdmaWriteConsortPort_same {al : Allow} {bd : Dev} (k qp : Nat) (ce : Bool) (data : List Byte) (d : Dev) (hk : Same al bd d) (w0 : al.regs = true := by assumption) (w1 : al.eth = true := by assumption) (w2 : al.cns = true := by assumption) (w3 : al.tx = true := by assumption) : Same al bd (rdmaWriteConsortPort k qp ce data d) := by
  unfold rdmaWriteConsortPort
  repeat' (first | with_reducible (first | assumption | apply bump_same | apply addWrap_same | apply send_same | apply ceOnRdma_same | apply masterHeard_same | refine ite_same ?_ ?_ | intro _ | split) | dsimp only)

theorem endWork_same {al : Allow} {bd : Dev} (d : Dev) (hk : Same al bd d) (w0 : al.regs = true := by assumption) (w1 : al.strand = true := by assumption) (w2 : al.peg = true := by assumption) (w3 : al.loads = true := by assumption) (w4 : al.tunes = true := by assumption) (w5 : al.tx = true := by assumption) : Same al bd (endWork d) := by
  unfold endWork
  repeat' (first | with_reducible (first | assumption | apply forEach_same | apply updAbort_same | apply abortWindow_same | apply tuneAbort_same | refine ite_same ?_ ?_ | intro _ | split) | dsimp only)

theorem dropEnded_same {al : Allow} {bd : Dev} (d : Dev) (hk : Same al bd d) (w0 : al.streams = true := by assumption) (w1 : al.scheds = true := by assumption) (w2 : al.kv = true := by assumption) : Same al bd (dropEnded d) := by
  unfold dropEnded
  repeat' (first | with_reducible (first | assumption | apply forEach_same | apply dropSteps_same | refine ite_same ?_ ?_ | intro _ | split) | dsimp only)

theorem clearDev_same {al : Allow} {bd : Dev} (s : Scope) (d : Dev) (hk : Same al bd d) (w0 : al.regs = true := by assumption) (w1 : al.strand = true := by assumption) (w2 : al.eth = true := by assumption) (w3 : al.map = true := by assumption) (w4 : al.sync = true := by assumption) (w5 : al.peg = true := by assumption) (w6 : al.pwr = true := by assumption) (w7 : al.pins = true := by assumption) (w8 : al.links = true := by assumption) (w9 : al.fret = true := by assumption) (w10 : al.mem = true := by assumption) (w11 : al.poison = true := by assumption) (w12 : al.loads = true := by assumption) (w13 : al.tunes = true := by assumption) (w14 : al.streams = true := by assumption) (w15 : al.incarnation = true := by assumption) (w16 : al.prefixes = true := by assumption) (w17 : al.scheds = true := by assumption) (w18 : al.kv = true := by assumption) (w19 : al.cns = true := by assumption) (w20 : al.tx = true := by assumption) : Same al bd (clearDev s d) := by
  unfold clearDev
  repeat' (first | with_reducible (first | assumption | apply endWork_same | apply dropEnded_same | apply foldl_same | apply foldl_same_snd | apply foldl_same_thd | refine ite_same ?_ ?_ | intro _ | split) | simp only [same_many20, w0, w1, w2, w3, w4, w5, w6, w7, w8, w9, w10, w11, w12, w13, w14, w15, w16, w17, w18, w19] | dsimp only)

theorem spoilDump_same {al : Allow} {bd : Dev} (d : Dev) (hk : Same al bd d) (w0 : al.flash = true := by assumption) (w1 : al.rst = true := by assumption) : Same al bd (spoilDump d) := by
  unfold spoilDump
  repeat' (first | with_reducible (first | assumption | refine ite_same ?_ ?_ | intro _ | split) | simp only [same_flash_rst, w0, w1] | dsimp only)

theorem assertReset_same {al : Allow} {bd : Dev} (count : Bool) (d : Dev) (hk : Same al bd d) (w0 : al.time = true := by assumption) (w1 : al.timeRun = true := by assumption) (w2 : al.osc = true := by assumption) (w3 : al.regs = true := by assumption) (w4 : al.flash = true := by assumption) (w5 : al.strand = true := by assumption) (w6 : al.eth = true := by assumption) (w7 : al.map = true := by assumption) (w8 : al.sync = true := by assumption) (w9 : al.peg = true := by assumption) (w10 : al.rst = true := by assumption) (w11 : al.pwr = true := by assumption) (w12 : al.pins = true := by assumption) (w13 : al.links = true := by assumption) (w14 : al.fret = true := by assumption) (w15 : al.mem = true := by assumption) (w16 : al.poison = true := by assumption) (w17 : al.loads = true := by assumption) (w18 : al.tunes = true := by assumption) (w19 : al.streams = true := by assumption) (w20 : al.incarnation = true := by assumption) (w21 : al.prefixes = true := by assumption) (w22 : al.scheds = true := by assumption) (w23 : al.kv = true := by assumption) (w24 : al.cns = true := by assumption) (w25 : al.tx = true := by assumption) : Same al bd (assertReset count d) := by
  unfold assertReset
  repeat' (first | with_reducible (first | assumption | apply clearDev_same | apply spoilDump_same | refine ite_same ?_ ?_ | intro _ | split) | simp only [same_time_timeRun_osc_rst, w0, w1, w2, w10] | dsimp only)

theorem startReset_same {al : Allow} {bd : Dev} (s : Scope) (cause mask : Nat) (d : Dev) (hk : Same al bd d) (w0 : al.time = true := by assumption) (w1 : al.timeRun = true := by assumption) (w2 : al.osc = true := by assumption) (w3 : al.regs = true := by assumption) (w4 : al.flash = true := by assumption) (w5 : al.strand = true := by assumption) (w6 : al.eth = true := by assumption) (w7 : al.map = true := by assumption) (w8 : al.sync = true := by assumption) (w9 : al.peg = true := by assumption) (w10 : al.rst = true := by assumption) (w11 : al.pwr = true := by assumption) (w12 : al.pins = true := by assumption) (w13 : al.links = true := by assumption) (w14 : al.fret = true := by assumption) (w15 : al.mem = true := by assumption) (w16 : al.poison = true := by assumption) (w17 : al.loads = true := by assumption) (w18 : al.tunes = true := by assumption) (w19 : al.streams = true := by assumption) (w20 : al.incarnation = true := by assumption) (w21 : al.prefixes = true := by assumption) (w22 : al.scheds = true := by assumption) (w23 : al.kv = true := by assumption) (w24 : al.cns = true := by assumption) (w25 : al.tx = true := by assumption) : Same al bd (startReset s cause mask d) := by
  unfold startReset
  repeat' (first | with_reducible (first | assumption | apply bump_same | apply assertReset_same | refine ite_same ?_ ?_ | intro _ | split) | simp only [same_rst, w10] | dsimp only)

theorem mergeReset_same {al : Allow} {bd : Dev} (s : Scope) (cause : Nat) (d : Dev) (hk : Same al bd d) (w0 : al.time = true := by assumption) (w1 : al.timeRun = true := by assumption) (w2 : al.osc = true := by assumption) (w3 : al.regs = true := by assumption) (w4 : al.flash = true := by assumption) (w5 : al.strand = true := by assumption) (w6 : al.eth = true := by assumption) (w7 : al.map = true := by assumption) (w8 : al.sync = true := by assumption) (w9 : al.peg = true := by assumption) (w10 : al.rst = true := by assumption) (w11 : al.pwr = true := by assumption) (w12 : al.pins = true := by assumption) (w13 : al.links = true := by assumption) (w14 : al.fret = true := by assumption) (w15 : al.mem = true := by assumption) (w16 : al.poison = true := by assumption) (w17 : al.loads = true := by assumption) (w18 : al.tunes = true := by assumption) (w19 : al.streams = true := by assumption) (w20 : al.incarnation = true := by assumption) (w21 : al.prefixes = true := by assumption) (w22 : al.scheds = true := by assumption) (w23 : al.kv = true := by assumption) (w24 : al.cns = true := by assumption) (w25 : al.tx = true := by assumption) : Same al bd (mergeReset s cause d) := by
  unfold mergeReset
  repeat' (first | with_reducible (first | assumption | apply assertReset_same | refine ite_same ?_ ?_ | intro _ | split) | simp only [same_rst, w10] | dsimp only)

theorem deviceRequest_same {al : Allow} {bd : Dev} (s : Scope) (cause : Nat) (d : Dev) (hk : Same al bd d) (w0 : al.time = true := by assumption) (w1 : al.timeRun = true := by assumption) (w2 : al.osc = true := by assumption) (w3 : al.regs = true := by assumption) (w4 : al.flash = true := by assumption) (w5 : al.strand = true := by assumption) (w6 : al.eth = true := by assumption) (w7 : al.map = true := by assumption) (w8 : al.sync = true := by assumption) (w9 : al.peg = true := by assumption) (w10 : al.rst = true := by assumption) (w11 : al.pwr = true := by assumption) (w12 : al.pins = true := by assumption) (w13 : al.links = true := by assumption) (w14 : al.fret = true := by assumption) (w15 : al.mem = true := by assumption) (w16 : al.poison = true := by assumption) (w17 : al.loads = true := by assumption) (w18 : al.tunes = true := by assumption) (w19 : al.streams = true := by assumption) (w20 : al.incarnation = true := by assumption) (w21 : al.prefixes = true := by assumption) (w22 : al.scheds = true := by assumption) (w23 : al.kv = true := by assumption) (w24 : al.cns = true := by assumption) (w25 : al.tx = true := by assumption) : Same al bd (deviceRequest s cause d) := by
  unfold deviceRequest
  repeat' (first | with_reducible (first | assumption | apply bump_same | apply startReset_same | apply mergeReset_same | refine ite_same ?_ ?_ | intro _ | split) | dsimp only)

theorem lesserRequest_same {al : Allow} {bd : Dev} (cause : Nat) (d : Dev) (hk : Same al bd d) (w0 : al.regs = true := by assumption) (w1 : al.rst = true := by assumption) : Same al bd (lesserRequest cause d) := by
  unfold lesserRequest
  repeat' (first | with_reducible (first | assumption | apply bump_same | refine ite_same ?_ ?_ | intro _ | split) | simp only [same_rst, w1] | dsimp only)

theorem nvPulseEnd_same {al : Allow} {bd : Dev} (next : Option NvWrite) (d : Dev) (hk : Same al bd d) (w0 : al.time = true := by assumption) (w1 : al.timeRun = true := by assumption) (w2 : al.osc = true := by assumption) (w3 : al.regs = true := by assumption) (w4 : al.flash = true := by assumption) (w5 : al.strand = true := by assumption) (w6 : al.eth = true := by assumption) (w7 : al.map = true := by assumption) (w8 : al.sync = true := by assumption) (w9 : al.peg = true := by assumption) (w10 : al.rst = true := by assumption) (w11 : al.pwr = true := by assumption) (w12 : al.pins = true := by assumption) (w13 : al.links = true := by assumption) (w14 : al.fret = true := by assumption) (w15 : al.mem = true := by assumption) (w16 : al.poison = true := by assumption) (w17 : al.loads = true := by assumption) (w18 : al.tunes = true := by assumption) (w19 : al.streams = true := by assumption) (w20 : al.incarnation = true := by assumption) (w21 : al.prefixes = true := by assumption) (w22 : al.scheds = true := by assumption) (w23 : al.kv = true := by assumption) (w24 : al.cns = true := by assumption) (w25 : al.tx = true := by assumption) : Same al bd (nvPulseEnd next d) := by
  unfold nvPulseEnd
  repeat' (first | with_reducible (first | assumption | apply assertReset_same | refine ite_same ?_ ?_ | intro _ | split) | simp only [same_rst, w10] | dsimp only)

theorem deviceResetRelease_same {al : Allow} {bd : Dev} (b0 c0 b1 c1 pb pc : BitVec 2) (d : Dev) (hk : Same al bd d) (w0 : al.peg = true := by assumption) (w1 : al.rst = true := by assumption) (w2 : al.pins = true := by assumption) : Same al bd (deviceResetRelease b0 c0 b1 c1 pb pc d) := by
  unfold deviceResetRelease
  repeat' (first | with_reducible (first | assumption | refine ite_same ?_ ?_ | intro _ | split) | simp only [same_peg_rst_pins, w0, w1, w2] | dsimp only)

theorem readRetMap_same {al : Allow} {bd : Dev} (d : Dev) (hk : Same al bd d) (w0 : al.fret = true := by assumption) : Same al bd (readRetMap d) := by
  unfold readRetMap
  repeat' (first | with_reducible (first | assumption | apply forEach_same | apply modTile_same | refine ite_same ?_ ?_ | intro _ | split) | dsimp only)

theorem bootFirmware_same {al : Allow} {bd : Dev} (d : Dev) (hk : Same al bd d) (w0 : al.peg = true := by assumption) (w1 : al.pwr = true := by assumption) (w2 : al.pins = true := by assumption) (w3 : al.fret = true := by assumption) : Same al bd (bootFirmware d) := by
  unfold bootFirmware
  repeat' (first | with_reducible (first | assumption | apply forEach_same | apply addAlert_same | apply calStart_same | apply readRetMap_same | refine ite_same ?_ ?_ | intro _ | split) | simp only [same_peg_pins, w0, w2] | dsimp only)

theorem rootPllLock_same {al : Allow} {bd : Dev} (d : Dev) (hk : Same al bd d) (w0 : al.timeRun = true := by assumption) (w1 : al.peg = true := by assumption) (w2 : al.rst = true := by assumption) (w3 : al.pwr = true := by assumption) (w4 : al.pins = true := by assumption) (w5 : al.fret = true := by assumption) : Same al bd (rootPllLock d) := by
  unfold rootPllLock
  repeat' (first | with_reducible (first | assumption | apply bootFirmware_same | refine ite_same ?_ ?_ | intro _ | split) | simp only [same_timeRun_peg_rst_pins, w0, w1, w2, w4] | dsimp only)

theorem updateProgramDone_same {al : Allow} {bd : Dev} (readBackOk : Bool) (d : Dev) (hk : Same al bd d) (w0 : al.regs = true := by assumption) (w1 : al.fuses = true := by assumption) (w2 : al.flash = true := by assumption) (w3 : al.strand = true := by assumption) (w4 : al.peg = true := by assumption) (w5 : al.rst = true := by assumption) (w6 : al.pwr = true := by assumption) (w7 : al.pins = true := by assumption) (w8 : al.fret = true := by assumption) (w9 : al.tx = true := by assumption) : Same al bd (updateProgramDone readBackOk d) := by
  unfold updateProgramDone
  repeat' (first | with_reducible (first | assumption | apply updProgrammed_same | apply bootEventDue_same | apply bootFirmware_same | refine ite_same ?_ ?_ | intro _ | split) | dsimp only)

theorem clearDieRegs_same {al : Allow} {bd : Dev} (n : Nat) (d : Dev) (hk : Same al bd d) (w0 : al.regs = true := by assumption) : Same al bd (clearDieRegs n d) := by
  unfold clearDieRegs
  repeat' (first | with_reducible (first | assumption | refine ite_same ?_ ?_ | intro _ | split) | simp only [same_regs, w0] | dsimp only)

theorem trainLinks_same {al : Allow} {bd : Dev} (l : List Nat) (d : Dev) (hk : Same al bd d) (w0 : al.links = true := by assumption) : Same al bd (trainLinks l d) := by
  unfold trainLinks
  repeat' (first | with_reducible (first | assumption | apply forEach_same | apply putLink_same | refine ite_same ?_ ?_ | intro _ | split) | dsimp only)

theorem rollHome_same {al : Allow} {bd : Dev} (n : Nat) (done : List Nat) (d : Dev) (hk : Same al bd d) (w0 : al.regs = true := by assumption) (w1 : al.strand = true := by assumption) (w2 : al.peg = true := by assumption) (w3 : al.loads = true := by assumption) (w4 : al.streams = true := by assumption) (w5 : al.scheds = true := by assumption) (w6 : al.kv = true := by assumption) (w7 : al.tx = true := by assumption) : Same al bd (rollHome n done d) := by
  unfold rollHome
  repeat' (first | with_reducible (first | assumption | apply forEach_same | apply rollback_same | refine ite_same ?_ ?_ | intro _ | split) | dsimp only)

theorem dropTests_same {al : Allow} {bd : Dev} (n : Nat) (d : Dev) (hk : Same al bd d) (w0 : al.fret = true := by assumption) : Same al bd (dropTests n d) := by
  unfold dropTests
  repeat' (first | with_reducible (first | assumption | apply forEach_same | apply modTile_same | apply modCourse_same | refine ite_same ?_ ?_ | intro _ | split) | simp only [same_fret, w0] | dsimp only)

theorem startStage_same {al : Allow} {bd : Dev} (p stage : Nat) (d : Dev) (hk : Same al bd d) (w0 : al.regs = true := by assumption) (w1 : al.strand = true := by assumption) (w2 : al.peg = true := by assumption) (w3 : al.fret = true := by assumption) (w4 : al.loads = true := by assumption) (w5 : al.streams = true := by assumption) (w6 : al.scheds = true := by assumption) (w7 : al.kv = true := by assumption) (w8 : al.tx = true := by assumption) : Same al bd (startStage p stage d) := by
  unfold startStage
  repeat' (first | with_reducible (first | assumption | apply discardAndSort_same | apply resetStage_same | refine ite_same ?_ ?_ | intro _ | split) | dsimp only)

theorem startPartition_same {al : Allow} {bd : Dev} (p : Nat) (d : Dev) (hk : Same al bd d) (w0 : al.regs = true := by assumption) (w1 : al.strand = true := by assumption) (w2 : al.peg = true := by assumption) (w3 : al.fret = true := by assumption) (w4 : al.loads = true := by assumption) (w5 : al.tunes = true := by assumption) (w6 : al.streams = true := by assumption) (w7 : al.scheds = true := by assumption) (w8 : al.kv = true := by assumption) (w9 : al.tx = true := by assumption) : Same al bd (startPartition p d) := by
  unfold startPartition
  repeat' (first | with_reducible (first | assumption | apply forEach_same | apply discardAndSort_same | apply resetStage_same | apply abortWindow_same | apply tuneAbort_same | refine ite_same ?_ ?_ | intro _ | split) | dsimp only)

theorem startDie_same {al : Allow} {bd : Dev} (n : Nat) (d : Dev) (hk : Same al bd d) (w0 : al.regs = true := by assumption) (w1 : al.strand = true := by assumption) (w2 : al.peg = true := by assumption) (w3 : al.links = true := by assumption) (w4 : al.fret = true := by assumption) (w5 : al.loads = true := by assumption) (w6 : al.streams = true := by assumption) (w7 : al.scheds = true := by assumption) (w8 : al.kv = true := by assumption) (w9 : al.tx = true := by assumption) : Same al bd (startDie n d) := by
  unfold startDie
  repeat' (first | with_reducible (first | assumption | apply forEach_same | apply modKv_same | apply calStart_same | apply discardAndSort_same | apply resetStage_same | apply clearDieRegs_same | apply trainLinks_same | apply rollHome_same | apply dropTests_same | refine ite_same ?_ ?_ | intro _ | split) | dsimp only)

theorem startSub_same {al : Allow} {bd : Dev} (x : SubReset) (d : Dev) (hk : Same al bd d) (w0 : al.regs = true := by assumption) (w1 : al.strand = true := by assumption) (w2 : al.peg = true := by assumption) (w3 : al.rst = true := by assumption) (w4 : al.links = true := by assumption) (w5 : al.fret = true := by assumption) (w6 : al.loads = true := by assumption) (w7 : al.tunes = true := by assumption) (w8 : al.streams = true := by assumption) (w9 : al.scheds = true := by assumption) (w10 : al.kv = true := by assumption) (w11 : al.tx = true := by assumption) : Same al bd (startSub x d) := by
  unfold startSub
  repeat' (first | with_reducible (first | assumption | apply addSub_same | apply startStage_same | apply startPartition_same | apply startDie_same | refine ite_same ?_ ?_ | intro _ | split) | dsimp only)

theorem admitSub_same {al : Allow} {bd : Dev} (q : SubReset) (d : Dev) (hk : Same al bd d) (w0 : al.regs = true := by assumption) (w1 : al.strand = true := by assumption) (w2 : al.peg = true := by assumption) (w3 : al.rst = true := by assumption) (w4 : al.links = true := by assumption) (w5 : al.fret = true := by assumption) (w6 : al.loads = true := by assumption) (w7 : al.tunes = true := by assumption) (w8 : al.streams = true := by assumption) (w9 : al.scheds = true := by assumption) (w10 : al.kv = true := by assumption) (w11 : al.tx = true := by assumption) : Same al bd (admitSub q d) := by
  unfold admitSub
  repeat' (first | with_reducible (first | assumption | apply bump_same | apply startSub_same | refine ite_same ?_ ?_ | intro _ | split) | simp only [same_rst, w3] | dsimp only)

theorem startWaiting_same {al : Allow} {bd : Dev} (d : Dev) (hk : Same al bd d) (w0 : al.regs = true := by assumption) (w1 : al.strand = true := by assumption) (w2 : al.peg = true := by assumption) (w3 : al.rst = true := by assumption) (w4 : al.links = true := by assumption) (w5 : al.fret = true := by assumption) (w6 : al.loads = true := by assumption) (w7 : al.tunes = true := by assumption) (w8 : al.streams = true := by assumption) (w9 : al.scheds = true := by assumption) (w10 : al.kv = true := by assumption) (w11 : al.tx = true := by assumption) : Same al bd (startWaiting d) := by
  unfold startWaiting
  repeat' (first | with_reducible (first | assumption | apply forEach_same | apply admitSub_same | refine ite_same ?_ ?_ | intro _ | split) | simp only [same_rst, w3] | dsimp only)

theorem endSub_same {al : Allow} {bd : Dev} (x : SubReset) (d : Dev) (hk : Same al bd d) (w0 : al.regs = true := by assumption) (w1 : al.strand = true := by assumption) (w2 : al.peg = true := by assumption) (w3 : al.rst = true := by assumption) (w4 : al.links = true := by assumption) (w5 : al.fret = true := by assumption) (w6 : al.loads = true := by assumption) (w7 : al.tunes = true := by assumption) (w8 : al.streams = true := by assumption) (w9 : al.scheds = true := by assumption) (w10 : al.kv = true := by assumption) (w11 : al.tx = true := by assumption) : Same al bd (endSub x d) := by
  unfold endSub
  repeat' (first | with_reducible (first | assumption | apply bump_same | apply forEach_same | apply rstEvent_same | apply startWaiting_same | refine ite_same ?_ ?_ | intro _ | split) | simp only [same_rst, w3] | dsimp only)

theorem rebuildCourse_same {al : Allow} {bd : Dev} (f c : Nat) (d : Dev) (hk : Same al bd d) (w0 : al.regs = true := by assumption) (w1 : al.strand = true := by assumption) (w2 : al.peg = true := by assumption) (w3 : al.fret = true := by assumption) (w4 : al.tx = true := by assumption) : Same al bd (rebuildCourse f c d) := by
  unfold rebuildCourse
  repeat' (first | with_reducible (first | assumption | apply forEach_same | apply modTile_same | apply modCourse_same | apply modSlot_same | apply startObservation_same | apply writeCourseRegs_same | apply putUse_same | apply placeTile_same | refine ite_same ?_ ?_ | intro _ | split) | dsimp only)

theorem rebuildDie_same {al : Allow} {bd : Dev} (f : Nat) (d : Dev) (hk : Same al bd d) (w0 : al.regs = true := by assumption) (w1 : al.strand = true := by assumption) (w2 : al.peg = true := by assumption) (w3 : al.fret = true := by assumption) (w4 : al.tx = true := by assumption) : Same al bd (rebuildDie f d) := by
  unfold rebuildDie
  repeat' (first | with_reducible (first | assumption | apply forEach_same | apply rebuildCourse_same | refine ite_same ?_ ?_ | intro _ | split) | dsimp only)

theorem escalateSub_same {al : Allow} {bd : Dev} (x : SubReset) (d : Dev) (hk : Same al bd d) (w0 : al.time = true := by assumption) (w1 : al.timeRun = true := by assumption) (w2 : al.osc = true := by assumption) (w3 : al.regs = true := by assumption) (w4 : al.flash = true := by assumption) (w5 : al.strand = true := by assumption) (w6 : al.eth = true := by assumption) (w7 : al.map = true := by assumption) (w8 : al.sync = true := by assumption) (w9 : al.peg = true := by assumption) (w10 : al.rst = true := by assumption) (w11 : al.pwr = true := by assumption) (w12 : al.pins = true := by assumption) (w13 : al.links = true := by assumption) (w14 : al.fret = true := by assumption) (w15 : al.mem = true := by assumption) (w16 : al.poison = true := by assumption) (w17 : al.loads = true := by assumption) (w18 : al.tunes = true := by assumption) (w19 : al.streams = true := by assumption) (w20 : al.incarnation = true := by assumption) (w21 : al.prefixes = true := by assumption) (w22 : al.scheds = true := by assumption) (w23 : al.kv = true := by assumption) (w24 : al.cns = true := by assumption) (w25 : al.tx = true := by assumption) : Same al bd (escalateSub x d) := by
  unfold escalateSub
  repeat' (first | with_reducible (first | assumption | apply bump_same | apply deviceRequest_same | apply admitSub_same | refine ite_same ?_ ?_ | intro _ | split) | simp only [same_rst, w10] | dsimp only)

theorem escalateDev_same {al : Allow} {bd : Dev} (d : Dev) (hk : Same al bd d) (w0 : al.time = true := by assumption) (w1 : al.timeRun = true := by assumption) (w2 : al.osc = true := by assumption) (w3 : al.regs = true := by assumption) (w4 : al.flash = true := by assumption) (w5 : al.strand = true := by assumption) (w6 : al.eth = true := by assumption) (w7 : al.map = true := by assumption) (w8 : al.sync = true := by assumption) (w9 : al.peg = true := by assumption) (w10 : al.rst = true := by assumption) (w11 : al.pwr = true := by assumption) (w12 : al.pins = true := by assumption) (w13 : al.links = true := by assumption) (w14 : al.fret = true := by assumption) (w15 : al.mem = true := by assumption) (w16 : al.poison = true := by assumption) (w17 : al.loads = true := by assumption) (w18 : al.tunes = true := by assumption) (w19 : al.streams = true := by assumption) (w20 : al.incarnation = true := by assumption) (w21 : al.prefixes = true := by assumption) (w22 : al.scheds = true := by assumption) (w23 : al.kv = true := by assumption) (w24 : al.cns = true := by assumption) (w25 : al.tx = true := by assumption) : Same al bd (escalateDev d) := by
  unfold escalateDev
  repeat' (first | with_reducible (first | assumption | apply bump_same | apply addAlert_same | apply startReset_same | refine ite_same ?_ ?_ | intro _ | split) | dsimp only)

theorem escalate_same {al : Allow} {bd : Dev} (k : Option Nat) (d : Dev) (hk : Same al bd d) (w0 : al.time = true := by assumption) (w1 : al.timeRun = true := by assumption) (w2 : al.osc = true := by assumption) (w3 : al.regs = true := by assumption) (w4 : al.flash = true := by assumption) (w5 : al.strand = true := by assumption) (w6 : al.eth = true := by assumption) (w7 : al.map = true := by assumption) (w8 : al.sync = true := by assumption) (w9 : al.peg = true := by assumption) (w10 : al.rst = true := by assumption) (w11 : al.pwr = true := by assumption) (w12 : al.pins = true := by assumption) (w13 : al.links = true := by assumption) (w14 : al.fret = true := by assumption) (w15 : al.mem = true := by assumption) (w16 : al.poison = true := by assumption) (w17 : al.loads = true := by assumption) (w18 : al.tunes = true := by assumption) (w19 : al.streams = true := by assumption) (w20 : al.incarnation = true := by assumption) (w21 : al.prefixes = true := by assumption) (w22 : al.scheds = true := by assumption) (w23 : al.kv = true := by assumption) (w24 : al.cns = true := by assumption) (w25 : al.tx = true := by assumption) : Same al bd (escalate k d) := by
  unfold escalate
  repeat' (first | with_reducible (first | assumption | apply escalateSub_same | apply escalateDev_same | refine ite_same ?_ ?_ | intro _ | split) | dsimp only)

theorem powerOff_same {al : Allow} {bd : Dev} (d : Dev) (hk : Same al bd d) (w0 : al.time = true := by assumption) (w1 : al.timeRun = true := by assumption) (w2 : al.osc = true := by assumption) (w3 : al.regs = true := by assumption) (w4 : al.flash = true := by assumption) (w5 : al.strand = true := by assumption) (w6 : al.eth = true := by assumption) (w7 : al.map = true := by assumption) (w8 : al.sync = true := by assumption) (w9 : al.peg = true := by assumption) (w10 : al.rst = true := by assumption) (w11 : al.pwr = true := by assumption) (w12 : al.pins = true := by assumption) (w13 : al.links = true := by assumption) (w14 : al.fret = true := by assumption) (w15 : al.mem = true := by assumption) (w16 : al.poison = true := by assumption) (w17 : al.loads = true := by assumption) (w18 : al.tunes = true := by assumption) (w19 : al.streams = true := by assumption) (w20 : al.incarnation = true := by assumption) (w21 : al.prefixes = true := by assumption) (w22 : al.scheds = true := by assumption) (w23 : al.kv = true := by assumption) (w24 : al.cns = true := by assumption) (w25 : al.tx = true := by assumption) : Same al bd (powerOff d) := by
  unfold powerOff
  repeat' (first | with_reducible (first | assumption | apply assertReset_same | refine ite_same ?_ ?_ | intro _ | split) | simp only [same_rst_pins, w10, w12] | dsimp only)

theorem powerOn_same {al : Allow} {bd : Dev} (d : Dev) (hk : Same al bd d) (w0 : al.time = true := by assumption) (w1 : al.timeRun = true := by assumption) (w2 : al.osc = true := by assumption) (w3 : al.regs = true := by assumption) (w4 : al.flash = true := by assumption) (w5 : al.strand = true := by assumption) (w6 : al.eth = true := by assumption) (w7 : al.map = true := by assumption) (w8 : al.sync = true := by assumption) (w9 : al.peg = true := by assumption) (w10 : al.rst = true := by assumption) (w11 : al.pwr = true := by assumption) (w12 : al.pins = true := by assumption) (w13 : al.links = true := by assumption) (w14 : al.fret = true := by assumption) (w15 : al.mem = true := by assumption) (w16 : al.poison = true := by assumption) (w17 : al.loads = true := by assumption) (w18 : al.tunes = true := by assumption) (w19 : al.streams = true := by assumption) (w20 : al.incarnation = true := by assumption) (w21 : al.prefixes = true := by assumption) (w22 : al.scheds = true := by assumption) (w23 : al.kv = true := by assumption) (w24 : al.cns = true := by assumption) (w25 : al.tx = true := by assumption) : Same al bd (powerOn d) := by
  unfold powerOn
  repeat' (first | with_reducible (first | assumption | apply startReset_same | refine ite_same ?_ ?_ | intro _ | split) | simp only [same_rst_pwr, w10, w11] | dsimp only)

theorem brownOut_same {al : Allow} {bd : Dev} (d : Dev) (hk : Same al bd d) (w0 : al.time = true := by assumption) (w1 : al.timeRun = true := by assumption) (w2 : al.osc = true := by assumption) (w3 : al.regs = true := by assumption) (w4 : al.flash = true := by assumption) (w5 : al.strand = true := by assumption) (w6 : al.eth = true := by assumption) (w7 : al.map = true := by assumption) (w8 : al.sync = true := by assumption) (w9 : al.peg = true := by assumption) (w10 : al.rst = true := by assumption) (w11 : al.pwr = true := by assumption) (w12 : al.pins = true := by assumption) (w13 : al.links = true := by assumption) (w14 : al.fret = true := by assumption) (w15 : al.mem = true := by assumption) (w16 : al.poison = true := by assumption) (w17 : al.loads = true := by assumption) (w18 : al.tunes = true := by assumption) (w19 : al.streams = true := by assumption) (w20 : al.incarnation = true := by assumption) (w21 : al.prefixes = true := by assumption) (w22 : al.scheds = true := by assumption) (w23 : al.kv = true := by assumption) (w24 : al.cns = true := by assumption) (w25 : al.tx = true := by assumption) : Same al bd (brownOut d) := by
  unfold brownOut
  repeat' (first | with_reducible (first | assumption | apply startReset_same | apply mergeReset_same | refine ite_same ?_ ?_ | intro _ | split) | simp only [same_pwr_pins, w11, w12] | dsimp only)

theorem overVoltage_same {al : Allow} {bd : Dev} (d : Dev) (hk : Same al bd d) (w0 : al.time = true := by assumption) (w1 : al.timeRun = true := by assumption) (w2 : al.osc = true := by assumption) (w3 : al.regs = true := by assumption) (w4 : al.flash = true := by assumption) (w5 : al.strand = true := by assumption) (w6 : al.eth = true := by assumption) (w7 : al.map = true := by assumption) (w8 : al.sync = true := by assumption) (w9 : al.peg = true := by assumption) (w10 : al.rst = true := by assumption) (w11 : al.pwr = true := by assumption) (w12 : al.pins = true := by assumption) (w13 : al.links = true := by assumption) (w14 : al.fret = true := by assumption) (w15 : al.mem = true := by assumption) (w16 : al.poison = true := by assumption) (w17 : al.loads = true := by assumption) (w18 : al.tunes = true := by assumption) (w19 : al.streams = true := by assumption) (w20 : al.incarnation = true := by assumption) (w21 : al.prefixes = true := by assumption) (w22 : al.scheds = true := by assumption) (w23 : al.kv = true := by assumption) (w24 : al.cns = true := by assumption) (w25 : al.tx = true := by assumption) : Same al bd (overVoltage d) := by
  unfold overVoltage
  repeat' (first | with_reducible (first | assumption | apply powerOff_same | refine ite_same ?_ ?_ | intro _ | split) | simp only [same_pwr, w11] | dsimp only)

theorem overVoltageEnd_same {al : Allow} {bd : Dev} (d : Dev) (hk : Same al bd d) (w0 : al.time = true := by assumption) (w1 : al.timeRun = true := by assumption) (w2 : al.osc = true := by assumption) (w3 : al.regs = true := by assumption) (w4 : al.flash = true := by assumption) (w5 : al.strand = true := by assumption) (w6 : al.eth = true := by assumption) (w7 : al.map = true := by assumption) (w8 : al.sync = true := by assumption) (w9 : al.peg = true := by assumption) (w10 : al.rst = true := by assumption) (w11 : al.pwr = true := by assumption) (w12 : al.pins = true := by assumption) (w13 : al.links = true := by assumption) (w14 : al.fret = true := by assumption) (w15 : al.mem = true := by assumption) (w16 : al.poison = true := by assumption) (w17 : al.loads = true := by assumption) (w18 : al.tunes = true := by assumption) (w19 : al.streams = true := by assumption) (w20 : al.incarnation = true := by assumption) (w21 : al.prefixes = true := by assumption) (w22 : al.scheds = true := by assumption) (w23 : al.kv = true := by assumption) (w24 : al.cns = true := by assumption) (w25 : al.tx = true := by assumption) : Same al bd (overVoltageEnd d) := by
  unfold overVoltageEnd
  repeat' (first | with_reducible (first | assumption | apply powerOn_same | refine ite_same ?_ ?_ | intro _ | split) | simp only [same_pwr, w11] | dsimp only)

theorem pinReset_same {al : Allow} {bd : Dev} (d : Dev) (hk : Same al bd d) (w0 : al.time = true := by assumption) (w1 : al.timeRun = true := by assumption) (w2 : al.osc = true := by assumption) (w3 : al.regs = true := by assumption) (w4 : al.flash = true := by assumption) (w5 : al.strand = true := by assumption) (w6 : al.eth = true := by assumption) (w7 : al.map = true := by assumption) (w8 : al.sync = true := by assumption) (w9 : al.peg = true := by assumption) (w10 : al.rst = true := by assumption) (w11 : al.pwr = true := by assumption) (w12 : al.pins = true := by assumption) (w13 : al.links = true := by assumption) (w14 : al.fret = true := by assumption) (w15 : al.mem = true := by assumption) (w16 : al.poison = true := by assumption) (w17 : al.loads = true := by assumption) (w18 : al.tunes = true := by assumption) (w19 : al.streams = true := by assumption) (w20 : al.incarnation = true := by assumption) (w21 : al.prefixes = true := by assumption) (w22 : al.scheds = true := by assumption) (w23 : al.kv = true := by assumption) (w24 : al.cns = true := by assumption) (w25 : al.tx = true := by assumption) : Same al bd (pinReset d) := by
  unfold pinReset
  repeat' (first | with_reducible (first | assumption | apply deviceRequest_same | refine ite_same ?_ ?_ | intro _ | split) | simp only [same_rst_pins, w10, w12] | dsimp only)

theorem pinResetRelease_same {al : Allow} {bd : Dev} (d : Dev) (hk : Same al bd d) (w0 : al.rst = true := by assumption) (w1 : al.pins = true := by assumption) : Same al bd (pinResetRelease d) := by
  unfold pinResetRelease
  repeat' (first | with_reducible (first | assumption | refine ite_same ?_ ?_ | intro _ | split) | simp only [same_rst_pins, w0, w1] | dsimp only)

theorem watchdogExpiry_same {al : Allow} {bd : Dev} (d : Dev) (hk : Same al bd d) (w0 : al.time = true := by assumption) (w1 : al.timeRun = true := by assumption) (w2 : al.osc = true := by assumption) (w3 : al.regs = true := by assumption) (w4 : al.flash = true := by assumption) (w5 : al.strand = true := by assumption) (w6 : al.eth = true := by assumption) (w7 : al.map = true := by assumption) (w8 : al.sync = true := by assumption) (w9 : al.peg = true := by assumption) (w10 : al.rst = true := by assumption) (w11 : al.pwr = true := by assumption) (w12 : al.pins = true := by assumption) (w13 : al.links = true := by assumption) (w14 : al.fret = true := by assumption) (w15 : al.mem = true := by assumption) (w16 : al.poison = true := by assumption) (w17 : al.loads = true := by assumption) (w18 : al.tunes = true := by assumption) (w19 : al.streams = true := by assumption) (w20 : al.incarnation = true := by assumption) (w21 : al.prefixes = true := by assumption) (w22 : al.scheds = true := by assumption) (w23 : al.kv = true := by assumption) (w24 : al.cns = true := by assumption) (w25 : al.tx = true := by assumption) : Same al bd (watchdogExpiry d) := by
  unfold watchdogExpiry
  repeat' (first | with_reducible (first | assumption | apply deviceRequest_same | refine ite_same ?_ ?_ | intro _ | split) | dsimp only)

theorem lockup_same {al : Allow} {bd : Dev} (d : Dev) (hk : Same al bd d) (w0 : al.time = true := by assumption) (w1 : al.timeRun = true := by assumption) (w2 : al.osc = true := by assumption) (w3 : al.regs = true := by assumption) (w4 : al.flash = true := by assumption) (w5 : al.strand = true := by assumption) (w6 : al.eth = true := by assumption) (w7 : al.map = true := by assumption) (w8 : al.sync = true := by assumption) (w9 : al.peg = true := by assumption) (w10 : al.rst = true := by assumption) (w11 : al.pwr = true := by assumption) (w12 : al.pins = true := by assumption) (w13 : al.links = true := by assumption) (w14 : al.fret = true := by assumption) (w15 : al.mem = true := by assumption) (w16 : al.poison = true := by assumption) (w17 : al.loads = true := by assumption) (w18 : al.tunes = true := by assumption) (w19 : al.streams = true := by assumption) (w20 : al.incarnation = true := by assumption) (w21 : al.prefixes = true := by assumption) (w22 : al.scheds = true := by assumption) (w23 : al.kv = true := by assumption) (w24 : al.cns = true := by assumption) (w25 : al.tx = true := by assumption) : Same al bd (lockup d) := by
  unfold lockup
  repeat' (first | with_reducible (first | assumption | apply deviceRequest_same | refine ite_same ?_ ?_ | intro _ | split) | dsimp only)

theorem clockFail_same {al : Allow} {bd : Dev} (d : Dev) (hk : Same al bd d) (w0 : al.time = true := by assumption) (w1 : al.timeRun = true := by assumption) (w2 : al.osc = true := by assumption) (w3 : al.regs = true := by assumption) (w4 : al.flash = true := by assumption) (w5 : al.strand = true := by assumption) (w6 : al.eth = true := by assumption) (w7 : al.map = true := by assumption) (w8 : al.sync = true := by assumption) (w9 : al.peg = true := by assumption) (w10 : al.rst = true := by assumption) (w11 : al.pwr = true := by assumption) (w12 : al.pins = true := by assumption) (w13 : al.links = true := by assumption) (w14 : al.fret = true := by assumption) (w15 : al.mem = true := by assumption) (w16 : al.poison = true := by assumption) (w17 : al.loads = true := by assumption) (w18 : al.tunes = true := by assumption) (w19 : al.streams = true := by assumption) (w20 : al.incarnation = true := by assumption) (w21 : al.prefixes = true := by assumption) (w22 : al.scheds = true := by assumption) (w23 : al.kv = true := by assumption) (w24 : al.cns = true := by assumption) (w25 : al.tx = true := by assumption) : Same al bd (clockFail d) := by
  unfold clockFail
  repeat' (first | with_reducible (first | assumption | apply addField_same | apply deviceRequest_same | refine ite_same ?_ ?_ | intro _ | split) | dsimp only)

theorem debugReset_same {al : Allow} {bd : Dev} (d : Dev) (hk : Same al bd d) (w0 : al.time = true := by assumption) (w1 : al.timeRun = true := by assumption) (w2 : al.osc = true := by assumption) (w3 : al.regs = true := by assumption) (w4 : al.flash = true := by assumption) (w5 : al.strand = true := by assumption) (w6 : al.eth = true := by assumption) (w7 : al.map = true := by assumption) (w8 : al.sync = true := by assumption) (w9 : al.peg = true := by assumption) (w10 : al.rst = true := by assumption) (w11 : al.pwr = true := by assumption) (w12 : al.pins = true := by assumption) (w13 : al.links = true := by assumption) (w14 : al.fret = true := by assumption) (w15 : al.mem = true := by assumption) (w16 : al.poison = true := by assumption) (w17 : al.loads = true := by assumption) (w18 : al.tunes = true := by assumption) (w19 : al.streams = true := by assumption) (w20 : al.incarnation = true := by assumption) (w21 : al.prefixes = true := by assumption) (w22 : al.scheds = true := by assumption) (w23 : al.kv = true := by assumption) (w24 : al.cns = true := by assumption) (w25 : al.tx = true := by assumption) : Same al bd (debugReset d) := by
  unfold debugReset
  repeat' (first | with_reducible (first | assumption | apply deviceRequest_same | refine ite_same ?_ ?_ | intro _ | split) | dsimp only)

theorem logProgram_same {al : Allow} {bd : Dev} (d : Dev) (hk : Same al bd d) (w0 : al.flash = true := by assumption) (w1 : al.peg = true := by assumption) : Same al bd (logProgram d) := by
  unfold logProgram
  repeat' (first | with_reducible (first | assumption | refine ite_same ?_ ?_ | intro _ | split) | simp only [same_flash_peg, w0, w1] | dsimp only)

theorem tripEvent_same {al : Allow} {bd : Dev} (die k : Nat) (v : Half) (d : Dev) (hk : Same al bd d) (w0 : al.regs = true := by assumption) (w1 : al.strand = true := by assumption) (w2 : al.peg = true := by assumption) (w3 : al.tx = true := by assumption) : Same al bd (tripEvent die k v d) := by
  unfold tripEvent
  repeat' (first | with_reducible (first | assumption | apply raiseEvent_same | refine ite_same ?_ ?_ | intro _ | split) | dsimp only)

theorem thermalTrip_same {al : Allow} {bd : Dev} (die k : Nat) (v : Half) (d : Dev) (hk : Same al bd d) (w0 : al.time = true := by assumption) (w1 : al.timeRun = true := by assumption) (w2 : al.osc = true := by assumption) (w3 : al.regs = true := by assumption) (w4 : al.flash = true := by assumption) (w5 : al.strand = true := by assumption) (w6 : al.eth = true := by assumption) (w7 : al.map = true := by assumption) (w8 : al.sync = true := by assumption) (w9 : al.peg = true := by assumption) (w10 : al.rst = true := by assumption) (w11 : al.pwr = true := by assumption) (w12 : al.pins = true := by assumption) (w13 : al.links = true := by assumption) (w14 : al.fret = true := by assumption) (w15 : al.mem = true := by assumption) (w16 : al.poison = true := by assumption) (w17 : al.loads = true := by assumption) (w18 : al.tunes = true := by assumption) (w19 : al.streams = true := by assumption) (w20 : al.incarnation = true := by assumption) (w21 : al.prefixes = true := by assumption) (w22 : al.scheds = true := by assumption) (w23 : al.kv = true := by assumption) (w24 : al.cns = true := by assumption) (w25 : al.tx = true := by assumption) : Same al bd (thermalTrip die k v d) := by
  unfold thermalTrip
  repeat' (first | with_reducible (first | assumption | apply forEach_same | apply addAlert_same | apply powerOff_same | apply logProgram_same | apply tripEvent_same | refine ite_same ?_ ?_ | intro _ | split) | simp only [same_pwr, w11] | dsimp only)

theorem pwrStateEvent_same {al : Allow} {bd : Dev} (from_ : DWord) (d : Dev) (hk : Same al bd d) (w0 : al.regs = true := by assumption) (w1 : al.strand = true := by assumption) (w2 : al.peg = true := by assumption) (w3 : al.tx = true := by assumption) : Same al bd (pwrStateEvent from_ d) := by
  unfold pwrStateEvent
  repeat' (first | with_reducible (first | assumption | apply pwrEvent_same | refine ite_same ?_ ?_ | intro _ | split) | dsimp only)

theorem startWake_same {al : Allow} {bd : Dev} (why : Nat) (d : Dev) (hk : Same al bd d) (w0 : al.pwr = true := by assumption) (w1 : al.fret = true := by assumption) : Same al bd (startWake why d) := by
  unfold startWake
  repeat' (first | with_reducible (first | assumption | apply forEach_same | apply calStart_same | apply foldl_same | apply foldl_same_snd | apply foldl_same_thd | refine ite_same ?_ ?_ | intro _ | split) | simp only [same_pwr_fret, w0, w1] | dsimp only)

theorem powerReq_same {al : Allow} {bd : Dev} (st : Nat) (d : Dev) (hk : Same al bd d) (w0 : al.regs = true := by assumption) (w1 : al.strand = true := by assumption) (w2 : al.peg = true := by assumption) (w3 : al.pwr = true := by assumption) (w4 : al.fret = true := by assumption) (w5 : al.tx = true := by assumption) : Same al bd (powerReq st d) := by
  unfold powerReq
  repeat' (first | with_reducible (first | assumption | apply pwrStateEvent_same | apply startWake_same | refine ite_same ?_ ?_ | intro _ | split) | simp only [same_pwr, w3] | dsimp only)

theorem flushBridge_same {al : Allow} {bd : Dev} (b : Nat) (d : Dev) (hk : Same al bd d) (w0 : al.regs = true := by assumption) (w1 : al.strand = true := by assumption) (w2 : al.peg = true := by assumption) (w3 : al.mem = true := by assumption) (w4 : al.poison = true := by assumption) (w5 : al.loads = true := by assumption) (w6 : al.streams = true := by assumption) (w7 : al.scheds = true := by assumption) (w8 : al.kv = true := by assumption) (w9 : al.tx = true := by assumption) : Same al bd (flushBridge b d) := by
  unfold flushBridge
  repeat' (first | with_reducible (first | assumption | apply bump_same | apply forEach_same | apply modKv_same | apply flushBuf_same | apply editPublish_same | refine ite_same ?_ ?_ | intro _ | split) | dsimp only)

theorem powerDrainDone_same {al : Allow} {bd : Dev} (held : Nat) (d : Dev) (hk : Same al bd d) (w0 : al.regs = true := by assumption) (w1 : al.strand = true := by assumption) (w2 : al.eth = true := by assumption) (w3 : al.peg = true := by assumption) (w4 : al.pwr = true := by assumption) (w5 : al.pins = true := by assumption) (w6 : al.fret = true := by assumption) (w7 : al.mem = true := by assumption) (w8 : al.poison = true := by assumption) (w9 : al.loads = true := by assumption) (w10 : al.streams = true := by assumption) (w11 : al.scheds = true := by assumption) (w12 : al.kv = true := by assumption) (w13 : al.tx = true := by assumption) : Same al bd (powerDrainDone held d) := by
  unfold powerDrainDone
  repeat' (first | with_reducible (first | assumption | apply addCtr_same | apply forEach_same | apply linkGone_same | apply ppsOut_same | apply pwrStateEvent_same | apply startWake_same | apply flushBridge_same | refine ite_same ?_ ?_ | intro _ | split) | simp only [same_pwr_pins, w4, w5] | dsimp only)

theorem drainTimeout_same {al : Allow} {bd : Dev} (d : Dev) (hk : Same al bd d) (w0 : al.regs = true := by assumption) (w1 : al.strand = true := by assumption) (w2 : al.peg = true := by assumption) (w3 : al.rst = true := by assumption) (w4 : al.pwr = true := by assumption) (w5 : al.links = true := by assumption) (w6 : al.fret = true := by assumption) (w7 : al.loads = true := by assumption) (w8 : al.tunes = true := by assumption) (w9 : al.streams = true := by assumption) (w10 : al.scheds = true := by assumption) (w11 : al.kv = true := by assumption) (w12 : al.tx = true := by assumption) : Same al bd (drainTimeout d) := by
  unfold drainTimeout
  repeat' (first | with_reducible (first | assumption | apply startWaiting_same | refine ite_same ?_ ?_ | intro _ | split) | simp only [same_pwr, w4] | dsimp only)

theorem autoIdleEnter_same {al : Allow} {bd : Dev} (d : Dev) (hk : Same al bd d) (w0 : al.pwr = true := by assumption) : Same al bd (autoIdleEnter d) := by
  unfold autoIdleEnter
  repeat' (first | with_reducible (first | assumption | refine ite_same ?_ ?_ | intro _ | split) | simp only [same_pwr, w0] | dsimp only)

theorem idleExit_same {al : Allow} {bd : Dev} (d : Dev) (hk : Same al bd d) (w0 : al.regs = true := by assumption) (w1 : al.strand = true := by assumption) (w2 : al.peg = true := by assumption) (w3 : al.pwr = true := by assumption) (w4 : al.tx = true := by assumption) : Same al bd (idleExit d) := by
  unfold idleExit
  repeat' (first | with_reducible (first | assumption | apply pwrStateEvent_same | refine ite_same ?_ ?_ | intro _ | split) | simp only [same_pwr, w3] | dsimp only)

theorem applyDue_same {al : Allow} {bd : Dev} (x : Nat × Due) (d : Dev) (hk : Same al bd d) (w0 : al.regs = true := by assumption) (w1 : al.strand = true := by assumption) (w2 : al.peg = true := by assumption) (w3 : al.loads = true := by assumption) (w4 : al.streams = true := by assumption) (w5 : al.prefixes = true := by assumption) (w6 : al.scheds = true := by assumption) (w7 : al.kv = true := by assumption) (w8 : al.tx = true := by assumption) : Same al bd (applyDue x d) := by
  unfold applyDue
  repeat' (first | with_reducible (first | assumption | apply epochRetireBy_same | apply parkExpiry_same | apply deadlineReached_same | refine ite_same ?_ ?_ | intro _ | split) | dsimp only)

theorem wakeEnd_same {al : Allow} {bd : Dev} (held : Nat) (d : Dev) (hk : Same al bd d) (w0 : al.regs = true := by assumption) (w1 : al.strand = true := by assumption) (w2 : al.peg = true := by assumption) (w3 : al.rst = true := by assumption) (w4 : al.pwr = true := by assumption) (w5 : al.pins = true := by assumption) (w6 : al.links = true := by assumption) (w7 : al.fret = true := by assumption) (w8 : al.loads = true := by assumption) (w9 : al.tunes = true := by assumption) (w10 : al.streams = true := by assumption) (w11 : al.prefixes = true := by assumption) (w12 : al.scheds = true := by assumption) (w13 : al.kv = true := by assumption) (w14 : al.tx = true := by assumption) : Same al bd (wakeEnd held d) := by
  unfold wakeEnd
  repeat' (first | with_reducible (first | assumption | apply addCtr_same | apply forEach_same | apply startWaiting_same | apply pwrStateEvent_same | apply applyDue_same | refine ite_same ?_ ?_ | intro _ | split) | simp only [same_pwr_pins, w4, w5] | dsimp only)

theorem subRequest_same {al : Allow} {bd : Dev} (q : SubReset) (d : Dev) (hk : Same al bd d) (w0 : al.regs = true := by assumption) (w1 : al.strand = true := by assumption) (w2 : al.peg = true := by assumption) (w3 : al.rst = true := by assumption) (w4 : al.pwr = true := by assumption) (w5 : al.links = true := by assumption) (w6 : al.fret = true := by assumption) (w7 : al.loads = true := by assumption) (w8 : al.tunes = true := by assumption) (w9 : al.streams = true := by assumption) (w10 : al.scheds = true := by assumption) (w11 : al.kv = true := by assumption) (w12 : al.tx = true := by assumption) : Same al bd (subRequest q d) := by
  unfold subRequest
  repeat' (first | with_reducible (first | assumption | apply lesserRequest_same | apply admitSub_same | apply startWake_same | refine ite_same ?_ ?_ | intro _ | split) | simp only [same_rst, w3] | dsimp only)

theorem linkRetrainDone_same {al : Allow} {bd : Dev} (l : Nat) (ok : Bool) (d : Dev) (hk : Same al bd d) (w0 : al.regs = true := by assumption) (w1 : al.strand = true := by assumption) (w2 : al.peg = true := by assumption) (w3 : al.rst = true := by assumption) (w4 : al.pwr = true := by assumption) (w5 : al.links = true := by assumption) (w6 : al.fret = true := by assumption) (w7 : al.loads = true := by assumption) (w8 : al.tunes = true := by assumption) (w9 : al.streams = true := by assumption) (w10 : al.scheds = true := by assumption) (w11 : al.kv = true := by assumption) (w12 : al.tx = true := by assumption) : Same al bd (linkRetrainDone l ok d) := by
  unfold linkRetrainDone
  repeat' (first | with_reducible (first | assumption | apply forEach_same | apply retrained_same | apply subRequest_same | refine ite_same ?_ ?_ | intro _ | split) | dsimp only)

theorem vigilSample_same {al : Allow} {bd : Dev} (lanes : Nat) (temps : List Half) (vin : Half) (d : Dev) (hk : Same al bd d) (w0 : al.regs = true := by assumption) (w1 : al.pwr = true := by assumption) (w2 : al.fret = true := by assumption) : Same al bd (vigilSample lanes temps vin d) := by
  unfold vigilSample
  repeat' (first | with_reducible (first | assumption | apply bump_same | apply startWake_same | refine ite_same ?_ ?_ | intro _ | split) | simp only [same_pwr, w1] | dsimp only)

theorem calDie_same {al : Allow} {bd : Dev} (l : List DieCal) (f : Nat) (d : Dev) (hk : Same al bd d) (w0 : al.regs = true := by assumption) (w1 : al.flash = true := by assumption) (w2 : al.strand = true := by assumption) (w3 : al.peg = true := by assumption) (w4 : al.fret = true := by assumption) (w5 : al.tx = true := by assumption) : Same al bd (calDie l f d) := by
  unfold calDie
  repeat' (first | with_reducible (first | assumption | apply calCommit_same | refine ite_same ?_ ?_ | intro _ | split) | dsimp only)

theorem calibrationCommit_same {al : Allow} {bd : Dev} (l : List DieCal) (d : Dev) (hk : Same al bd d) (w0 : al.regs = true := by assumption) (w1 : al.flash = true := by assumption) (w2 : al.strand = true := by assumption) (w3 : al.peg = true := by assumption) (w4 : al.rst = true := by assumption) (w5 : al.links = true := by assumption) (w6 : al.fret = true := by assumption) (w7 : al.tx = true := by assumption) : Same al bd (calibrationCommit l d) := by
  unfold calibrationCommit
  repeat' (first | with_reducible (first | assumption | apply forEach_same | apply linkUp_same | apply calDie_same | refine ite_same ?_ ?_ | intro _ | split) | simp only [same_rst, w4] | dsimp only)

theorem mgmtAnswer_same {al : Allow} {bd : Dev} (ttype : Byte) (aid : Nat) (m : Dgram) (s : Option Session) (code : Nat) (extra : List Byte) (d : Dev) (hk : Same al bd d) (w0 : al.strand = true := by assumption) (w1 : al.tx = true := by assumption) : Same al bd (mgmtAnswer ttype aid m s code extra d) := by
  unfold mgmtAnswer
  repeat' (first | with_reducible (first | assumption | apply queueMsg_same | refine ite_same ?_ ?_ | intro _ | split) | dsimp only)

theorem mgmtReply_same {al : Allow} {bd : Dev} (aid : Nat) (m : Dgram) (s : Option Session) (extra : List Byte) (d : Dev) (hk : Same al bd d) (w0 : al.strand = true := by assumption) (w1 : al.tx = true := by assumption) : Same al bd (mgmtReply aid m s extra d) := by
  unfold mgmtReply
  repeat' (first | with_reducible (first | assumption | apply mgmtAnswer_same | refine ite_same ?_ ?_ | intro _ | split) | dsimp only)

theorem mgmtNack_same {al : Allow} {bd : Dev} (aid : Nat) (m : Dgram) (s : Option Session) (code addr : Nat) (d : Dev) (hk : Same al bd d) (w0 : al.strand = true := by assumption) (w1 : al.tx = true := by assumption) : Same al bd (mgmtNack aid m s code addr d) := by
  unfold mgmtNack
  repeat' (first | with_reducible (first | assumption | apply mgmtAnswer_same | refine ite_same ?_ ?_ | intro _ | split) | dsimp only)

theorem refuseAddr_same {al : Allow} {bd : Dev} (aid : Nat) (m : Dgram) (s : Session) (e : Nat × Nat) (d : Dev) (hk : Same al bd d) (w0 : al.regs = true := by assumption) (w1 : al.strand = true := by assumption) (w2 : al.tx = true := by assumption) : Same al bd (refuseAddr aid m s e d) := by
  unfold refuseAddr
  repeat' (first | with_reducible (first | assumption | apply bump_same | apply mgmtNack_same | refine ite_same ?_ ?_ | intro _ | split) | dsimp only)

theorem holdMsg_same {al : Allow} {bd : Dev} (aid : Nat) (m : Dgram) (units : Nat) (d : Dev) (hk : Same al bd d) (w0 : al.strand = true := by assumption) : Same al bd (holdMsg aid m units d) := by
  unfold holdMsg
  repeat' (first | with_reducible (first | assumption | refine ite_same ?_ ?_ | intro _ | split) | simp only [same_strand, w0] | dsimp only)

theorem readReg_same {al : Allow} {bd : Dev} (s : Session) (a : Nat) (d : Dev) (hk : Same al bd d) (w0 : al.regs = true := by assumption) (w1 : al.strand = true := by assumption) : Same al bd (readReg s a d).2 := by
  unfold readReg
  repeat' (first | with_reducible (first | assumption | apply bump_same | apply modSession_same | apply foldl_same | apply foldl_same_snd | apply foldl_same_thd | refine ite_same ?_ ?_ | intro _ | split) | dsimp only)

theorem readRegs_same {al : Allow} {bd : Dev} (s : Session) (l : List Nat) (d : Dev) (hk : Same al bd d) (w0 : al.regs = true := by assumption) (w1 : al.strand = true := by assumption) :
    Same al bd (readRegs s l d).2 := by
  induction l generalizing d with
  | nil => exact hk
  | cons a r ih => exact ih _ (readReg_same s a d hk)

theorem clearCtrs_same {al : Allow} {bd : Dev} (a : Nat) (r : RegDef) (v : Word) (d : Dev) (hk : Same al bd d) (w0 : al.regs = true := by assumption) : Same al bd (clearCtrs a r v d) := by
  unfold clearCtrs
  repeat' (first | with_reducible (first | assumption | apply regSetField_same | apply forEach_same | refine ite_same ?_ ?_ | intro _ | split) | dsimp only)

theorem writeRw_same {al : Allow} {bd : Dev} (a : Nat) (r : RegDef) (v : Word) (d : Dev) (hk : Same al bd d) (w0 : al.regs = true := by assumption) : Same al bd (writeRw a r v d) := by
  unfold writeRw
  repeat' (first | with_reducible (first | assumption | apply regPut_same | refine ite_same ?_ ?_ | intro _ | split) | dsimp only)

theorem writeSel_same {al : Allow} {bd : Dev} (s : Session) (a : Nat) (r : RegDef) (v : Word) (d : Dev) (hk : Same al bd d) (w0 : al.strand = true := by assumption) : Same al bd (writeSel s a r v d) := by
  unfold writeSel
  repeat' (first | with_reducible (first | assumption | apply modSession_same | refine ite_same ?_ ?_ | intro _ | split) | dsimp only)

theorem trackerClear_same {al : Allow} {bd : Dev} (f c t : Nat) (d : Dev) (hk : Same al bd d) (w0 : al.fret = true := by assumption) : Same al bd (trackerClear f c t d) := by
  unfold trackerClear
  repeat' (first | with_reducible (first | assumption | apply modTile_same | refine ite_same ?_ ?_ | intro _ | split) | dsimp only)

theorem writeStrum_same {al : Allow} {bd : Dev} (s : Session) (v : Word) (d : Dev) (hk : Same al bd d) (w0 : al.regs = true := by assumption) (w1 : al.cns = true := by assumption) (w2 : al.tx = true := by assumption) : Same al bd (writeStrum s v d).2 := by
  unfold writeStrum
  repeat' (first | with_reducible (first | assumption | apply regPut_same | apply strumRequest_same | refine ite_same ?_ ?_ | intro _ | split) | dsimp only)

theorem reinstate_same {al : Allow} {bd : Dev} (d : Dev) (hk : Same al bd d) (w0 : al.regs = true := by assumption) (w1 : al.strand = true := by assumption) (w2 : al.peg = true := by assumption) (w3 : al.rst = true := by assumption) (w4 : al.tx = true := by assumption) : Same al bd (reinstate d) := by
  unfold reinstate
  repeat' (first | with_reducible (first | assumption | apply rstEvent_same | refine ite_same ?_ ?_ | intro _ | split) | simp only [same_rst, w3] | dsimp only)

theorem writePwr_same {al : Allow} {bd : Dev} (v : Word) (d : Dev) (hk : Same al bd d) (w0 : al.regs = true := by assumption) (w1 : al.strand = true := by assumption) (w2 : al.peg = true := by assumption) (w3 : al.pwr = true := by assumption) (w4 : al.fret = true := by assumption) (w5 : al.tx = true := by assumption) : Same al bd (writePwr v d) := by
  unfold writePwr
  repeat' (first | with_reducible (first | assumption | apply regSetField_same | apply powerReq_same | refine ite_same ?_ ?_ | intro _ | split) | dsimp only)

theorem writeTune_same {al : Allow} {bd : Dev} (p : Nat) (v : Word) (d : Dev) (hk : Same al bd d) (w0 : al.regs = true := by assumption) (w1 : al.strand = true := by assumption) (w2 : al.peg = true := by assumption) (w3 : al.tunes = true := by assumption) (w4 : al.tx = true := by assumption) : Same al bd (writeTune p v d).2 := by
  unfold writeTune
  repeat' (first | with_reducible (first | assumption | apply tuneLoad_same | apply tuneAbort_same | refine ite_same ?_ ?_ | intro _ | split) | dsimp only)

theorem writeHs_same {al : Allow} {bd : Dev} (s : Session) (o : Nat) (r : RegDef) (v : Word) (d : Dev) (hk : Same al bd d) (w0 : al.regs = true := by assumption) (w1 : al.strand = true := by assumption) (w2 : al.map = true := by assumption) (w3 : al.peg = true := by assumption) (w4 : al.rst = true := by assumption) (w5 : al.pwr = true := by assumption) (w6 : al.pins = true := by assumption) (w7 : al.fret = true := by assumption) (w8 : al.loads = true := by assumption) (w9 : al.streams = true := by assumption) (w10 : al.scheds = true := by assumption) (w11 : al.kv = true := by assumption) (w12 : al.cns = true := by assumption) (w13 : al.tx = true := by assumption) :
    Same al bd (writeHs s o r v d).2 := by
  unfold writeHs
  by_cases h0 : o = HS_STRUMCTL
  · rw [if_pos h0]; exact writeStrum_same s v d hk
  · rw [if_neg h0]
    dsimp only
    repeat' (with_reducible (first | assumption | apply flushAll_same | apply writeRw_same | apply when__same | apply mapDiscard_same | apply mapCommit_same | apply putMapStg_same | apply consortLeave_same | apply consortJoin_same | apply modCns_same | apply reinstate_same | apply regSetField_same | apply writePwr_same | apply regPut_same | apply clearCtrs_same | apply accountThrottle_same | refine ite_same ?_ ?_ | intro _ | split))

theorem writePeg_same {al : Allow} {bd : Dev} (s : Session) (o : Nat) (r : RegDef) (v : Word) (d : Dev) (hk : Same al bd d) (w0 : al.regs = true := by assumption) (w1 : al.strand = true := by assumption) (w2 : al.peg = true := by assumption) (w3 : al.rst = true := by assumption) (w4 : al.tx = true := by assumption) : Same al bd (writePeg s o r v d) := by
  unfold writePeg
  repeat' (first | with_reducible (first | assumption | apply when__same | apply modSession_same | apply keyCtl_same | apply updAbort_same | apply settleUpdate_same | apply clearCtrs_same | refine ite_same ?_ ?_ | intro _ | split) | dsimp only)

theorem writeFt_same {al : Allow} {bd : Dev} (n o : Nat) (r : RegDef) (v : Word) (d : Dev) (hk : Same al bd d) (w0 : al.regs = true := by assumption) (w1 : al.fret = true := by assumption) : Same al bd (writeFt n o r v d) := by
  unfold writeFt
  repeat' (first | with_reducible (first | assumption | apply regPut_same | apply tileCommand_same | apply clearCtrs_same | apply writeRw_same | refine ite_same ?_ ?_ | intro _ | split) | simp only [same_fret, w1] | dsimp only)

theorem writeReg_same {al : Allow} {bd : Dev} (s : Session) (a : Nat) (v : Word) (d : Dev) (hk : Same al bd d) (w0 : al.regs = true := by assumption) (w1 : al.strand = true := by assumption) (w2 : al.map = true := by assumption) (w3 : al.peg = true := by assumption) (w4 : al.rst = true := by assumption) (w5 : al.pwr = true := by assumption) (w6 : al.pins = true := by assumption) (w7 : al.fret = true := by assumption) (w8 : al.loads = true := by assumption) (w9 : al.tunes = true := by assumption) (w10 : al.streams = true := by assumption) (w11 : al.scheds = true := by assumption) (w12 : al.kv = true := by assumption) (w13 : al.cns = true := by assumption) (w14 : al.tx = true := by assumption) : Same al bd (writeReg s a v d).2 := by
  unfold writeReg
  repeat' (first | with_reducible (first | assumption | apply when__same | apply clearCtrs_same | apply writeRw_same | apply writeSel_same | apply trackerClear_same | apply writeTune_same | apply writeHs_same | apply writePeg_same | apply writeFt_same | refine ite_same ?_ ?_ | intro _ | split) | dsimp only)

theorem writeRegs_same {al : Allow} {bd : Dev} (s : Session) (l : List (Nat × Word)) (d : Dev) (hk : Same al bd d) (w0 : al.regs = true := by assumption) (w1 : al.strand = true := by assumption) (w2 : al.map = true := by assumption) (w3 : al.peg = true := by assumption) (w4 : al.rst = true := by assumption) (w5 : al.pwr = true := by assumption) (w6 : al.pins = true := by assumption) (w7 : al.fret = true := by assumption) (w8 : al.loads = true := by assumption) (w9 : al.tunes = true := by assumption) (w10 : al.streams = true := by assumption) (w11 : al.scheds = true := by assumption) (w12 : al.kv = true := by assumption) (w13 : al.cns = true := by assumption) (w14 : al.tx = true := by assumption) :
    Same al bd (writeRegs s l d).2 := by
  induction l generalizing d with
  | nil => exact hk
  | cons x r ih =>
    obtain ⟨a, v⟩ := x
    have h1 := writeReg_same s a v d hk
    unfold writeRegs
    dsimp only
    split
    · exact h1
    · exact ih _ h1

theorem softwareReset_same {al : Allow} {bd : Dev} (v : Word) (d : Dev) (hk : Same al bd d) (w0 : al.time = true := by assumption) (w1 : al.timeRun = true := by assumption) (w2 : al.osc = true := by assumption) (w3 : al.regs = true := by assumption) (w4 : al.flash = true := by assumption) (w5 : al.strand = true := by assumption) (w6 : al.eth = true := by assumption) (w7 : al.map = true := by assumption) (w8 : al.sync = true := by assumption) (w9 : al.peg = true := by assumption) (w10 : al.rst = true := by assumption) (w11 : al.pwr = true := by assumption) (w12 : al.pins = true := by assumption) (w13 : al.links = true := by assumption) (w14 : al.fret = true := by assumption) (w15 : al.mem = true := by assumption) (w16 : al.poison = true := by assumption) (w17 : al.loads = true := by assumption) (w18 : al.tunes = true := by assumption) (w19 : al.streams = true := by assumption) (w20 : al.incarnation = true := by assumption) (w21 : al.prefixes = true := by assumption) (w22 : al.scheds = true := by assumption) (w23 : al.kv = true := by assumption) (w24 : al.cns = true := by assumption) (w25 : al.tx = true := by assumption) : Same al bd (softwareReset v d) := by
  unfold softwareReset
  repeat' (first | with_reducible (first | assumption | apply deviceRequest_same | apply subRequest_same | refine ite_same ?_ ?_ | intro _ | split) | dsimp only)

theorem holdAccess_same {al : Allow} {bd : Dev} (aid : Nat) (m : Dgram) (items : List (Nat × Option Word)) (d : Dev) (hk : Same al bd d) (w0 : al.strand = true := by assumption) (w1 : al.pwr = true := by assumption) (w2 : al.fret = true := by assumption) : Same al bd (holdAccess aid m items d) := by
  unfold holdAccess
  repeat' (first | with_reducible (first | assumption | apply startWake_same | apply holdMsg_same | refine ite_same ?_ ?_ | intro _ | split) | dsimp only)

theorem doMgmtRead_same {al : Allow} {bd : Dev} (aid : Nat) (m : Dgram) (s : Session) (d : Dev) (hk : Same al bd d) (w0 : al.regs = true := by assumption) (w1 : al.strand = true := by assumption) (w2 : al.pwr = true := by assumption) (w3 : al.fret = true := by assumption) (w4 : al.tx = true := by assumption) : Same al bd (doMgmtRead aid m s d) := by
  unfold doMgmtRead
  repeat' (first | with_reducible (first | assumption | apply accountThrottle_same | apply mgmtReply_same | apply mgmtNack_same | apply refuseAddr_same | apply readRegs_same | apply holdAccess_same | refine ite_same ?_ ?_ | intro _ | split) | dsimp only)

theorem doMgmtWrite_same {al : Allow} {bd : Dev} (aid : Nat) (m : Dgram) (s : Session) (d : Dev) (hk : Same al bd d) (w0 : al.time = true := by assumption) (w1 : al.timeRun = true := by assumption) (w2 : al.osc = true := by assumption) (w3 : al.regs = true := by assumption) (w4 : al.flash = true := by assumption) (w5 : al.strand = true := by assumption) (w6 : al.eth = true := by assumption) (w7 : al.map = true := by assumption) (w8 : al.sync = true := by assumption) (w9 : al.peg = true := by assumption) (w10 : al.rst = true := by assumption) (w11 : al.pwr = true := by assumption) (w12 : al.pins = true := by assumption) (w13 : al.links = true := by assumption) (w14 : al.fret = true := by assumption) (w15 : al.mem = true := by assumption) (w16 : al.poison = true := by assumption) (w17 : al.loads = true := by assumption) (w18 : al.tunes = true := by assumption) (w19 : al.streams = true := by assumption) (w20 : al.incarnation = true := by assumption) (w21 : al.prefixes = true := by assumption) (w22 : al.scheds = true := by assumption) (w23 : al.kv = true := by assumption) (w24 : al.cns = true := by assumption) (w25 : al.tx = true := by assumption) : Same al bd (doMgmtWrite aid m s d) := by
  unfold doMgmtWrite
  repeat' (first | with_reducible (first | assumption | apply mgmtReply_same | apply mgmtNack_same | apply refuseAddr_same | apply writeRegs_same | apply softwareReset_same | apply holdAccess_same | refine ite_same ?_ ?_ | intro _ | split) | dsimp only)

theorem doMgmtReset_same {al : Allow} {bd : Dev} (aid : Nat) (m : Dgram) (s : Session) (d : Dev) (hk : Same al bd d) (w0 : al.time = true := by assumption) (w1 : al.timeRun = true := by assumption) (w2 : al.osc = true := by assumption) (w3 : al.regs = true := by assumption) (w4 : al.flash = true := by assumption) (w5 : al.strand = true := by assumption) (w6 : al.eth = true := by assumption) (w7 : al.map = true := by assumption) (w8 : al.sync = true := by assumption) (w9 : al.peg = true := by assumption) (w10 : al.rst = true := by assumption) (w11 : al.pwr = true := by assumption) (w12 : al.pins = true := by assumption) (w13 : al.links = true := by assumption) (w14 : al.fret = true := by assumption) (w15 : al.mem = true := by assumption) (w16 : al.poison = true := by assumption) (w17 : al.loads = true := by assumption) (w18 : al.tunes = true := by assumption) (w19 : al.streams = true := by assumption) (w20 : al.incarnation = true := by assumption) (w21 : al.prefixes = true := by assumption) (w22 : al.scheds = true := by assumption) (w23 : al.kv = true := by assumption) (w24 : al.cns = true := by assumption) (w25 : al.tx = true := by assumption) : Same al bd (doMgmtReset aid m s d) := by
  unfold doMgmtReset
  repeat' (first | with_reducible (first | assumption | apply deviceRequest_same | apply subRequest_same | apply mgmtReply_same | apply mgmtNack_same | refine ite_same ?_ ?_ | intro _ | split) | dsimp only)

theorem buildDump_same {al : Allow} {bd : Dev} (d : Dev) (hk : Same al bd d) (w0 : al.free = true := by assumption) (w1 : al.flash = true := by assumption) (w2 : al.rst = true := by assumption) : Same al bd (buildDump d) := by
  unfold buildDump
  repeat' (first | with_reducible (first | assumption | refine ite_same ?_ ?_ | intro _ | split) | simp only [same_free_flash_rst, w0, w1, w2] | dsimp only)

theorem restoreWarm_same {al : Allow} {bd : Dev} (d : Dev) (hk : Same al bd d) (w0 : al.regs = true := by assumption) (w1 : al.strand = true := by assumption) (w2 : al.peg = true := by assumption) (w3 : al.fret = true := by assumption) (w4 : al.loads = true := by assumption) (w5 : al.streams = true := by assumption) (w6 : al.scheds = true := by assumption) (w7 : al.kv = true := by assumption) (w8 : al.tx = true := by assumption) : Same al bd (restoreWarm d) := by
  unfold restoreWarm
  repeat' (first | with_reducible (first | assumption | apply forEach_same | apply settleRefs_same | apply rollback_same | apply rebuildDie_same | refine ite_same ?_ ?_ | intro _ | split) | dsimp only)

theorem enterWithdrawn_same {al : Allow} {bd : Dev} (d : Dev) (hk : Same al bd d) (w0 : al.regs = true := by assumption) (w1 : al.strand = true := by assumption) (w2 : al.peg = true := by assumption) (w3 : al.rst = true := by assumption) (w4 : al.tx = true := by assumption) : Same al bd (enterWithdrawn d) := by
  unfold enterWithdrawn
  repeat' (first | with_reducible (first | assumption | apply rstEvent_same | refine ite_same ?_ ?_ | intro _ | split) | simp only [same_rst, w3] | dsimp only)

theorem deviceResetDone_same {al : Allow} {bd : Dev} (d : Dev) (hk : Same al bd d) (w0 : al.free = true := by assumption) (w1 : al.regs = true := by assumption) (w2 : al.flash = true := by assumption) (w3 : al.strand = true := by assumption) (w4 : al.peg = true := by assumption) (w5 : al.rst = true := by assumption) (w6 : al.pwr = true := by assumption) (w7 : al.fret = true := by assumption) (w8 : al.loads = true := by assumption) (w9 : al.streams = true := by assumption) (w10 : al.scheds = true := by assumption) (w11 : al.kv = true := by assumption) (w12 : al.tx = true := by assumption) : Same al bd (deviceResetDone d) := by
  unfold deviceResetDone
  repeat' (first | with_reducible (first | assumption | apply rstEvent_same | apply buildDump_same | apply restoreWarm_same | apply enterWithdrawn_same | refine ite_same ?_ ?_ | intro _ | split) | simp only [same_rst_pwr, w5, w6] | dsimp only)

theorem finishDie_same {al : Allow} {bd : Dev} (n : Nat) (d : Dev) (hk : Same al bd d) (w0 : al.regs = true := by assumption) (w1 : al.strand = true := by assumption) (w2 : al.peg = true := by assumption) (w3 : al.links = true := by assumption) (w4 : al.fret = true := by assumption) (w5 : al.tx = true := by assumption) : Same al bd (finishDie n d) := by
  unfold finishDie
  repeat' (first | with_reducible (first | assumption | apply forEach_same | apply linkUp_same | apply rebuildDie_same | refine ite_same ?_ ?_ | intro _ | split) | dsimp only)

theorem doReport_same {al : Allow} {bd : Dev} (aid : Nat) (m : Dgram) (d : Dev) (hk : Same al bd d) (w0 : al.regs = true := by assumption) (w1 : al.strand = true := by assumption) (w2 : al.tx = true := by assumption) : Same al bd (doReport aid m d) := by
  unfold doReport
  repeat' (first | with_reducible (first | assumption | apply bump_same | apply mgmtReply_same | apply mgmtNack_same | refine ite_same ?_ ?_ | intro _ | split) | dsimp only)

theorem doCerts_same {al : Allow} {bd : Dev} (aid : Nat) (m : Dgram) (d : Dev) (hk : Same al bd d) (w0 : al.strand = true := by assumption) (w1 : al.tx = true := by assumption) : Same al bd (doCerts aid m d) := by
  unfold doCerts
  repeat' (first | with_reducible (first | assumption | apply mgmtReply_same | apply mgmtNack_same | refine ite_same ?_ ?_ | intro _ | split) | dsimp only)

theorem doSessionOpen_same {al : Allow} {bd : Dev} (aid : Nat) (m : Dgram) (d : Dev) (hk : Same al bd d) (w0 : al.free = true := by assumption) (w1 : al.strand = true := by assumption) (w2 : al.tx = true := by assumption) : Same al bd (doSessionOpen aid m d) := by
  unfold doSessionOpen
  repeat' (first | with_reducible (first | assumption | apply mgmtReply_same | apply mgmtNack_same | refine ite_same ?_ ?_ | intro _ | split) | simp only [same_free_strand, w0, w1] | dsimp only)

theorem closeAll_same {al : Allow} {bd : Dev} (f : Session → Bool) (d : Dev) (hk : Same al bd d) (w0 : al.regs = true := by assumption) (w1 : al.strand = true := by assumption) (w2 : al.peg = true := by assumption) (w3 : al.tx = true := by assumption) : Same al bd (closeAll f d) := by
  unfold closeAll
  repeat' (first | with_reducible (first | assumption | apply closeSessions_same | apply settleUpdate_same | refine ite_same ?_ ?_ | intro _ | split) | dsimp only)

theorem doSessionClose_same {al : Allow} {bd : Dev} (aid : Nat) (m : Dgram) (s : Session) (d : Dev) (hk : Same al bd d) (w0 : al.regs = true := by assumption) (w1 : al.strand = true := by assumption) (w2 : al.peg = true := by assumption) (w3 : al.tx = true := by assumption) : Same al bd (doSessionClose aid m s d) := by
  unfold doSessionClose
  repeat' (first | with_reducible (first | assumption | apply mgmtReply_same | apply mgmtNack_same | apply closeAll_same | refine ite_same ?_ ?_ | intro _ | split) | dsimp only)

theorem sessionIdleTimeout_same {al : Allow} {bd : Dev} (num : Word) (d : Dev) (hk : Same al bd d) (w0 : al.regs = true := by assumption) (w1 : al.strand = true := by assumption) (w2 : al.peg = true := by assumption) (w3 : al.tx = true := by assumption) : Same al bd (sessionIdleTimeout num d) := by
  unfold sessionIdleTimeout
  repeat' (first | with_reducible (first | assumption | apply closeAll_same | refine ite_same ?_ ?_ | intro _ | split) | dsimp only)

theorem zeroHbm_same {al : Allow} {bd : Dev} (d : Dev) (hk : Same al bd d) (w0 : al.mem = true := by assumption) (w1 : al.poison = true := by assumption) : Same al bd (zeroHbm d) := by
  unfold zeroHbm
  repeat' (first | with_reducible (first | assumption | refine ite_same ?_ ?_ | intro _ | split) | simp only [same_mem_poison, w0, w1] | dsimp only)

theorem claimAccept_same {al : Allow} {bd : Dev} (aid : Nat) (m : Dgram) (k : KeyEntry) (d : Dev) (hk : Same al bd d) (w0 : al.regs = true := by assumption) (w1 : al.flash = true := by assumption) (w2 : al.strand = true := by assumption) (w3 : al.map = true := by assumption) (w4 : al.peg = true := by assumption) (w5 : al.mem = true := by assumption) (w6 : al.poison = true := by assumption) (w7 : al.tunes = true := by assumption) (w8 : al.tx = true := by assumption) : Same al bd (claimAccept aid m k d) := by
  unfold claimAccept
  repeat' (first | with_reducible (first | assumption | apply fwEvent_same | apply mgmtReply_same | apply closeAll_same | apply zeroHbm_same | apply foldl_same | apply foldl_same_snd | apply foldl_same_thd | refine ite_same ?_ ?_ | intro _ | split) | simp only [same_flash_map_peg_tunes, w1, w3, w4, w7] | dsimp only)

theorem doClaim_same {al : Allow} {bd : Dev} (aid : Nat) (m : Dgram) (d : Dev) (hk : Same al bd d) (w0 : al.regs = true := by assumption) (w1 : al.flash = true := by assumption) (w2 : al.strand = true := by assumption) (w3 : al.map = true := by assumption) (w4 : al.peg = true := by assumption) (w5 : al.mem = true := by assumption) (w6 : al.poison = true := by assumption) (w7 : al.tunes = true := by assumption) (w8 : al.tx = true := by assumption) : Same al bd (doClaim aid m d) := by
  unfold doClaim
  repeat' (first | with_reducible (first | assumption | apply mgmtNack_same | apply claimAccept_same | refine ite_same ?_ ?_ | intro _ | split) | simp only [same_peg, w4] | dsimp only)

theorem doChunk_same {al : Allow} {bd : Dev} (aid : Nat) (m : Dgram) (s : Option Session) (d : Dev) (hk : Same al bd d) (w0 : al.regs = true := by assumption) (w1 : al.strand = true := by assumption) (w2 : al.peg = true := by assumption) (w3 : al.tx = true := by assumption) : Same al bd (doChunk aid m s d) := by
  unfold doChunk
  repeat' (first | with_reducible (first | assumption | apply chunkStage_same | apply mgmtReply_same | apply mgmtNack_same | refine ite_same ?_ ?_ | intro _ | split) | dsimp only)

theorem doUpdateChunk_same {al : Allow} {bd : Dev} (aid : Nat) (m : Dgram) (s : Session) (d : Dev) (hk : Same al bd d) (w0 : al.regs = true := by assumption) (w1 : al.strand = true := by assumption) (w2 : al.peg = true := by assumption) (w3 : al.tx = true := by assumption) : Same al bd (doUpdateChunk aid m s d) := by
  unfold doUpdateChunk
  repeat' (first | with_reducible (first | assumption | apply mgmtNack_same | apply doChunk_same | refine ite_same ?_ ?_ | intro _ | split) | dsimp only)

theorem endAssoc_same {al : Allow} {bd : Dev} (aid : Nat) (d : Dev) (hk : Same al bd d) (w0 : al.regs = true := by assumption) (w1 : al.strand = true := by assumption) (w2 : al.sync = true := by assumption) (w3 : al.peg = true := by assumption) (w4 : al.tx = true := by assumption) : Same al bd (endAssoc aid d) := by
  unfold endAssoc
  repeat' (first | with_reducible (first | assumption | apply modAssoc_same | apply dropWaits_same | apply closeAll_same | refine ite_same ?_ ?_ | intro _ | split) | dsimp only)

theorem tryClose_same {al : Allow} {bd : Dev} (aid : Nat) (d : Dev) (hk : Same al bd d) (w0 : al.regs = true := by assumption) (w1 : al.strand = true := by assumption) (w2 : al.sync = true := by assumption) (w3 : al.peg = true := by assumption) (w4 : al.tx = true := by assumption) : Same al bd (tryClose aid d) := by
  unfold tryClose
  repeat' (first | with_reducible (first | assumption | apply sendHeaderOnly_same | apply endAssoc_same | refine ite_same ?_ ?_ | intro _ | split) | dsimp only)

theorem confirmSent_same {al : Allow} {bd : Dev} (x : Sent) (d : Dev) (hk : Same al bd d) (w0 : al.regs = true := by assumption) (w1 : al.streams = true := by assumption) (w2 : al.scheds = true := by assumption) : Same al bd (confirmSent x d) := by
  unfold confirmSent
  repeat' (first | with_reducible (first | assumption | apply modStream_same | apply tryFree_same | apply refreshTok_same | refine ite_same ?_ ?_ | intro _ | split) | dsimp only)

theorem takePeer_same {al : Allow} {bd : Dev} (aid : Nat) (h : Hdr) (d : Dev) (hk : Same al bd d) (w0 : al.regs = true := by assumption) (w1 : al.strand = true := by assumption) (w2 : al.sync = true := by assumption) (w3 : al.peg = true := by assumption) (w4 : al.streams = true := by assumption) (w5 : al.scheds = true := by assumption) (w6 : al.tx = true := by assumption) : Same al bd (takePeer aid h d) := by
  unfold takePeer
  repeat' (first | with_reducible (first | assumption | apply forEach_same | apply putAssoc_same | apply flushAssoc_same | apply tryClose_same | apply confirmSent_same | refine ite_same ?_ ?_ | intro _ | split) | dsimp only)

theorem doOpen_same {al : Allow} {bd : Dev} (m : Dgram) (d : Dev) (hk : Same al bd d) (w0 : al.free = true := by assumption) (w1 : al.regs = true := by assumption) (w2 : al.strand = true := by assumption) (w3 : al.sync = true := by assumption) (w4 : al.peg = true := by assumption) (w5 : al.tx = true := by assumption) : Same al bd (doOpen m d) := by
  unfold doOpen
  repeat' (first | with_reducible (first | assumption | apply sendHeaderOnly_same | apply flushAssoc_same | apply sendReject_same | apply endAssoc_same | refine ite_same ?_ ?_ | intro _ | split) | simp only [same_free_strand, w0, w2] | dsimp only)

theorem returnUnits_same {al : Allow} {bd : Dev} (aid n : Nat) (d : Dev) (hk : Same al bd d) (w0 : al.strand = true := by assumption) : Same al bd (returnUnits aid n d) := by
  unfold returnUnits
  repeat' (first | with_reducible (first | assumption | apply putAssoc_same | refine ite_same ?_ ?_ | intro _ | split) | dsimp only)

theorem answerBad_same {al : Allow} {bd : Dev} (aid : Nat) (m : Dgram) (d : Dev) (hk : Same al bd d) (w0 : al.strand = true := by assumption) (w1 : al.tx = true := by assumption) : Same al bd (answerBad aid m d) := by
  unfold answerBad
  repeat' (first | with_reducible (first | assumption | apply sendReply_same | apply mgmtNack_same | refine ite_same ?_ ?_ | intro _ | split) | dsimp only)

theorem doWork_same {al : Allow} {bd : Dev} (p aid : Nat) (m : Dgram) (d : Dev) (hk : Same al bd d) (w0 : al.free = true := by assumption) (w1 : al.regs = true := by assumption) (w2 : al.strand = true := by assumption) (w3 : al.sync = true := by assumption) (w4 : al.peg = true := by assumption) (w5 : al.mem = true := by assumption) (w6 : al.poison = true := by assumption) (w7 : al.loads = true := by assumption) (w8 : al.streams = true := by assumption) (w9 : al.incarnation = true := by assumption) (w10 : al.prefixes = true := by assumption) (w11 : al.scheds = true := by assumption) (w12 : al.kv = true := by assumption) (w13 : al.tx = true := by assumption) : Same al bd (doWork p aid m d) := by
  unfold doWork
  repeat' (first | with_reducible (first | assumption | apply doSyncWait_same | apply doLoadBegin_same | apply doAdapterLoad_same | apply doLoadAbort_same | apply doLoadCommit_same | apply doTableEdit_same | apply doAdmit_same | apply doAppend_same | apply doPause_same | apply doResume_same | apply doCancel_same | apply doPark_same | apply doUnpark_same | apply doPrefixRegister_same | apply doPrefixDrop_same | apply doSignal_same | apply answerBad_same | refine ite_same ?_ ?_ | intro _ | split) | dsimp only)

theorem forwardStream_same {al : Allow} {bd : Dev} (p : Nat) (m : Dgram) (d : Dev) (hk : Same al bd d) (w0 : al.tx = true := by assumption) : Same al bd (forwardStream p m d) := by
  unfold forwardStream
  repeat' (first | with_reducible (first | assumption | apply cnsSendAll_same | refine ite_same ?_ ?_ | intro _ | split) | dsimp only)

theorem runWork_same {al : Allow} {bd : Dev} (aid : Nat) (m : Dgram) (d : Dev) (hk : Same al bd d) (w0 : al.free = true := by assumption) (w1 : al.regs = true := by assumption) (w2 : al.strand = true := by assumption) (w3 : al.sync = true := by assumption) (w4 : al.peg = true := by assumption) (w5 : al.mem = true := by assumption) (w6 : al.poison = true := by assumption) (w7 : al.loads = true := by assumption) (w8 : al.streams = true := by assumption) (w9 : al.incarnation = true := by assumption) (w10 : al.prefixes = true := by assumption) (w11 : al.scheds = true := by assumption) (w12 : al.kv = true := by assumption) (w13 : al.tx = true := by assumption) : Same al bd (runWork aid m d) := by
  unfold runWork
  repeat' (first | with_reducible (first | assumption | apply sendReply_same | apply answerBad_same | apply doWork_same | apply forwardStream_same | refine ite_same ?_ ?_ | intro _ | split) | dsimp only)

theorem authFail_same {al : Allow} {bd : Dev} (aid : Nat) (m : Dgram) (code : Nat) (d : Dev) (hk : Same al bd d) (w0 : al.regs = true := by assumption) (w1 : al.strand = true := by assumption) (w2 : al.tx = true := by assumption) : Same al bd (authFail aid m code d) := by
  unfold authFail
  repeat' (first | with_reducible (first | assumption | apply bump_same | apply mgmtNack_same | refine ite_same ?_ ?_ | intro _ | split) | dsimp only)

theorem withSession_same {al : Allow} {bd : Dev} (aid : Nat) (m : Dgram) (f : Session → Dev → Dev) (d : Dev) (h_f : ∀ x0 e, Same al bd e → Same al bd (f x0 e)) (hk : Same al bd d) (w0 : al.regs = true := by assumption) (w1 : al.strand = true := by assumption) (w2 : al.tx = true := by assumption) : Same al bd (withSession aid m f d) := by
  unfold withSession
  repeat' (first | with_reducible (first | assumption | apply modSession_same | apply mgmtNack_same | apply authFail_same | apply h_f | refine ite_same ?_ ?_ | intro _ | split) | dsimp only)

theorem doAttest_same {al : Allow} {bd : Dev} (aid : Nat) (m : Dgram) (d : Dev) (hk : Same al bd d) (w0 : al.free = true := by assumption) (w1 : al.regs = true := by assumption) (w2 : al.flash = true := by assumption) (w3 : al.strand = true := by assumption) (w4 : al.map = true := by assumption) (w5 : al.peg = true := by assumption) (w6 : al.mem = true := by assumption) (w7 : al.poison = true := by assumption) (w8 : al.tunes = true := by assumption) (w9 : al.tx = true := by assumption) : Same al bd (doAttest aid m d) := by
  unfold doAttest
  repeat' (first | with_reducible (first | assumption | apply doReport_same | apply doCerts_same | apply doSessionOpen_same | apply doSessionClose_same | apply doClaim_same | apply answerBad_same | apply withSession_same | refine ite_same ?_ ?_ | intro _ | split) | dsimp only)

theorem runRom_same {al : Allow} {bd : Dev} (aid : Nat) (m : Dgram) (d : Dev) (hk : Same al bd d) (w0 : al.regs = true := by assumption) (w1 : al.strand = true := by assumption) (w2 : al.peg = true := by assumption) (w3 : al.tx = true := by assumption) : Same al bd (runRom aid m d) := by
  unfold runRom
  repeat' (first | with_reducible (first | assumption | apply doReport_same | apply doChunk_same | apply answerBad_same | refine ite_same ?_ ?_ | intro _ | split) | dsimp only)

theorem runMgmt_same {al : Allow} {bd : Dev} (aid : Nat) (m : Dgram) (d : Dev) (hk : Same al bd d) (w0 : al.time = true := by assumption) (w1 : al.timeRun = true := by assumption) (w2 : al.osc = true := by assumption) (w3 : al.free = true := by assumption) (w4 : al.regs = true := by assumption) (w5 : al.flash = true := by assumption) (w6 : al.strand = true := by assumption) (w7 : al.eth = true := by assumption) (w8 : al.map = true := by assumption) (w9 : al.sync = true := by assumption) (w10 : al.peg = true := by assumption) (w11 : al.rst = true := by assumption) (w12 : al.pwr = true := by assumption) (w13 : al.pins = true := by assumption) (w14 : al.links = true := by assumption) (w15 : al.fret = true := by assumption) (w16 : al.mem = true := by assumption) (w17 : al.poison = true := by assumption) (w18 : al.loads = true := by assumption) (w19 : al.tunes = true := by assumption) (w20 : al.streams = true := by assumption) (w21 : al.incarnation = true := by assumption) (w22 : al.prefixes = true := by assumption) (w23 : al.scheds = true := by assumption) (w24 : al.kv = true := by assumption) (w25 : al.cns = true := by assumption) (w26 : al.tx = true := by assumption) : Same al bd (runMgmt aid m d) := by
  unfold runMgmt
  repeat' (first | with_reducible (first | assumption | apply doMgmtRead_same | apply doMgmtWrite_same | apply doMgmtReset_same | apply doUpdateChunk_same | apply answerBad_same | apply withSession_same | apply doAttest_same | refine ite_same ?_ ?_ | intro _ | split) | dsimp only)

theorem runMsg_same {al : Allow} {bd : Dev} (aid : Nat) (m : Dgram) (d : Dev) (hk : Same al bd d) (w0 : al.time = true := by assumption) (w1 : al.timeRun = true := by assumption) (w2 : al.osc = true := by assumption) (w3 : al.free = true := by assumption) (w4 : al.regs = true := by assumption) (w5 : al.flash = true := by assumption) (w6 : al.strand = true := by assumption) (w7 : al.eth = true := by assumption) (w8 : al.map = true := by assumption) (w9 : al.sync = true := by assumption) (w10 : al.peg = true := by assumption) (w11 : al.rst = true := by assumption) (w12 : al.pwr = true := by assumption) (w13 : al.pins = true := by assumption) (w14 : al.links = true := by assumption) (w15 : al.fret = true := by assumption) (w16 : al.mem = true := by assumption) (w17 : al.poison = true := by assumption) (w18 : al.loads = true := by assumption) (w19 : al.tunes = true := by assumption) (w20 : al.streams = true := by assumption) (w21 : al.incarnation = true := by assumption) (w22 : al.prefixes = true := by assumption) (w23 : al.scheds = true := by assumption) (w24 : al.kv = true := by assumption) (w25 : al.cns = true := by assumption) (w26 : al.tx = true := by assumption) : Same al bd (runMsg aid m d) := by
  unfold runMsg
  repeat' (first | with_reducible (first | assumption | apply answerBad_same | apply runWork_same | apply runRom_same | apply runMgmt_same | refine ite_same ?_ ?_ | intro _ | split) | dsimp only)

theorem serve_same {al : Allow} {bd : Dev} (aid units : Nat) (m : Dgram) (d : Dev) (hk : Same al bd d) (w0 : al.time = true := by assumption) (w1 : al.timeRun = true := by assumption) (w2 : al.osc = true := by assumption) (w3 : al.free = true := by assumption) (w4 : al.regs = true := by assumption) (w5 : al.flash = true := by assumption) (w6 : al.strand = true := by assumption) (w7 : al.eth = true := by assumption) (w8 : al.map = true := by assumption) (w9 : al.sync = true := by assumption) (w10 : al.peg = true := by assumption) (w11 : al.rst = true := by assumption) (w12 : al.pwr = true := by assumption) (w13 : al.pins = true := by assumption) (w14 : al.links = true := by assumption) (w15 : al.fret = true := by assumption) (w16 : al.mem = true := by assumption) (w17 : al.poison = true := by assumption) (w18 : al.loads = true := by assumption) (w19 : al.tunes = true := by assumption) (w20 : al.streams = true := by assumption) (w21 : al.incarnation = true := by assumption) (w22 : al.prefixes = true := by assumption) (w23 : al.scheds = true := by assumption) (w24 : al.kv = true := by assumption) (w25 : al.cns = true := by assumption) (w26 : al.tx = true := by assumption) : Same al bd (serve aid units m d) := by
  unfold serve
  repeat' (first | with_reducible (first | assumption | apply startWake_same | apply holdMsg_same | apply returnUnits_same | apply runMsg_same | refine ite_same ?_ ?_ | intro _ | split) | dsimp only)

theorem serveAgain_same {al : Allow} {bd : Dev} (h : Held) (d : Dev) (hk : Same al bd d) (w0 : al.time = true := by assumption) (w1 : al.timeRun = true := by assumption) (w2 : al.osc = true := by assumption) (w3 : al.free = true := by assumption) (w4 : al.regs = true := by assumption) (w5 : al.flash = true := by assumption) (w6 : al.strand = true := by assumption) (w7 : al.eth = true := by assumption) (w8 : al.map = true := by assumption) (w9 : al.sync = true := by assumption) (w10 : al.peg = true := by assumption) (w11 : al.rst = true := by assumption) (w12 : al.pwr = true := by assumption) (w13 : al.pins = true := by assumption) (w14 : al.links = true := by assumption) (w15 : al.fret = true := by assumption) (w16 : al.mem = true := by assumption) (w17 : al.poison = true := by assumption) (w18 : al.loads = true := by assumption) (w19 : al.tunes = true := by assumption) (w20 : al.streams = true := by assumption) (w21 : al.incarnation = true := by assumption) (w22 : al.prefixes = true := by assumption) (w23 : al.scheds = true := by assumption) (w24 : al.kv = true := by assumption) (w25 : al.cns = true := by assumption) (w26 : al.tx = true := by assumption) : Same al bd (serveAgain h d) := by
  unfold serveAgain
  repeat' (first | with_reducible (first | assumption | apply tryClose_same | apply serve_same | refine ite_same ?_ ?_ | intro _ | split) | simp only [same_strand, w6] | dsimp only)

theorem serveHeld_same {al : Allow} {bd : Dev} (d : Dev) (hk : Same al bd d) (w0 : al.time = true := by assumption) (w1 : al.timeRun = true := by assumption) (w2 : al.osc = true := by assumption) (w3 : al.free = true := by assumption) (w4 : al.regs = true := by assumption) (w5 : al.flash = true := by assumption) (w6 : al.strand = true := by assumption) (w7 : al.eth = true := by assumption) (w8 : al.map = true := by assumption) (w9 : al.sync = true := by assumption) (w10 : al.peg = true := by assumption) (w11 : al.rst = true := by assumption) (w12 : al.pwr = true := by assumption) (w13 : al.pins = true := by assumption) (w14 : al.links = true := by assumption) (w15 : al.fret = true := by assumption) (w16 : al.mem = true := by assumption) (w17 : al.poison = true := by assumption) (w18 : al.loads = true := by assumption) (w19 : al.tunes = true := by assumption) (w20 : al.streams = true := by assumption) (w21 : al.incarnation = true := by assumption) (w22 : al.prefixes = true := by assumption) (w23 : al.scheds = true := by assumption) (w24 : al.kv = true := by assumption) (w25 : al.cns = true := by assumption) (w26 : al.tx = true := by assumption) : Same al bd (serveHeld d) := by
  unfold serveHeld
  repeat' (first | with_reducible (first | assumption | apply forEach_same | apply serveAgain_same | refine ite_same ?_ ?_ | intro _ | split) | simp only [same_strand, w6] | dsimp only)

theorem serveWork_same {al : Allow} {bd : Dev} (d : Dev) (hk : Same al bd d) (w0 : al.time = true := by assumption) (w1 : al.timeRun = true := by assumption) (w2 : al.osc = true := by assumption) (w3 : al.free = true := by assumption) (w4 : al.regs = true := by assumption) (w5 : al.flash = true := by assumption) (w6 : al.strand = true := by assumption) (w7 : al.eth = true := by assumption) (w8 : al.map = true := by assumption) (w9 : al.sync = true := by assumption) (w10 : al.peg = true := by assumption) (w11 : al.rst = true := by assumption) (w12 : al.pwr = true := by assumption) (w13 : al.pins = true := by assumption) (w14 : al.links = true := by assumption) (w15 : al.fret = true := by assumption) (w16 : al.mem = true := by assumption) (w17 : al.poison = true := by assumption) (w18 : al.loads = true := by assumption) (w19 : al.tunes = true := by assumption) (w20 : al.streams = true := by assumption) (w21 : al.incarnation = true := by assumption) (w22 : al.prefixes = true := by assumption) (w23 : al.scheds = true := by assumption) (w24 : al.kv = true := by assumption) (w25 : al.cns = true := by assumption) (w26 : al.tx = true := by assumption) : Same al bd (serveWork d) := by
  unfold serveWork
  repeat' (first | with_reducible (first | assumption | apply forEach_same | apply serveAgain_same | refine ite_same ?_ ?_ | intro _ | split) | simp only [same_strand, w6] | dsimp only)

theorem noteAccept_same {al : Allow} {bd : Dev} (p aid cycle : Nat) (d : Dev) (hk : Same al bd d) (w0 : al.regs = true := by assumption) (w1 : al.strand = true := by assumption) : Same al bd (noteAccept p aid cycle d) := by
  unfold noteAccept
  repeat' (first | with_reducible (first | assumption | apply choice_same | refine ite_same ?_ ?_ | intro _ | split) | simp only [same_strand, w1] | dsimp only)

theorem acceptMsg_same {al : Allow} {bd : Dev} (aid cost : Nat) (m : Dgram) (d : Dev) (hk : Same al bd d) (w0 : al.time = true := by assumption) (w1 : al.timeRun = true := by assumption) (w2 : al.osc = true := by assumption) (w3 : al.free = true := by assumption) (w4 : al.regs = true := by assumption) (w5 : al.flash = true := by assumption) (w6 : al.strand = true := by assumption) (w7 : al.eth = true := by assumption) (w8 : al.map = true := by assumption) (w9 : al.sync = true := by assumption) (w10 : al.peg = true := by assumption) (w11 : al.rst = true := by assumption) (w12 : al.pwr = true := by assumption) (w13 : al.pins = true := by assumption) (w14 : al.links = true := by assumption) (w15 : al.fret = true := by assumption) (w16 : al.mem = true := by assumption) (w17 : al.poison = true := by assumption) (w18 : al.loads = true := by assumption) (w19 : al.tunes = true := by assumption) (w20 : al.streams = true := by assumption) (w21 : al.incarnation = true := by assumption) (w22 : al.prefixes = true := by assumption) (w23 : al.scheds = true := by assumption) (w24 : al.kv = true := by assumption) (w25 : al.cns = true := by assumption) (w26 : al.tx = true := by assumption) : Same al bd (acceptMsg aid cost m d) := by
  unfold acceptMsg
  repeat' (first | with_reducible (first | assumption | apply modAssoc_same | apply takePeer_same | apply serve_same | apply noteAccept_same | refine ite_same ?_ ?_ | intro _ | split) | dsimp only)

theorem takeMsg_same {al : Allow} {bd : Dev} (aid : Nat) (a : Assoc) (m : Dgram) (d : Dev) (hk : Same al bd d) (w0 : al.time = true := by assumption) (w1 : al.timeRun = true := by assumption) (w2 : al.osc = true := by assumption) (w3 : al.free = true := by assumption) (w4 : al.regs = true := by assumption) (w5 : al.flash = true := by assumption) (w6 : al.strand = true := by assumption) (w7 : al.eth = true := by assumption) (w8 : al.map = true := by assumption) (w9 : al.sync = true := by assumption) (w10 : al.peg = true := by assumption) (w11 : al.rst = true := by assumption) (w12 : al.pwr = true := by assumption) (w13 : al.pins = true := by assumption) (w14 : al.links = true := by assumption) (w15 : al.fret = true := by assumption) (w16 : al.mem = true := by assumption) (w17 : al.poison = true := by assumption) (w18 : al.loads = true := by assumption) (w19 : al.tunes = true := by assumption) (w20 : al.streams = true := by assumption) (w21 : al.incarnation = true := by assumption) (w22 : al.prefixes = true := by assumption) (w23 : al.scheds = true := by assumption) (w24 : al.kv = true := by assumption) (w25 : al.cns = true := by assumption) (w26 : al.tx = true := by assumption) : Same al bd (takeMsg aid a m d) := by
  unfold takeMsg
  repeat' (first | with_reducible (first | assumption | apply bump_same | apply sendHeaderOnly_same | apply takePeer_same | apply acceptMsg_same | refine ite_same ?_ ?_ | intro _ | split) | dsimp only)

theorem takeOn_same {al : Allow} {bd : Dev} (aid : Nat) (a : Assoc) (m : Dgram) (d : Dev) (hk : Same al bd d) (w0 : al.time = true := by assumption) (w1 : al.timeRun = true := by assumption) (w2 : al.osc = true := by assumption) (w3 : al.free = true := by assumption) (w4 : al.regs = true := by assumption) (w5 : al.flash = true := by assumption) (w6 : al.strand = true := by assumption) (w7 : al.eth = true := by assumption) (w8 : al.map = true := by assumption) (w9 : al.sync = true := by assumption) (w10 : al.peg = true := by assumption) (w11 : al.rst = true := by assumption) (w12 : al.pwr = true := by assumption) (w13 : al.pins = true := by assumption) (w14 : al.links = true := by assumption) (w15 : al.fret = true := by assumption) (w16 : al.mem = true := by assumption) (w17 : al.poison = true := by assumption) (w18 : al.loads = true := by assumption) (w19 : al.tunes = true := by assumption) (w20 : al.streams = true := by assumption) (w21 : al.incarnation = true := by assumption) (w22 : al.prefixes = true := by assumption) (w23 : al.scheds = true := by assumption) (w24 : al.kv = true := by assumption) (w25 : al.cns = true := by assumption) (w26 : al.tx = true := by assumption) : Same al bd (takeOn aid a m d) := by
  unfold takeOn
  repeat' (first | with_reducible (first | assumption | apply modAssoc_same | apply takePeer_same | apply takeMsg_same | refine ite_same ?_ ?_ | intro _ | split) | dsimp only)

theorem receive_same {al : Allow} {bd : Dev} (m : Dgram) (d : Dev) (hk : Same al bd d) (w0 : al.time = true := by assumption) (w1 : al.timeRun = true := by assumption) (w2 : al.osc = true := by assumption) (w3 : al.free = true := by assumption) (w4 : al.regs = true := by assumption) (w5 : al.flash = true := by assumption) (w6 : al.strand = true := by assumption) (w7 : al.eth = true := by assumption) (w8 : al.map = true := by assumption) (w9 : al.sync = true := by assumption) (w10 : al.peg = true := by assumption) (w11 : al.rst = true := by assumption) (w12 : al.pwr = true := by assumption) (w13 : al.pins = true := by assumption) (w14 : al.links = true := by assumption) (w15 : al.fret = true := by assumption) (w16 : al.mem = true := by assumption) (w17 : al.poison = true := by assumption) (w18 : al.loads = true := by assumption) (w19 : al.tunes = true := by assumption) (w20 : al.streams = true := by assumption) (w21 : al.incarnation = true := by assumption) (w22 : al.prefixes = true := by assumption) (w23 : al.scheds = true := by assumption) (w24 : al.kv = true := by assumption) (w25 : al.cns = true := by assumption) (w26 : al.tx = true := by assumption) : Same al bd (receive m d) := by
  unfold receive
  repeat' (first | with_reducible (first | assumption | apply bump_same | apply startWake_same | apply doOpen_same | apply takeOn_same | refine ite_same ?_ ?_ | intro _ | split) | dsimp only)

theorem ackTimer_same {al : Allow} {bd : Dev} (aid : Nat) (d : Dev) (hk : Same al bd d) (w0 : al.strand = true := by assumption) (w1 : al.tx = true := by assumption) : Same al bd (ackTimer aid d) := by
  unfold ackTimer
  repeat' (first | with_reducible (first | assumption | apply sendHeaderOnly_same | refine ite_same ?_ ?_ | intro _ | split) | dsimp only)

theorem retransmitTimeout_same {al : Allow} {bd : Dev} (aid : Nat) (d : Dev) (hk : Same al bd d) (w0 : al.regs = true := by assumption) (w1 : al.strand = true := by assumption) (w2 : al.tx = true := by assumption) : Same al bd (retransmitTimeout aid d) := by
  unfold retransmitTimeout
  repeat' (first | with_reducible (first | assumption | apply addCtr_same | apply forEach_same | apply putAssoc_same | apply putOnWire_same | refine ite_same ?_ ?_ | intro _ | split) | dsimp only)

theorem assocLost_same {al : Allow} {bd : Dev} (aid : Nat) (d : Dev) (hk : Same al bd d) (w0 : al.regs = true := by assumption) (w1 : al.strand = true := by assumption) (w2 : al.sync = true := by assumption) (w3 : al.peg = true := by assumption) (w4 : al.tx = true := by assumption) : Same al bd (assocLost aid d) := by
  unfold assocLost
  repeat' (first | with_reducible (first | assumption | apply bump_same | apply endAssoc_same | refine ite_same ?_ ?_ | intro _ | split) | dsimp only)

theorem tokensLate_same {al : Allow} {bd : Dev} (aid : Nat) (d : Dev) (hk : Same al bd d) (w0 : al.regs = true := by assumption) (w1 : al.strand = true := by assumption) : Same al bd (tokensLate aid d) := by
  unfold tokensLate
  repeat' (first | with_reducible (first | assumption | apply addCtr_same | apply putAssoc_same | refine ite_same ?_ ?_ | intro _ | split) | dsimp only)

theorem subDone_same {al : Allow} {bd : Dev} (sc : Scope) (p stage die : Nat) (d : Dev) (hk : Same al bd d) (w0 : al.time = true := by assumption) (w1 : al.timeRun = true := by assumption) (w2 : al.osc = true := by assumption) (w3 : al.free = true := by assumption) (w4 : al.regs = true := by assumption) (w5 : al.flash = true := by assumption) (w6 : al.strand = true := by assumption) (w7 : al.eth = true := by assumption) (w8 : al.map = true := by assumption) (w9 : al.sync = true := by assumption) (w10 : al.peg = true := by assumption) (w11 : al.rst = true := by assumption) (w12 : al.pwr = true := by assumption) (w13 : al.pins = true := by assumption) (w14 : al.links = true := by assumption) (w15 : al.fret = true := by assumption) (w16 : al.mem = true := by assumption) (w17 : al.poison = true := by assumption) (w18 : al.loads = true := by assumption) (w19 : al.tunes = true := by assumption) (w20 : al.streams = true := by assumption) (w21 : al.incarnation = true := by assumption) (w22 : al.prefixes = true := by assumption) (w23 : al.scheds = true := by assumption) (w24 : al.kv = true := by assumption) (w25 : al.cns = true := by assumption) (w26 : al.tx = true := by assumption) : Same al bd (subDone sc p stage die d) := by
  unfold subDone
  repeat' (first | with_reducible (first | assumption | apply endSub_same | apply finishDie_same | apply serveHeld_same | refine ite_same ?_ ?_ | intro _ | split) | dsimp only)

theorem stageResetDone_same {al : Allow} {bd : Dev} (p stage : Nat) (d : Dev) (hk : Same al bd d) (w0 : al.time = true := by assumption) (w1 : al.timeRun = true := by assumption) (w2 : al.osc = true := by assumption) (w3 : al.free = true := by assumption) (w4 : al.regs = true := by assumption) (w5 : al.flash = true := by assumption) (w6 : al.strand = true := by assumption) (w7 : al.eth = true := by assumption) (w8 : al.map = true := by assumption) (w9 : al.sync = true := by assumption) (w10 : al.peg = true := by assumption) (w11 : al.rst = true := by assumption) (w12 : al.pwr = true := by assumption) (w13 : al.pins = true := by assumption) (w14 : al.links = true := by assumption) (w15 : al.fret = true := by assumption) (w16 : al.mem = true := by assumption) (w17 : al.poison = true := by assumption) (w18 : al.loads = true := by assumption) (w19 : al.tunes = true := by assumption) (w20 : al.streams = true := by assumption) (w21 : al.incarnation = true := by assumption) (w22 : al.prefixes = true := by assumption) (w23 : al.scheds = true := by assumption) (w24 : al.kv = true := by assumption) (w25 : al.cns = true := by assumption) (w26 : al.tx = true := by assumption) : Same al bd (stageResetDone p stage d) := by
  unfold stageResetDone
  repeat' (first | with_reducible (first | assumption | apply subDone_same | refine ite_same ?_ ?_ | intro _ | split) | dsimp only)

theorem partitionResetDone_same {al : Allow} {bd : Dev} (p : Nat) (d : Dev) (hk : Same al bd d) (w0 : al.time = true := by assumption) (w1 : al.timeRun = true := by assumption) (w2 : al.osc = true := by assumption) (w3 : al.free = true := by assumption) (w4 : al.regs = true := by assumption) (w5 : al.flash = true := by assumption) (w6 : al.strand = true := by assumption) (w7 : al.eth = true := by assumption) (w8 : al.map = true := by assumption) (w9 : al.sync = true := by assumption) (w10 : al.peg = true := by assumption) (w11 : al.rst = true := by assumption) (w12 : al.pwr = true := by assumption) (w13 : al.pins = true := by assumption) (w14 : al.links = true := by assumption) (w15 : al.fret = true := by assumption) (w16 : al.mem = true := by assumption) (w17 : al.poison = true := by assumption) (w18 : al.loads = true := by assumption) (w19 : al.tunes = true := by assumption) (w20 : al.streams = true := by assumption) (w21 : al.incarnation = true := by assumption) (w22 : al.prefixes = true := by assumption) (w23 : al.scheds = true := by assumption) (w24 : al.kv = true := by assumption) (w25 : al.cns = true := by assumption) (w26 : al.tx = true := by assumption) : Same al bd (partitionResetDone p d) := by
  unfold partitionResetDone
  repeat' (first | with_reducible (first | assumption | apply subDone_same | refine ite_same ?_ ?_ | intro _ | split) | dsimp only)

theorem dieResetDone_same {al : Allow} {bd : Dev} (n : Nat) (d : Dev) (hk : Same al bd d) (w0 : al.time = true := by assumption) (w1 : al.timeRun = true := by assumption) (w2 : al.osc = true := by assumption) (w3 : al.free = true := by assumption) (w4 : al.regs = true := by assumption) (w5 : al.flash = true := by assumption) (w6 : al.strand = true := by assumption) (w7 : al.eth = true := by assumption) (w8 : al.map = true := by assumption) (w9 : al.sync = true := by assumption) (w10 : al.peg = true := by assumption) (w11 : al.rst = true := by assumption) (w12 : al.pwr = true := by assumption) (w13 : al.pins = true := by assumption) (w14 : al.links = true := by assumption) (w15 : al.fret = true := by assumption) (w16 : al.mem = true := by assumption) (w17 : al.poison = true := by assumption) (w18 : al.loads = true := by assumption) (w19 : al.tunes = true := by assumption) (w20 : al.streams = true := by assumption) (w21 : al.incarnation = true := by assumption) (w22 : al.prefixes = true := by assumption) (w23 : al.scheds = true := by assumption) (w24 : al.kv = true := by assumption) (w25 : al.cns = true := by assumption) (w26 : al.tx = true := by assumption) : Same al bd (dieResetDone n d) := by
  unfold dieResetDone
  repeat' (first | with_reducible (first | assumption | apply subDone_same | refine ite_same ?_ ?_ | intro _ | split) | dsimp only)

theorem deviceResetEnd_same {al : Allow} {bd : Dev} (d : Dev) (hk : Same al bd d) (w0 : al.time = true := by assumption) (w1 : al.timeRun = true := by assumption) (w2 : al.osc = true := by assumption) (w3 : al.free = true := by assumption) (w4 : al.regs = true := by assumption) (w5 : al.flash = true := by assumption) (w6 : al.strand = true := by assumption) (w7 : al.eth = true := by assumption) (w8 : al.map = true := by assumption) (w9 : al.sync = true := by assumption) (w10 : al.peg = true := by assumption) (w11 : al.rst = true := by assumption) (w12 : al.pwr = true := by assumption) (w13 : al.pins = true := by assumption) (w14 : al.links = true := by assumption) (w15 : al.fret = true := by assumption) (w16 : al.mem = true := by assumption) (w17 : al.poison = true := by assumption) (w18 : al.loads = true := by assumption) (w19 : al.tunes = true := by assumption) (w20 : al.streams = true := by assumption) (w21 : al.incarnation = true := by assumption) (w22 : al.prefixes = true := by assumption) (w23 : al.scheds = true := by assumption) (w24 : al.kv = true := by assumption) (w25 : al.cns = true := by assumption) (w26 : al.tx = true := by assumption) : Same al bd (deviceResetEnd d) := by
  unfold deviceResetEnd
  repeat' (first | with_reducible (first | assumption | apply deviceResetDone_same | apply serveHeld_same | refine ite_same ?_ ?_ | intro _ | split) | dsimp only)

theorem wakeDone_same {al : Allow} {bd : Dev} (held : Nat) (d : Dev) (hk : Same al bd d) (w0 : al.time = true := by assumption) (w1 : al.timeRun = true := by assumption) (w2 : al.osc = true := by assumption) (w3 : al.free = true := by assumption) (w4 : al.regs = true := by assumption) (w5 : al.flash = true := by assumption) (w6 : al.strand = true := by assumption) (w7 : al.eth = true := by assumption) (w8 : al.map = true := by assumption) (w9 : al.sync = true := by assumption) (w10 : al.peg = true := by assumption) (w11 : al.rst = true := by assumption) (w12 : al.pwr = true := by assumption) (w13 : al.pins = true := by assumption) (w14 : al.links = true := by assumption) (w15 : al.fret = true := by assumption) (w16 : al.mem = true := by assumption) (w17 : al.poison = true := by assumption) (w18 : al.loads = true := by assumption) (w19 : al.tunes = true := by assumption) (w20 : al.streams = true := by assumption) (w21 : al.incarnation = true := by assumption) (w22 : al.prefixes = true := by assumption) (w23 : al.scheds = true := by assumption) (w24 : al.kv = true := by assumption) (w25 : al.cns = true := by assumption) (w26 : al.tx = true := by assumption) : Same al bd (wakeDone held d) := by
  unfold wakeDone
  repeat' (first | with_reducible (first | assumption | apply wakeEnd_same | apply serveHeld_same | refine ite_same ?_ ?_ | intro _ | split) | dsimp only)

theorem editPublishDone_same {al : Allow} {bd : Dev} (b wait : Nat) (d : Dev) (hk : Same al bd d) (w0 : al.time = true := by assumption) (w1 : al.timeRun = true := by assumption) (w2 : al.osc = true := by assumption) (w3 : al.free = true := by assumption) (w4 : al.regs = true := by assumption) (w5 : al.flash = true := by assumption) (w6 : al.strand = true := by assumption) (w7 : al.eth = true := by assumption) (w8 : al.map = true := by assumption) (w9 : al.sync = true := by assumption) (w10 : al.peg = true := by assumption) (w11 : al.rst = true := by assumption) (w12 : al.pwr = true := by assumption) (w13 : al.pins = true := by assumption) (w14 : al.links = true := by assumption) (w15 : al.fret = true := by assumption) (w16 : al.mem = true := by assumption) (w17 : al.poison = true := by assumption) (w18 : al.loads = true := by assumption) (w19 : al.tunes = true := by assumption) (w20 : al.streams = true := by assumption) (w21 : al.incarnation = true := by assumption) (w22 : al.prefixes = true := by assumption) (w23 : al.scheds = true := by assumption) (w24 : al.kv = true := by assumption) (w25 : al.cns = true := by assumption) (w26 : al.tx = true := by assumption) : Same al bd (editPublishDone b wait d) := by
  unfold editPublishDone
  repeat' (first | with_reducible (first | assumption | apply editPublish_same | apply serveWork_same | refine ite_same ?_ ?_ | intro _ | split) | dsimp only)

theorem batchFormed_same {al : Allow} {bd : Dev} (p : Nat) (d : Dev) (hk : Same al bd d) (w0 : al.time = true := by assumption) (w1 : al.timeRun = true := by assumption) (w2 : al.osc = true := by assumption) (w3 : al.free = true := by assumption) (w4 : al.regs = true := by assumption) (w5 : al.flash = true := by assumption) (w6 : al.strand = true := by assumption) (w7 : al.eth = true := by assumption) (w8 : al.map = true := by assumption) (w9 : al.sync = true := by assumption) (w10 : al.peg = true := by assumption) (w11 : al.rst = true := by assumption) (w12 : al.pwr = true := by assumption) (w13 : al.pins = true := by assumption) (w14 : al.links = true := by assumption) (w15 : al.fret = true := by assumption) (w16 : al.mem = true := by assumption) (w17 : al.poison = true := by assumption) (w18 : al.loads = true := by assumption) (w19 : al.tunes = true := by assumption) (w20 : al.streams = true := by assumption) (w21 : al.incarnation = true := by assumption) (w22 : al.prefixes = true := by assumption) (w23 : al.scheds = true := by assumption) (w24 : al.kv = true := by assumption) (w25 : al.cns = true := by assumption) (w26 : al.tx = true := by assumption) : Same al bd (batchFormed p d) := by
  unfold batchFormed
  repeat' (first | with_reducible (first | assumption | apply batchFormation_same | apply serveWork_same | refine ite_same ?_ ?_ | intro _ | split) | dsimp only)

theorem epochRetired_same {al : Allow} {bd : Dev} (p m : Nat) (d : Dev) (hk : Same al bd d) (w0 : al.time = true := by assumption) (w1 : al.timeRun = true := by assumption) (w2 : al.osc = true := by assumption) (w3 : al.free = true := by assumption) (w4 : al.regs = true := by assumption) (w5 : al.flash = true := by assumption) (w6 : al.strand = true := by assumption) (w7 : al.eth = true := by assumption) (w8 : al.map = true := by assumption) (w9 : al.sync = true := by assumption) (w10 : al.peg = true := by assumption) (w11 : al.rst = true := by assumption) (w12 : al.pwr = true := by assumption) (w13 : al.pins = true := by assumption) (w14 : al.links = true := by assumption) (w15 : al.fret = true := by assumption) (w16 : al.mem = true := by assumption) (w17 : al.poison = true := by assumption) (w18 : al.loads = true := by assumption) (w19 : al.tunes = true := by assumption) (w20 : al.streams = true := by assumption) (w21 : al.incarnation = true := by assumption) (w22 : al.prefixes = true := by assumption) (w23 : al.scheds = true := by assumption) (w24 : al.kv = true := by assumption) (w25 : al.cns = true := by assumption) (w26 : al.tx = true := by assumption) : Same al bd (epochRetired p m d) := by
  unfold epochRetired
  repeat' (first | with_reducible (first | assumption | apply epochRetireBy_same | apply serveWork_same | refine ite_same ?_ ?_ | intro _ | split) | dsimp only)

theorem mgmtTimeout_same {al : Allow} {bd : Dev} (k n : Nat) (d : Dev) (hk : Same al bd d) (w0 : al.time = true := by assumption) (w1 : al.timeRun = true := by assumption) (w2 : al.osc = true := by assumption) (w3 : al.free = true := by assumption) (w4 : al.regs = true := by assumption) (w5 : al.flash = true := by assumption) (w6 : al.strand = true := by assumption) (w7 : al.eth = true := by assumption) (w8 : al.map = true := by assumption) (w9 : al.sync = true := by assumption) (w10 : al.peg = true := by assumption) (w11 : al.rst = true := by assumption) (w12 : al.pwr = true := by assumption) (w13 : al.pins = true := by assumption) (w14 : al.links = true := by assumption) (w15 : al.fret = true := by assumption) (w16 : al.mem = true := by assumption) (w17 : al.poison = true := by assumption) (w18 : al.loads = true := by assumption) (w19 : al.tunes = true := by assumption) (w20 : al.streams = true := by assumption) (w21 : al.incarnation = true := by assumption) (w22 : al.prefixes = true := by assumption) (w23 : al.scheds = true := by assumption) (w24 : al.kv = true := by assumption) (w25 : al.cns = true := by assumption) (w26 : al.tx = true := by assumption) : Same al bd (mgmtTimeout k n d) := by
  unfold mgmtTimeout
  repeat' (first | with_reducible (first | assumption | apply bump_same | apply rstEvent_same | apply mgmtNack_same | apply writeRegs_same | apply tryClose_same | apply serveHeld_same | refine ite_same ?_ ?_ | intro _ | split) | simp only [same_strand, w6] | dsimp only)

theorem takeEntry_same {al : Allow} {bd : Dev} (off : Nat) (entry payload : List Byte) (d : Dev) (hk : Same al bd d) (w0 : al.free = true := by assumption) (w1 : al.regs = true := by assumption) (w2 : al.strand = true := by assumption) (w3 : al.mem = true := by assumption) (w4 : al.poison = true := by assumption) (w5 : al.streams = true := by assumption) (w6 : al.incarnation = true := by assumption) (w7 : al.kv = true := by assumption) (w8 : al.tx = true := by assumption) : Same al bd (takeEntry off entry payload d) := by
  unfold takeEntry
  repeat' (first | with_reducible (first | assumption | apply modStream_same | apply admitAccept_same | refine ite_same ?_ ?_ | intro _ | split) | dsimp only)

theorem takeForwarded_same {al : Allow} {bd : Dev} (m : Dgram) (d : Dev) (hk : Same al bd d) (w0 : al.free = true := by assumption) (w1 : al.regs = true := by assumption) (w2 : al.strand = true := by assumption) (w3 : al.sync = true := by assumption) (w4 : al.peg = true := by assumption) (w5 : al.mem = true := by assumption) (w6 : al.poison = true := by assumption) (w7 : al.loads = true := by assumption) (w8 : al.streams = true := by assumption) (w9 : al.incarnation = true := by assumption) (w10 : al.prefixes = true := by assumption) (w11 : al.scheds = true := by assumption) (w12 : al.kv = true := by assumption) (w13 : al.tx = true := by assumption) : Same al bd (takeForwarded m d) := by
  unfold takeForwarded
  repeat' (first | with_reducible (first | assumption | apply modStream_same | apply doWork_same | refine ite_same ?_ ?_ | intro _ | split) | dsimp only)

theorem consortEntryRx_same {al : Allow} {bd : Dev} (off : Nat) (entry : List Byte) (m : Dgram) (d : Dev) (hk : Same al bd d) (w0 : al.free = true := by assumption) (w1 : al.regs = true := by assumption) (w2 : al.strand = true := by assumption) (w3 : al.sync = true := by assumption) (w4 : al.peg = true := by assumption) (w5 : al.mem = true := by assumption) (w6 : al.poison = true := by assumption) (w7 : al.loads = true := by assumption) (w8 : al.streams = true := by assumption) (w9 : al.incarnation = true := by assumption) (w10 : al.prefixes = true := by assumption) (w11 : al.scheds = true := by assumption) (w12 : al.kv = true := by assumption) (w13 : al.cns = true := by assumption) (w14 : al.tx = true := by assumption) : Same al bd (consortEntryRx off entry m d) := by
  unfold consortEntryRx
  repeat' (first | with_reducible (first | assumption | apply masterHeard_same | apply takeEntry_same | apply takeForwarded_same | refine ite_same ?_ ?_ | intro _ | split) | dsimp only)

theorem takeStep_same {al : Allow} {bd : Dev} (bid : Nat) (x : BatchEnt) (d : Dev) (hk : Same al bd d) (w0 : al.mem = true := by assumption) (w1 : al.poison = true := by assumption) (w2 : al.streams = true := by assumption) (w3 : al.kv = true := by assumption) : Same al bd (takeStep bid x d).2 := by
  unfold takeStep
  repeat' (first | with_reducible (first | assumption | apply modStream_same | apply foldl_same | apply foldl_same_snd | apply foldl_same_thd | apply getD_same | refine ite_same ?_ ?_ | intro _ | split) | refine (reserveStep_same _ _ _ _ _ ?_) _ (by assumption) | (intro _ hx; refine (reserveStep_same _ _ _ _ _ ?_) _ hx) | dsimp only)

theorem takeSteps_same {al : Allow} {bd : Dev} (bid : Nat) (l : List BatchEnt) (d : Dev) (hk : Same al bd d) (w0 : al.mem = true := by assumption) (w1 : al.poison = true := by assumption) (w2 : al.streams = true := by assumption) (w3 : al.kv = true := by assumption) :
    Same al bd (takeSteps bid l d).2 := by
  induction l generalizing d with
  | nil => exact hk
  | cons x r ih => exact ih _ (takeStep_same bid x d hk)

theorem batchDescriptorRx_same {al : Allow} {bd : Dev} (bid model : Nat) (epoch : Word) (l : List BatchEnt) (d : Dev) (hk : Same al bd d) (w0 : al.regs = true := by assumption) (w1 : al.strand = true := by assumption) (w2 : al.fret = true := by assumption) (w3 : al.mem = true := by assumption) (w4 : al.poison = true := by assumption) (w5 : al.streams = true := by assumption) (w6 : al.scheds = true := by assumption) (w7 : al.kv = true := by assumption) (w8 : al.cns = true := by assumption) (w9 : al.tx = true := by assumption) : Same al bd (batchDescriptorRx bid model epoch l d) := by
  unfold batchDescriptorRx
  repeat' (first | with_reducible (first | assumption | apply bump_same | apply modSched_same | apply pushPasses_same | apply publishSteps_same | apply masterHeard_same | apply takeSteps_same | refine ite_same ?_ ?_ | intro _ | split) | dsimp only)

theorem takeRecord_same {al : Allow} {bd : Dev} (i : Nat) (rec : List Byte) (d : Dev) (hk : Same al bd d) (w0 : al.streams = true := by assumption) : Same al bd (takeRecord i rec d) := by
  unfold takeRecord
  repeat' (first | with_reducible (first | assumption | apply modStream_same | refine ite_same ?_ ?_ | intro _ | split) | dsimp only)

theorem takeStepEnd_same {al : Allow} {bd : Dev} (i : Nat) (d : Dev) (hk : Same al bd d) (w0 : al.strand = true := by assumption) (w1 : al.streams = true := by assumption) (w2 : al.scheds = true := by assumption) (w3 : al.kv = true := by assumption) (w4 : al.tx = true := by assumption) : Same al bd (takeStepEnd i d) := by
  unfold takeStepEnd
  repeat' (first | with_reducible (first | assumption | apply modStream_same | apply setLen_same | apply stepDone_same | refine ite_same ?_ ?_ | intro _ | split) | dsimp only)

theorem consortTokenRecordsRx_same {al : Allow} {bd : Dev} (h : Word) (recs : List (List Byte)) (d : Dev) (hk : Same al bd d) (w0 : al.regs = true := by assumption) (w1 : al.strand = true := by assumption) (w2 : al.links = true := by assumption) (w3 : al.streams = true := by assumption) (w4 : al.scheds = true := by assumption) (w5 : al.kv = true := by assumption) (w6 : al.tx = true := by assumption) : Same al bd (consortTokenRecordsRx h recs d) := by
  unfold consortTokenRecordsRx
  repeat' (first | with_reducible (first | assumption | apply forEach_same | apply tokenRecordArrival_same | apply takeRecord_same | apply takeStepEnd_same | refine ite_same ?_ ?_ | intro _ | split) | dsimp only)

theorem ppsInEdge_same {al : Allow} {bd : Dev} (low gap : Nat) (d : Dev) (hk : Same al bd d) (w0 : al.time = true := by assumption) (w1 : al.regs = true := by assumption) (w2 : al.pins = true := by assumption) : Same al bd (ppsInEdge low gap d) := by
  unfold ppsInEdge
  repeat' (first | with_reducible (first | assumption | apply bump_same | refine ite_same ?_ ?_ | intro _ | split) | simp only [same_time_pins, w0, w2] | dsimp only)

theorem strandBadHeader_same {al : Allow} {bd : Dev} (m : Dgram) (d : Dev) (hk : Same al bd d) (w0 : al.regs = true := by assumption) : Same al bd (strandBadHeader m d) := by
  unfold strandBadHeader
  repeat' (first | with_reducible (first | assumption | apply bump_same | apply when__same | refine ite_same ?_ ?_ | intro _ | split) | dsimp only)

theorem unboundSourceDrop_same {al : Allow} {bd : Dev} (m : Dgram) (d : Dev) (hk : Same al bd d) (w0 : al.regs = true := by assumption) : Same al bd (unboundSourceDrop m d) := by
  unfold unboundSourceDrop
  repeat' (first | with_reducible (first | assumption | apply bump_same | apply when__same | refine ite_same ?_ ?_ | intro _ | split) | dsimp only)

end Sys2Proof.Machine
end

