-- ==== Sys2Proof/Laws/Kept.lean ====
section
/-! SUPPORT. What every operation of the block keeps: the canonical forms of registers, HBM and poison, blown fuses, and the order of
the free values drawn. One lemma per operation says so (KeptOps and the files after it). -/

namespace Sys2Proof.Machine

/-- The block is in canonical form, its fuses are those of `f` or more of them are blown, and at least `n` free values have been drawn. -/
def Kept (f : Fuses) (n : Nat) (d : Dev) : Prop := Canon d ∧ FusesGrow f d.fuses ∧ n ≤ d.free

theorem FusesGrow.refl (f : Fuses) : FusesGrow f f := by simp [FusesGrow]

theorem Kept.start {d : Dev} (h : Canon d) : Kept d.fuses d.free d := ⟨h, FusesGrow.refl _, Nat.le_refl _⟩

/-- An update of any field but the five that `Kept` reads. -/
theorem kept_same {f : Fuses} {n : Nat} {d e : Dev} (h : Kept f n d) (h1 : e.regs = d.regs) (h2 : e.mem = d.mem)
    (h3 : e.poison = d.poison) (h4 : e.fuses = d.fuses) (h5 : e.free = d.free) : Kept f n e := by
  obtain ⟨⟨a, b, c⟩, g, k⟩ := h
  exact ⟨⟨h1 ▸ a, h2 ▸ b, h3 ▸ c⟩, h4 ▸ g, h5 ▸ k⟩

/-- As `kept_same`, with more free values drawn. -/
theorem kept_drawn {f : Fuses} {n : Nat} {d e : Dev} (h : Kept f n d) (h1 : e.regs = d.regs) (h2 : e.mem = d.mem)
    (h3 : e.poison = d.poison) (h4 : e.fuses = d.fuses) (h5 : d.free ≤ e.free) : Kept f n e := by
  obtain ⟨⟨a, b, c⟩, g, k⟩ := h
  exact ⟨⟨h1 ▸ a, h2 ▸ b, h3 ▸ c⟩, h4 ▸ g, Nat.le_trans k h5⟩

theorem forEach_kept {α : Type} {f : Fuses} {n : Nat} {l : List α} {g : α → Dev → Dev} {d : Dev}
    (hg : ∀ x e, Kept f n e → Kept f n (g x e)) (h : Kept f n d) : Kept f n (forEach l g d) := by
  unfold forEach
  induction l generalizing d with
  | nil => exact h
  | cons x r ih => exact ih (hg x d h)

/-- A fold whose state is the block. -/
theorem foldl_kept {α : Type} {f : Fuses} {n : Nat} {l : List α} {g : Dev → α → Dev} {d : Dev}
    (hg : ∀ e x, Kept f n e → Kept f n (g e x)) (h : Kept f n d) : Kept f n (l.foldl g d) := by
  induction l generalizing d with
  | nil => exact h
  | cons x r ih => exact ih (hg d x h)

/-- A fold whose state is a pair with the block second. -/
theorem foldl_kept_snd {α β : Type} {f : Fuses} {n : Nat} {l : List α} {g : β × Dev → α → β × Dev} {a : β × Dev}
    (hg : ∀ e x, Kept f n e.2 → Kept f n (g e x).2) (h : Kept f n a.2) : Kept f n (l.foldl g a).2 := by
  induction l generalizing a with
  | nil => exact h
  | cons x r ih => exact ih (hg a x h)

/-- A fold whose state is a triple with the block third. -/
theorem foldl_kept_thd {α β γ : Type} {f : Fuses} {n : Nat} {l : List α} {g : β × γ × Dev → α → β × γ × Dev} {a : β × γ × Dev}
    (hg : ∀ e x, Kept f n e.2.2 → Kept f n (g e x).2.2) (h : Kept f n a.2.2) : Kept f n (l.foldl g a).2.2 := by
  induction l generalizing a with
  | nil => exact h
  | cons x r ih => exact ih (hg a x h)

theorem when__kept {f : Fuses} {n : Nat} {c : Bool} {g : Dev → Dev} {d : Dev} (hg : ∀ e, Kept f n e → Kept f n (g e)) (h : Kept f n d) :
    Kept f n (when_ c g d) := by
  unfold when_; split
  · exact hg d h
  · exact h

theorem regPut_kept {f : Fuses} {n : Nat} (a : Nat) (v : Word) (d : Dev) (h : Kept f n d) : Kept f n (regPut a v d) := by
  obtain ⟨⟨x, y, z⟩, g, k⟩ := h
  exact ⟨⟨canonBy_mputD a v x, y, z⟩, g, k⟩

theorem draw_kept {f : Fuses} {n : Nat} (d : Dev) (h : Kept f n d) : Kept f n (draw d).2 :=
  kept_drawn h rfl rfl rfl rfl (Nat.le_succ _)

theorem setByte_kept {f : Fuses} {n : Nat} (b a : Nat) (v : Byte) (d : Dev) (h : Kept f n d) : Kept f n (setByte b a v d) := by
  obtain ⟨⟨x, y, z⟩, g, k⟩ := h
  exact ⟨⟨x, canonBy_mputD (f := fun _ => 0#8) (hbmKey b a) v y, z⟩, g, k⟩

/-- Entries taken out of the registers, of HBM and of the poison. -/
theorem kept_filtered {f : Fuses} {n : Nat} {d e : Dev} (h : Kept f n d) (p : Nat × Word → Bool) (q : Nat × Byte → Bool)
    (r : Nat × Bool → Bool) (h1 : e.regs = d.regs.filter p) (h2 : e.mem = d.mem.filter q) (h3 : e.poison = d.poison.filter r)
    (h4 : e.fuses = d.fuses) (h5 : e.free = d.free) : Kept f n e := by
  obtain ⟨⟨a, b, c⟩, g, k⟩ := h
  exact ⟨⟨h1 ▸ canonBy_filter p a, h2 ▸ canonBy_filter q b, h3 ▸ smapWf_filter r c⟩, h4 ▸ g, h5 ▸ k⟩

theorem mem_zipIdx_range {bytes : List Byte} {lo : Nat} {e : Byte × Nat} (h : e ∈ bytes.zipIdx lo) : lo ≤ e.2 ∧ e.2 < lo + bytes.length := by
  obtain ⟨v, i⟩ := e
  have := List.mem_zipIdx h
  exact ⟨this.1, this.2.1⟩

theorem run_wf (bytes : List Byte) (lo : Nat) :
    SMapWf (((bytes.zipIdx lo).filter fun e => e.1 != 0#8).map fun e => (e.2, e.1)) = true := by
  induction bytes generalizing lo with
  | nil => rfl
  | cons b r ih =>
    rw [List.zipIdx_cons, List.filter_cons]
    split
    · rw [List.map_cons]
      refine (smapWf_cons ..).2 ⟨?_, ih _⟩
      intro e he
      obtain ⟨x, hx, rfl⟩ := List.mem_map.1 he
      exact (mem_zipIdx_range (List.mem_filter.1 hx).1).1
    · exact ih _

/-- A run of bytes put into a memory in canonical form leaves it so. -/
theorem memPut_wf {m : SMap Byte} (lo : Nat) (bytes : List Byte) (h : Memory.wf m = true) : Memory.wf (memPut m lo bytes) = true := by
  obtain ⟨hw, hz⟩ := (canonBy_iff _ _).1 h
  refine (canonBy_iff _ _).2 ⟨?_, ?_⟩
  · unfold memPut
    refine smapWf_append (smapWf_append (smapWf_filter _ hw) (run_wf _ _) ?_) (smapWf_filter _ hw) ?_
    · intro a ha b hb
      obtain ⟨x, hx, rfl⟩ := List.mem_map.1 hb
      have h1 : a.1 < lo := by simpa using (List.mem_filter.1 ha).2
      exact Nat.lt_of_lt_of_le h1 (mem_zipIdx_range (List.mem_filter.1 hx).1).1
    · intro a ha b hb
      have h2 : lo + bytes.length ≤ b.1 := by simpa using (List.mem_filter.1 hb).2
      rcases List.mem_append.1 ha with ha | ha
      · have h1 : a.1 < lo := by simpa using (List.mem_filter.1 ha).2
        omega
      · obtain ⟨x, hx, rfl⟩ := List.mem_map.1 ha
        have := (mem_zipIdx_range (List.mem_filter.1 hx).1).2
        simp only; omega
  · intro e he
    unfold memPut at he
    rcases List.mem_append.1 he with he | he
    · rcases List.mem_append.1 he with he | he
      · exact hz e (List.mem_filter.1 he).1
      · obtain ⟨x, hx, rfl⟩ := List.mem_map.1 he
        simpa using (List.mem_filter.1 hx).2
    · exact hz e (List.mem_filter.1 he).1

theorem hbmWrite_kept {f : Fuses} {n : Nat} (b a : Nat) (bytes : List Byte) (d : Dev) (h : Kept f n d) :
    Kept f n (hbmWrite b a bytes d) := by
  obtain ⟨⟨x, y, z⟩, g, k⟩ := h
  exact ⟨⟨x, memPut_wf _ _ y, smapWf_filter _ z⟩, g, k⟩

theorem filter_id {α : Type} (m : List α) : m.filter (fun _ => true) = m := by simp

theorem hbmZero_kept {f : Fuses} {n : Nat} (b a k : Nat) (d : Dev) (h : Kept f n d) : Kept f n (hbmZero b a k d) :=
  kept_filtered h (fun _ => true) _ _ (filter_id _).symm rfl rfl rfl rfl

theorem poison_kept {f : Fuses} {n : Nat} {d e : Dev} (h : Kept f n d) (w : Nat) (v : Bool) (h1 : e.regs = d.regs) (h2 : e.mem = d.mem)
    (h3 : e.poison = mput d.poison w v) (h4 : e.fuses = d.fuses) (h5 : e.free = d.free) : Kept f n e := by
  obtain ⟨⟨a, b, c⟩, g, k⟩ := h
  exact ⟨⟨h1 ▸ a, h2 ▸ b, h3 ▸ smapWf_mput w v c⟩, h4 ▸ g, h5 ▸ k⟩

/-- An update of fields other than the five, as the constructor spells it. -/
theorem kept_mk_iff {f : Fuses} {n : Nat} {d : Dev} {x0 : DWord} {x1 : Bool} {x2 : Nat} {x6 : Flash} {x7 : Strand} {x8 : Eth} {x9 : PMap} {x10 : Sync} {x11 : Peg} {x12 : Rst} {x13 : Pwr} {x14 : Pins} {x15 : Links} {x16 : Fret} {x19 : Loads} {x20 : SMap Tune} {x21 : SMap Stream} {x22 : SMap Nat} {x23 : SMap Prefix} {x24 : SMap Sched} {x25 : SMap KvBridge} {x26 : Cns} {x27 : List Tx} :
    Kept f n (Dev.mk x0 x1 x2 d.free d.regs d.fuses x6 x7 x8 x9 x10 x11 x12 x13 x14 x15 x16 d.mem d.poison x19 x20 x21 x22 x23 x24 x25 x26 x27) ↔ Kept f n d :=
  ⟨fun h => kept_same h rfl rfl rfl rfl rfl, fun h => kept_same h rfl rfl rfl rfl rfl⟩

/-- Free values drawn, beside an update of fields other than the five. -/
theorem kept_mk_free {f : Fuses} {n : Nat} {d : Dev} {x0 : DWord} {x1 : Bool} {x2 : Nat} {x6 : Flash} {x7 : Strand} {x8 : Eth} {x9 : PMap} {x10 : Sync} {x11 : Peg} {x12 : Rst} {x13 : Pwr} {x14 : Pins} {x15 : Links} {x16 : Fret} {x19 : Loads} {x20 : SMap Tune} {x21 : SMap Stream} {x22 : SMap Nat} {x23 : SMap Prefix} {x24 : SMap Sched} {x25 : SMap KvBridge} {x26 : Cns} {x27 : List Tx} {k : Nat}
    (h : Kept f n d) : Kept f n (Dev.mk x0 x1 x2 (d.free + k) d.regs d.fuses x6 x7 x8 x9 x10 x11 x12 x13 x14 x15 x16 d.mem d.poison x19 x20 x21 x22 x23 x24 x25 x26 x27) := kept_drawn h rfl rfl rfl rfl (Nat.le_add_right ..)

/-- Registers taken out, beside an update of fields other than the five. -/
theorem kept_mk_regs {f : Fuses} {n : Nat} {d : Dev} {x0 : DWord} {x1 : Bool} {x2 : Nat} {x6 : Flash} {x7 : Strand} {x8 : Eth} {x9 : PMap} {x10 : Sync} {x11 : Peg} {x12 : Rst} {x13 : Pwr} {x14 : Pins} {x15 : Links} {x16 : Fret} {x19 : Loads} {x20 : SMap Tune} {x21 : SMap Stream} {x22 : SMap Nat} {x23 : SMap Prefix} {x24 : SMap Sched} {x25 : SMap KvBridge} {x26 : Cns} {x27 : List Tx} {p : Nat × Word → Bool}
    (h : Kept f n d) : Kept f n (Dev.mk x0 x1 x2 d.free (d.regs.filter p) d.fuses x6 x7 x8 x9 x10 x11 x12 x13 x14 x15 x16 d.mem d.poison x19 x20 x21 x22 x23 x24 x25 x26 x27) :=
  kept_filtered h p (fun _ => true) (fun _ => true) rfl (filter_id _).symm (filter_id _).symm rfl rfl

/-- HBM and poison taken out, beside an update of fields other than the five. -/
theorem kept_mk_mem {f : Fuses} {n : Nat} {d : Dev} {x0 : DWord} {x1 : Bool} {x2 : Nat} {x6 : Flash} {x7 : Strand} {x8 : Eth} {x9 : PMap} {x10 : Sync} {x11 : Peg} {x12 : Rst} {x13 : Pwr} {x14 : Pins} {x15 : Links} {x16 : Fret} {x19 : Loads} {x20 : SMap Tune} {x21 : SMap Stream} {x22 : SMap Nat} {x23 : SMap Prefix} {x24 : SMap Sched} {x25 : SMap KvBridge} {x26 : Cns} {x27 : List Tx} {q : Nat × Byte → Bool} {r : Nat × Bool → Bool}
    (h : Kept f n d) : Kept f n (Dev.mk x0 x1 x2 d.free d.regs d.fuses x6 x7 x8 x9 x10 x11 x12 x13 x14 x15 x16 (d.mem.filter q) (d.poison.filter r) x19 x20 x21 x22 x23 x24 x25 x26 x27) :=
  kept_filtered h (fun _ => true) q r (filter_id _).symm rfl rfl rfl rfl

/-- Poison taken out, beside an update of fields other than the five. -/
theorem kept_mk_poison {f : Fuses} {n : Nat} {d : Dev} {x0 : DWord} {x1 : Bool} {x2 : Nat} {x6 : Flash} {x7 : Strand} {x8 : Eth} {x9 : PMap} {x10 : Sync} {x11 : Peg} {x12 : Rst} {x13 : Pwr} {x14 : Pins} {x15 : Links} {x16 : Fret} {x19 : Loads} {x20 : SMap Tune} {x21 : SMap Stream} {x22 : SMap Nat} {x23 : SMap Prefix} {x24 : SMap Sched} {x25 : SMap KvBridge} {x26 : Cns} {x27 : List Tx} {r : Nat × Bool → Bool}
    (h : Kept f n d) : Kept f n (Dev.mk x0 x1 x2 d.free d.regs d.fuses x6 x7 x8 x9 x10 x11 x12 x13 x14 x15 x16 d.mem (d.poison.filter r) x19 x20 x21 x22 x23 x24 x25 x26 x27) :=
  kept_filtered h (fun _ => true) (fun _ => true) r (filter_id _).symm (filter_id _).symm rfl rfl rfl

/-- An update that may fail leaves the block as it was. -/
theorem getD_kept {f : Fuses} {n : Nat} {o : Option Dev} {d : Dev} (h1 : ∀ e, o = some e → Kept f n e) (h : Kept f n d) :
    Kept f n (o.getD d) := by
  cases o with
  | none => exact h
  | some e => exact h1 e rfl

/-- A fuse count raised. -/
theorem kept_svn {f : Fuses} {n : Nat} {d e : Dev} (h : Kept f n d) {v : Nat} (hv : d.fuses.svn ≤ v) (h1 : e.regs = d.regs)
    (h2 : e.mem = d.mem) (h3 : e.poison = d.poison) (h4 : e.fuses = { d.fuses with svn := v }) (h5 : e.free = d.free) : Kept f n e := by
  obtain ⟨⟨a, b, c⟩, ⟨g, gs⟩, k⟩ := h
  refine ⟨⟨h1 ▸ a, h2 ▸ b, h3 ▸ c⟩, ?_, h5 ▸ k⟩
  rw [h4]
  exact ⟨Nat.le_trans g hv, gs⟩

end Sys2Proof.Machine
end

