-- ==== Sys2Proof/Laws/KeptServe.lean ====
section
/-! SUPPORT. What the operations of the sending of messages, keys, updates, the port, heat, pins, links, HBM and streams keep, one lemma each (Laws/Kept.lean). -/

namespace Sys2Proof.Machine

set_option linter.unusedSimpArgs false

theorem regSetField_kept {fu : Fuses} {n0 : Nat} (a lo n v : Nat) (d : Dev) (hk : Kept fu n0 d) : Kept fu n0 (regSetField a lo n v d) := by
  unfold regSetField
  repeat' (first | with_reducible (first | assumption | apply regPut_kept | intro _ | split) | simp only [kept_mk_iff] | dsimp only)

theorem addField_kept {fu : Fuses} {n0 : Nat} (a lo n k : Nat) (d : Dev) (hk : Kept fu n0 d) : Kept fu n0 (addField a lo n k d) := by
  unfold addField
  repeat' (first | with_reducible (first | assumption | apply regSetField_kept | intro _ | split) | simp only [kept_mk_iff] | dsimp only)

theorem addCtr_kept {fu : Fuses} {n0 : Nat} (a k : Nat) (d : Dev) (hk : Kept fu n0 d) : Kept fu n0 (addCtr a k d) := by
  unfold addCtr
  repeat' (first | with_reducible (first | assumption | apply regPut_kept | intro _ | split) | simp only [kept_mk_iff] | dsimp only)

theorem bump_kept {fu : Fuses} {n0 : Nat} (a : Nat) (d : Dev) (hk : Kept fu n0 d) : Kept fu n0 (bump a d) := by
  unfold bump
  repeat' (first | with_reducible (first | assumption | apply addCtr_kept | intro _ | split) | simp only [kept_mk_iff] | dsimp only)

theorem addWrap_kept {fu : Fuses} {n0 : Nat} (a k : Nat) (d : Dev) (hk : Kept fu n0 d) : Kept fu n0 (addWrap a k d) := by
  unfold addWrap
  repeat' (first | with_reducible (first | assumption | apply regPut_kept | intro _ | split) | simp only [kept_mk_iff] | dsimp only)

theorem add64_kept {fu : Fuses} {n0 : Nat} (lo hi k : Nat) (d : Dev) (hk : Kept fu n0 d) : Kept fu n0 (add64 lo hi k d) := by
  unfold add64
  repeat' (first | with_reducible (first | assumption | apply regPut_kept | intro _ | split) | simp only [kept_mk_iff] | dsimp only)

theorem choice_kept {fu : Fuses} {n0 : Nat} (p : Nat) (results : Bool) (d : Dev) (hk : Kept fu n0 d) : Kept fu n0 (choice p results d) := by
  unfold choice
  repeat' (first | with_reducible (first | assumption | apply add64_kept | intro _ | split) | simp only [kept_mk_iff] | dsimp only)

theorem send_kept {fu : Fuses} {n0 : Nat} (t : Tx) (d : Dev) (hk : Kept fu n0 d) : Kept fu n0 (send t d) := by
  unfold send
  repeat' (first | with_reducible (first | assumption | intro _ | split) | simp only [kept_mk_iff] | dsimp only)

theorem putAssoc_kept {fu : Fuses} {n0 : Nat} (aid : Nat) (a : Assoc) (d : Dev) (hk : Kept fu n0 d) : Kept fu n0 (putAssoc aid a d) := by
  unfold putAssoc
  repeat' (first | with_reducible (first | assumption | intro _ | split) | simp only [kept_mk_iff] | dsimp only)

theorem modAssoc_kept {fu : Fuses} {n0 : Nat} (aid : Nat) (f : Assoc → Assoc) (d : Dev) (hk : Kept fu n0 d) : Kept fu n0 (modAssoc aid f d) := by
  unfold modAssoc
  repeat' (first | with_reducible (first | assumption | intro _ | split) | simp only [kept_mk_iff] | dsimp only)

theorem countPn_kept {fu : Fuses} {n0 : Nat} (p : Nat) (d : Dev) (hk : Kept fu n0 d) : Kept fu n0 (countPn p d) := by
  unfold countPn
  repeat' (first | with_reducible (first | assumption | intro _ | split) | simp only [kept_mk_iff] | dsimp only)

theorem putOnWire_kept {fu : Fuses} {n0 : Nat} (a : Assoc) (h : Hdr) (payload key : List Byte) (d : Dev) (hk : Kept fu n0 d) : Kept fu n0 (putOnWire a h payload key d) := by
  unfold putOnWire
  repeat' (first | with_reducible (first | assumption | apply send_kept | apply countPn_kept | intro _ | split) | simp only [kept_mk_iff] | dsimp only)

theorem transmit_kept {fu : Fuses} {n0 : Nat} (aid : Nat) (m : Sent) (d : Dev) (hk : Kept fu n0 d) : Kept fu n0 (transmit aid m d) := by
  unfold transmit
  repeat' (first | with_reducible (first | assumption | apply putAssoc_kept | apply putOnWire_kept | intro _ | split) | simp only [kept_mk_iff] | dsimp only)

theorem sendHeaderOnly_kept {fu : Fuses} {n0 : Nat} (aid : Nat) (flags : Byte) (d : Dev) (hk : Kept fu n0 d) : Kept fu n0 (sendHeaderOnly aid flags d) := by
  unfold sendHeaderOnly
  repeat' (first | with_reducible (first | assumption | apply putAssoc_kept | apply putOnWire_kept | intro _ | split) | simp only [kept_mk_iff] | dsimp only)

theorem flushN_kept {fu : Fuses} {n0 : Nat} (k aid : Nat) (d : Dev) (hk : Kept fu n0 d) : Kept fu n0 (flushN k aid d) := by
  induction k generalizing d with
  | zero => exact hk
  | succ k ih =>
    unfold flushN
    repeat' (first | with_reducible assumption | with_reducible apply ih | with_reducible apply transmit_kept | with_reducible apply putAssoc_kept | split)

theorem flushAssoc_kept {fu : Fuses} {n0 : Nat} (aid : Nat) (d : Dev) (hk : Kept fu n0 d) : Kept fu n0 (flushAssoc aid d) := by
  unfold flushAssoc
  repeat' (first | with_reducible (first | assumption | apply sendHeaderOnly_kept | apply flushN_kept | intro _ | split) | simp only [kept_mk_iff] | dsimp only)

theorem queueMsg_kept {fu : Fuses} {n0 : Nat} (aid : Nat) (m : Sent) (d : Dev) (hk : Kept fu n0 d) : Kept fu n0 (queueMsg aid m d) := by
  unfold queueMsg
  repeat' (first | with_reducible (first | assumption | apply putAssoc_kept | apply transmit_kept | apply flushAssoc_kept | intro _ | split) | simp only [kept_mk_iff] | dsimp only)

theorem sendReject_kept {fu : Fuses} {n0 : Nat} (m : Dgram) (d : Dev) (hk : Kept fu n0 d) : Kept fu n0 (sendReject m d) := by
  unfold sendReject
  repeat' (first | with_reducible (first | assumption | apply send_kept | apply countPn_kept | intro _ | split) | simp only [kept_mk_iff] | dsimp only)

theorem sendReply_kept {fu : Fuses} {n0 : Nat} (aid : Nat) (m : Dgram) (st idx hint : Nat) (extra : List Byte) (d : Dev) (hk : Kept fu n0 d) : Kept fu n0 (sendReply aid m st idx hint extra d) := by
  unfold sendReply
  repeat' (first | with_reducible (first | assumption | apply queueMsg_kept | intro _ | split) | simp only [kept_mk_iff] | dsimp only)

theorem ringPut_kept {fu : Fuses} {n0 : Nat} (part flags : Byte) (payload : List Byte) (d : Dev) (hk : Kept fu n0 d) : Kept fu n0 (ringPut part flags payload d) := by
  unfold ringPut
  repeat' (first | with_reducible (first | assumption | intro _ | split) | simp only [kept_mk_iff] | dsimp only)

theorem logQueue_kept {fu : Fuses} {n0 : Nat} (d : Dev) (hk : Kept fu n0 d) : Kept fu n0 (logQueue d) := by
  unfold logQueue
  repeat' (first | with_reducible (first | assumption | apply bump_kept | intro _ | split) | simp only [kept_mk_iff] | dsimp only)

theorem raiseEventTo_kept {fu : Fuses} {n0 : Nat} (dest : Nat) (payload : List Byte) (persist : Bool) (d : Dev) (hk : Kept fu n0 d) : Kept fu n0 (raiseEventTo dest payload persist d) := by
  unfold raiseEventTo
  repeat' (first | with_reducible (first | assumption | apply forEach_kept | apply queueMsg_kept | apply ringPut_kept | apply logQueue_kept | intro _ | split) | simp only [kept_mk_iff] | dsimp only)

theorem raiseEvent_kept {fu : Fuses} {n0 : Nat} (p : Nat) (ty : Nat) (rest : List Byte) (persist : Bool) (d : Dev) (hk : Kept fu n0 d) : Kept fu n0 (raiseEvent p ty rest persist d) := by
  unfold raiseEvent
  repeat' (first | with_reducible (first | assumption | apply raiseEventTo_kept | intro _ | split) | simp only [kept_mk_iff] | dsimp only)

theorem notifyWait_kept {fu : Fuses} {n0 : Nat} (w : Wait) (v : DWord) (d : Dev) (hk : Kept fu n0 d) : Kept fu n0 (notifyWait w v d) := by
  unfold notifyWait
  repeat' (first | with_reducible (first | assumption | apply bump_kept | apply queueMsg_kept | intro _ | split) | simp only [kept_mk_iff] | dsimp only)

theorem syncSet_kept {fu : Fuses} {n0 : Nat} (o : Nat) (v : DWord) (d : Dev) (hk : Kept fu n0 d) : Kept fu n0 (syncSet o v d) := by
  unfold syncSet
  repeat' (first | with_reducible (first | assumption | apply forEach_kept | apply notifyWait_kept | intro _ | split) | simp only [kept_mk_iff] | dsimp only)

theorem syncOrder_kept {fu : Fuses} {n0 : Nat} (o p cycle : Nat) (d : Dev) (hk : Kept fu n0 d) : Kept fu n0 (syncOrder o p cycle d) := by
  unfold syncOrder
  repeat' (first | with_reducible (first | assumption | apply choice_kept | intro _ | split) | simp only [kept_mk_iff] | dsimp only)

theorem syncSignal_kept {fu : Fuses} {n0 : Nat} (p o op : Nat) (v : DWord) (cycle : Nat) (d : Dev) (hk : Kept fu n0 d) : Kept fu n0 (syncSignal p o op v cycle d) := by
  unfold syncSignal
  repeat' (first | with_reducible (first | assumption | apply bump_kept | apply syncSet_kept | apply syncOrder_kept | intro _ | split) | simp only [kept_mk_iff] | dsimp only)

theorem dropWaits_kept {fu : Fuses} {n0 : Nat} (f : Wait → Bool) (d : Dev) (hk : Kept fu n0 d) : Kept fu n0 (dropWaits f d) := by
  unfold dropWaits
  repeat' (first | with_reducible (first | assumption | intro _ | split) | simp only [kept_mk_iff] | dsimp only)

theorem doSyncSignal_kept {fu : Fuses} {n0 : Nat} (p aid : Nat) (m : Dgram) (d : Dev) (hk : Kept fu n0 d) : Kept fu n0 (doSyncSignal p aid m d) := by
  unfold doSyncSignal
  repeat' (first | with_reducible (first | assumption | apply sendReply_kept | apply syncSignal_kept | intro _ | split) | simp only [kept_mk_iff] | dsimp only)

theorem doSyncWait_kept {fu : Fuses} {n0 : Nat} (p aid : Nat) (m : Dgram) (d : Dev) (hk : Kept fu n0 d) : Kept fu n0 (doSyncWait p aid m d) := by
  unfold doSyncWait
  repeat' (first | with_reducible (first | assumption | apply sendReply_kept | apply notifyWait_kept | intro _ | split) | simp only [kept_mk_iff] | dsimp only)

theorem mapSyncLoss_kept {fu : Fuses} {n0 : Nat} (old new_ : List Byte) (d : Dev) (hk : Kept fu n0 d) : Kept fu n0 (mapSyncLoss old new_ d) := by
  unfold mapSyncLoss
  repeat' (first | with_reducible (first | assumption | apply dropWaits_kept | intro _ | split) | simp only [kept_mk_iff] | dsimp only)

theorem keyResult_kept {fu : Fuses} {n0 : Nat} (r : Nat) (d : Dev) (hk : Kept fu n0 d) : Kept fu n0 (keyResult r d) := by
  unfold keyResult
  repeat' (first | with_reducible (first | assumption | intro _ | split) | simp only [kept_mk_iff] | dsimp only)

theorem keyAccepted_kept {fu : Fuses} {n0 : Nat} (code : Byte) (id : Word) (keys : SMap KeyEntry) (d : Dev) (hk : Kept fu n0 d) : Kept fu n0 (keyAccepted code id keys d) := by
  unfold keyAccepted
  repeat' (first | with_reducible (first | assumption | apply keyResult_kept | intro _ | split) | simp only [kept_mk_iff] | dsimp only)

theorem closeSessions_kept {fu : Fuses} {n0 : Nat} (f : Session → Bool) (d : Dev) (hk : Kept fu n0 d) : Kept fu n0 (closeSessions f d) := by
  unfold closeSessions
  repeat' (first | with_reducible (first | assumption | intro _ | split) | simp only [kept_mk_iff] | dsimp only)

theorem modSession_kept {fu : Fuses} {n0 : Nat} (num : Word) (f : Session → Session) (d : Dev) (hk : Kept fu n0 d) : Kept fu n0 (modSession num f d) := by
  unfold modSession
  repeat' (first | with_reducible (first | assumption | intro _ | split) | simp only [kept_mk_iff] | dsimp only)

theorem keyRead_kept {fu : Fuses} {n0 : Nat} (s : Session) (d : Dev) (hk : Kept fu n0 d) : Kept fu n0 (keyRead s d) := by
  unfold keyRead
  repeat' (first | with_reducible (first | assumption | apply keyResult_kept | apply modSession_kept | intro _ | split) | simp only [kept_mk_iff] | dsimp only)

theorem keyEnroll_kept {fu : Fuses} {n0 : Nat} (s : Session) (d : Dev) (hk : Kept fu n0 d) : Kept fu n0 (keyEnroll s d) := by
  unfold keyEnroll
  repeat' (first | with_reducible (first | assumption | apply keyResult_kept | apply keyAccepted_kept | intro _ | split) | simp only [kept_mk_iff] | dsimp only)

theorem keyRevoke_kept {fu : Fuses} {n0 : Nat} (s : Session) (d : Dev) (hk : Kept fu n0 d) : Kept fu n0 (keyRevoke s d) := by
  unfold keyRevoke
  repeat' (first | with_reducible (first | assumption | apply keyResult_kept | apply keyAccepted_kept | apply closeSessions_kept | intro _ | split) | simp only [kept_mk_iff] | dsimp only)

theorem keyCtl_kept {fu : Fuses} {n0 : Nat} (s : Session) (op : Nat) (d : Dev) (hk : Kept fu n0 d) : Kept fu n0 (keyCtl s op d) := by
  unfold keyCtl
  repeat' (first | with_reducible (first | assumption | apply keyRead_kept | apply keyEnroll_kept | apply keyRevoke_kept | intro _ | split) | simp only [kept_mk_iff] | dsimp only)

theorem fwEvent_kept {fu : Fuses} {n0 : Nat} (ty : Nat) (code : Byte) (arg : Nat) (digest : List Byte) (d : Dev) (hk : Kept fu n0 d) : Kept fu n0 (fwEvent ty code arg digest d) := by
  unfold fwEvent
  repeat' (first | with_reducible (first | assumption | apply raiseEvent_kept | intro _ | split) | simp only [kept_mk_iff] | dsimp only)

theorem keyStoreWritten_kept {fu : Fuses} {n0 : Nat} (d : Dev) (hk : Kept fu n0 d) : Kept fu n0 (keyStoreWritten d) := by
  unfold keyStoreWritten
  repeat' (first | with_reducible (first | assumption | apply fwEvent_kept | intro _ | split) | simp only [kept_mk_iff] | dsimp only)

theorem updState_kept {fu : Fuses} {n0 : Nat} (n : Nat) (d : Dev) (hk : Kept fu n0 d) : Kept fu n0 (updState n d) := by
  unfold updState
  repeat' (first | with_reducible (first | assumption | intro _ | split) | simp only [kept_mk_iff] | dsimp only)

theorem updEnd_kept {fu : Fuses} {n0 : Nat} (code : Nat) (d : Dev) (hk : Kept fu n0 d) : Kept fu n0 (updEnd code d) := by
  unfold updEnd
  repeat' (first | with_reducible (first | assumption | apply bump_kept | apply fwEvent_kept | intro _ | split) | simp only [kept_mk_iff] | dsimp only)

theorem updAbort_kept {fu : Fuses} {n0 : Nat} (d : Dev) (hk : Kept fu n0 d) : Kept fu n0 (updAbort d) := by
  unfold updAbort
  repeat' (first | with_reducible (first | assumption | apply updEnd_kept | intro _ | split) | simp only [kept_mk_iff] | dsimp only)

theorem settleUpdate_kept {fu : Fuses} {n0 : Nat} (d : Dev) (hk : Kept fu n0 d) : Kept fu n0 (settleUpdate d) := by
  unfold settleUpdate
  repeat' (first | with_reducible (first | assumption | apply updAbort_kept | intro _ | split) | simp only [kept_mk_iff] | dsimp only)

theorem updStage_kept {fu : Fuses} {n0 : Nat} (sess : Word) (off total : Nat) (data : List Byte) (isLast : Bool) (d : Dev) (hk : Kept fu n0 d) : Kept fu n0 (updStage sess off total data isLast d) := by
  unfold updStage
  repeat' (first | with_reducible (first | assumption | apply updState_kept | apply updEnd_kept | intro _ | split) | simp only [kept_mk_iff] | dsimp only)

theorem chunkStage_kept {fu : Fuses} {n0 : Nat} (sess : Word) (p : List Byte) (d : Dev) (hk : Kept fu n0 d) : Kept fu n0 (chunkStage sess p d) := by
  unfold chunkStage
  repeat' (first | with_reducible (first | assumption | apply updStage_kept | intro _ | split) | simp only [kept_mk_iff] | dsimp only)

theorem updVerified_kept {fu : Fuses} {n0 : Nat} (d : Dev) (hk : Kept fu n0 d) : Kept fu n0 (updVerified d) := by
  unfold updVerified
  repeat' (first | with_reducible (first | assumption | apply updState_kept | apply updEnd_kept | intro _ | split) | simp only [kept_mk_iff] | dsimp only)

theorem updProgrammed_kept {fu : Fuses} {n0 : Nat} (readBackOk : Bool) (d : Dev) (hk : Kept fu n0 d) : Kept fu n0 (updProgrammed readBackOk d) := by
  unfold updProgrammed
  dsimp only
  split
  · exact hk
  · split
    · exact hk
    · split
      · exact updEnd_kept _ _ (kept_same hk rfl rfl rfl rfl rfl)
      · refine updEnd_kept _ _ ?_
        split
        · next hs => exact kept_svn hk (Nat.le_of_lt (of_decide_eq_true (Bool.and_eq_true_iff.1 hs).2)) rfl rfl rfl rfl rfl
        · exact kept_same hk rfl rfl rfl rfl rfl

theorem updIdleTimeout_kept {fu : Fuses} {n0 : Nat} (d : Dev) (hk : Kept fu n0 d) : Kept fu n0 (updIdleTimeout d) := by
  unfold updIdleTimeout
  repeat' (first | with_reducible (first | assumption | apply updAbort_kept | intro _ | split) | simp only [kept_mk_iff] | dsimp only)

theorem frameDrop_kept {fu : Fuses} {n0 : Nat} (corr unc : Nat) (d : Dev) (hk : Kept fu n0 d) : Kept fu n0 (frameDrop corr unc d) := by
  unfold frameDrop
  repeat' (first | with_reducible (first | assumption | apply addCtr_kept | apply bump_kept | intro _ | split) | simp only [kept_mk_iff] | dsimp only)

theorem answerOwn_kept {fu : Fuses} {n0 : Nat} (own : Bool) (t : Tx) (d : Dev) (hk : Kept fu n0 d) : Kept fu n0 (answerOwn own t d) := by
  unfold answerOwn
  repeat' (first | with_reducible (first | assumption | apply bump_kept | apply send_kept | intro _ | split) | simp only [kept_mk_iff] | dsimp only)

theorem arpRequest_kept {fu : Fuses} {n0 : Nat} (ip : Word) (d : Dev) (hk : Kept fu n0 d) : Kept fu n0 (arpRequest ip d) := by
  unfold arpRequest
  repeat' (first | with_reducible (first | assumption | apply answerOwn_kept | intro _ | split) | simp only [kept_mk_iff] | dsimp only)

theorem neighborSolicit_kept {fu : Fuses} {n0 : Nat} (ip : BitVec 128) (d : Dev) (hk : Kept fu n0 d) : Kept fu n0 (neighborSolicit ip d) := by
  unfold neighborSolicit
  repeat' (first | with_reducible (first | assumption | apply answerOwn_kept | intro _ | split) | simp only [kept_mk_iff] | dsimp only)

theorem icmpEcho_kept {fu : Fuses} {n0 : Nat} (dst : BitVec 128) (data : List Byte) (d : Dev) (hk : Kept fu n0 d) : Kept fu n0 (icmpEcho dst data d) := by
  unfold icmpEcho
  repeat' (first | with_reducible (first | assumption | apply answerOwn_kept | intro _ | split) | simp only [kept_mk_iff] | dsimp only)

theorem pfcBuffer_kept {fu : Fuses} {n0 : Nat} (strand : Bool) (low high : Nat) (d : Dev) (hk : Kept fu n0 d) : Kept fu n0 (pfcBuffer strand low high d) := by
  unfold pfcBuffer
  repeat' (first | with_reducible (first | assumption | apply bump_kept | apply send_kept | intro _ | split) | simp only [kept_mk_iff] | dsimp only)

theorem flushAll_kept {fu : Fuses} {n0 : Nat} (d : Dev) (hk : Kept fu n0 d) : Kept fu n0 (flushAll d) := by
  unfold flushAll
  repeat' (first | with_reducible (first | assumption | apply forEach_kept | apply flushAssoc_kept | intro _ | split) | simp only [kept_mk_iff] | dsimp only)

theorem pfcRx_kept {fu : Fuses} {n0 : Nat} (xoff : Bool) (prio : Nat) (d : Dev) (hk : Kept fu n0 d) : Kept fu n0 (pfcRx xoff prio d) := by
  unfold pfcRx
  repeat' (first | with_reducible (first | assumption | apply bump_kept | apply flushAll_kept | intro _ | split) | simp only [kept_mk_iff] | dsimp only)

theorem cnpRx_kept {fu : Fuses} {n0 : Nat} (qp : Nat) (d : Dev) (hk : Kept fu n0 d) : Kept fu n0 (cnpRx qp d) := by
  unfold cnpRx draw
  split
  · exact hk
  · exact kept_drawn hk rfl rfl rfl rfl (Nat.le_succ _)

theorem ceOnRdma_kept {fu : Fuses} {n0 : Nat} (ce : Bool) (qp : Nat) (d : Dev) (hk : Kept fu n0 d) : Kept fu n0 (ceOnRdma ce qp d) := by
  unfold ceOnRdma
  repeat' (first | with_reducible (first | assumption | apply bump_kept | apply send_kept | intro _ | split) | simp only [kept_mk_iff] | dsimp only)

theorem rdmaFirewallRefuse_kept {fu : Fuses} {n0 : Nat} (p qp : Nat) (d : Dev) (hk : Kept fu n0 d) : Kept fu n0 (rdmaFirewallRefuse p qp d) := by
  unfold rdmaFirewallRefuse
  repeat' (first | with_reducible (first | assumption | apply bump_kept | apply send_kept | intro _ | split) | simp only [kept_mk_iff] | dsimp only)

theorem bootEventDue_kept {fu : Fuses} {n0 : Nat} (d : Dev) (hk : Kept fu n0 d) : Kept fu n0 (bootEventDue d) := by
  unfold bootEventDue
  repeat' (first | with_reducible (first | assumption | apply fwEvent_kept | intro _ | split) | simp only [kept_mk_iff] | dsimp only)

theorem ethLinkUp_kept {fu : Fuses} {n0 : Nat} (d : Dev) (hk : Kept fu n0 d) : Kept fu n0 (ethLinkUp d) := by
  unfold ethLinkUp
  repeat' (first | with_reducible (first | assumption | apply bootEventDue_kept | intro _ | split) | simp only [kept_mk_iff] | dsimp only)

theorem linkGone_kept {fu : Fuses} {n0 : Nat} (lanes : Byte) (fec : Bool) (d : Dev) (hk : Kept fu n0 d) : Kept fu n0 (linkGone lanes fec d) := by
  unfold linkGone
  repeat' (first | with_reducible (first | assumption | intro _ | split) | simp only [kept_mk_iff] | dsimp only)

theorem ethLinkDown_kept {fu : Fuses} {n0 : Nat} (lanes : Byte) (fec : Bool) (d : Dev) (hk : Kept fu n0 d) : Kept fu n0 (ethLinkDown lanes fec d) := by
  unfold ethLinkDown
  repeat' (first | with_reducible (first | assumption | apply linkGone_kept | intro _ | split) | simp only [kept_mk_iff] | dsimp only)

theorem transceiverInsert_kept {fu : Fuses} {n0 : Nat} (d : Dev) (hk : Kept fu n0 d) : Kept fu n0 (transceiverInsert d) := by
  unfold transceiverInsert
  repeat' (first | with_reducible (first | assumption | intro _ | split) | simp only [kept_mk_iff] | dsimp only)

theorem transceiverRemove_kept {fu : Fuses} {n0 : Nat} (d : Dev) (hk : Kept fu n0 d) : Kept fu n0 (transceiverRemove d) := by
  unfold transceiverRemove
  repeat' (first | with_reducible (first | assumption | apply linkGone_kept | intro _ | split) | simp only [kept_mk_iff] | dsimp only)

theorem addAlert_kept {fu : Fuses} {n0 : Nat} (c : Nat) (d : Dev) (hk : Kept fu n0 d) : Kept fu n0 (addAlert c d) := by
  unfold addAlert
  repeat' (first | with_reducible (first | assumption | intro _ | split) | simp only [kept_mk_iff] | dsimp only)

theorem dropAlert_kept {fu : Fuses} {n0 : Nat} (c : Nat) (d : Dev) (hk : Kept fu n0 d) : Kept fu n0 (dropAlert c d) := by
  unfold dropAlert
  repeat' (first | with_reducible (first | assumption | intro _ | split) | simp only [kept_mk_iff] | dsimp only)

theorem pwrEvent_kept {fu : Fuses} {n0 : Nat} (p ty cause arg : Nat) (persist : Bool) (d : Dev) (hk : Kept fu n0 d) : Kept fu n0 (pwrEvent p ty cause arg persist d) := by
  unfold pwrEvent
  repeat' (first | with_reducible (first | assumption | apply raiseEvent_kept | intro _ | split) | simp only [kept_mk_iff] | dsimp only)

theorem accountThrottle_kept {fu : Fuses} {n0 : Nat} (d : Dev) (hk : Kept fu n0 d) : Kept fu n0 (accountThrottle d) := by
  unfold accountThrottle
  repeat' (first | with_reducible (first | assumption | apply addCtr_kept | intro _ | split) | simp only [kept_mk_iff] | dsimp only)

theorem thermalWarn_kept {fu : Fuses} {n0 : Nat} (d : Dev) (hk : Kept fu n0 d) : Kept fu n0 (thermalWarn d) := by
  unfold thermalWarn
  repeat' (first | with_reducible (first | assumption | apply bump_kept | apply forEach_kept | apply addAlert_kept | apply pwrEvent_kept | intro _ | split) | simp only [kept_mk_iff] | dsimp only)

theorem thermalClear_kept {fu : Fuses} {n0 : Nat} (d : Dev) (hk : Kept fu n0 d) : Kept fu n0 (thermalClear d) := by
  unfold thermalClear
  repeat' (first | with_reducible (first | assumption | apply dropAlert_kept | apply pwrEvent_kept | intro _ | split) | simp only [kept_mk_iff] | dsimp only)

theorem setTlevel_kept {fu : Fuses} {n0 : Nat} (n : Nat) (d : Dev) (hk : Kept fu n0 d) : Kept fu n0 (setTlevel n d) := by
  unfold setTlevel
  repeat' (first | with_reducible (first | assumption | apply pwrEvent_kept | apply accountThrottle_kept | intro _ | split) | simp only [kept_mk_iff] | dsimp only)

theorem thermalCheck_kept {fu : Fuses} {n0 : Nat} (d : Dev) (hk : Kept fu n0 d) : Kept fu n0 (thermalCheck d) := by
  unfold thermalCheck
  repeat' (first | with_reducible (first | assumption | apply thermalWarn_kept | intro _ | split) | simp only [kept_mk_iff] | dsimp only)

theorem fastUpdate_kept {fu : Fuses} {n0 : Nat} (die : Nat) (d : Dev) (hk : Kept fu n0 d) : Kept fu n0 (fastUpdate die d) := by
  unfold fastUpdate
  repeat' (first | with_reducible (first | assumption | apply regSetField_kept | apply forEach_kept | intro _ | split) | simp only [kept_mk_iff] | dsimp only)

theorem snWrite_kept {fu : Fuses} {n0 : Nat} (die k : Nat) (v : Half) (d : Dev) (hk : Kept fu n0 d) : Kept fu n0 (snWrite die k v d) := by
  unfold snWrite
  repeat' (first | with_reducible (first | assumption | apply regSetField_kept | intro _ | split) | simp only [kept_mk_iff] | dsimp only)

theorem graceEnd_kept {fu : Fuses} {n0 : Nat} (d : Dev) (hk : Kept fu n0 d) : Kept fu n0 (graceEnd d) := by
  unfold graceEnd
  repeat' (first | with_reducible (first | assumption | apply thermalClear_kept | apply setTlevel_kept | intro _ | split) | simp only [kept_mk_iff] | dsimp only)

theorem tlevelStep_kept {fu : Fuses} {n0 : Nat} (held : Nat) (d : Dev) (hk : Kept fu n0 d) : Kept fu n0 (tlevelStep held d) := by
  unfold tlevelStep
  repeat' (first | with_reducible (first | assumption | apply addCtr_kept | apply thermalClear_kept | apply setTlevel_kept | intro _ | split) | simp only [kept_mk_iff] | dsimp only)

theorem setPlevel_kept {fu : Fuses} {n0 : Nat} (n : Nat) (d : Dev) (hk : Kept fu n0 d) : Kept fu n0 (setPlevel n d) := by
  unfold setPlevel
  repeat' (first | with_reducible (first | assumption | apply bump_kept | apply pwrEvent_kept | apply accountThrottle_kept | intro _ | split) | simp only [kept_mk_iff] | dsimp only)

theorem plevelStep_kept {fu : Fuses} {n0 : Nat} (held : Nat) (d : Dev) (hk : Kept fu n0 d) : Kept fu n0 (plevelStep held d) := by
  unfold plevelStep
  repeat' (first | with_reducible (first | assumption | apply addCtr_kept | apply setPlevel_kept | apply foldl_kept | apply foldl_kept_snd | intro _ | split) | simp only [kept_mk_iff] | dsimp only)

theorem powerSample_kept {fu : Fuses} {n0 : Nat} (hbms : List (Nat × Nat × Half)) (vin iin pin : Half) (d : Dev) (hk : Kept fu n0 d) : Kept fu n0 (powerSample hbms vin iin pin d) := by
  unfold powerSample
  repeat' (first | with_reducible (first | assumption | apply regSetField_kept | apply bump_kept | apply forEach_kept | apply addAlert_kept | apply dropAlert_kept | apply pwrEvent_kept | apply thermalCheck_kept | apply snWrite_kept | apply foldl_kept | apply foldl_kept_snd | intro _ | split) | simp only [kept_mk_iff] | dsimp only)

theorem setTap_kept {fu : Fuses} {n0 : Nat} (n : Nat) (d : Dev) (hk : Kept fu n0 d) : Kept fu n0 (setTap n d) := by
  unfold setTap
  repeat' (first | with_reducible (first | assumption | intro _ | split) | simp only [kept_mk_iff] | dsimp only)

theorem tapReset_kept {fu : Fuses} {n0 : Nat} (level : Bool) (d : Dev) (hk : Kept fu n0 d) : Kept fu n0 (tapReset level d) := by
  unfold tapReset
  repeat' (first | with_reducible (first | assumption | intro _ | split) | simp only [kept_mk_iff] | dsimp only)

theorem jtagIdcode_kept {fu : Fuses} {n0 : Nat} (d : Dev) (hk : Kept fu n0 d) : Kept fu n0 (jtagIdcode d) := by
  unfold jtagIdcode
  repeat' (first | with_reducible (first | assumption | apply send_kept | apply setTap_kept | intro _ | split) | simp only [kept_mk_iff] | dsimp only)

theorem bypassShift_kept {fu : Fuses} {n0 : Nat} (tdi : List Bool) (d : Dev) (hk : Kept fu n0 d) : Kept fu n0 (bypassShift tdi d) := by
  unfold bypassShift
  repeat' (first | with_reducible (first | assumption | apply send_kept | intro _ | split) | simp only [kept_mk_iff] | dsimp only)

theorem jtagBypass_kept {fu : Fuses} {n0 : Nat} (tdi : List Bool) (d : Dev) (hk : Kept fu n0 d) : Kept fu n0 (jtagBypass tdi d) := by
  unfold jtagBypass
  repeat' (first | with_reducible (first | assumption | apply setTap_kept | apply bypassShift_kept | intro _ | split) | simp only [kept_mk_iff] | dsimp only)

theorem jtagSample_kept {fu : Fuses} {n0 : Nat} (preload : List (Nat × Bool)) (d : Dev) (hk : Kept fu n0 d) : Kept fu n0 (jtagSample preload d) := by
  unfold jtagSample
  repeat' (first | with_reducible (first | assumption | apply send_kept | apply setTap_kept | intro _ | split) | simp only [kept_mk_iff] | dsimp only)

theorem jtagExtest_kept {fu : Fuses} {n0 : Nat} (cells : List (Nat × Bool)) (tdi : List Bool) (d : Dev) (hk : Kept fu n0 d) : Kept fu n0 (jtagExtest cells tdi d) := by
  unfold jtagExtest
  repeat' (first | with_reducible (first | assumption | apply setTap_kept | apply bypassShift_kept | intro _ | split) | simp only [kept_mk_iff] | dsimp only)

theorem jtagClamp_kept {fu : Fuses} {n0 : Nat} (tdi : List Bool) (d : Dev) (hk : Kept fu n0 d) : Kept fu n0 (jtagClamp tdi d) := by
  unfold jtagClamp
  repeat' (first | with_reducible (first | assumption | apply setTap_kept | apply bypassShift_kept | intro _ | split) | simp only [kept_mk_iff] | dsimp only)

theorem ppsOut_kept {fu : Fuses} {n0 : Nat} (d : Dev) (hk : Kept fu n0 d) : Kept fu n0 (ppsOut d) := by
  unfold ppsOut
  repeat' (first | with_reducible (first | assumption | intro _ | split) | simp only [kept_mk_iff] | dsimp only)

theorem ppsFall_kept {fu : Fuses} {n0 : Nat} (d : Dev) (hk : Kept fu n0 d) : Kept fu n0 (ppsFall d) := by
  unfold ppsFall
  repeat' (first | with_reducible (first | assumption | apply ppsOut_kept | intro _ | split) | simp only [kept_mk_iff] | dsimp only)

theorem putChan_kept {fu : Fuses} {n0 : Nat} (ch : Nat) (c : Chan) (d : Dev) (hk : Kept fu n0 d) : Kept fu n0 (putChan ch c d) := by
  unfold putChan
  repeat' (first | with_reducible (first | assumption | intro _ | split) | simp only [kept_mk_iff] | dsimp only)

theorem putLink_kept {fu : Fuses} {n0 : Nat} (l : Nat) (k : Link) (d : Dev) (hk : Kept fu n0 d) : Kept fu n0 (putLink l k d) := by
  unfold putLink
  repeat' (first | with_reducible (first | assumption | intro _ | split) | simp only [kept_mk_iff] | dsimp only)

theorem sendFlit_kept {fu : Fuses} {n0 : Nat} (ch : Nat) (h : DWord) (payload : List Byte) (d : Dev) (hk : Kept fu n0 d) : Kept fu n0 (sendFlit ch h payload d) := by
  unfold sendFlit
  repeat' (first | with_reducible (first | assumption | apply send_kept | apply putChan_kept | intro _ | split) | simp only [kept_mk_iff] | dsimp only)

theorem countReplay_kept {fu : Fuses} {n0 : Nat} (ch : Nat) (d : Dev) (hk : Kept fu n0 d) : Kept fu n0 (countReplay ch d) := by
  unfold countReplay
  repeat' (first | with_reducible (first | assumption | apply addField_kept | intro _ | split) | simp only [kept_mk_iff] | dsimp only)

theorem startRetrain_kept {fu : Fuses} {n0 : Nat} (l : Nat) (d : Dev) (hk : Kept fu n0 d) : Kept fu n0 (startRetrain l d) := by
  unfold startRetrain
  repeat' (first | with_reducible (first | assumption | apply addField_kept | apply putLink_kept | intro _ | split) | simp only [kept_mk_iff] | dsimp only)

theorem flitCrcFail_kept {fu : Fuses} {n0 : Nat} (ch : Nat) (h : DWord) (payload : List Byte) (crc : BitVec 40) (replayed : Bool) (d : Dev) (hk : Kept fu n0 d) : Kept fu n0 (flitCrcFail ch h payload crc replayed d) := by
  unfold flitCrcFail
  repeat' (first | with_reducible (first | assumption | apply send_kept | apply putChan_kept | apply countReplay_kept | apply startRetrain_kept | intro _ | split) | simp only [kept_mk_iff] | dsimp only)

theorem relay_kept {fu : Fuses} {n0 : Nat} (l : List (Nat × Nat)) (h : DWord) (payload : List Byte) (d : Dev) (hk : Kept fu n0 d) : Kept fu n0 (relay l h payload d) := by
  induction l generalizing d with
  | nil => exact hk
  | cons x r ih =>
    obtain ⟨ch, vc⟩ := x
    unfold relay
    split
    · exact ih _ (sendFlit_kept _ _ _ _ hk)
    · exact putChan_kept _ _ _ hk

theorem replayFrom_kept {fu : Fuses} {n0 : Nat} (ch lseq : Nat) (d : Dev) (hk : Kept fu n0 d) : Kept fu n0 (replayFrom ch lseq d) := by
  unfold replayFrom
  repeat' (first | with_reducible (first | assumption | apply send_kept | apply forEach_kept | intro _ | split) | simp only [kept_mk_iff] | dsimp only)

theorem replayRequestRx_kept {fu : Fuses} {n0 : Nat} (ch lseq : Nat) (d : Dev) (hk : Kept fu n0 d) : Kept fu n0 (replayRequestRx ch lseq d) := by
  unfold replayRequestRx
  repeat' (first | with_reducible (first | assumption | apply putChan_kept | apply replayFrom_kept | intro _ | split) | simp only [kept_mk_iff] | dsimp only)

theorem flushChan_kept {fu : Fuses} {n0 : Nat} (ch : Nat) (d : Dev) (hk : Kept fu n0 d) : Kept fu n0 (flushChan ch d) := by
  unfold flushChan
  repeat' (first | with_reducible (first | assumption | apply forEach_kept | apply putChan_kept | apply relay_kept | apply replayFrom_kept | intro _ | split) | simp only [kept_mk_iff] | dsimp only)

theorem linkUp_kept {fu : Fuses} {n0 : Nat} (l : Nat) (d : Dev) (hk : Kept fu n0 d) : Kept fu n0 (linkUp l d) := by
  unfold linkUp
  repeat' (first | with_reducible (first | assumption | apply forEach_kept | apply putLink_kept | apply flushChan_kept | intro _ | split) | simp only [kept_mk_iff] | dsimp only)

theorem retrained_kept {fu : Fuses} {n0 : Nat} (l : Nat) (ok : Bool) (d : Dev) (hk : Kept fu n0 d) : Kept fu n0 (retrained l ok d) := by
  unfold retrained
  repeat' (first | with_reducible (first | assumption | apply putLink_kept | apply startRetrain_kept | apply linkUp_kept | intro _ | split) | simp only [kept_mk_iff] | dsimp only)

theorem firewallFlit_kept {fu : Fuses} {n0 : Nat} (b : Nat) (h : DWord) (d : Dev) (hk : Kept fu n0 d) : Kept fu n0 (firewallFlit b h d) := by
  unfold firewallFlit
  repeat' (first | with_reducible (first | assumption | apply bump_kept | intro _ | split) | simp only [kept_mk_iff] | dsimp only)

theorem countFb_kept {fu : Fuses} {n0 : Nat} (p src : Nat) (h : DWord) (d : Dev) (hk : Kept fu n0 d) : Kept fu n0 (countFb p src h d) := by
  unfold countFb
  repeat' (first | with_reducible (first | assumption | apply addWrap_kept | intro _ | split) | simp only [kept_mk_iff] | dsimp only)

theorem nodeInject_kept {fu : Fuses} {n0 : Nat} (p src : Nat) (h : DWord) (payload : List Byte) (d : Dev) (hk : Kept fu n0 d) : Kept fu n0 (nodeInject p src h payload d) := by
  unfold nodeInject
  repeat' (first | with_reducible (first | assumption | apply relay_kept | apply countFb_kept | intro _ | split) | simp only [kept_mk_iff] | dsimp only)

theorem fretInject_kept {fu : Fuses} {n0 : Nat} (p b : Nat) (h : DWord) (payload : List Byte) (d : Dev) (hk : Kept fu n0 d) : Kept fu n0 (fretInject p b h payload d) := by
  unfold fretInject
  repeat' (first | with_reducible (first | assumption | apply relay_kept | apply countFb_kept | intro _ | split) | simp only [kept_mk_iff] | dsimp only)

theorem ringTake_kept {fu : Fuses} {n0 : Nat} (b c : Nat) (payload : List Byte) (d : Dev) (hk : Kept fu n0 d) : Kept fu n0 (ringTake b c payload d) := by
  unfold ringTake
  repeat' (first | with_reducible (first | assumption | intro _ | split) | simp only [kept_mk_iff] | dsimp only)

theorem ringDrop_kept {fu : Fuses} {n0 : Nat} (p : Nat) (d : Dev) (hk : Kept fu n0 d) : Kept fu n0 (ringDrop p d) := by
  unfold ringDrop
  repeat' (first | with_reducible (first | assumption | apply foldl_kept | apply foldl_kept_snd | intro _ | split) | simp only [kept_mk_iff] | dsimp only)

theorem neckBulk_kept {fu : Fuses} {n0 : Nat} (p b c : Nat) (l : List Byte) (d : Dev) (hk : Kept fu n0 d) : Kept fu n0 (neckBulk p b c l d) := by
  unfold neckBulk
  repeat' (first | with_reducible (first | assumption | apply forEach_kept | apply nodeInject_kept | intro _ | split) | simp only [kept_mk_iff] | dsimp only)

theorem bridgeBulk_kept {fu : Fuses} {n0 : Nat} (p src b cls : Nat) (l : List Byte) (d : Dev) (hk : Kept fu n0 d) : Kept fu n0 (bridgeBulk p src b cls l d) := by
  unfold bridgeBulk
  repeat' (first | with_reducible (first | assumption | apply forEach_kept | apply nodeInject_kept | intro _ | split) | simp only [kept_mk_iff] | dsimp only)

theorem errRecord_kept {fu : Fuses} {n0 : Nat} (ty part die course ptile wtile group layer stage result stream colmask : Nat) (persist : Bool) (d : Dev) (hk : Kept fu n0 d) : Kept fu n0 (errRecord ty part die course ptile wtile group layer stage result stream colmask persist d) := by
  unfold errRecord
  repeat' (first | with_reducible (first | assumption | apply raiseEvent_kept | intro _ | split) | simp only [kept_mk_iff] | dsimp only)

theorem hbmRead_kept {fu : Fuses} {n0 : Nat} (b a n : Nat) (d : Dev) (hk : Kept fu n0 d) : Kept fu n0 (hbmRead b a n d) := by
  unfold hbmRead
  repeat' (first | with_reducible (first | assumption | apply addCtr_kept | intro _ | split) | simp only [kept_mk_iff] | dsimp only)

theorem hbmCount_kept {fu : Fuses} {n0 : Nat} (p n : Nat) (d : Dev) (hk : Kept fu n0 d) : Kept fu n0 (hbmCount p n d) := by
  unfold hbmCount
  exact addWrap_kept _ _ _ hk

theorem carryPoison_kept {fu : Fuses} {n0 : Nat} (srcB src b a n : Nat) (d : Dev) (hk : Kept fu n0 d) : Kept fu n0 (carryPoison srcB src b a n d) := by
  obtain ⟨⟨a1, b1, c1⟩, g, k⟩ := hk
  refine ⟨⟨a1, b1, ?_⟩, g, k⟩
  have aux : ∀ (l : List (Nat × Bool)) (m : SMap Bool), SMapWf m = true →
      SMapWf (l.foldl (fun m e => mput m (hbmKey b a / 8 + (e.1 - hbmKey srcB src / 8)) true) m) = true := by
    intro l
    induction l with
    | nil => exact fun _ h => h
    | cons x r ih => exact fun m h => ih _ (smapWf_mput _ _ h)
  exact aux _ _ c1

theorem poisonWord_kept {fu : Fuses} {n0 : Nat} (b a : Nat) (d : Dev) (hk : Kept fu n0 d) : Kept fu n0 (poisonWord b a d) := by
  exact poison_kept hk _ _ rfl rfl rfl rfl rfl

theorem hbmVerdict_kept {fu : Fuses} {n0 : Nat} (b a n : Nat) (d : Dev) (hk : Kept fu n0 d) : Kept fu n0 (hbmVerdict b a n d) := by
  unfold hbmVerdict
  repeat' (first | with_reducible (first | assumption | apply bump_kept | apply errRecord_kept | apply poisonWord_kept | intro _ | split) | simp only [kept_mk_iff] | dsimp only)

theorem hbmErr_kept {fu : Fuses} {n0 : Nat} (b a n : Nat) (d : Dev) (hk : Kept fu n0 d) : Kept fu n0 (hbmErr b a n d) := by
  unfold hbmErr
  repeat' (first | with_reducible (first | assumption | apply bump_kept | apply hbmVerdict_kept | intro _ | split) | simp only [kept_mk_iff] | dsimp only)

theorem hbmReadEcc_kept {fu : Fuses} {n0 : Nat} (b a n : Nat) (errs : List (Nat × Nat)) (d : Dev) (hk : Kept fu n0 d) : Kept fu n0 (hbmReadEcc b a n errs d) := by
  unfold hbmReadEcc
  repeat' (first | with_reducible (first | assumption | apply addCtr_kept | apply forEach_kept | apply hbmVerdict_kept | intro _ | split) | simp only [kept_mk_iff] | dsimp only)

theorem patrolScrub_kept {fu : Fuses} {n0 : Nat} (b stack addr n : Nat) (d : Dev) (hk : Kept fu n0 d) : Kept fu n0 (patrolScrub b stack addr n d) := by
  unfold patrolScrub
  repeat' (first | with_reducible (first | assumption | apply hbmErr_kept | intro _ | split) | simp only [kept_mk_iff] | dsimp only)

theorem putTune_kept {fu : Fuses} {n0 : Nat} (p : Nat) (t : Tune) (d : Dev) (hk : Kept fu n0 d) : Kept fu n0 (putTune p t d) := by
  unfold putTune
  repeat' (first | with_reducible (first | assumption | intro _ | split) | simp only [kept_mk_iff] | dsimp only)

theorem modTune_kept {fu : Fuses} {n0 : Nat} (p : Nat) (f : Tune → Tune) (d : Dev) (hk : Kept fu n0 d) : Kept fu n0 (modTune p f d) := by
  unfold modTune
  repeat' (first | with_reducible (first | assumption | apply putTune_kept | intro _ | split) | simp only [kept_mk_iff] | dsimp only)

theorem writeTables_kept {fu : Fuses} {n0 : Nat} (b : Nat) (q : Pub) (d : Dev) (hk : Kept fu n0 d) : Kept fu n0 (writeTables b q d) := by
  unfold writeTables
  repeat' (first | with_reducible (first | assumption | apply forEach_kept | apply hbmWrite_kept | apply hbmZero_kept | intro _ | split) | simp only [kept_mk_iff] | dsimp only)

theorem putKv_kept {fu : Fuses} {n0 : Nat} (b : Nat) (k : KvBridge) (d : Dev) (hk : Kept fu n0 d) : Kept fu n0 (putKv b k d) := by
  unfold putKv
  repeat' (first | with_reducible (first | assumption | intro _ | split) | simp only [kept_mk_iff] | dsimp only)

theorem modKv_kept {fu : Fuses} {n0 : Nat} (b : Nat) (f : KvBridge → KvBridge) (d : Dev) (hk : Kept fu n0 d) : Kept fu n0 (modKv b f d) := by
  unfold modKv
  repeat' (first | with_reducible (first | assumption | apply putKv_kept | intro _ | split) | simp only [kept_mk_iff] | dsimp only)

theorem refFrame_kept {fu : Fuses} {n0 : Nat} (b loc addr : Nat) (d : Dev) (hk : Kept fu n0 d) : Kept fu n0 (refFrame b loc addr d) := by
  unfold refFrame
  repeat' (first | with_reducible (first | assumption | apply modKv_kept | intro _ | split) | simp only [kept_mk_iff] | dsimp only)

theorem unrefFrame_kept {fu : Fuses} {n0 : Nat} (b f : Nat) (d : Dev) (hk : Kept fu n0 d) : Kept fu n0 (unrefFrame b f d) := by
  unfold unrefFrame
  repeat' (first | with_reducible (first | assumption | apply modKv_kept | intro _ | split) | simp only [kept_mk_iff] | dsimp only)

theorem acceptEdit_kept {fu : Fuses} {n0 : Nat} (b : Nat) (e : Edit) (d : Dev) (hk : Kept fu n0 d) : Kept fu n0 (acceptEdit b e d) := by
  unfold acceptEdit
  repeat' (first | with_reducible (first | assumption | apply modKv_kept | intro _ | split) | simp only [kept_mk_iff] | dsimp only)

theorem mapPage_kept {fu : Fuses} {n0 : Nat} (p b idx rk key : Nat) (d : Dev) (hk : Kept fu n0 d) : Kept fu n0 (mapPage p b idx rk key d) := by
  unfold mapPage
  repeat' (first | with_reducible (first | assumption | apply hbmZero_kept | apply refFrame_kept | apply acceptEdit_kept | intro _ | split) | simp only [kept_mk_iff] | dsimp only)

theorem dropBufs_kept {fu : Fuses} {n0 : Nat} (b : Nat) (f : StgBuf → Bool) (d : Dev) (hk : Kept fu n0 d) : Kept fu n0 (dropBufs b f d) := by
  unfold dropBufs
  repeat' (first | with_reducible (first | assumption | apply modKv_kept | intro _ | split) | simp only [kept_mk_iff] | dsimp only)

theorem releaseRegion_kept {fu : Fuses} {n0 : Nat} (b idx rk : Nat) (d : Dev) (hk : Kept fu n0 d) : Kept fu n0 (releaseRegion b idx rk d) := by
  unfold releaseRegion
  repeat' (first | with_reducible (first | assumption | apply modKv_kept | apply acceptEdit_kept | apply dropBufs_kept | intro _ | split) | simp only [kept_mk_iff] | dsimp only)

theorem cacheLook_kept {fu : Fuses} {n0 : Nat} (b key : Nat) (fill : Bool) (d : Dev) (hk : Kept fu n0 d) : Kept fu n0 (cacheLook b key fill d) := by
  unfold cacheLook
  repeat' (first | with_reducible (first | assumption | apply bump_kept | apply putKv_kept | intro _ | split) | simp only [kept_mk_iff] | dsimp only)

theorem publishEdits_kept {fu : Fuses} {n0 : Nat} (b : Nat) (d : Dev) (hk : Kept fu n0 d) : Kept fu n0 (publishEdits b d).2 := by
  unfold publishEdits
  repeat' (first | with_reducible (first | assumption | apply addCtr_kept | apply forEach_kept | apply writeTables_kept | apply putKv_kept | apply unrefFrame_kept | apply foldl_kept | apply foldl_kept_snd | intro _ | split) | simp only [kept_mk_iff] | dsimp only)

theorem generationEnd_kept {fu : Fuses} {n0 : Nat} (b : Nat) (d : Dev) (hk : Kept fu n0 d) : Kept fu n0 (generationEnd b d) := by
  unfold generationEnd
  repeat' (first | with_reducible (first | assumption | apply modKv_kept | apply foldl_kept | apply foldl_kept_snd | intro _ | split) | simp only [kept_mk_iff] | dsimp only)

theorem takeRegion_kept {fu : Fuses} {n0 : Nat} (p b rk model mode maxlen prefixLen : Nat) (r : List Byte) (d : Dev) (hk : Kept fu n0 d) : ∀ d1, takeRegion p b rk model mode maxlen prefixLen r d = some d1 → Kept fu n0 d1 := by
  intro d1 hd1
  unfold takeRegion at hd1
  obtain ⟨base, _, rfl⟩ := Option.map_eq_some_iff.1 hd1
  exact modKv_kept _ _ _ hk

theorem modRegion_kept {fu : Fuses} {n0 : Nat} (b rk : Nat) (f : Region → Region) (d : Dev) (hk : Kept fu n0 d) : Kept fu n0 (modRegion b rk f d) := by
  unfold modRegion
  repeat' (first | with_reducible (first | assumption | apply modKv_kept | intro _ | split) | simp only [kept_mk_iff] | dsimp only)

theorem putTile_kept {fu : Fuses} {n0 : Nat} (f c t : Nat) (x : Tile) (d : Dev) (hk : Kept fu n0 d) : Kept fu n0 (putTile f c t x d) := by
  unfold putTile
  repeat' (first | with_reducible (first | assumption | intro _ | split) | simp only [kept_mk_iff] | dsimp only)

theorem modTile_kept {fu : Fuses} {n0 : Nat} (f c t : Nat) (g : Tile → Tile) (d : Dev) (hk : Kept fu n0 d) : Kept fu n0 (modTile f c t g d) := by
  unfold modTile
  repeat' (first | with_reducible (first | assumption | apply putTile_kept | intro _ | split) | simp only [kept_mk_iff] | dsimp only)

theorem putCourse_kept {fu : Fuses} {n0 : Nat} (f c : Nat) (x : Course) (d : Dev) (hk : Kept fu n0 d) : Kept fu n0 (putCourse f c x d) := by
  unfold putCourse
  repeat' (first | with_reducible (first | assumption | intro _ | split) | simp only [kept_mk_iff] | dsimp only)

theorem modCourse_kept {fu : Fuses} {n0 : Nat} (f c : Nat) (g : Course → Course) (d : Dev) (hk : Kept fu n0 d) : Kept fu n0 (modCourse f c g d) := by
  unfold modCourse
  repeat' (first | with_reducible (first | assumption | apply putCourse_kept | intro _ | split) | simp only [kept_mk_iff] | dsimp only)

theorem modDie_kept {fu : Fuses} {n0 : Nat} (x : Nat) (g : Die → Die) (d : Dev) (hk : Kept fu n0 d) : Kept fu n0 (modDie x g d) := by
  unfold modDie
  repeat' (first | with_reducible (first | assumption | intro _ | split) | simp only [kept_mk_iff] | dsimp only)

theorem calStart_kept {fu : Fuses} {n0 : Nat} (f kind : Nat) (d : Dev) (hk : Kept fu n0 d) : Kept fu n0 (calStart f kind d) := by
  unfold calStart
  repeat' (first | with_reducible (first | assumption | apply modDie_kept | intro _ | split) | simp only [kept_mk_iff] | dsimp only)

theorem putSlot_kept {fu : Fuses} {n0 : Nat} (f c s : Nat) (x : Slot) (d : Dev) (hk : Kept fu n0 d) : Kept fu n0 (putSlot f c s x d) := by
  unfold putSlot
  repeat' (first | with_reducible (first | assumption | apply modCourse_kept | intro _ | split) | simp only [kept_mk_iff] | dsimp only)

theorem modSlot_kept {fu : Fuses} {n0 : Nat} (f c s : Nat) (g : Slot → Slot) (d : Dev) (hk : Kept fu n0 d) : Kept fu n0 (modSlot f c s g d) := by
  unfold modSlot
  repeat' (first | with_reducible (first | assumption | apply putSlot_kept | intro _ | split) | simp only [kept_mk_iff] | dsimp only)

theorem modPlane_kept {fu : Fuses} {n0 : Nat} (f c t : Nat) (b : Bool) (g : Plane → Plane) (d : Dev) (hk : Kept fu n0 d) : Kept fu n0 (modPlane f c t b g d) := by
  unfold modPlane
  repeat' (first | with_reducible (first | assumption | apply modTile_kept | intro _ | split) | simp only [kept_mk_iff] | dsimp only)

theorem setTmap_kept {fu : Fuses} {n0 : Nat} (f c w t : Nat) (d : Dev) (hk : Kept fu n0 d) : Kept fu n0 (setTmap f c w t d) := by
  unfold setTmap
  repeat' (first | with_reducible (first | assumption | apply modCourse_kept | intro _ | split) | simp only [kept_mk_iff] | dsimp only)

theorem clearSlotWork_kept {fu : Fuses} {n0 : Nat} (f c s : Nat) (d : Dev) (hk : Kept fu n0 d) : Kept fu n0 (clearSlotWork f c s d) := by
  unfold clearSlotWork
  repeat' (first | with_reducible (first | assumption | apply forEach_kept | apply modTile_kept | apply modCourse_kept | apply modSlot_kept | intro _ | split) | simp only [kept_mk_iff] | dsimp only)

theorem clearEf_kept {fu : Fuses} {n0 : Nat} (f c s : Nat) (d : Dev) (hk : Kept fu n0 d) : Kept fu n0 (clearEf f c s d) := by
  unfold clearEf
  repeat' (first | with_reducible (first | assumption | apply modCourse_kept | intro _ | split) | simp only [kept_mk_iff] | dsimp only)

theorem emptySlotPlanes_kept {fu : Fuses} {n0 : Nat} (f c s : Nat) (d : Dev) (hk : Kept fu n0 d) : Kept fu n0 (emptySlotPlanes f c s d) := by
  unfold emptySlotPlanes
  repeat' (first | with_reducible (first | assumption | apply forEach_kept | apply modTile_kept | intro _ | split) | simp only [kept_mk_iff] | dsimp only)

theorem resetSlot_kept {fu : Fuses} {n0 : Nat} (f c s : Nat) (d : Dev) (hk : Kept fu n0 d) : Kept fu n0 (resetSlot f c s d) := by
  unfold resetSlot
  repeat' (first | with_reducible (first | assumption | apply clearSlotWork_kept | apply clearEf_kept | apply emptySlotPlanes_kept | intro _ | split) | simp only [kept_mk_iff] | dsimp only)

theorem modStream_kept {fu : Fuses} {n0 : Nat} (i : Nat) (f : Stream → Stream) (d : Dev) (hk : Kept fu n0 d) : Kept fu n0 (modStream i f d) := by
  unfold modStream
  repeat' (first | with_reducible (first | assumption | intro _ | split) | simp only [kept_mk_iff] | dsimp only)

theorem streamMsg_kept {fu : Fuses} {n0 : Nat} (s : Stream) (ty : Byte) (pay : List Byte) (d : Dev) (hk : Kept fu n0 d) : Kept fu n0 (streamMsg s ty pay d) := by
  unfold streamMsg
  repeat' (first | with_reducible (first | assumption | apply queueMsg_kept | intro _ | split) | simp only [kept_mk_iff] | dsimp only)

theorem sendStatus_kept {fu : Fuses} {n0 : Nat} (i : Nat) (d : Dev) (hk : Kept fu n0 d) : Kept fu n0 (sendStatus i d) := by
  unfold sendStatus
  repeat' (first | with_reducible (first | assumption | apply streamMsg_kept | intro _ | split) | simp only [kept_mk_iff] | dsimp only)

theorem modSched_kept {fu : Fuses} {n0 : Nat} (p : Nat) (f : Sched → Sched) (d : Dev) (hk : Kept fu n0 d) : Kept fu n0 (modSched p f d) := by
  unfold modSched
  repeat' (first | with_reducible (first | assumption | intro _ | split) | simp only [kept_mk_iff] | dsimp only)

theorem setAtRisk_kept {fu : Fuses} {n0 : Nat} (i : Nat) (v : Bool) (d : Dev) (hk : Kept fu n0 d) : Kept fu n0 (setAtRisk i v d) := by
  unfold setAtRisk
  repeat' (first | with_reducible (first | assumption | apply modStream_kept | apply sendStatus_kept | apply modSched_kept | intro _ | split) | simp only [kept_mk_iff] | dsimp only)

theorem windowEvent_kept {fu : Fuses} {n0 : Nat} (p ty model window cause epoch handle : Nat) (d : Dev) (hk : Kept fu n0 d) : Kept fu n0 (windowEvent p ty model window cause epoch handle d) := by
  unfold windowEvent
  repeat' (first | with_reducible (first | assumption | apply raiseEvent_kept | intro _ | split) | simp only [kept_mk_iff] | dsimp only)

theorem openWaiting_kept {fu : Fuses} {n0 : Nat} (d : Dev) (hk : Kept fu n0 d) : Kept fu n0 (openWaiting d) := by
  unfold openWaiting
  repeat' (first | with_reducible (first | assumption | apply forEach_kept | apply windowEvent_kept | intro _ | split) | simp only [kept_mk_iff] | dsimp only)

theorem settleRefs_kept {fu : Fuses} {n0 : Nat} (d : Dev) (hk : Kept fu n0 d) : Kept fu n0 (settleRefs d) := by
  unfold settleRefs
  repeat' (first | with_reducible (first | assumption | apply openWaiting_kept | intro _ | split) | simp only [kept_mk_iff] | dsimp only)

theorem dropWalks_kept {fu : Fuses} {n0 : Nat} (b i : Nat) (d : Dev) (hk : Kept fu n0 d) : Kept fu n0 (dropWalks b i d) := by
  unfold dropWalks
  repeat' (first | with_reducible (first | assumption | apply modKv_kept | intro _ | split) | simp only [kept_mk_iff] | dsimp only)

theorem releaseStream_kept {fu : Fuses} {n0 : Nat} (i : Nat) (d : Dev) (hk : Kept fu n0 d) : Kept fu n0 (releaseStream i d) := by
  unfold releaseStream
  repeat' (first | with_reducible (first | assumption | apply releaseRegion_kept | intro _ | split) | simp only [kept_mk_iff] | dsimp only)

theorem tryFree_kept {fu : Fuses} {n0 : Nat} (i : Nat) (d : Dev) (hk : Kept fu n0 d) : Kept fu n0 (tryFree i d) := by
  unfold tryFree
  repeat' (first | with_reducible (first | assumption | apply modSched_kept | intro _ | split) | simp only [kept_mk_iff] | dsimp only)

theorem endStream_kept {fu : Fuses} {n0 : Nat} (i reason : Nat) (d : Dev) (hk : Kept fu n0 d) : Kept fu n0 (endStream i reason d) := by
  unfold endStream
  repeat' (first | with_reducible (first | assumption | apply dropBufs_kept | apply modStream_kept | apply sendStatus_kept | apply modSched_kept | apply settleRefs_kept | apply dropWalks_kept | apply releaseStream_kept | apply tryFree_kept | intro _ | split) | simp only [kept_mk_iff] | dsimp only)

theorem leaveBatch_kept {fu : Fuses} {n0 : Nat} (i batch : Nat) (d : Dev) (hk : Kept fu n0 d) : Kept fu n0 (leaveBatch i batch d) := by
  unfold leaveBatch
  repeat' (first | with_reducible (first | assumption | apply modStream_kept | apply settleRefs_kept | apply releaseStream_kept | apply tryFree_kept | intro _ | split) | simp only [kept_mk_iff] | dsimp only)

theorem rstEvent_kept {fu : Fuses} {n0 : Nat} (p ty scope source cause stage die course stream arg : Nat) (persist : Bool) (d : Dev) (hk : Kept fu n0 d) : Kept fu n0 (rstEvent p ty scope source cause stage die course stream arg persist d) := by
  unfold rstEvent
  repeat' (first | with_reducible (first | assumption | apply raiseEvent_kept | intro _ | split) | simp only [kept_mk_iff] | dsimp only)

theorem rollback_kept {fu : Fuses} {n0 : Nat} (i : Nat) (d : Dev) (hk : Kept fu n0 d) : Kept fu n0 (rollback i d) := by
  unfold rollback
  repeat' (first | with_reducible (first | assumption | apply bump_kept | apply dropBufs_kept | apply modStream_kept | apply dropWalks_kept | apply endStream_kept | apply foldl_kept | apply foldl_kept_snd | intro _ | split) | simp only [kept_mk_iff] | dsimp only)

theorem discardBatches_kept {fu : Fuses} {n0 : Nat} (p : Nat) (d : Dev) (hk : Kept fu n0 d) : Kept fu n0 (discardBatches p d) := by
  unfold discardBatches
  repeat' (first | with_reducible (first | assumption | apply forEach_kept | apply ringDrop_kept | apply modSlot_kept | apply clearSlotWork_kept | apply modSched_kept | intro _ | split) | simp only [kept_mk_iff] | dsimp only)

theorem dropSteps_kept {fu : Fuses} {n0 : Nat} (i : Nat) (d : Dev) (hk : Kept fu n0 d) : Kept fu n0 (dropSteps i d) := by
  unfold dropSteps
  repeat' (first | with_reducible (first | assumption | apply modStream_kept | apply releaseStream_kept | apply tryFree_kept | intro _ | split) | simp only [kept_mk_iff] | dsimp only)

theorem discardAndSort_kept {fu : Fuses} {n0 : Nat} (p : Nat) (failing : Nat → Bool) (reason : Nat) (d : Dev) (hk : Kept fu n0 d) : Kept fu n0 (discardAndSort p failing reason d) := by
  unfold discardAndSort
  repeat' (first | with_reducible (first | assumption | apply forEach_kept | apply modStream_kept | apply settleRefs_kept | apply endStream_kept | apply rollback_kept | apply discardBatches_kept | apply dropSteps_kept | intro _ | split) | simp only [kept_mk_iff] | dsimp only)

theorem resetStage_kept {fu : Fuses} {n0 : Nat} (p stage : Nat) (d : Dev) (hk : Kept fu n0 d) : Kept fu n0 (resetStage p stage d) := by
  unfold resetStage
  repeat' (first | with_reducible (first | assumption | apply forEach_kept | apply resetSlot_kept | intro _ | split) | simp only [kept_mk_iff] | dsimp only)

theorem addSub_kept {fu : Fuses} {n0 : Nat} (x : SubReset) (d : Dev) (hk : Kept fu n0 d) : Kept fu n0 (addSub x d) := by
  unfold addSub
  repeat' (first | with_reducible (first | assumption | intro _ | split) | simp only [kept_mk_iff] | dsimp only)

theorem stageFault_kept {fu : Fuses} {n0 : Nat} (p stage cause f c : Nat) (bridge : Bool) (batch : Option Nat) (failed : Option Nat) (d : Dev) (hk : Kept fu n0 d) : Kept fu n0 (stageFault p stage cause f c bridge batch failed d) := by
  unfold stageFault
  repeat' (first | with_reducible (first | assumption | apply regPut_kept | apply bump_kept | apply rstEvent_kept | apply discardAndSort_kept | apply resetStage_kept | apply addSub_kept | intro _ | split) | simp only [kept_mk_iff] | dsimp only)

theorem slotFault_kept {fu : Fuses} {n0 : Nat} (cause f c s : Nat) (failed : Option Nat) (d : Dev) (hk : Kept fu n0 d) : Kept fu n0 (slotFault cause f c s failed d) := by
  unfold slotFault
  repeat' (first | with_reducible (first | assumption | apply stageFault_kept | intro _ | split) | simp only [kept_mk_iff] | dsimp only)

end Sys2Proof.Machine
end

