-- ==== Sys2Proof/Laws/KeptFret.lean ====
section
/-! SUPPORT. What the operations of the Fret dies: planes, Capo, plucks, checks, Tailpiece, self-test and Drone keep, one lemma each (Laws/Kept.lean). -/

namespace Sys2Proof.Machine

set_option linter.unusedSimpArgs false

theorem tileRecord_kept {fu : Fuses} {n0 : Nat} (ty f c t group layer res stream colmask : Nat) (persist : Bool) (d : Dev) (hk : Kept fu n0 d) : Kept fu n0 (tileRecord ty f c t group layer res stream colmask persist d) := by
  unfold tileRecord
  repeat' (first | with_reducible (first | assumption | apply errRecord_kept | intro _ | split) | simp only [kept_mk_iff] | dsimp only)

theorem startLoad_kept {fu : Fuses} {n0 : Nat} (f c t s : Nat) (b : Bool) (a : Nat) (repair : Bool) (errs : List (Nat × Nat)) (d : Dev) (hk : Kept fu n0 d) : Kept fu n0 (startLoad f c t s b a repair errs d) := by
  unfold startLoad
  repeat' (first | with_reducible (first | assumption | apply neckBulk_kept | apply hbmCount_kept | apply hbmReadEcc_kept | apply modPlane_kept | apply slotFault_kept | intro _ | split) | simp only [kept_mk_iff] | dsimp only)

theorem dropStale_kept {fu : Fuses} {n0 : Nat} (f c t s w : Nat) (d : Dev) (hk : Kept fu n0 d) : Kept fu n0 (dropStale f c t s w d) := by
  unfold dropStale
  repeat' (first | with_reducible (first | assumption | apply modTile_kept | intro _ | split) | simp only [kept_mk_iff] | dsimp only)

theorem farStarted_kept {fu : Fuses} {n0 : Nat} (f c w : Nat) (q : PassD) (d : Dev) (hk : Kept fu n0 d) : Kept fu n0 (farStarted f c w q d) := by
  unfold farStarted
  repeat' (first | with_reducible (first | assumption | intro _ | split) | simp only [kept_mk_iff] | dsimp only)

theorem passLoad_kept {fu : Fuses} {n0 : Nat} (f c t s w : Nat) (b : Bool) (q : PassD) (errs : List (Nat × Nat)) (d : Dev) (hk : Kept fu n0 d) : Kept fu n0 (passLoad f c t s w b q errs d) := by
  unfold passLoad
  repeat' (first | with_reducible (first | assumption | apply bump_kept | apply modTile_kept | apply slotFault_kept | apply startLoad_kept | apply farStarted_kept | intro _ | split) | simp only [kept_mk_iff] | dsimp only)

theorem planeLoadStart_kept {fu : Fuses} {n0 : Nat} (f c t : Nat) (errs : List (Nat × Nat)) (d : Dev) (hk : Kept fu n0 d) : Kept fu n0 (planeLoadStart f c t errs d) := by
  unfold planeLoadStart
  repeat' (first | with_reducible (first | assumption | apply startLoad_kept | apply dropStale_kept | apply passLoad_kept | intro _ | split) | simp only [kept_mk_iff] | dsimp only)

theorem landSegment_kept {fu : Fuses} {n0 : Nat} (f c t s : Nat) (b : Bool) (k : Nat) (parityOk : Bool) (d : Dev) (hk : Kept fu n0 d) : Kept fu n0 (landSegment f c t s b k parityOk d) := by
  unfold landSegment
  repeat' (first | with_reducible (first | assumption | apply bump_kept | apply modPlane_kept | apply slotFault_kept | apply tileRecord_kept | intro _ | split) | simp only [kept_mk_iff] | dsimp only)

theorem landEnd_kept {fu : Fuses} {n0 : Nat} (f c t s : Nat) (b : Bool) (d : Dev) (hk : Kept fu n0 d) : Kept fu n0 (landEnd f c t s b d) := by
  unfold landEnd
  repeat' (first | with_reducible (first | assumption | apply modPlane_kept | apply slotFault_kept | intro _ | split) | simp only [kept_mk_iff] | dsimp only)

theorem rowSegmentArrival_kept {fu : Fuses} {n0 : Nat} (f c t row g : Nat) (b parityOk : Bool) (errs : List (Nat × Nat)) (d : Dev) (hk : Kept fu n0 d) : Kept fu n0 (rowSegmentArrival f c t row g b parityOk errs d) := by
  unfold rowSegmentArrival
  repeat' (first | with_reducible (first | assumption | apply neckBulk_kept | apply hbmReadEcc_kept | apply modPlane_kept | apply landSegment_kept | intro _ | split) | simp only [kept_mk_iff] | dsimp only)

theorem loadEndMarker_kept {fu : Fuses} {n0 : Nat} (f c t : Nat) (b : Bool) (d : Dev) (hk : Kept fu n0 d) : Kept fu n0 (loadEndMarker f c t b d) := by
  unfold loadEndMarker
  repeat' (first | with_reducible (first | assumption | apply neckBulk_kept | apply modPlane_kept | apply landEnd_kept | intro _ | split) | simp only [kept_mk_iff] | dsimp only)

theorem dropSamples_kept {fu : Fuses} {n0 : Nat} (f c : Nat) (gone : Sample → Bool) (d : Dev) (hk : Kept fu n0 d) : Kept fu n0 (dropSamples f c gone d) := by
  unfold dropSamples
  repeat' (first | with_reducible (first | assumption | apply addCtr_kept | apply choice_kept | apply forEach_kept | apply modCourse_kept | intro _ | split) | simp only [kept_mk_iff] | dsimp only)

theorem planeDrained_kept {fu : Fuses} {n0 : Nat} (f c t : Nat) (b : Bool) (waited : Nat) (d : Dev) (hk : Kept fu n0 d) : Kept fu n0 (planeDrained f c t b waited d) := by
  unfold planeDrained
  repeat' (first | with_reducible (first | assumption | apply addCtr_kept | apply forEach_kept | apply modPlane_kept | apply landSegment_kept | apply landEnd_kept | apply dropSamples_kept | intro _ | split) | simp only [kept_mk_iff] | dsimp only)

theorem modPluck_kept {fu : Fuses} {n0 : Nat} (f c id : Nat) (g : Pluck → Pluck) (d : Dev) (hk : Kept fu n0 d) : Kept fu n0 (modPluck f c id g d) := by
  unfold modPluck
  repeat' (first | with_reducible (first | assumption | apply modCourse_kept | intro _ | split) | simp only [kept_mk_iff] | dsimp only)

theorem retirePluck_kept {fu : Fuses} {n0 : Nat} (f c id : Nat) (d : Dev) (hk : Kept fu n0 d) : Kept fu n0 (retirePluck f c id d) := by
  unfold retirePluck
  repeat' (first | with_reducible (first | assumption | apply modCourse_kept | intro _ | split) | simp only [kept_mk_iff] | dsimp only)

theorem sendTerms_kept {fu : Fuses} {n0 : Nat} (f c : Nat) (p : Pluck) (g : Nat) (terms : List Term) (d : Dev) (hk : Kept fu n0 d) : Kept fu n0 (sendTerms f c p g terms d) := by
  unfold sendTerms
  repeat' (first | with_reducible (first | assumption | apply modCourse_kept | apply modPluck_kept | intro _ | split) | simp only [kept_mk_iff] | dsimp only)

theorem settleGroup_kept {fu : Fuses} {n0 : Nat} (f c : Nat) (p : Pluck) (g outcome : Nat) (d : Dev) (hk : Kept fu n0 d) : Kept fu n0 (settleGroup f c p g outcome d) := by
  unfold settleGroup
  repeat' (first | with_reducible (first | assumption | apply modPluck_kept | apply sendTerms_kept | intro _ | split) | simp only [kept_mk_iff] | dsimp only)

theorem addBacklog_kept {fu : Fuses} {n0 : Nat} (f c n : Nat) (d : Dev) (hk : Kept fu n0 d) : Kept fu n0 (addBacklog f c n d) := by
  unfold addBacklog
  repeat' (first | with_reducible (first | assumption | apply modCourse_kept | intro _ | split) | simp only [kept_mk_iff] | dsimp only)

theorem subBacklog_kept {fu : Fuses} {n0 : Nat} (f c n : Nat) (d : Dev) (hk : Kept fu n0 d) : Kept fu n0 (subBacklog f c n d) := by
  unfold subBacklog
  repeat' (first | with_reducible (first | assumption | apply modCourse_kept | intro _ | split) | simp only [kept_mk_iff] | dsimp only)

theorem countErr_kept {fu : Fuses} {n0 : Nat} (f c t : Nat) (d : Dev) (hk : Kept fu n0 d) : Kept fu n0 (countErr f c t d) := by
  unfold countErr
  repeat' (first | with_reducible (first | assumption | apply addField_kept | intro _ | split) | simp only [kept_mk_iff] | dsimp only)

theorem wtileRecord_kept {fu : Fuses} {n0 : Nat} (ty f c t : Nat) (w? : Option Nat) (persist : Bool) (d : Dev) (hk : Kept fu n0 d) : Kept fu n0 (wtileRecord ty f c t w? persist d) := by
  unfold wtileRecord
  repeat' (first | with_reducible (first | assumption | apply errRecord_kept | intro _ | split) | simp only [kept_mk_iff] | dsimp only)

theorem putRetMap_kept {fu : Fuses} {n0 : Nat} (l : List Nat) (d : Dev) (hk : Kept fu n0 d) : Kept fu n0 (putRetMap l d) := by
  unfold putRetMap
  repeat' (first | with_reducible (first | assumption | intro _ | split) | simp only [kept_mk_iff] | dsimp only)

theorem assignTile_kept {fu : Fuses} {n0 : Nat} (f c w t : Nat) (d : Dev) (hk : Kept fu n0 d) : Kept fu n0 (assignTile f c w t d) := by
  unfold assignTile
  repeat' (first | with_reducible (first | assumption | apply modTile_kept | apply modCourse_kept | intro _ | split) | simp only [kept_mk_iff] | dsimp only)

theorem coverTile_kept {fu : Fuses} {n0 : Nat} (f c w : Nat) (d : Dev) (hk : Kept fu n0 d) : Kept fu n0 (coverTile f c w d) := by
  unfold coverTile
  repeat' (first | with_reducible (first | assumption | apply modTile_kept | apply modCourse_kept | apply setTmap_kept | intro _ | split) | simp only [kept_mk_iff] | dsimp only)

theorem voidPlucks_kept {fu : Fuses} {n0 : Nat} (f c : Nat) (which : Pluck → Bool) (d : Dev) (hk : Kept fu n0 d) : Kept fu n0 (voidPlucks f c which d).2 := by
  unfold voidPlucks
  repeat' (first | with_reducible (first | assumption | apply forEach_kept | apply modCourse_kept | apply modPluck_kept | intro _ | split) | simp only [kept_mk_iff] | dsimp only)

theorem retireTile_kept {fu : Fuses} {n0 : Nat} (f c t : Nat) (d : Dev) (hk : Kept fu n0 d) : Kept fu n0 (retireTile f c t d) := by
  unfold retireTile
  repeat' (first | with_reducible (first | assumption | apply forEach_kept | apply modSlot_kept | apply bump_kept | apply modTile_kept | apply modCourse_kept | apply wtileRecord_kept | apply putRetMap_kept | apply assignTile_kept | apply coverTile_kept | apply voidPlucks_kept | intro _ | split) | simp only [kept_mk_iff] | dsimp only)

theorem markSuspect_kept {fu : Fuses} {n0 : Nat} (f c t : Nat) (d : Dev) (hk : Kept fu n0 d) : Kept fu n0 (markSuspect f c t d) := by
  unfold markSuspect
  repeat' (first | with_reducible (first | assumption | apply modTile_kept | apply modCourse_kept | apply countErr_kept | apply assignTile_kept | apply retireTile_kept | intro _ | split) | simp only [kept_mk_iff] | dsimp only)

theorem modBuf_kept {fu : Fuses} {n0 : Nat} (f c s : Nat) (b : Bool) (g : Buf → Buf) (d : Dev) (hk : Kept fu n0 d) : Kept fu n0 (modBuf f c s b g d) := by
  unfold modBuf
  repeat' (first | with_reducible (first | assumption | apply modSlot_kept | intro _ | split) | simp only [kept_mk_iff] | dsimp only)

theorem assignNext_kept {fu : Fuses} {n0 : Nat} (f c s : Nat) (d : Dev) (hk : Kept fu n0 d) : Kept fu n0 (assignNext f c s d) := by
  unfold assignNext
  repeat' (first | with_reducible (first | assumption | apply modSlot_kept | apply modBuf_kept | intro _ | split) | simp only [kept_mk_iff] | dsimp only)

theorem assignVec_kept {fu : Fuses} {n0 : Nat} (f c s : Nat) (q : PassD) (v : VecId) (d : Dev) (hk : Kept fu n0 d) : Kept fu n0 (assignVec f c s q v d) := by
  unfold assignVec
  repeat' (first | with_reducible (first | assumption | apply forEach_kept | apply assignNext_kept | intro _ | split) | simp only [kept_mk_iff] | dsimp only)

theorem handOver_kept {fu : Fuses} {n0 : Nat} (f c s layer : Nat) (v : VecId) (d : Dev) (hk : Kept fu n0 d) : Kept fu n0 (handOver f c s layer v d) := by
  unfold handOver
  repeat' (first | with_reducible (first | assumption | apply modCourse_kept | intro _ | split) | simp only [kept_mk_iff] | dsimp only)

theorem assignGroup_kept {fu : Fuses} {n0 : Nat} (f c s : Nat) (q : PassD) (vs : List VecId) (d : Dev) (hk : Kept fu n0 d) : Kept fu n0 (assignGroup f c s q vs d) := by
  unfold assignGroup
  repeat' (first | with_reducible (first | assumption | apply forEach_kept | apply assignVec_kept | apply handOver_kept | intro _ | split) | simp only [kept_mk_iff] | dsimp only)

theorem leaveService_kept {fu : Fuses} {n0 : Nat} (f c t : Nat) (d : Dev) (hk : Kept fu n0 d) : Kept fu n0 (leaveService f c t d) := by
  unfold leaveService
  repeat' (first | with_reducible (first | assumption | apply modTile_kept | intro _ | split) | simp only [kept_mk_iff] | dsimp only)

theorem freeServer_kept {fu : Fuses} {n0 : Nat} (f c p : Nat) (d : Dev) (hk : Kept fu n0 d) : Kept fu n0 (freeServer f c p d) := by
  unfold freeServer
  repeat' (first | with_reducible (first | assumption | apply modTile_kept | intro _ | split) | simp only [kept_mk_iff] | dsimp only)

theorem switchTile_kept {fu : Fuses} {n0 : Nat} (f c w layer : Nat) (d : Dev) (hk : Kept fu n0 d) : Kept fu n0 (switchTile f c w layer d) := by
  unfold switchTile
  repeat' (first | with_reducible (first | assumption | apply modTile_kept | apply modCourse_kept | apply setTmap_kept | apply coverTile_kept | apply leaveService_kept | apply freeServer_kept | intro _ | split) | simp only [kept_mk_iff] | dsimp only)

theorem swapTile_kept {fu : Fuses} {n0 : Nat} (f c t layer : Nat) (d : Dev) (hk : Kept fu n0 d) : Kept fu n0 (swapTile f c t layer d) := by
  unfold swapTile
  repeat' (first | with_reducible (first | assumption | apply modTile_kept | intro _ | split) | simp only [kept_mk_iff] | dsimp only)

theorem passStart_kept {fu : Fuses} {n0 : Nat} (f c s stall : Nat) (d : Dev) (hk : Kept fu n0 d) : Kept fu n0 (passStart f c s stall d) := by
  unfold passStart
  repeat' (first | with_reducible (first | assumption | apply regSetField_kept | apply addCtr_kept | apply forEach_kept | apply modCourse_kept | apply modSlot_kept | apply modSched_kept | apply slotFault_kept | apply switchTile_kept | apply swapTile_kept | intro _ | split) | simp only [kept_mk_iff] | dsimp only)

theorem sliceArrival_kept {fu : Fuses} {n0 : Nat} (f c w stream scale : Nat) (payload : List Byte) (outl : List Byte) (d : Dev) (hk : Kept fu n0 d) : Kept fu n0 (sliceArrival f c w stream scale payload outl d) := by
  unfold sliceArrival
  repeat' (first | with_reducible (first | assumption | apply ringTake_kept | apply modTile_kept | apply modCourse_kept | intro _ | split) | simp only [kept_mk_iff] | dsimp only)

theorem addClips_kept {fu : Fuses} {n0 : Nat} (f c : Nat) (p : Pluck) (n : Nat) (d : Dev) (hk : Kept fu n0 d) : Kept fu n0 (addClips f c p n d) := by
  unfold addClips
  repeat' (first | with_reducible (first | assumption | apply modTile_kept | apply modCourse_kept | intro _ | split) | simp only [kept_mk_iff] | dsimp only)

theorem windowEnds_kept {fu : Fuses} {n0 : Nat} (f c id : Nat) (d : Dev) (hk : Kept fu n0 d) : Kept fu n0 (windowEnds f c id d) := by
  unfold windowEnds
  repeat' (first | with_reducible (first | assumption | apply modTile_kept | intro _ | split) | simp only [kept_mk_iff] | dsimp only)

theorem convertPluck_kept {fu : Fuses} {n0 : Nat} (f c : Nat) (evs : List ConvEv) (p : Pluck) (d : Dev) (hk : Kept fu n0 d) : Kept fu n0 (convertPluck f c evs p d) := by
  unfold convertPluck
  repeat' (first | with_reducible (first | assumption | apply addCtr_kept | apply choice_kept | apply forEach_kept | apply modTile_kept | apply modSlot_kept | apply modPluck_kept | apply retirePluck_kept | apply addBacklog_kept | apply addClips_kept | apply windowEnds_kept | apply foldl_kept | apply foldl_kept_snd | intro _ | split) | simp only [kept_mk_iff] | dsimp only)

theorem convertAll_kept {fu : Fuses} {n0 : Nat} (f c : Nat) (evs : List ConvEv) (d : Dev) (hk : Kept fu n0 d) : Kept fu n0 (convertAll f c evs d) := by
  unfold convertAll
  repeat' (first | with_reducible (first | assumption | apply forEach_kept | apply convertPluck_kept | intro _ | split) | simp only [kept_mk_iff] | dsimp only)

theorem applyUpset_kept {fu : Fuses} {n0 : Nat} (f c : Nat) (u : Upset) (d : Dev) (hk : Kept fu n0 d) : Kept fu n0 (applyUpset f c u d) := by
  unfold applyUpset
  repeat' (first | with_reducible (first | assumption | apply modPlane_kept | intro _ | split) | simp only [kept_mk_iff] | dsimp only)

theorem windowDecide_kept {fu : Fuses} {n0 : Nat} (f c : Nat) (ms : List Demand) (d : Dev) (hk : Kept fu n0 d) : Kept fu n0 (windowDecide f c ms d).2 := by
  unfold windowDecide
  repeat' (first | with_reducible (first | assumption | apply addCtr_kept | apply bump_kept | apply choice_kept | apply forEach_kept | apply modSlot_kept | apply addBacklog_kept | apply foldl_kept | apply foldl_kept_snd | intro _ | split) | simp only [kept_mk_iff] | dsimp only)

theorem startPluck_kept {fu : Fuses} {n0 : Nat} (f c : Nat) (p : Pluck) (d : Dev) (hk : Kept fu n0 d) : Kept fu n0 (startPluck f c p d) := by
  unfold startPluck
  repeat' (first | with_reducible (first | assumption | apply bump_kept | apply add64_kept | apply choice_kept | apply modTile_kept | apply modCourse_kept | apply modSlot_kept | apply foldl_kept | apply foldl_kept_snd | intro _ | split) | simp only [kept_mk_iff] | dsimp only)

theorem doTake_kept {fu : Fuses} {n0 : Nat} (f c : Nat) (k : Take) (i : Nat) (g : Grant) (d : Dev) (hk : Kept fu n0 d) : Kept fu n0 (doTake f c k i g d) := by
  unfold doTake
  repeat' (first | with_reducible (first | assumption | apply addCtr_kept | apply bump_kept | apply modTile_kept | apply modCourse_kept | apply startPluck_kept | intro _ | split) | simp only [kept_mk_iff] | dsimp only)

theorem purgeSets_kept {fu : Fuses} {n0 : Nat} (f c : Nat) (d : Dev) (hk : Kept fu n0 d) : Kept fu n0 (purgeSets f c d) := by
  unfold purgeSets
  repeat' (first | with_reducible (first | assumption | apply modCourse_kept | intro _ | split) | simp only [kept_mk_iff] | dsimp only)

theorem reserve_kept {fu : Fuses} {n0 : Nat} (f c : Nat) (k : Take) (d : Dev) (hk : Kept fu n0 d) : Kept fu n0 (reserve f c k d) := by
  unfold reserve
  repeat' (first | with_reducible (first | assumption | apply modTile_kept | apply assignVec_kept | apply handOver_kept | intro _ | split) | simp only [kept_mk_iff] | dsimp only)

theorem collectTakes_kept {fu : Fuses} {n0 : Nat} (f c k : Nat) (go : List Nat) (d : Dev) (hk : Kept fu n0 d) : Kept fu n0 (collectTakes f c k go d).2 := by
  induction k generalizing go d with
  | zero => exact hk
  | succ k ih =>
    unfold collectTakes
    split
    · exact hk
    · exact ih _ _ (forEach_kept (fun k e he => reserve_kept _ _ _ _ he) hk)

theorem unTake_kept {fu : Fuses} {n0 : Nat} (f c : Nat) (k : Take) (d : Dev) (hk : Kept fu n0 d) : Kept fu n0 (unTake f c k d) := by
  unfold unTake
  repeat' (first | with_reducible (first | assumption | apply modTile_kept | intro _ | split) | simp only [kept_mk_iff] | dsimp only)

theorem runTakes_kept {fu : Fuses} {n0 : Nat} (f c : Nat) (g : Grant) (i : Nat) (ks : List Take) (d : Dev) (hk : Kept fu n0 d) : Kept fu n0 (runTakes f c g i ks d) := by
  induction ks generalizing i d with
  | nil => exact hk
  | cons k r ih =>
    have h1 := doTake_kept f c k i g d hk
    unfold runTakes
    dsimp only
    split
    · exact forEach_kept (fun k e he => unTake_kept _ _ _ _ he) h1
    · exact ih _ _ h1

theorem takeAll_kept {fu : Fuses} {n0 : Nat} (f c : Nat) (go : List Nat) (d : Dev) (hk : Kept fu n0 d) : Kept fu n0 (takeAll f c go d) := by
  unfold takeAll
  repeat' (first | with_reducible (first | assumption | apply forEach_kept | apply windowDecide_kept | apply collectTakes_kept | apply runTakes_kept | intro _ | split) | simp only [kept_mk_iff] | dsimp only)

theorem pluckPeriodOf_kept {fu : Fuses} {n0 : Nat} (f c : Nat) (go : List Nat) (convs : List ConvEv) (upsets : List Upset) (backlog : Nat) (d : Dev) (hk : Kept fu n0 d) : Kept fu n0 (pluckPeriodOf f c go convs upsets backlog d) := by
  unfold pluckPeriodOf
  repeat' (first | with_reducible (first | assumption | apply addCtr_kept | apply forEach_kept | apply modCourse_kept | apply convertAll_kept | apply applyUpset_kept | apply purgeSets_kept | apply takeAll_kept | intro _ | split) | simp only [kept_mk_iff] | dsimp only)

theorem encorePassEnd_kept {fu : Fuses} {n0 : Nat} (f c s : Nat) (d : Dev) (hk : Kept fu n0 d) : Kept fu n0 (encorePassEnd f c s d) := by
  unfold encorePassEnd
  repeat' (first | with_reducible (first | assumption | apply modSlot_kept | intro _ | split) | simp only [kept_mk_iff] | dsimp only)

theorem passGroup_kept {fu : Fuses} {n0 : Nat} (f c : Nat) (p : Pluck) (g outcome : Nat) (d : Dev) (hk : Kept fu n0 d) : Kept fu n0 (passGroup f c p g outcome d) := by
  unfold passGroup
  repeat' (first | with_reducible (first | assumption | apply modPluck_kept | apply settleGroup_kept | apply addBacklog_kept | intro _ | split) | simp only [kept_mk_iff] | dsimp only)

theorem advanceGroup_kept {fu : Fuses} {n0 : Nat} (f c id g : Nat) (d : Dev) (hk : Kept fu n0 d) : Kept fu n0 (advanceGroup f c id g d) := by
  unfold advanceGroup
  repeat' (first | with_reducible (first | assumption | apply bump_kept | apply modPluck_kept | apply settleGroup_kept | apply addBacklog_kept | apply passGroup_kept | intro _ | split) | simp only [kept_mk_iff] | dsimp only)

theorem groupHandon_kept {fu : Fuses} {n0 : Nat} (f c t g : Nat) (d : Dev) (hk : Kept fu n0 d) : Kept fu n0 (groupHandon f c t g d) := by
  unfold groupHandon
  repeat' (first | with_reducible (first | assumption | apply modPluck_kept | apply addBacklog_kept | apply advanceGroup_kept | intro _ | split) | simp only [kept_mk_iff] | dsimp only)

theorem reconvertResult_kept {fu : Fuses} {n0 : Nat} (f c t col : Nat) (dev : Int) (unsettled badParity : Bool) (d : Dev) (hk : Kept fu n0 d) : Kept fu n0 (reconvertResult f c t col dev unsettled badParity d) := by
  unfold reconvertResult
  repeat' (first | with_reducible (first | assumption | apply bump_kept | apply modSlot_kept | apply modPluck_kept | apply addBacklog_kept | apply addClips_kept | apply windowEnds_kept | apply advanceGroup_kept | intro _ | split) | simp only [kept_mk_iff] | dsimp only)

theorem columnRecomputeDone_kept {fu : Fuses} {n0 : Nat} (f c t col : Nat) (d : Dev) (hk : Kept fu n0 d) : Kept fu n0 (columnRecomputeDone f c t col d) := by
  unfold columnRecomputeDone
  repeat' (first | with_reducible (first | assumption | apply bump_kept | apply modPluck_kept | apply subBacklog_kept | apply advanceGroup_kept | intro _ | split) | simp only [kept_mk_iff] | dsimp only)

theorem setExact_kept {fu : Fuses} {n0 : Nat} (f c id : Nat) (pl : Plane) (cols : List Nat) (d : Dev) (hk : Kept fu n0 d) : Kept fu n0 (setExact f c id pl cols d) := by
  unfold setExact
  repeat' (first | with_reducible (first | assumption | apply modPluck_kept | apply foldl_kept | apply foldl_kept_snd | intro _ | split) | simp only [kept_mk_iff] | dsimp only)

theorem cellOutcome_kept {fu : Fuses} {n0 : Nat} (f c t : Nat) (b : Bool) (id slot : Nat) (d : Dev) (hk : Kept fu n0 d) : Kept fu n0 (cellOutcome f c t b id slot d) := by
  unfold cellOutcome
  repeat' (first | with_reducible (first | assumption | apply addCtr_kept | apply modSlot_kept | apply modPlane_kept | apply voidPlucks_kept | intro _ | split) | simp only [kept_mk_iff] | dsimp only)

theorem groupRecomputeDone_kept {fu : Fuses} {n0 : Nat} (f c t g : Nat) (d : Dev) (hk : Kept fu n0 d) : Kept fu n0 (groupRecomputeDone f c t g d) := by
  unfold groupRecomputeDone
  repeat' (first | with_reducible (first | assumption | apply addCtr_kept | apply bump_kept | apply tileRecord_kept | apply modPluck_kept | apply settleGroup_kept | apply subBacklog_kept | apply markSuspect_kept | apply setExact_kept | apply cellOutcome_kept | intro _ | split) | simp only [kept_mk_iff] | dsimp only)

theorem readRows_kept {fu : Fuses} {n0 : Nat} (b a : Nat) (rows : List Nat) (errs : List (Nat × Nat)) (d : Dev) (hk : Kept fu n0 d) : Kept fu n0 (readRows b a rows errs d) := by
  unfold readRows
  repeat' (first | with_reducible (first | assumption | apply forEach_kept | apply hbmReadEcc_kept | intro _ | split) | simp only [kept_mk_iff] | dsimp only)

theorem fetchPluck_kept {fu : Fuses} {n0 : Nat} (f c : Nat) (p : Pluck) (d : Dev) (hk : Kept fu n0 d) : Kept fu n0 (fetchPluck f c p d) := by
  unfold fetchPluck
  repeat' (first | with_reducible (first | assumption | apply forEach_kept | apply modPluck_kept | apply sendTerms_kept | intro _ | split) | simp only [kept_mk_iff] | dsimp only)

theorem queueMsgs_kept {fu : Fuses} {n0 : Nat} (f c : Nat) (ms : List TermMsg) (d : Dev) (hk : Kept fu n0 d) : Kept fu n0 (queueMsgs f c ms d) := by
  unfold queueMsgs
  repeat' (first | with_reducible (first | assumption | apply modCourse_kept | intro _ | split) | simp only [kept_mk_iff] | dsimp only)

theorem countTerms_kept {fu : Fuses} {n0 : Nat} (f c : Nat) (recs : List WRec) (fp4 : Bool) (s : Slice) (d : Dev) (hk : Kept fu n0 d) : Kept fu n0 (countTerms f c recs fp4 s d) := by
  unfold countTerms
  repeat' (first | with_reducible (first | assumption | apply addCtr_kept | intro _ | split) | simp only [kept_mk_iff] | dsimp only)

theorem fetchCovered_kept {fu : Fuses} {n0 : Nat} (f c w s : Nat) (errs : List (Nat × Nat)) (q : PassD) (d : Dev) (hk : Kept fu n0 d) : Kept fu n0 (fetchCovered f c w s errs q d) := by
  unfold fetchCovered
  repeat' (first | with_reducible (first | assumption | apply forEach_kept | apply neckBulk_kept | apply hbmCount_kept | apply modCourse_kept | apply slotFault_kept | apply assignGroup_kept | apply readRows_kept | apply queueMsgs_kept | apply countTerms_kept | intro _ | split) | simp only [kept_mk_iff] | dsimp only)

theorem fetchedRowArrival_kept {fu : Fuses} {n0 : Nat} (f c w : Nat) (errs : List (Nat × Nat)) (d : Dev) (hk : Kept fu n0 d) : Kept fu n0 (fetchedRowArrival f c w errs d) := by
  unfold fetchedRowArrival
  repeat' (first | with_reducible (first | assumption | apply neckBulk_kept | apply hbmCount_kept | apply slotFault_kept | apply readRows_kept | apply fetchPluck_kept | apply fetchCovered_kept | intro _ | split) | simp only [kept_mk_iff] | dsimp only)

theorem repairSwap_kept {fu : Fuses} {n0 : Nat} (f c t : Nat) (d : Dev) (hk : Kept fu n0 d) : Kept fu n0 (repairSwap f c t d) := by
  unfold repairSwap
  repeat' (first | with_reducible (first | assumption | apply modTile_kept | apply modSlot_kept | intro _ | split) | simp only [kept_mk_iff] | dsimp only)

theorem exactTile_kept {fu : Fuses} {n0 : Nat} (f c s w : Nat) (q : PassD) (vs : List (Nat × VecId × Slice)) (rest : List Slice) (d : Dev) (hk : Kept fu n0 d) : Kept fu n0 (exactTile f c s w q vs rest d) := by
  unfold exactTile
  repeat' (first | with_reducible (first | assumption | apply bump_kept | apply forEach_kept | apply modTile_kept | apply modCourse_kept | apply tileRecord_kept | apply markSuspect_kept | apply cellOutcome_kept | apply queueMsgs_kept | apply countTerms_kept | intro _ | split) | simp only [kept_mk_iff] | dsimp only)

theorem orderMsgs_kept {fu : Fuses} {n0 : Nat} (f c len n : Nat) (d : Dev) (hk : Kept fu n0 d) : Kept fu n0 (orderMsgs f c len n d) := by
  unfold orderMsgs
  repeat' (first | with_reducible (first | assumption | apply modCourse_kept))

theorem exactGroupDone_kept {fu : Fuses} {n0 : Nat} (f c s stall : Nat) (d : Dev) (hk : Kept fu n0 d) : Kept fu n0 (exactGroupDone f c s stall d) := by
  unfold exactGroupDone
  repeat' (first | with_reducible (first | assumption | apply addCtr_kept | apply bump_kept | apply forEach_kept | apply assignGroup_kept | apply exactTile_kept | apply orderMsgs_kept | apply foldl_kept | apply foldl_kept_snd | intro _ | split) | simp only [kept_mk_iff] | dsimp only)

theorem sendSlice_kept {fu : Fuses} {n0 : Nat} (p b stage slice scale stream : Nat) (codes outs : List Byte) (d : Dev) (hk : Kept fu n0 d) : Kept fu n0 (sendSlice p b stage slice scale stream codes outs d) := by
  unfold sendSlice
  repeat' (first | with_reducible (first | assumption | apply forEach_kept | apply fretInject_kept | intro _ | split) | simp only [kept_mk_iff] | dsimp only)

theorem flagStream_kept {fu : Fuses} {n0 : Nat} (i pos k : Nat) (d : Dev) (hk : Kept fu n0 d) : Kept fu n0 (flagStream i pos k d) := by
  unfold flagStream
  repeat' (first | with_reducible (first | assumption | apply modStream_kept | intro _ | split) | simp only [kept_mk_iff] | dsimp only)

theorem satMark_kept {fu : Fuses} {n0 : Nat} (ctr : Nat) (v : VecId) (d : Dev) (hk : Kept fu n0 d) : Kept fu n0 (satMark ctr v d) := by
  unfold satMark
  repeat' (first | with_reducible (first | assumption | apply bump_kept | apply flagStream_kept | intro _ | split) | simp only [kept_mk_iff] | dsimp only)

theorem modVSlot_kept {fu : Fuses} {n0 : Nat} (f c s : Nat) (u : VSlot) (g : VSlot → VSlot) (d : Dev) (hk : Kept fu n0 d) : Kept fu n0 (modVSlot f c s u g d) := by
  unfold modVSlot
  repeat' (first | with_reducible (first | assumption | apply modSlot_kept | intro _ | split) | simp only [kept_mk_iff] | dsimp only)

theorem ownLeaf_kept {fu : Fuses} {n0 : Nat} (f c : Nat) (x : Leaf) (d : Dev) (hk : Kept fu n0 d) : Kept fu n0 (ownLeaf f c x d) := by
  unfold ownLeaf
  repeat' (first | with_reducible (first | assumption | apply modVSlot_kept | intro _ | split) | simp only [kept_mk_iff] | dsimp only)

theorem narrowKb_kept {fu : Fuses} {n0 : Nat} (f c : Nat) (x : KbReg) (d : Dev) (hk : Kept fu n0 d) : Kept fu n0 (narrowKb f c x d) := by
  unfold narrowKb
  repeat' (first | with_reducible (first | assumption | apply forEach_kept | apply modCourse_kept | apply satMark_kept | apply ownLeaf_kept | intro _ | split) | simp only [kept_mk_iff] | dsimp only)

theorem sendLeaf_kept {fu : Fuses} {n0 : Nat} (f c : Nat) (x : Leaf) (d : Dev) (hk : Kept fu n0 d) : Kept fu n0 (sendLeaf f c x d) := by
  unfold sendLeaf
  repeat' (first | with_reducible (first | assumption | apply forEach_kept | apply fretInject_kept | apply modCourse_kept | intro _ | split) | simp only [kept_mk_iff] | dsimp only)

theorem sendLeaves_kept {fu : Fuses} {n0 : Nat} (f c : Nat) (d : Dev) (hk : Kept fu n0 d) : Kept fu n0 (sendLeaves f c d) := by
  unfold sendLeaves
  repeat' (first | with_reducible (first | assumption | apply forEach_kept | apply sendLeaf_kept | intro _ | split) | simp only [kept_mk_iff] | dsimp only)

theorem freeSet_kept {fu : Fuses} {n0 : Nat} (f c : Nat) (m : TermMsg) (d : Dev) (hk : Kept fu n0 d) : Kept fu n0 (freeSet f c m d) := by
  unfold freeSet
  repeat' (first | with_reducible (first | assumption | apply modCourse_kept | intro _ | split) | simp only [kept_mk_iff] | dsimp only)

theorem settleKb_kept {fu : Fuses} {n0 : Nat} (f c : Nat) (m : TermMsg) (oslice leaf : Nat) (d : Dev) (hk : Kept fu n0 d) : Kept fu n0 (settleKb f c m oslice leaf d) := by
  unfold settleKb
  repeat' (first | with_reducible (first | assumption | apply modCourse_kept | apply narrowKb_kept | apply sendLeaves_kept | apply freeSet_kept | intro _ | split) | simp only [kept_mk_iff] | dsimp only)

theorem openKbs_kept {fu : Fuses} {n0 : Nat} (f c : Nat) (m : TermMsg) (d : Dev) (hk : Kept fu n0 d) : Kept fu n0 (openKbs f c m d) := by
  unfold openKbs
  repeat' (first | with_reducible (first | assumption | apply modCourse_kept | intro _ | split) | simp only [kept_mk_iff] | dsimp only)

theorem dataParity_kept {fu : Fuses} {n0 : Nat} (f c slot t g layer stream : Nat) (d : Dev) (hk : Kept fu n0 d) : Kept fu n0 (dataParity f c slot t g layer stream d) := by
  unfold dataParity
  repeat' (first | with_reducible (first | assumption | apply bump_kept | apply slotFault_kept | apply tileRecord_kept | intro _ | split) | simp only [kept_mk_iff] | dsimp only)

theorem slotParity_kept {fu : Fuses} {n0 : Nat} (f c slot layer stream : Nat) (d : Dev) (hk : Kept fu n0 d) : Kept fu n0 (slotParity f c slot layer stream d) := by
  unfold slotParity
  repeat' (first | with_reducible (first | assumption | apply bump_kept | apply errRecord_kept | apply slotFault_kept | intro _ | split) | simp only [kept_mk_iff] | dsimp only)

theorem assignWaiting_kept {fu : Fuses} {n0 : Nat} (f c : Nat) (d : Dev) (hk : Kept fu n0 d) : Kept fu n0 (assignWaiting f c d) := by
  unfold assignWaiting
  repeat' (first | with_reducible (first | assumption | apply forEach_kept | apply assignVec_kept | intro _ | split) | simp only [kept_mk_iff] | dsimp only)

theorem sumTerms_kept {fu : Fuses} {n0 : Nat} (f c : Nat) (m : TermMsg) (d : Dev) (hk : Kept fu n0 d) : Kept fu n0 (sumTerms f c m d) := by
  unfold sumTerms
  repeat' (first | with_reducible (first | assumption | apply addCtr_kept | apply modCourse_kept | apply settleKb_kept | apply openKbs_kept | intro _ | split) | simp only [kept_mk_iff] | dsimp only)

theorem groupLeft_kept {fu : Fuses} {n0 : Nat} (f c : Nat) (m : TermMsg) (d : Dev) (hk : Kept fu n0 d) : Kept fu n0 (groupLeft f c m d) := by
  unfold groupLeft
  repeat' (first | with_reducible (first | assumption | apply modPluck_kept | apply retirePluck_kept | intro _ | split) | simp only [kept_mk_iff] | dsimp only)

theorem termArrival_kept {fu : Fuses} {n0 : Nat} (f c : Nat) (parityErr inside : Bool) (d : Dev) (hk : Kept fu n0 d) : Kept fu n0 (termArrival f c parityErr inside d) := by
  unfold termArrival
  repeat' (first | with_reducible (first | assumption | apply modCourse_kept | apply purgeSets_kept | apply dataParity_kept | apply assignWaiting_kept | apply sumTerms_kept | apply groupLeft_kept | intro _ | split) | simp only [kept_mk_iff] | dsimp only)

theorem dataFlit_kept {fu : Fuses} {n0 : Nat} (f c s stream : Nat) (payload : List Byte) (d : Dev) (hk : Kept fu n0 d) : Kept fu n0 (dataFlit f c s stream payload d) := by
  unfold dataFlit
  repeat' (first | with_reducible (first | assumption | apply ringTake_kept | apply assignVec_kept | apply modVSlot_kept | intro _ | split) | simp only [kept_mk_iff] | dsimp only)

theorem treeResult_kept {fu : Fuses} {n0 : Nat} (f c s slice col : Nat) (parityErr : Bool) (d : Dev) (hk : Kept fu n0 d) : Kept fu n0 (treeResult f c s slice col parityErr d) := by
  unfold treeResult
  repeat' (first | with_reducible (first | assumption | apply forEach_kept | apply satMark_kept | apply modVSlot_kept | apply slotParity_kept | intro _ | split) | simp only [kept_mk_iff] | dsimp only)

theorem bufferSealed_kept {fu : Fuses} {n0 : Nat} (f c s : Nat) (b : Bool) (wait : Nat) (d : Dev) (hk : Kept fu n0 d) : Kept fu n0 (bufferSealed f c s b wait d) := by
  unfold bufferSealed
  repeat' (first | with_reducible (first | assumption | apply addCtr_kept | apply forEach_kept | apply modCourse_kept | apply modSlot_kept | apply modBuf_kept | apply passStart_kept | intro _ | split) | simp only [kept_mk_iff] | dsimp only)

theorem putEf_kept {fu : Fuses} {n0 : Nat} (f c k : Nat) (e : EfSet) (d : Dev) (hk : Kept fu n0 d) : Kept fu n0 (putEf f c k e d) := by
  unfold putEf
  repeat' (first | with_reducible (first | assumption | apply modCourse_kept | intro _ | split) | simp only [kept_mk_iff] | dsimp only)

theorem sendG4_kept {fu : Fuses} {n0 : Nat} (f c s p stage sl efpos : Nat) (v : VecId) (y : List Dy) (d : Dev) (hk : Kept fu n0 d) : Kept fu n0 (sendG4 f c s p stage sl efpos v y d) := by
  unfold sendG4
  repeat' (first | with_reducible (first | assumption | apply addCtr_kept | apply bump_kept | apply sendSlice_kept | apply flagStream_kept | apply putEf_kept | intro _ | split) | simp only [kept_mk_iff] | dsimp only)

theorem sendOperands_kept {fu : Fuses} {n0 : Nat} (p b stage sl use stream bytes : Nat) (vals : List Nat) (d : Dev) (hk : Kept fu n0 d) : Kept fu n0 (sendOperands p b stage sl use stream bytes vals d) := by
  unfold sendOperands
  repeat' (first | with_reducible (first | assumption | apply forEach_kept | apply fretInject_kept | intro _ | split) | simp only [kept_mk_iff] | dsimp only)

theorem sendWide_kept {fu : Fuses} {n0 : Nat} (f c s p stage sl : Nat) (v : VecId) (y : List Dy) (d : Dev) (hk : Kept fu n0 d) : Kept fu n0 (sendWide f c s p stage sl v y d) := by
  unfold sendWide
  repeat' (first | with_reducible (first | assumption | apply addCtr_kept | apply forEach_kept | apply fretInject_kept | apply sendOperands_kept | intro _ | split) | simp only [kept_mk_iff] | dsimp only)

theorem voidEf_kept {fu : Fuses} {n0 : Nat} (f c s : Nat) (d : Dev) (hk : Kept fu n0 d) : Kept fu n0 (voidEf f c s d) := by
  unfold voidEf
  repeat' (first | with_reducible (first | assumption | apply forEach_kept | apply putEf_kept | intro _ | split) | simp only [kept_mk_iff] | dsimp only)

theorem drainSlot_kept {fu : Fuses} {n0 : Nat} (f c s : Nat) (u : VSlot) (d : Dev) (hk : Kept fu n0 d) : Kept fu n0 (drainSlot f c s u d) := by
  unfold drainSlot
  repeat' (first | with_reducible (first | assumption | apply bump_kept | apply forEach_kept | apply endStream_kept | apply satMark_kept | apply sendG4_kept | apply sendWide_kept | apply voidEf_kept | intro _ | split) | simp only [kept_mk_iff] | dsimp only)

theorem bufferDrainStart_kept {fu : Fuses} {n0 : Nat} (f c s : Nat) (b : Bool) (par : Option Nat) (d : Dev) (hk : Kept fu n0 d) : Kept fu n0 (bufferDrainStart f c s b par d) := by
  unfold bufferDrainStart
  repeat' (first | with_reducible (first | assumption | apply forEach_kept | apply modBuf_kept | apply slotParity_kept | apply drainSlot_kept | intro _ | split) | simp only [kept_mk_iff] | dsimp only)

theorem bufferDrainDone_kept {fu : Fuses} {n0 : Nat} (f c s : Nat) (b : Bool) (d : Dev) (hk : Kept fu n0 d) : Kept fu n0 (bufferDrainDone f c s b d) := by
  unfold bufferDrainDone
  repeat' (first | with_reducible (first | assumption | apply bump_kept | apply forEach_kept | apply modCourse_kept | apply modSlot_kept | apply modBuf_kept | apply passStart_kept | intro _ | split) | simp only [kept_mk_iff] | dsimp only)

theorem capoAdvisory_kept {fu : Fuses} {n0 : Nat} (f c s layer : Nat) (a : AdvTag) (d : Dev) (hk : Kept fu n0 d) : Kept fu n0 (capoAdvisory f c s layer a d) := by
  unfold capoAdvisory
  repeat' (first | with_reducible (first | assumption | apply regPut_kept | apply bump_kept | apply raiseEvent_kept | intro _ | split) | simp only [kept_mk_iff] | dsimp only)

theorem advisoryPass_kept {fu : Fuses} {n0 : Nat} (f c s : Nat) (q : PassD) (d : Dev) (hk : Kept fu n0 d) : Kept fu n0 (advisoryPass f c s q d) := by
  unfold advisoryPass
  repeat' (first | with_reducible (first | assumption | apply modSlot_kept | apply capoAdvisory_kept | intro _ | split) | simp only [kept_mk_iff] | dsimp only)

theorem passEnd_kept {fu : Fuses} {n0 : Nat} (f c s : Nat) (d : Dev) (hk : Kept fu n0 d) : Kept fu n0 (passEnd f c s d) := by
  unfold passEnd
  repeat' (first | with_reducible (first | assumption | apply modSlot_kept | apply advisoryPass_kept | intro _ | split) | simp only [kept_mk_iff] | dsimp only)

theorem selftestStart_kept {fu : Fuses} {n0 : Nat} (f c t : Nat) (d : Dev) (hk : Kept fu n0 d) : Kept fu n0 (selftestStart f c t d) := by
  unfold selftestStart
  repeat' (first | with_reducible (first | assumption | apply modTile_kept | apply modCourse_kept | intro _ | split) | simp only [kept_mk_iff] | dsimp only)

theorem dropTest_kept {fu : Fuses} {n0 : Nat} (f c t : Nat) (d : Dev) (hk : Kept fu n0 d) : Kept fu n0 (dropTest f c t d) := by
  unfold dropTest
  repeat' (first | with_reducible (first | assumption | apply modCourse_kept | intro _ | split) | simp only [kept_mk_iff] | dsimp only)

theorem startObservation_kept {fu : Fuses} {n0 : Nat} (f c t : Nat) (d : Dev) (hk : Kept fu n0 d) : Kept fu n0 (startObservation f c t d) := by
  unfold startObservation
  repeat' (first | with_reducible (first | assumption | apply modTile_kept | intro _ | split) | simp only [kept_mk_iff] | dsimp only)

theorem retireColumn_kept {fu : Fuses} {n0 : Nat} (f c t col : Nat) (d : Dev) (hk : Kept fu n0 d) : Kept fu n0 (retireColumn f c t col d) := by
  unfold retireColumn
  repeat' (first | with_reducible (first | assumption | apply bump_kept | apply modTile_kept | intro _ | split) | simp only [kept_mk_iff] | dsimp only)

theorem returnToService_kept {fu : Fuses} {n0 : Nat} (f c t : Nat) (d : Dev) (hk : Kept fu n0 d) : Kept fu n0 (returnToService f c t d) := by
  unfold returnToService
  repeat' (first | with_reducible (first | assumption | apply assignTile_kept | intro _ | split) | simp only [kept_mk_iff] | dsimp only)

theorem keeperDone_kept {fu : Fuses} {n0 : Nat} (f kat scan : Nat) (d : Dev) (hk : Kept fu n0 d) : Kept fu n0 (keeperDone f kat scan d) := by
  unfold keeperDone
  repeat' (first | with_reducible (first | assumption | intro _ | split) | simp only [kept_mk_iff] | dsimp only)

theorem testRecord_kept {fu : Fuses} {n0 : Nat} (f c t res col : Nat) (d : Dev) (hk : Kept fu n0 d) : Kept fu n0 (testRecord f c t res col d) := by
  unfold testRecord
  repeat' (first | with_reducible (first | assumption | apply tileRecord_kept | intro _ | split) | simp only [kept_mk_iff] | dsimp only)

theorem passObserved_kept {fu : Fuses} {n0 : Nat} (f c t : Nat) (d : Dev) (hk : Kept fu n0 d) : Kept fu n0 (passObserved f c t d) := by
  unfold passObserved
  repeat' (first | with_reducible (first | assumption | apply addField_kept | apply bump_kept | apply startObservation_kept | intro _ | split) | simp only [kept_mk_iff] | dsimp only)

theorem classifyBad_kept {fu : Fuses} {n0 : Nat} (f c t res col : Nat) (d : Dev) (hk : Kept fu n0 d) : Kept fu n0 (classifyBad f c t res col d) := by
  unfold classifyBad
  repeat' (first | with_reducible (first | assumption | apply retireTile_kept | apply startObservation_kept | apply retireColumn_kept | apply testRecord_kept | intro _ | split) | simp only [kept_mk_iff] | dsimp only)

theorem classify_kept {fu : Fuses} {n0 : Nat} (f c t res col : Nat) (q : TestReq) (d : Dev) (hk : Kept fu n0 d) : Kept fu n0 (classify f c t res col q d) := by
  unfold classify
  repeat' (first | with_reducible (first | assumption | apply modTile_kept | apply passObserved_kept | apply classifyBad_kept | intro _ | split) | simp only [kept_mk_iff] | dsimp only)

theorem reinstateTile_kept {fu : Fuses} {n0 : Nat} (f c t : Nat) (d : Dev) (hk : Kept fu n0 d) : Kept fu n0 (reinstateTile f c t d) := by
  unfold reinstateTile
  repeat' (first | with_reducible (first | assumption | apply putRetMap_kept | apply passObserved_kept | intro _ | split) | simp only [kept_mk_iff] | dsimp only)

theorem bringUpKat_kept {fu : Fuses} {n0 : Nat} (f c t kat col : Nat) (d : Dev) (hk : Kept fu n0 d) : Kept fu n0 (bringUpKat f c t kat col d) := by
  unfold bringUpKat
  repeat' (first | with_reducible (first | assumption | apply bump_kept | apply modTile_kept | apply retireTile_kept | apply retireColumn_kept | apply testRecord_kept | intro _ | split) | simp only [kept_mk_iff] | dsimp only)

theorem selftestResult_kept {fu : Fuses} {n0 : Nat} (f c t kat scan katCol scanCol : Nat) (d : Dev) (hk : Kept fu n0 d) : Kept fu n0 (selftestResult f c t kat scan katCol scanCol d) := by
  unfold selftestResult
  repeat' (first | with_reducible (first | assumption | apply addCtr_kept | apply modTile_kept | apply dropTest_kept | apply returnToService_kept | apply keeperDone_kept | apply classify_kept | apply reinstateTile_kept | apply bringUpKat_kept | intro _ | split) | simp only [kept_mk_iff] | dsimp only)

theorem periodicScanDue_kept {fu : Fuses} {n0 : Nat} (f c t : Nat) (d : Dev) (hk : Kept fu n0 d) : Kept fu n0 (periodicScanDue f c t d) := by
  unfold periodicScanDue
  repeat' (first | with_reducible (first | assumption | apply modCourse_kept | apply assignTile_kept | intro _ | split) | simp only [kept_mk_iff] | dsimp only)

theorem observationEnd_kept {fu : Fuses} {n0 : Nat} (f c t : Nat) (d : Dev) (hk : Kept fu n0 d) : Kept fu n0 (observationEnd f c t d) := by
  unfold observationEnd
  repeat' (first | with_reducible (first | assumption | apply modTile_kept | intro _ | split) | simp only [kept_mk_iff] | dsimp only)

theorem tileCommand_kept {fu : Fuses} {n0 : Nat} (f action c t : Nat) (d : Dev) (hk : Kept fu n0 d) : Kept fu n0 (tileCommand f action c t d) := by
  unfold tileCommand
  repeat' (first | with_reducible (first | assumption | apply modCourse_kept | apply assignTile_kept | intro _ | split) | simp only [kept_mk_iff] | dsimp only)

theorem droneSampleDone_kept {fu : Fuses} {n0 : Nat} (f c : Nat) (d : Dev) (hk : Kept fu n0 d) : Kept fu n0 (droneSampleDone f c d) := by
  unfold droneSampleDone
  repeat' (first | with_reducible (first | assumption | apply bump_kept | apply modTile_kept | apply modCourse_kept | apply tileRecord_kept | apply markSuspect_kept | apply foldl_kept | apply foldl_kept_snd | intro _ | split) | simp only [kept_mk_iff] | dsimp only)

theorem droneRefit_kept {fu : Fuses} {n0 : Nat} (f c t band col : Nat) (d : Dev) (hk : Kept fu n0 d) : Kept fu n0 (droneRefit f c t band col d) := by
  unfold droneRefit
  repeat' (first | with_reducible (first | assumption | apply bump_kept | apply draw_kept | apply modTile_kept | intro _ | split) | simp only [kept_mk_iff] | dsimp only)

theorem qualityAlarm_kept {fu : Fuses} {n0 : Nat} (f c t : Nat) (d : Dev) (hk : Kept fu n0 d) : Kept fu n0 (qualityAlarm f c t d) := by
  unfold qualityAlarm
  repeat' (first | with_reducible (first | assumption | apply bump_kept | apply raiseEvent_kept | apply modTile_kept | intro _ | split) | simp only [kept_mk_iff] | dsimp only)

theorem qualityPublish_kept {fu : Fuses} {n0 : Nat} (f c t : Nat) (d : Dev) (hk : Kept fu n0 d) : Kept fu n0 (qualityPublish f c t d) := by
  unfold qualityPublish
  repeat' (first | with_reducible (first | assumption | apply modTile_kept | apply qualityAlarm_kept | intro _ | split) | simp only [kept_mk_iff] | dsimp only)

theorem foldWindowEnd_kept {fu : Fuses} {n0 : Nat} (f c s : Nat) (d : Dev) (hk : Kept fu n0 d) : Kept fu n0 (foldWindowEnd f c s d) := by
  unfold foldWindowEnd
  repeat' (first | with_reducible (first | assumption | apply regSetField_kept | apply bump_kept | apply choice_kept | apply modSlot_kept | intro _ | split) | simp only [kept_mk_iff] | dsimp only)

theorem bandUpdate_kept {fu : Fuses} {n0 : Nat} (die : Nat) (d : Dev) (hk : Kept fu n0 d) : Kept fu n0 (bandUpdate die d) := by
  unfold bandUpdate
  repeat' (first | with_reducible (first | assumption | apply bump_kept | apply modDie_kept | intro _ | split) | simp only [kept_mk_iff] | dsimp only)

theorem sensorSample_kept {fu : Fuses} {n0 : Nat} (die k : Nat) (v : Half) (d : Dev) (hk : Kept fu n0 d) : Kept fu n0 (sensorSample die k v d) := by
  unfold sensorSample
  repeat' (first | with_reducible (first | assumption | apply thermalCheck_kept | apply fastUpdate_kept | apply snWrite_kept | apply bandUpdate_kept | intro _ | split) | simp only [kept_mk_iff] | dsimp only)

theorem powerSensorSample_kept {fu : Fuses} {n0 : Nat} (hbms : List (Nat × Nat × Half)) (vin iin pin : Half) (d : Dev) (hk : Kept fu n0 d) : Kept fu n0 (powerSensorSample hbms vin iin pin d) := by
  unfold powerSensorSample
  repeat' (first | with_reducible (first | assumption | apply forEach_kept | apply powerSample_kept | apply bandUpdate_kept | intro _ | split) | simp only [kept_mk_iff] | dsimp only)

theorem fitRange_kept {fu : Fuses} {n0 : Nat} (f : Nat) (x : Fit) (d : Dev) (hk : Kept fu n0 d) : Kept fu n0 (fitRange f x d) := by
  unfold fitRange
  repeat' (first | with_reducible (first | assumption | apply bump_kept | apply modTile_kept | apply retireTile_kept | intro _ | split) | simp only [kept_mk_iff] | dsimp only)

theorem calCommit_kept {fu : Fuses} {n0 : Nat} (f : Nat) (temp : Int) (fits : List Fit) (mses : List CalMse) (d : Dev) (hk : Kept fu n0 d) : Kept fu n0 (calCommit f temp fits mses d) := by
  unfold calCommit
  repeat' (first | with_reducible (first | assumption | apply forEach_kept | apply modTile_kept | apply modDie_kept | apply qualityAlarm_kept | apply fitRange_kept | intro _ | split) | simp only [kept_mk_iff] | dsimp only)

end Sys2Proof.Machine
end

