-- ==== Sys2Proof/Laws/KeptWork.lean ====
section
/-! SUPPORT. What the operations of weight loads, KV, stream requests, the scheduler and Pick keep, one lemma each (Laws/Kept.lean). -/

namespace Sys2Proof.Machine

set_option linter.unusedSimpArgs false

theorem modWindow_kept {fu : Fuses} {n0 : Nat} (n : Nat) (f : Window → Window) (d : Dev) (hk : Kept fu n0 d) : Kept fu n0 (modWindow n f d) := by
  unfold modWindow
  repeat' (first | with_reducible (first | assumption | intro _ | split) | simp only [kept_mk_iff] | dsimp only)

theorem dropWindow_kept {fu : Fuses} {n0 : Nat} (n : Nat) (d : Dev) (hk : Kept fu n0 d) : Kept fu n0 (dropWindow n d) := by
  unfold dropWindow
  repeat' (first | with_reducible (first | assumption | intro _ | split) | simp only [kept_mk_iff] | dsimp only)

theorem retireEpoch_kept {fu : Fuses} {n0 : Nat} (p m after : Nat) (by_ : Option Nat) (d : Dev) (hk : Kept fu n0 d) : Kept fu n0 (retireEpoch p m after by_ d) := by
  unfold retireEpoch
  repeat' (first | with_reducible (first | assumption | intro _ | split) | simp only [kept_mk_iff] | dsimp only)

theorem putWindow_kept {fu : Fuses} {n0 : Nat} (w : Window) (d : Dev) (hk : Kept fu n0 d) : Kept fu n0 (putWindow w d) := by
  unfold putWindow
  repeat' (first | with_reducible (first | assumption | intro _ | split) | simp only [kept_mk_iff] | dsimp only)

theorem doLoadBegin_kept {fu : Fuses} {n0 : Nat} (p aid : Nat) (m : Dgram) (d : Dev) (hk : Kept fu n0 d) : Kept fu n0 (doLoadBegin p aid m d) := by
  unfold doLoadBegin
  repeat' (first | with_reducible (first | assumption | apply sendReply_kept | apply settleRefs_kept | apply retireEpoch_kept | apply putWindow_kept | intro _ | split) | simp only [kept_mk_iff] | dsimp only)

theorem retireGen_kept {fu : Fuses} {n0 : Nat} (slot : Nat) (d : Dev) (hk : Kept fu n0 d) : Kept fu n0 (retireGen slot d) := by
  unfold retireGen
  repeat' (first | with_reducible (first | assumption | apply settleRefs_kept | intro _ | split) | simp only [kept_mk_iff] | dsimp only)

theorem doAdapterLoad_kept {fu : Fuses} {n0 : Nat} (p aid : Nat) (m : Dgram) (d : Dev) (hk : Kept fu n0 d) : Kept fu n0 (doAdapterLoad p aid m d) := by
  unfold doAdapterLoad
  repeat' (first | with_reducible (first | assumption | apply sendReply_kept | apply putWindow_kept | apply retireGen_kept | intro _ | split) | simp only [kept_mk_iff] | dsimp only)

theorem abortWindow_kept {fu : Fuses} {n0 : Nat} (w : Window) (cause : Nat) (d : Dev) (hk : Kept fu n0 d) : Kept fu n0 (abortWindow w cause d) := by
  unfold abortWindow
  repeat' (first | with_reducible (first | assumption | apply bump_kept | apply windowEvent_kept | apply settleRefs_kept | apply dropWindow_kept | intro _ | split) | simp only [kept_mk_iff] | dsimp only)

theorem doLoadAbort_kept {fu : Fuses} {n0 : Nat} (p aid : Nat) (m : Dgram) (d : Dev) (hk : Kept fu n0 d) : Kept fu n0 (doLoadAbort p aid m d) := by
  unfold doLoadAbort
  repeat' (first | with_reducible (first | assumption | apply sendReply_kept | apply abortWindow_kept | intro _ | split) | simp only [kept_mk_iff] | dsimp only)

theorem windowIdleTimeout_kept {fu : Fuses} {n0 : Nat} (n : Nat) (d : Dev) (hk : Kept fu n0 d) : Kept fu n0 (windowIdleTimeout n d) := by
  unfold windowIdleTimeout
  repeat' (first | with_reducible (first | assumption | apply abortWindow_kept | intro _ | split) | simp only [kept_mk_iff] | dsimp only)

theorem writeShard_kept {fu : Fuses} {n0 : Nat} (qp p b j off : Nat) (w : Window) (data : List Byte) (d : Dev) (hk : Kept fu n0 d) : Kept fu n0 (writeShard qp p b j off w data d) := by
  unfold writeShard
  repeat' (first | with_reducible (first | assumption | apply bump_kept | apply send_kept | apply bridgeBulk_kept | apply hbmCount_kept | apply hbmWrite_kept | apply modWindow_kept | intro _ | split) | simp only [kept_mk_iff] | dsimp only)

theorem rdmaWriteLoad_kept {fu : Fuses} {n0 : Nat} (qp p : Nat) (key : Word) (va : DWord) (ce : Bool) (data : List Byte) (d : Dev) (hk : Kept fu n0 d) : Kept fu n0 (rdmaWriteLoad qp p key va ce data d) := by
  unfold rdmaWriteLoad
  repeat' (first | with_reducible (first | assumption | apply bump_kept | apply send_kept | apply ceOnRdma_kept | apply rdmaFirewallRefuse_kept | apply writeShard_kept | intro _ | split) | simp only [kept_mk_iff] | dsimp only)

theorem noWindow_kept {fu : Fuses} {n0 : Nat} (p aid : Nat) (m : Dgram) (d : Dev) (hk : Kept fu n0 d) : Kept fu n0 (noWindow p aid m d) := by
  unfold noWindow
  repeat' (first | with_reducible (first | assumption | apply sendReply_kept | intro _ | split) | simp only [kept_mk_iff] | dsimp only)

theorem doLoadCommit_kept {fu : Fuses} {n0 : Nat} (p aid : Nat) (m : Dgram) (d : Dev) (hk : Kept fu n0 d) : Kept fu n0 (doLoadCommit p aid m d) := by
  unfold doLoadCommit
  repeat' (first | with_reducible (first | assumption | apply sendReply_kept | apply modWindow_kept | apply noWindow_kept | intro _ | split) | simp only [kept_mk_iff] | dsimp only)

theorem replyCommit_kept {fu : Fuses} {n0 : Nat} (w : Window) (st epoch : Nat) (missing : List Nat) (d : Dev) (hk : Kept fu n0 d) : Kept fu n0 (replyCommit w st epoch missing d) := by
  unfold replyCommit
  repeat' (first | with_reducible (first | assumption | apply sendReply_kept | intro _ | split) | simp only [kept_mk_iff] | dsimp only)

theorem commitEpoch_kept {fu : Fuses} {n0 : Nat} (w : Window) (blocks : List (Nat × Nat)) (d : Dev) (hk : Kept fu n0 d) : Kept fu n0 (commitEpoch w blocks d) := by
  unfold commitEpoch
  repeat' (first | with_reducible (first | assumption | apply retireEpoch_kept | apply foldl_kept | apply foldl_kept_snd | intro _ | split) | simp only [kept_mk_iff] | dsimp only)

theorem commitGen_kept {fu : Fuses} {n0 : Nat} (w : Window) (slot gen : Nat) (d : Dev) (hk : Kept fu n0 d) : Kept fu n0 (commitGen w slot gen d) := by
  unfold commitGen
  repeat' (first | with_reducible (first | assumption | apply retireGen_kept | intro _ | split) | simp only [kept_mk_iff] | dsimp only)

theorem loadCommitResult_kept {fu : Fuses} {n0 : Nat} (n : Nat) (nonFinite : Bool) (d : Dev) (hk : Kept fu n0 d) : Kept fu n0 (loadCommitResult n nonFinite d) := by
  unfold loadCommitResult
  repeat' (first | with_reducible (first | assumption | apply bump_kept | apply forEach_kept | apply settleRefs_kept | apply modWindow_kept | apply dropWindow_kept | apply replyCommit_kept | apply commitEpoch_kept | apply commitGen_kept | intro _ | split) | simp only [kept_mk_iff] | dsimp only)

theorem dropPrefix_kept {fu : Fuses} {n0 : Nat} (h : Nat) (d : Dev) (hk : Kept fu n0 d) : Kept fu n0 (dropPrefix h d) := by
  unfold dropPrefix
  repeat' (first | with_reducible (first | assumption | apply forEach_kept | apply unrefFrame_kept | apply settleRefs_kept | intro _ | split) | simp only [kept_mk_iff] | dsimp only)

theorem dropEpochPrefixes_kept {fu : Fuses} {n0 : Nat} (e : Epoch) (d : Dev) (hk : Kept fu n0 d) : Kept fu n0 (dropEpochPrefixes e d) := by
  unfold dropEpochPrefixes
  repeat' (first | with_reducible (first | assumption | apply forEach_kept | apply windowEvent_kept | apply dropPrefix_kept | intro _ | split) | simp only [kept_mk_iff] | dsimp only)

theorem retireStream_kept {fu : Fuses} {n0 : Nat} (i : Nat) (d : Dev) (hk : Kept fu n0 d) : Kept fu n0 (retireStream i d) := by
  unfold retireStream
  repeat' (first | with_reducible (first | assumption | apply bump_kept | apply endStream_kept | intro _ | split) | simp only [kept_mk_iff] | dsimp only)

theorem epochRetireBy_kept {fu : Fuses} {n0 : Nat} (p m : Nat) (d : Dev) (hk : Kept fu n0 d) : Kept fu n0 (epochRetireBy p m d) := by
  unfold epochRetireBy
  repeat' (first | with_reducible (first | assumption | apply forEach_kept | apply settleRefs_kept | apply dropEpochPrefixes_kept | apply retireStream_kept | intro _ | split) | simp only [kept_mk_iff] | dsimp only)

theorem layoutChange_kept {fu : Fuses} {n0 : Nat} (p m : Nat) (d : Dev) (hk : Kept fu n0 d) : Kept fu n0 (layoutChange p m d) := by
  unfold layoutChange
  repeat' (first | with_reducible (first | assumption | apply bump_kept | apply forEach_kept | apply settleRefs_kept | apply endStream_kept | apply abortWindow_kept | apply dropEpochPrefixes_kept | intro _ | split) | simp only [kept_mk_iff] | dsimp only)

theorem farPrefetchStart_kept {fu : Fuses} {n0 : Nat} (p m : Nat) (e : Word) (tag : Nat) (d : Dev) (hk : Kept fu n0 d) : Kept fu n0 (farPrefetchStart p m e tag d) := by
  unfold farPrefetchStart
  repeat' (first | with_reducible (first | assumption | apply send_kept | apply forEach_kept | intro _ | split) | simp only [kept_mk_iff] | dsimp only)

theorem farLayerLanded_kept {fu : Fuses} {n0 : Nat} (shards : List (Nat × List Byte)) (d : Dev) (hk : Kept fu n0 d) :
    Kept fu n0 (farLayerLanded shards d) := by
  unfold farLayerLanded
  split
  · exact hk
  · refine iteInduction (motive := Kept fu n0) (fun _ => ?_) (fun _ => ?_)
    · exact stageFault_kept _ _ _ _ _ _ _ _ _ (kept_same hk rfl rfl rfl rfl rfl)
    · exact kept_same (foldl_kept_thd (fun a x h => hbmCount_kept _ _ _ (hbmWrite_kept _ _ _ _ (bridgeBulk_kept _ _ _ _ _ _ h))) hk)
        rfl rfl rfl rfl rfl

theorem farReadTimeout_kept {fu : Fuses} {n0 : Nat} (b : Nat) (exhausted : Bool) (d : Dev) (hk : Kept fu n0 d) : Kept fu n0 (farReadTimeout b exhausted d) := by
  unfold farReadTimeout
  repeat' (first | with_reducible (first | assumption | apply bump_kept | apply stageFault_kept | intro _ | split) | simp only [kept_mk_iff] | dsimp only)

theorem bridgeRouted_kept {fu : Fuses} {n0 : Nat} (p b stream : Nat) (dests : List (Nat × Nat × Nat × Nat × Nat)) (flits : Nat → List (Nat × List Byte)) (d : Dev) (hk : Kept fu n0 d) : Kept fu n0 (bridgeRouted p b stream dests flits d) := by
  unfold bridgeRouted
  repeat' (first | with_reducible (first | assumption | apply forEach_kept | apply nodeInject_kept | intro _ | split) | simp only [kept_mk_iff] | dsimp only)

theorem bridgeOperands_kept {fu : Fuses} {n0 : Nat} (p b stage sl : Nat) (v : VecId) (y : List Dy) (d : Dev) (hk : Kept fu n0 d) : Kept fu n0 (bridgeOperands p b stage sl v y d) := by
  unfold bridgeOperands
  repeat' (first | with_reducible (first | assumption | apply addCtr_kept | apply forEach_kept | apply nodeInject_kept | intro _ | split) | simp only [kept_mk_iff] | dsimp only)

theorem bridgeG4_kept {fu : Fuses} {n0 : Nat} (p b codes : Nat) (v : VecId) (y : List Dy) (dests : List (Nat × Nat × Nat × Nat × Nat)) (d : Dev) (hk : Kept fu n0 d) : Kept fu n0 (bridgeG4 p b codes v y dests d) := by
  unfold bridgeG4
  repeat' (first | with_reducible (first | assumption | apply addCtr_kept | apply bump_kept | apply flagStream_kept | apply bridgeRouted_kept | intro _ | split) | simp only [kept_mk_iff] | dsimp only)

theorem bridgeWide_kept {fu : Fuses} {n0 : Nat} (p b fmt : Nat) (v : VecId) (y : List Dy) (dests : List (Nat × Nat × Nat × Nat × Nat)) (d : Dev) (hk : Kept fu n0 d) : Kept fu n0 (bridgeWide p b fmt v y dests d) := by
  unfold bridgeWide
  repeat' (first | with_reducible (first | assumption | apply bridgeRouted_kept | intro _ | split) | simp only [kept_mk_iff] | dsimp only)

theorem bridgeSlice_kept {fu : Fuses} {n0 : Nat} (p b stage sl codes : Nat) (port : Bool) (v : VecId) (y : List Dy) (d : Dev) (hk : Kept fu n0 d) : Kept fu n0 (bridgeSlice p b stage sl codes port v y d) := by
  unfold bridgeSlice
  repeat' (first | with_reducible (first | assumption | apply addCtr_kept | apply bridgeOperands_kept | apply bridgeG4_kept | apply bridgeWide_kept | intro _ | split) | simp only [kept_mk_iff] | dsimp only)

theorem bridgeOut_kept {fu : Fuses} {n0 : Nat} (p b stage codes : Nat) (v : VecId) (y : List Dy) (d : Dev) (hk : Kept fu n0 d) : Kept fu n0 (bridgeOut p b stage codes v y d) := by
  unfold bridgeOut
  repeat' (first | with_reducible (first | assumption | apply forEach_kept | apply bridgeSlice_kept | intro _ | split) | simp only [kept_mk_iff] | dsimp only)

theorem kvFault_kept {fu : Fuses} {n0 : Nat} (b i : Nat) (d : Dev) (hk : Kept fu n0 d) : Kept fu n0 (kvFault b i d) := by
  unfold kvFault
  repeat' (first | with_reducible (first | assumption | apply bump_kept | apply endStream_kept | intro _ | split) | simp only [kept_mk_iff] | dsimp only)

theorem putKvStep_kept {fu : Fuses} {n0 : Nat} (b : Nat) (x : KvStep) (d : Dev) (hk : Kept fu n0 d) : Kept fu n0 (putKvStep b x d) := by
  unfold putKvStep
  repeat' (first | with_reducible (first | assumption | apply modKv_kept | intro _ | split) | simp only [kept_mk_iff] | dsimp only)

theorem stagePeak_kept {fu : Fuses} {n0 : Nat} (b : Nat) (d : Dev) (hk : Kept fu n0 d) : Kept fu n0 (stagePeak b d) := by
  unfold stagePeak
  repeat' (first | with_reducible (first | assumption | apply regSetField_kept | intro _ | split) | simp only [kept_mk_iff] | dsimp only)

theorem stageBytes_kept {fu : Fuses} {n0 : Nat} (b i lk first off : Nat) (bytes : List (Nat × Byte)) (d : Dev) (hk : Kept fu n0 d) : Kept fu n0 (stageBytes b i lk first off bytes d) := by
  unfold stageBytes
  repeat' (first | with_reducible (first | assumption | apply modKv_kept | apply foldl_kept | apply foldl_kept_snd | intro _ | split) | simp only [kept_mk_iff] | dsimp only)

theorem directBytes_kept {fu : Fuses} {n0 : Nat} (b addr : Nat) (lay : List Byte) (pos : Nat) (x : KvStep) (bytes : List (Nat × Byte)) (errs : List (Nat × Nat)) (d : Dev) (hk : Kept fu n0 d) : Kept fu n0 (directBytes b addr lay pos x bytes errs d) := by
  unfold directBytes
  repeat' (first | with_reducible (first | assumption | apply forEach_kept | apply setByte_kept | apply hbmWrite_kept | apply hbmReadEcc_kept | intro _ | split) | simp only [kept_mk_iff] | dsimp only)

theorem appendPiece_kept {fu : Fuses} {n0 : Nat} (b i lk l pos kind head : Nat) (r : Region) (lay : List Byte) (st : StepRec) (bytes : List (Nat × Byte)) (errs : List (Nat × Nat)) (d : Dev) (hk : Kept fu n0 d) : Kept fu n0 (appendPiece b i lk l pos kind head r lay st bytes errs d) := by
  unfold appendPiece
  repeat' (first | with_reducible (first | assumption | apply bump_kept | apply choice_kept | apply hbmCount_kept | apply modKv_kept | apply cacheLook_kept | apply kvFault_kept | apply putKvStep_kept | apply stagePeak_kept | apply stageBytes_kept | apply directBytes_kept | intro _ | split) | simp only [kept_mk_iff] | dsimp only)

theorem kvAppendPiece_kept {fu : Fuses} {n0 : Nat} (b i : Nat) (draft : Bool) (l pos kind head : Nat) (bf16 : Bool) (data : List Byte) (errs : List (Nat × Nat)) (d : Dev) (hk : Kept fu n0 d) : Kept fu n0 (kvAppendPiece b i draft l pos kind head bf16 data errs d) := by
  unfold kvAppendPiece
  repeat' (first | with_reducible (first | assumption | apply putKvStep_kept | apply appendPiece_kept | intro _ | split) | simp only [kept_mk_iff] | dsimp only)

theorem modGen_kept {fu : Fuses} {n0 : Nat} (b : Nat) (g : Word) (f : KvGen → KvGen) (d : Dev) (hk : Kept fu n0 d) : Kept fu n0 (modGen b g f d) := by
  unfold modGen
  repeat' (first | with_reducible (first | assumption | apply modKv_kept | intro _ | split) | simp only [kept_mk_iff] | dsimp only)

theorem attentionStep_kept {fu : Fuses} {n0 : Nat} (b i lk : Nat) (appends : Bool) (d : Dev) (hk : Kept fu n0 d) : Kept fu n0 (attentionStep b i lk appends d) := by
  unfold attentionStep
  repeat' (first | with_reducible (first | assumption | apply bump_kept | apply modKv_kept | apply endStream_kept | apply modGen_kept | intro _ | split) | simp only [kept_mk_iff] | dsimp only)

theorem readPages_kept {fu : Fuses} {n0 : Nat} (b i lk l : Nat) (m : Option Nat) (fill : Bool) (r : Region) (lay : List Byte) (errs : List (Nat × Nat))
    (ps : List (Nat × List Nat)) (d : Dev) (hk : Kept fu n0 d) : Kept fu n0 (readPages b i lk l m fill r lay errs ps d).2 := by
  induction ps generalizing d with
  | nil => exact hk
  | cons x rest ih =>
    obtain ⟨va, ps⟩ := x
    have h1 := cacheLook_kept b (pageKeyOf r lay va) fill d hk
    unfold readPages
    dsimp only
    split
    · exact h1
    · have h2 := fun (as_ : List Nat) (g : Nat → List (Nat × Nat)) => forEach_kept (l := as_)
        (fun a e he => hbmReadEcc_kept b a (kvStride lay) (g a) e he) (hbmCount_kept r.part (kvStride lay * as_.length) _ h1)
      split
      · exact h2 _ _
      · exact ih _ (h2 _ _)

theorem readGroups_kept {fu : Fuses} {n0 : Nat} (b i lk : Nat) (w : Walk) (m : Option Nat) (fill : Bool) (r : Region) (lay : List Byte) (win : Nat)
    (qs : List (List Nat)) (errs : List (Nat × Nat)) (d : Dev) (hk : Kept fu n0 d) : Kept fu n0 (readGroups b i lk w m fill r lay win qs errs d).2 := by
  induction qs generalizing errs d with
  | nil => exact hk
  | cons x rest ih =>
    have h1 := readPages_kept b i lk (lk / 2) m fill r lay errs (walkPages b (lk / 2) w x m r lay win d) d hk
    unfold readGroups
    dsimp only
    split
    · exact ih _ _ h1
    · exact h1

theorem flushBuf_kept {fu : Fuses} {n0 : Nat} (b : Nat) (s : StgBuf) (d : Dev) (hk : Kept fu n0 d) : Kept fu n0 (flushBuf b s d) := by
  unfold flushBuf
  repeat' (first | with_reducible (first | assumption | apply forEach_kept | apply hbmCount_kept | apply hbmWrite_kept | apply poisonWord_kept | apply cacheLook_kept | apply kvFault_kept | intro _ | split) | simp only [kept_mk_iff] | dsimp only)

theorem flushStep_kept {fu : Fuses} {n0 : Nat} (b i lk pos0 count : Nat) (d : Dev) (hk : Kept fu n0 d) : Kept fu n0 (flushStep b i lk pos0 count d) := by
  unfold flushStep
  repeat' (first | with_reducible (first | assumption | apply forEach_kept | apply modKv_kept | apply flushBuf_kept | intro _ | split) | simp only [kept_mk_iff] | dsimp only)

theorem settleBufs_kept {fu : Fuses} {n0 : Nat} (b i : Nat) (d : Dev) (hk : Kept fu n0 d) : Kept fu n0 (settleBufs b i d) := by
  unfold settleBufs
  repeat' (first | with_reducible (first | assumption | apply bump_kept | apply forEach_kept | apply dropBufs_kept | apply flushBuf_kept | intro _ | split) | simp only [kept_mk_iff] | dsimp only)

theorem reclaimWindow_kept {fu : Fuses} {n0 : Nat} (b rk : Nat) (d : Dev) (hk : Kept fu n0 d) : Kept fu n0 (reclaimWindow b rk d) := by
  unfold reclaimWindow
  repeat' (first | with_reducible (first | assumption | apply forEach_kept | apply acceptEdit_kept | intro _ | split) | simp only [kept_mk_iff] | dsimp only)

theorem setLen_kept {fu : Fuses} {n0 : Nat} (b i n : Nat) (d : Dev) (hk : Kept fu n0 d) : Kept fu n0 (setLen b i n d) := by
  unfold setLen
  repeat' (first | with_reducible (first | assumption | apply modRegion_kept | apply reclaimWindow_kept | intro _ | split) | simp only [kept_mk_iff] | dsimp only)

theorem attVector_kept {fu : Fuses} {n0 : Nat} (b i lk l pos : Nat) (w : Walk) (m : Option Nat) (r : Region) (lay : List Byte) (win : Nat) (d : Dev) (hk : Kept fu n0 d) : Kept fu n0 (attVector b i lk l pos w m r lay win d).2 := by
  unfold attVector
  repeat' (first | with_reducible (first | assumption | apply addCtr_kept | apply bump_kept | apply flagStream_kept | apply foldl_kept | apply foldl_kept_snd | intro _ | split) | simp only [kept_mk_iff] | dsimp only)

theorem finishWalk_kept {fu : Fuses} {n0 : Nat} (b i lk : Nat) (w : Walk) (m : Option Nat) (r : Region) (lay : List Byte) (s : Stream) (d : Dev) (hk : Kept fu n0 d) : Kept fu n0 (finishWalk b i lk w m r lay s d) := by
  unfold finishWalk
  repeat' (first | with_reducible (first | assumption | apply forEach_kept | apply bridgeOut_kept | apply flushStep_kept | apply setLen_kept | apply attVector_kept | intro _ | split) | simp only [kept_mk_iff] | dsimp only)

theorem markStaged_kept {fu : Fuses} {n0 : Nat} (b i lk : Nat) (lay : List Byte) (words : List (Nat × Nat)) (d : Dev) (hk : Kept fu n0 d) : Kept fu n0 (markStaged b i lk lay words d) := by
  unfold markStaged
  repeat' (first | with_reducible (first | assumption | apply modKv_kept | intro _ | split) | simp only [kept_mk_iff] | dsimp only)

theorem attentionOutput_kept {fu : Fuses} {n0 : Nat} (b i lk : Nat) (errs words : List (Nat × Nat)) (d : Dev) (hk : Kept fu n0 d) : Kept fu n0 (attentionOutput b i lk errs words d) := by
  unfold attentionOutput
  repeat' (first | with_reducible (first | assumption | apply bump_kept | apply modKv_kept | apply endStream_kept | apply kvFault_kept | apply modGen_kept | apply readGroups_kept | apply finishWalk_kept | apply markStaged_kept | intro _ | split) | simp only [kept_mk_iff] | dsimp only)

theorem stagingFlushAck_kept {fu : Fuses} {n0 : Nat} (b i lk first : Nat) (d : Dev) (hk : Kept fu n0 d) : Kept fu n0 (stagingFlushAck b i lk first d) := by
  unfold stagingFlushAck
  repeat' (first | with_reducible (first | assumption | apply bump_kept | apply modKv_kept | intro _ | split) | simp only [kept_mk_iff] | dsimp only)

theorem startUnpark_kept {fu : Fuses} {n0 : Nat} (i : Nat) (d : Dev) (hk : Kept fu n0 d) : Kept fu n0 (startUnpark i d) := by
  unfold startUnpark
  repeat' (first | with_reducible (first | assumption | apply modKv_kept | apply modStream_kept | apply sendStatus_kept | intro _ | split) | simp only [kept_mk_iff] | dsimp only)

theorem parkDone_kept {fu : Fuses} {n0 : Nat} (i ttl : Nat) (d : Dev) (hk : Kept fu n0 d) : Kept fu n0 (parkDone i ttl d) := by
  unfold parkDone
  repeat' (first | with_reducible (first | assumption | apply modStream_kept | apply startUnpark_kept | intro _ | split) | simp only [kept_mk_iff] | dsimp only)

theorem afterEdit_kept {fu : Fuses} {n0 : Nat} (b : Nat) (e : Edit) (d : Dev) (hk : Kept fu n0 d) : Kept fu n0 (afterEdit b e d) := by
  unfold afterEdit
  repeat' (first | with_reducible (first | assumption | apply modRegion_kept | apply modStream_kept | apply tryFree_kept | apply startUnpark_kept | apply parkDone_kept | intro _ | split) | simp only [kept_mk_iff] | dsimp only)

theorem editPublish_kept {fu : Fuses} {n0 : Nat} (b wait : Nat) (d : Dev) (hk : Kept fu n0 d) : Kept fu n0 (editPublish b wait d) := by
  unfold editPublish
  repeat' (first | with_reducible (first | assumption | apply addCtr_kept | apply forEach_kept | apply publishEdits_kept | apply afterEdit_kept | intro _ | split) | simp only [kept_mk_iff] | dsimp only)

theorem editDataTransferDone_kept {fu : Fuses} {n0 : Nat} (b : Nat) (data : List Byte) (d : Dev) (hk : Kept fu n0 d) : Kept fu n0 (editDataTransferDone b data d) := by
  unfold editDataTransferDone
  repeat' (first | with_reducible (first | assumption | apply send_kept | apply bridgeBulk_kept | apply hbmRead_kept | apply hbmCount_kept | apply hbmWrite_kept | apply carryPoison_kept | apply modKv_kept | apply refFrame_kept | apply acceptEdit_kept | intro _ | split) | simp only [kept_mk_iff] | dsimp only)

theorem acceptTruncate_kept {fu : Fuses} {n0 : Nat} (b i n : Nat) (d : Dev) (hk : Kept fu n0 d) : Kept fu n0 (acceptTruncate b i n d) := by
  unfold acceptTruncate
  repeat' (first | with_reducible (first | assumption | apply forEach_kept | apply modKv_kept | apply acceptEdit_kept | apply settleBufs_kept | intro _ | split) | simp only [kept_mk_iff] | dsimp only)

theorem doTableEdit_kept {fu : Fuses} {n0 : Nat} (p aid : Nat) (m : Dgram) (d : Dev) (hk : Kept fu n0 d) : Kept fu n0 (doTableEdit p aid m d) := by
  unfold doTableEdit
  repeat' (first | with_reducible (first | assumption | apply forEach_kept | apply sendReply_kept | apply acceptTruncate_kept | intro _ | split) | simp only [kept_mk_iff] | dsimp only)

theorem cnsSendAll_kept {fu : Fuses} {n0 : Nat} (kind : Nat) (data : List Byte) (d : Dev) (hk : Kept fu n0 d) : Kept fu n0 (cnsSendAll kind data d) := by
  unfold cnsSendAll
  repeat' (first | with_reducible (first | assumption | apply send_kept | apply forEach_kept | intro _ | split) | simp only [kept_mk_iff] | dsimp only)

theorem cnsPortSend_kept {fu : Fuses} {n0 : Nat} (stage sl : Nat) (bytes : List Byte) (d : Dev) (hk : Kept fu n0 d) : Kept fu n0 (cnsPortSend stage sl bytes d) := by
  unfold cnsPortSend
  repeat' (first | with_reducible (first | assumption | apply addWrap_kept | apply send_kept | apply forEach_kept | intro _ | split) | simp only [kept_mk_iff] | dsimp only)

theorem modCns_kept {fu : Fuses} {n0 : Nat} (f : Cns → Cns) (d : Dev) (hk : Kept fu n0 d) : Kept fu n0 (modCns f d) := by
  unfold modCns
  repeat' (first | with_reducible (first | assumption | intro _ | split) | simp only [kept_mk_iff] | dsimp only)

theorem feedToks_kept {fu : Fuses} {n0 : Nat} (i : Nat) (l : List Nat) (d : Dev) (hk : Kept fu n0 d) : Kept fu n0 (feedToks i l d) := by
  unfold feedToks
  repeat' (first | with_reducible (first | assumption | apply modStream_kept | apply foldl_kept | apply foldl_kept_snd | intro _ | split) | simp only [kept_mk_iff] | dsimp only)

theorem feedRows_kept {fu : Fuses} {n0 : Nat} (i n : Nat) (data : List Byte) (d : Dev) (hk : Kept fu n0 d) : Kept fu n0 (feedRows i n data d) := by
  unfold feedRows
  repeat' (first | with_reducible (first | assumption | apply modStream_kept | apply foldl_kept | apply foldl_kept_snd | intro _ | split) | simp only [kept_mk_iff] | dsimp only)

theorem writeMaskRow_kept {fu : Fuses} {n0 : Nat} (b : Nat) (r : Region) (q : Nat) (bytes : List Byte) (d : Dev) (hk : Kept fu n0 d) : Kept fu n0 (writeMaskRow b r q bytes d) := by
  unfold writeMaskRow
  repeat' (first | with_reducible (first | assumption | apply forEach_kept | apply setByte_kept | intro _ | split) | simp only [kept_mk_iff] | dsimp only)

theorem maskRowTo_kept {fu : Fuses} {n0 : Nat} (b q : Nat) (bytes : List Byte) (rk : Nat) (d : Dev) (hk : Kept fu n0 d) : Kept fu n0 (maskRowTo b q bytes rk d) := by
  unfold maskRowTo
  repeat' (first | with_reducible (first | assumption | apply modRegion_kept | apply writeMaskRow_kept | intro _ | split) | simp only [kept_mk_iff] | dsimp only)

theorem feedMask_kept {fu : Fuses} {n0 : Nat} (i rk b k : Nat) (d : Dev) (hk : Kept fu n0 d) : Kept fu n0 (feedMask i rk b k d) := by
  induction k generalizing d with
  | zero => exact hk
  | succ k ih =>
    unfold feedMask
    split
    · dsimp only
      split
      · exact hk
      · exact ih _ (modStream_kept _ _ _ (forEach_kept (fun a e he => maskRowTo_kept _ _ _ _ _ he) hk))
    · exact hk

theorem feedMaskBytes_kept {fu : Fuses} {n0 : Nat} (i : Nat) (data : List Byte) (d : Dev) (hk : Kept fu n0 d) : Kept fu n0 (feedMaskBytes i data d) := by
  unfold feedMaskBytes
  repeat' (first | with_reducible (first | assumption | apply modStream_kept | apply feedMask_kept | intro _ | split) | simp only [kept_mk_iff] | dsimp only)

theorem takeRegions_kept {fu : Fuses} {n0 : Nat} (p b i model mode maxlen prefixLen : Nat) (draft : Bool) (d : Dev) (hk : Kept fu n0 d) :
    ∀ d1, takeRegions p b i model mode maxlen prefixLen draft d = some d1 → Kept fu n0 d1 := by
  intro d1 h
  unfold takeRegions at h
  generalize (if draft then regRec p model true d else none) = dl at h
  cases hr : regRec p model false d with
  | none => rw [hr] at h; injection h with h; exact h ▸ hk
  | some lay =>
    rw [hr] at h
    replace h := (Option.ite_none_left_eq_some.1 h).2
    cases h2 : takeRegion p b (regKey i false) model mode maxlen prefixLen lay d with
    | none => rw [h2] at h; contradiction
    | some d2 =>
      rw [h2] at h
      have k2 := takeRegion_kept _ _ _ _ _ _ _ _ _ hk d2 h2
      cases dl with
      | none => injection h with h; exact h ▸ k2
      | some dl => exact takeRegion_kept _ _ _ _ _ _ _ _ _ k2 d1 h

theorem mapMask_kept {fu : Fuses} {n0 : Nat} (p b i : Nat) (d : Dev) (hk : Kept fu n0 d) : Kept fu n0 (mapMask p b i d) := by
  unfold mapMask
  repeat' (first | with_reducible (first | assumption | apply forEach_kept | apply mapPage_kept | intro _ | split) | simp only [kept_mk_iff] | dsimp only)

theorem takePrefix_kept {fu : Fuses} {n0 : Nat} (b i rk : Nat) (x : Prefix) (frames : SMap Nat) (d : Dev) (hk : Kept fu n0 d) : Kept fu n0 (takePrefix b i rk x frames d) := by
  unfold takePrefix
  repeat' (first | with_reducible (first | assumption | apply forEach_kept | apply modKv_kept | apply refFrame_kept | apply acceptEdit_kept | apply modRegion_kept | intro _ | split) | simp only [kept_mk_iff] | dsimp only)

theorem feed_kept {fu : Fuses} {n0 : Nat} (i : Nat) (data mask : List Byte) (d : Dev) (hk : Kept fu n0 d) : Kept fu n0 (feed i data mask d) := by
  unfold feed
  repeat' (first | with_reducible (first | assumption | apply feedToks_kept | apply feedRows_kept | apply feedMaskBytes_kept | intro _ | split) | simp only [kept_mk_iff] | dsimp only)

theorem admitAccept_kept {fu : Fuses} {n0 : Nat} (p aid i : Nat) (m : Dgram) (z : AdmitLists) (e : Epoch) (d : Dev) (hk : Kept fu n0 d) :
    Kept fu n0 (admitAccept p aid i m z e d) := by
  have h1 := getD_kept (takeRegions_kept p (homeBridge p (u8 m.payload 0) d) i (u8 m.payload 0) (u8 m.payload 2) (u32 m.payload 4) (u32 m.payload 8)
    (u8 m.payload 0x12 != 0) d hk) hk
  unfold admitAccept
  extract_lets l model home d1 d2 s d3 d4 d5 d6 d7
  have k1 : Kept fu n0 d1 := h1
  have k2 : Kept fu n0 d2 := by
    clear_value d1
    unfold d2
    split
    · exact choice_kept _ _ _ k1
    · exact k1
  have k3 : Kept fu n0 d3 := kept_same k2 rfl rfl rfl rfl rfl
  have k4 : Kept fu n0 d4 := mapMask_kept _ _ _ _ k3
  have k5 : Kept fu n0 d5 := by
    clear_value d4
    unfold d5
    split
    · exact k4
    · split
      · exact takePrefix_kept _ _ _ _ _ _ (takePrefix_kept _ _ _ _ _ _ k4)
      · exact k4
  have k6 : Kept fu n0 d6 := feed_kept _ _ _ _ (bump_kept _ _ k5)
  have k7 : Kept fu n0 d7 := by
    clear_value d6
    unfold d7
    split
    · split
      · exact cnsSendAll_kept _ _ _ (kept_drawn k6 rfl rfl rfl rfl (Nat.le_succ _))
      · exact k6
    · exact k6
  exact sendReply_kept _ _ _ _ _ _ _ k7

theorem doAdmit_kept {fu : Fuses} {n0 : Nat} (p aid : Nat) (m : Dgram) (d : Dev) (hk : Kept fu n0 d) : Kept fu n0 (doAdmit p aid m d) := by
  unfold doAdmit
  repeat' (first | with_reducible (first | assumption | apply bump_kept | apply sendReply_kept | apply admitAccept_kept | intro _ | split) | simp only [kept_mk_iff] | dsimp only)

theorem leavePause_kept {fu : Fuses} {n0 : Nat} (i : Nat) (d : Dev) (hk : Kept fu n0 d) : Kept fu n0 (leavePause i d) := by
  unfold leavePause
  repeat' (first | with_reducible (first | assumption | apply modStream_kept | intro _ | split) | simp only [kept_mk_iff] | dsimp only)

theorem enterPause_kept {fu : Fuses} {n0 : Nat} (i : Nat) (d : Dev) (hk : Kept fu n0 d) : Kept fu n0 (enterPause i d) := by
  unfold enterPause
  repeat' (first | with_reducible (first | assumption | apply modStream_kept | apply sendStatus_kept | intro _ | split) | simp only [kept_mk_iff] | dsimp only)

theorem doAppend_kept {fu : Fuses} {n0 : Nat} (p aid : Nat) (m : Dgram) (d : Dev) (hk : Kept fu n0 d) : Kept fu n0 (doAppend p aid m d) := by
  unfold doAppend
  repeat' (first | with_reducible (first | assumption | apply sendReply_kept | apply modStream_kept | apply feed_kept | apply leavePause_kept | intro _ | split) | simp only [kept_mk_iff] | dsimp only)

theorem bareStream_kept {fu : Fuses} {n0 : Nat} (p aid : Nat) (m : Dgram) (f : Nat → Stream → Dev → Dev) (d : Dev) (h_f : ∀ x0 x1 e, Kept fu n0 e → Kept fu n0 (f x0 x1 e)) (hk : Kept fu n0 d) : Kept fu n0 (bareStream p aid m f d) := by
  unfold bareStream
  repeat' (first | with_reducible (first | assumption | apply sendReply_kept | apply h_f | intro _ | split) | simp only [kept_mk_iff] | dsimp only)

theorem doPause_kept {fu : Fuses} {n0 : Nat} (p aid : Nat) (m : Dgram) (d : Dev) (hk : Kept fu n0 d) : Kept fu n0 (doPause p aid m d) := by
  unfold doPause
  repeat' (first | with_reducible (first | assumption | apply sendReply_kept | apply modStream_kept | apply enterPause_kept | apply bareStream_kept | intro _ | split) | simp only [kept_mk_iff] | dsimp only)

theorem doResume_kept {fu : Fuses} {n0 : Nat} (p aid : Nat) (m : Dgram) (d : Dev) (hk : Kept fu n0 d) : Kept fu n0 (doResume p aid m d) := by
  unfold doResume
  repeat' (first | with_reducible (first | assumption | apply sendReply_kept | apply modStream_kept | apply leavePause_kept | apply bareStream_kept | intro _ | split) | simp only [kept_mk_iff] | dsimp only)

theorem doCancel_kept {fu : Fuses} {n0 : Nat} (p aid : Nat) (m : Dgram) (d : Dev) (hk : Kept fu n0 d) : Kept fu n0 (doCancel p aid m d) := by
  unfold doCancel
  repeat' (first | with_reducible (first | assumption | apply sendReply_kept | apply endStream_kept | apply bareStream_kept | intro _ | split) | simp only [kept_mk_iff] | dsimp only)

theorem startPark_kept {fu : Fuses} {n0 : Nat} (i : Nat) (d : Dev) (hk : Kept fu n0 d) : Kept fu n0 (startPark i d) := by
  unfold startPark
  repeat' (first | with_reducible (first | assumption | apply modKv_kept | apply modStream_kept | apply sendStatus_kept | apply settleBufs_kept | apply parkDone_kept | intro _ | split) | simp only [kept_mk_iff] | dsimp only)

theorem doPark_kept {fu : Fuses} {n0 : Nat} (p aid : Nat) (m : Dgram) (d : Dev) (hk : Kept fu n0 d) : Kept fu n0 (doPark p aid m d) := by
  unfold doPark
  repeat' (first | with_reducible (first | assumption | apply sendReply_kept | apply modStream_kept | apply startPark_kept | intro _ | split) | simp only [kept_mk_iff] | dsimp only)

theorem parkExpiry_kept {fu : Fuses} {n0 : Nat} (i : Nat) (d : Dev) (hk : Kept fu n0 d) : Kept fu n0 (parkExpiry i d) := by
  unfold parkExpiry
  repeat' (first | with_reducible (first | assumption | apply bump_kept | apply endStream_kept | intro _ | split) | simp only [kept_mk_iff] | dsimp only)

theorem doUnpark_kept {fu : Fuses} {n0 : Nat} (p aid : Nat) (m : Dgram) (d : Dev) (hk : Kept fu n0 d) : Kept fu n0 (doUnpark p aid m d) := by
  unfold doUnpark
  repeat' (first | with_reducible (first | assumption | apply sendReply_kept | apply modStream_kept | apply startUnpark_kept | apply bareStream_kept | apply parkExpiry_kept | intro _ | split) | simp only [kept_mk_iff] | dsimp only)

theorem takeFrames_kept {fu : Fuses} {n0 : Nat} (p b : Nat) (l : List (Nat × Nat × Bool)) (d : Dev) (hk : Kept fu n0 d) : Kept fu n0 (takeFrames p b l d).2 := by
  unfold takeFrames
  repeat' (first | with_reducible (first | assumption | apply hbmRead_kept | apply hbmCount_kept | apply hbmWrite_kept | apply carryPoison_kept | apply refFrame_kept | apply foldl_kept | apply foldl_kept_snd | intro _ | split) | simp only [kept_mk_iff] | dsimp only)

theorem doPrefixRegister_kept {fu : Fuses} {n0 : Nat} (p aid : Nat) (m : Dgram) (d : Dev) (hk : Kept fu n0 d) : Kept fu n0 (doPrefixRegister p aid m d) := by
  unfold doPrefixRegister
  repeat' (first | with_reducible (first | assumption | apply sendReply_kept | apply takeFrames_kept | intro _ | split) | simp only [kept_mk_iff] | dsimp only)

theorem doPrefixDrop_kept {fu : Fuses} {n0 : Nat} (p aid : Nat) (m : Dgram) (d : Dev) (hk : Kept fu n0 d) : Kept fu n0 (doPrefixDrop p aid m d) := by
  unfold doPrefixDrop
  repeat' (first | with_reducible (first | assumption | apply sendReply_kept | apply dropPrefix_kept | intro _ | split) | simp only [kept_mk_iff] | dsimp only)

theorem refreshRisk_kept {fu : Fuses} {n0 : Nat} (p : Nat) (d : Dev) (hk : Kept fu n0 d) : Kept fu n0 (refreshRisk p d) := by
  unfold refreshRisk
  repeat' (first | with_reducible (first | assumption | apply forEach_kept | apply setAtRisk_kept | intro _ | split) | simp only [kept_mk_iff] | dsimp only)

theorem setSchedp_kept {fu : Fuses} {n0 : Nat} (i : Nat) (v : Bool) (d : Dev) (hk : Kept fu n0 d) : Kept fu n0 (setSchedp i v d) := by
  unfold setSchedp
  repeat' (first | with_reducible (first | assumption | apply modStream_kept | apply sendStatus_kept | intro _ | split) | simp only [kept_mk_iff] | dsimp only)

theorem schedulerPause_kept {fu : Fuses} {n0 : Nat} (p : Nat) (d : Dev) (hk : Kept fu n0 d) : Kept fu n0 (schedulerPause p d) := by
  unfold schedulerPause
  repeat' (first | with_reducible (first | assumption | apply bump_kept | apply choice_kept | apply forEach_kept | apply enterPause_kept | apply setSchedp_kept | apply foldl_kept | apply foldl_kept_snd | intro _ | split) | simp only [kept_mk_iff] | dsimp only)

theorem schedulerResume_kept {fu : Fuses} {n0 : Nat} (p : Nat) (d : Dev) (hk : Kept fu n0 d) : Kept fu n0 (schedulerResume p d) := by
  unfold schedulerResume
  repeat' (first | with_reducible (first | assumption | apply bump_kept | apply choice_kept | apply forEach_kept | apply modSched_kept | apply leavePause_kept | apply setSchedp_kept | apply foldl_kept | apply foldl_kept_snd | intro _ | split) | simp only [kept_mk_iff] | dsimp only)

theorem atRiskTtft_kept {fu : Fuses} {n0 : Nat} (i : Nat) (d : Dev) (hk : Kept fu n0 d) : Kept fu n0 (atRiskTtft i d) := by
  unfold atRiskTtft
  repeat' (first | with_reducible (first | assumption | apply setAtRisk_kept | intro _ | split) | simp only [kept_mk_iff] | dsimp only)

theorem refreshTok_kept {fu : Fuses} {n0 : Nat} (i : Nat) (s : Stream) (d : Dev) (hk : Kept fu n0 d) : Kept fu n0 (refreshTok i s d) := by
  unfold refreshTok
  repeat' (first | with_reducible (first | assumption | apply bump_kept | apply modStream_kept | intro _ | split) | simp only [kept_mk_iff] | dsimp only)

theorem reserveStep_kept {fu : Fuses} {n0 : Nat} (i : Nat) (s : Stream) (pos0 n : Nat) (d : Dev) (hk : Kept fu n0 d) : ∀ d1, reserveStep i s pos0 n d = some d1 → Kept fu n0 d1 := by
  intro d1 hd1
  unfold reserveStep at hd1
  repeat' (first | contradiction | (injection hd1 with hd1; subst hd1) | dsimp only at hd1 | split at hd1 | with_reducible (first | assumption | apply forEach_kept | apply mapPage_kept | intro _ | split) | simp only [kept_mk_iff] | dsimp only)

theorem holdKv_kept {fu : Fuses} {n0 : Nat} (i : Nat) (s : Stream) (d : Dev) (hk : Kept fu n0 d) : Kept fu n0 (holdKv i s d) := by
  unfold holdKv
  repeat' (first | with_reducible (first | assumption | apply bump_kept | apply modStream_kept | intro _ | split) | simp only [kept_mk_iff] | dsimp only)

theorem takeCands_kept {fu : Fuses} {n0 : Nat} (p bid : Nat) (img : List Byte) (cs l : List (Nat × Stream)) (room : Nat) (b : Forming)
    (d : Dev) (hk : Kept fu n0 d) : Kept fu n0 (takeCands p bid img cs l room b d).2 := by
  induction l generalizing room b d with
  | nil => exact hk
  | cons x r ih =>
    obtain ⟨i, s⟩ := x
    unfold takeCands
    split
    · exact ih _ _ _ hk
    · split
      · exact ih _ _ _ (refreshTok_kept _ _ _ hk)
      · split
        · refine ih _ _ _ ?_
          split
          · exact choice_kept _ _ _ hk
          · exact hk
        · split
          · exact ih _ _ _ (holdKv_kept _ _ _ hk)
          · next h => exact ih _ _ _ (modStream_kept _ _ _ ((reserveStep_kept _ _ _ _ _ hk) _ h))

theorem pushPasses_kept {fu : Fuses} {n0 : Nat} (p model bid : Nat) (epoch : Word) (vs : List VecId) (d : Dev) (hk : Kept fu n0 d) : Kept fu n0 (pushPasses p model bid epoch vs d) := by
  unfold pushPasses
  repeat' (first | with_reducible (first | assumption | apply forEach_kept | apply modSlot_kept | intro _ | split) | simp only [kept_mk_iff] | dsimp only)

theorem publishSteps_kept {fu : Fuses} {n0 : Nat} (p : Nat) (d : Dev) (hk : Kept fu n0 d) : Kept fu n0 (publishSteps p d) := by
  unfold publishSteps
  repeat' (first | with_reducible (first | assumption | apply forEach_kept | apply editPublish_kept | intro _ | split) | simp only [kept_mk_iff] | dsimp only)

theorem formBatch_kept {fu : Fuses} {n0 : Nat} (p : Nat) (cs : List (Nat × Stream)) (d : Dev) (hk : Kept fu n0 d) : Kept fu n0 (formBatch p cs d) := by
  unfold formBatch
  repeat' (first | with_reducible (first | assumption | apply bump_kept | apply modSched_kept | apply cnsSendAll_kept | apply takeCands_kept | apply pushPasses_kept | apply publishSteps_kept | intro _ | split) | simp only [kept_mk_iff] | dsimp only)

theorem batchFormation_kept {fu : Fuses} {n0 : Nat} (p : Nat) (d : Dev) (hk : Kept fu n0 d) : Kept fu n0 (batchFormation p d) := by
  unfold batchFormation
  repeat' (first | with_reducible (first | assumption | apply forEach_kept | apply modStream_kept | apply refreshRisk_kept | apply schedulerPause_kept | apply refreshTok_kept | apply formBatch_kept | intro _ | split) | simp only [kept_mk_iff] | dsimp only)

theorem kvHoldTimeout_kept {fu : Fuses} {n0 : Nat} (i : Nat) (d : Dev) (hk : Kept fu n0 d) : Kept fu n0 (kvHoldTimeout i d) := by
  unfold kvHoldTimeout
  repeat' (first | with_reducible (first | assumption | apply bump_kept | apply endStream_kept | intro _ | split) | simp only [kept_mk_iff] | dsimp only)

theorem settleBatches_kept {fu : Fuses} {n0 : Nat} (p : Nat) (d : Dev) (hk : Kept fu n0 d) : Kept fu n0 (settleBatches p d) := by
  unfold settleBatches
  repeat' (first | with_reducible (first | assumption | apply modSched_kept | intro _ | split) | simp only [kept_mk_iff] | dsimp only)

theorem maskRead_kept {fu : Fuses} {n0 : Nat} (s : Stream) (d : Dev) (hk : Kept fu n0 d) : Kept fu n0 (maskRead s d) := by
  unfold maskRead
  repeat' (first | with_reducible (first | assumption | apply bridgeBulk_kept | intro _ | split) | simp only [kept_mk_iff] | dsimp only)

theorem pickEmpty_kept {fu : Fuses} {n0 : Nat} (i home : Nat) (d : Dev) (hk : Kept fu n0 d) : Kept fu n0 (pickEmpty i home d) := by
  unfold pickEmpty
  repeat' (first | with_reducible (first | assumption | apply bump_kept | apply endStream_kept | intro _ | split) | simp only [kept_mk_iff] | dsimp only)

theorem draftStepDone_kept {fu : Fuses} {n0 : Nat} (i : Nat) (logits : List (List Word)) (d : Dev) (hk : Kept fu n0 d) : Kept fu n0 (draftStepDone i logits d) := by
  unfold draftStepDone
  repeat' (first | with_reducible (first | assumption | apply addCtr_kept | apply modStream_kept | apply maskRead_kept | apply pickEmpty_kept | intro _ | split) | simp only [kept_mk_iff] | dsimp only)

theorem emitTok_kept {fu : Fuses} {n0 : Nat} (i tok pos : Nat) (draft : Bool) (logp : Word) (d : Dev) (hk : Kept fu n0 d) : Kept fu n0 (emitTok i tok pos draft logp d) := by
  unfold emitTok
  repeat' (first | with_reducible (first | assumption | apply bump_kept | apply modStream_kept | apply foldl_kept | apply foldl_kept_snd | intro _ | split) | simp only [kept_mk_iff] | dsimp only)

theorem samplePos_kept {fu : Fuses} {n0 : Nat} (i pos : Nat) (z : List Dy) (d : Dev) (hk : Kept fu n0 d) : Kept fu n0 (samplePos i pos z d).1 := by
  unfold samplePos
  repeat' (first | with_reducible (first | assumption | apply emitTok_kept | intro _ | split) | simp only [kept_mk_iff] | dsimp only)

theorem testDraft_kept {fu : Fuses} {n0 : Nat} (i pos : Nat) (x : DraftTok) (z : List Dy) (d : Dev) (hk : Kept fu n0 d) : Kept fu n0 (testDraft i pos x z d).1 := by
  unfold testDraft
  repeat' (first | with_reducible (first | assumption | apply emitTok_kept | intro _ | split) | simp only [kept_mk_iff] | dsimp only)

theorem verifyBlock_kept {fu : Fuses} {n0 : Nat} (i pos : Nat) (l : List DraftTok) (z : List (List Dy)) (d : Dev) (hk : Kept fu n0 d) :
    Kept fu n0 (verifyBlock i pos l z d).1 := by
  induction l generalizing pos z d with
  | nil =>
    cases z with
    | nil => exact hk
    | cons z zs => exact samplePos_kept _ _ _ _ hk
  | cons x xs ih =>
    cases z with
    | nil => exact hk
    | cons z zs =>
      have h1 := testDraft_kept i pos x z d hk
      unfold verifyBlock
      dsimp only
      split
      · exact h1
      · split
        · exact h1
        · split
          all_goals
            split
            · exact h1
            · exact ih _ _ _ h1

theorem adaptDraft_kept {fu : Fuses} {n0 : Nat} (i home g acc : Nat) (d : Dev) (hk : Kept fu n0 d) : Kept fu n0 (adaptDraft i home g acc d) := by
  unfold adaptDraft
  repeat' (first | with_reducible (first | assumption | apply bump_kept | apply modStream_kept | intro _ | split) | simp only [kept_mk_iff] | dsimp only)

theorem stepDone_kept {fu : Fuses} {n0 : Nat} (i : Nat) (st : StepRec) (n : Nat) (d : Dev) (hk : Kept fu n0 d) : Kept fu n0 (stepDone i st n d) := by
  unfold stepDone
  repeat' (first | with_reducible (first | assumption | apply modStream_kept | apply setAtRisk_kept | apply settleBatches_kept | apply foldl_kept | apply foldl_kept_snd | intro _ | split) | simp only [kept_mk_iff] | dsimp only)

theorem pickDecode_kept {fu : Fuses} {n0 : Nat} (i : Nat) (s : Stream) (st : StepRec) (logits : List (List Dy)) (d : Dev) (hk : Kept fu n0 d) : Kept fu n0 (pickDecode i s st logits d) := by
  unfold pickDecode
  repeat' (first | with_reducible (first | assumption | apply modStream_kept | apply setLen_kept | apply pickEmpty_kept | apply verifyBlock_kept | apply adaptDraft_kept | apply stepDone_kept | intro _ | split) | simp only [kept_mk_iff] | dsimp only)

theorem pickPrefill_kept {fu : Fuses} {n0 : Nat} (i : Nat) (s : Stream) (st : StepRec) (z : List Dy) (d : Dev) (hk : Kept fu n0 d) : Kept fu n0 (pickPrefill i s st z d) := by
  unfold pickPrefill
  repeat' (first | with_reducible (first | assumption | apply pickEmpty_kept | apply samplePos_kept | apply stepDone_kept | intro _ | split) | simp only [kept_mk_iff] | dsimp only)

theorem pickSample_kept {fu : Fuses} {n0 : Nat} (i : Nat) (logits : List (List Word)) (d : Dev) (hk : Kept fu n0 d) : Kept fu n0 (pickSample i logits d) := by
  unfold pickSample
  repeat' (first | with_reducible (first | assumption | apply maskRead_kept | apply pickDecode_kept | apply pickPrefill_kept | intro _ | split) | simp only [kept_mk_iff] | dsimp only)

theorem retireChunks_kept {fu : Fuses} {n0 : Nat} (i : Nat) (d : Dev) (hk : Kept fu n0 d) : Kept fu n0 (retireChunks i d) := by
  unfold retireChunks
  repeat' (first | with_reducible (first | assumption | apply modStream_kept | apply setAtRisk_kept | apply settleBatches_kept | intro _ | split) | simp only [kept_mk_iff] | dsimp only)

theorem applyStop_kept {fu : Fuses} {n0 : Nat} (i : Nat) (s : Stream) (d : Dev) (hk : Kept fu n0 d) : Kept fu n0 (applyStop i s d) := by
  unfold applyStop
  repeat' (first | with_reducible (first | assumption | apply modStream_kept | apply endStream_kept | apply enterPause_kept | intro _ | split) | simp only [kept_mk_iff] | dsimp only)

theorem applyBoundary_kept {fu : Fuses} {n0 : Nat} (i : Nat) (d : Dev) (hk : Kept fu n0 d) : Kept fu n0 (applyBoundary i d) := by
  unfold applyBoundary
  repeat' (first | with_reducible (first | assumption | apply bump_kept | apply modStream_kept | apply endStream_kept | apply retireStream_kept | apply enterPause_kept | apply startPark_kept | intro _ | split) | simp only [kept_mk_iff] | dsimp only)

theorem stepBoundary_kept {fu : Fuses} {n0 : Nat} (i : Nat) (d : Dev) (hk : Kept fu n0 d) : Kept fu n0 (stepBoundary i d) := by
  unfold stepBoundary
  repeat' (first | with_reducible (first | assumption | apply settleRefs_kept | apply dropSteps_kept | apply settleBatches_kept | apply retireChunks_kept | apply applyStop_kept | apply applyBoundary_kept | intro _ | split) | simp only [kept_mk_iff] | dsimp only)

theorem deadlineReached_kept {fu : Fuses} {n0 : Nat} (i : Nat) (d : Dev) (hk : Kept fu n0 d) : Kept fu n0 (deadlineReached i d) := by
  unfold deadlineReached
  repeat' (first | with_reducible (first | assumption | apply bump_kept | apply endStream_kept | intro _ | split) | simp only [kept_mk_iff] | dsimp only)

theorem recordFlit_kept {fu : Fuses} {n0 : Nat} (p b i : Nat) (x : OutRec) (d : Dev) (hk : Kept fu n0 d) : Kept fu n0 (recordFlit p b i x d) := by
  unfold recordFlit
  repeat' (first | with_reducible (first | assumption | apply nodeInject_kept | intro _ | split) | simp only [kept_mk_iff] | dsimp only)

theorem tokenRecordArrival_kept {fu : Fuses} {n0 : Nat} (i : Nat) (d : Dev) (hk : Kept fu n0 d) : Kept fu n0 (tokenRecordArrival i d) := by
  unfold tokenRecordArrival
  repeat' (first | with_reducible (first | assumption | apply send_kept | apply forEach_kept | apply modStream_kept | apply streamMsg_kept | apply tryFree_kept | apply recordFlit_kept | intro _ | split) | simp only [kept_mk_iff] | dsimp only)

theorem tensorSlice_kept {fu : Fuses} {n0 : Nat} (p b stage codes : Nat) (v : VecId) (sl : Nat) (y : List (Option Dy)) (d : Dev) (hk : Kept fu n0 d) : Kept fu n0 (tensorSlice p b stage codes v sl y d) := by
  unfold tensorSlice
  repeat' (first | with_reducible (first | assumption | apply bump_kept | apply endStream_kept | apply bridgeSlice_kept | apply cnsPortSend_kept | intro _ | split) | simp only [kept_mk_iff] | dsimp only)

theorem bridgeTensorPass_kept {fu : Fuses} {n0 : Nat} (p b stage stream pos : Nat) (vals : List Word) (d : Dev) (hk : Kept fu n0 d) : Kept fu n0 (bridgeTensorPass p b stage stream pos vals d) := by
  unfold bridgeTensorPass
  repeat' (first | with_reducible (first | assumption | apply when__kept | apply forEach_kept | apply modSched_kept | apply tensorSlice_kept | intro _ | split) | simp only [kept_mk_iff] | dsimp only)

theorem stagePassTimeout_kept {fu : Fuses} {n0 : Nat} (f c s : Nat) (d : Dev) (hk : Kept fu n0 d) : Kept fu n0 (stagePassTimeout f c s d) := by
  unfold stagePassTimeout
  repeat' (first | with_reducible (first | assumption | apply slotFault_kept | apply passStart_kept | intro _ | split) | simp only [kept_mk_iff] | dsimp only)

end Sys2Proof.Machine
end

