-- ==== Sys2Proof/Laws/KeptSystem.lean ====
section
/-! SUPPORT. What the operations of Tuning, the map, consorts, resets, power, management, attestation and the reception of datagrams keep, one lemma each (Laws/Kept.lean). -/

namespace Sys2Proof.Machine

set_option linter.unusedSimpArgs false

theorem tuneEvent_kept {fu : Fuses} {n0 : Nat} (p code sec rec barr : Nat) (serial : DWord) (d : Dev) (hk : Kept fu n0 d) : Kept fu n0 (tuneEvent p code sec rec barr serial d) := by
  unfold tuneEvent
  repeat' (first | with_reducible (first | assumption | apply raiseEvent_kept | intro _ | split) | simp only [kept_mk_iff] | dsimp only)

theorem tuneEnd_kept {fu : Fuses} {n0 : Nat} (p code sec rec barr : Nat) (d : Dev) (hk : Kept fu n0 d) : Kept fu n0 (tuneEnd p code sec rec barr d) := by
  unfold tuneEnd
  repeat' (first | with_reducible (first | assumption | apply regPut_kept | apply bump_kept | apply modTune_kept | apply tuneEvent_kept | intro _ | split) | simp only [kept_mk_iff] | dsimp only)

theorem setBarr_kept {fu : Fuses} {n0 : Nat} (p n : Nat) (d : Dev) (hk : Kept fu n0 d) : Kept fu n0 (setBarr p n d) := by
  unfold setBarr
  repeat' (first | with_reducible (first | assumption | apply regPut_kept | intro _ | split) | simp only [kept_mk_iff] | dsimp only)

theorem tuneLoad_kept {fu : Fuses} {n0 : Nat} (p : Nat) (d : Dev) (hk : Kept fu n0 d) : Kept fu n0 (tuneLoad p d) := by
  unfold tuneLoad
  repeat' (first | with_reducible (first | assumption | apply modTune_kept | intro _ | split) | simp only [kept_mk_iff] | dsimp only)

theorem tuneAbort_kept {fu : Fuses} {n0 : Nat} (p : Nat) (d : Dev) (hk : Kept fu n0 d) : Kept fu n0 (tuneAbort p d) := by
  unfold tuneAbort
  repeat' (first | with_reducible (first | assumption | apply tuneEnd_kept | intro _ | split) | simp only [kept_mk_iff] | dsimp only)

theorem tuningVerifyDone_kept {fu : Fuses} {n0 : Nat} (p : Nat) (d : Dev) (hk : Kept fu n0 d) : Kept fu n0 (tuningVerifyDone p d) := by
  unfold tuningVerifyDone
  repeat' (first | with_reducible (first | assumption | apply modTune_kept | apply tuneEnd_kept | intro _ | split) | simp only [kept_mk_iff] | dsimp only)

theorem writeCourseRegs_kept {fu : Fuses} {n0 : Nat} (img : List Byte) (f c : Nat) (d : Dev) (hk : Kept fu n0 d) : Kept fu n0 (writeCourseRegs img f c d) := by
  unfold writeCourseRegs
  repeat' (first | with_reducible (first | assumption | apply regPut_kept | apply forEach_kept | intro _ | split) | simp only [kept_mk_iff] | dsimp only)

theorem putUse_kept {fu : Fuses} {n0 : Nat} (f c t : Nat) (m : BitVec 512) (d : Dev) (hk : Kept fu n0 d) : Kept fu n0 (putUse f c t m d) := by
  unfold putUse
  repeat' (first | with_reducible (first | assumption | apply modTile_kept | intro _ | split) | simp only [kept_mk_iff] | dsimp only)

theorem placeTile_kept {fu : Fuses} {n0 : Nat} (f c w : Nat) (d : Dev) (hk : Kept fu n0 d) : Kept fu n0 (placeTile f c w d) := by
  unfold placeTile
  repeat' (first | with_reducible (first | assumption | apply modTile_kept | apply setTmap_kept | apply wtileRecord_kept | intro _ | split) | simp only [kept_mk_iff] | dsimp only)

theorem clearCourse_kept {fu : Fuses} {n0 : Nat} (f c : Nat) (ws : List Nat) (d : Dev) (hk : Kept fu n0 d) : Kept fu n0 (clearCourse f c ws d) := by
  unfold clearCourse
  repeat' (first | with_reducible (first | assumption | apply forEach_kept | apply modTile_kept | apply modCourse_kept | apply dropSamples_kept | intro _ | split) | simp only [kept_mk_iff] | dsimp only)

theorem applyCourse_kept {fu : Fuses} {n0 : Nat} (p : Nat) (img : List Byte) (f c : Nat) (d : Dev) (hk : Kept fu n0 d) : Kept fu n0 (applyCourse p img f c d) := by
  unfold applyCourse
  repeat' (first | with_reducible (first | assumption | apply forEach_kept | apply modSlot_kept | apply writeCourseRegs_kept | apply putUse_kept | apply placeTile_kept | apply clearCourse_kept | intro _ | split) | simp only [kept_mk_iff] | dsimp only)

theorem tuneApply_kept {fu : Fuses} {n0 : Nat} (p : Nat) (img : List Byte) (d : Dev) (hk : Kept fu n0 d) : Kept fu n0 (tuneApply p img d) := by
  unfold tuneApply
  repeat' (first | with_reducible (first | assumption | apply forEach_kept | apply hbmZero_kept | apply modTune_kept | apply layoutChange_kept | apply applyCourse_kept | intro _ | split) | simp only [kept_mk_iff] | dsimp only)

theorem barrierApply_kept {fu : Fuses} {n0 : Nat} (p : Nat) (l : TuneLoad) (d : Dev) (hk : Kept fu n0 d) : Kept fu n0 (barrierApply p l d) := by
  unfold barrierApply
  repeat' (first | with_reducible (first | assumption | apply tuneEnd_kept | apply setBarr_kept | apply tuneApply_kept | intro _ | split) | simp only [kept_mk_iff] | dsimp only)

theorem tuningBarrierReached_kept {fu : Fuses} {n0 : Nat} (p : Nat) (d : Dev) (hk : Kept fu n0 d) : Kept fu n0 (tuningBarrierReached p d) := by
  unfold tuningBarrierReached
  repeat' (first | with_reducible (first | assumption | apply barrierApply_kept | intro _ | split) | simp only [kept_mk_iff] | dsimp only)

theorem strumTune_kept {fu : Fuses} {n0 : Nat} (p : Nat) (d : Dev) (hk : Kept fu n0 d) : Kept fu n0 (strumTune p d) := by
  unfold strumTune
  repeat' (first | with_reducible (first | assumption | apply barrierApply_kept | intro _ | split) | simp only [kept_mk_iff] | dsimp only)

theorem tuningBarrierTimeout_kept {fu : Fuses} {n0 : Nat} (p : Nat) (d : Dev) (hk : Kept fu n0 d) : Kept fu n0 (tuningBarrierTimeout p d) := by
  unfold tuningBarrierTimeout
  repeat' (first | with_reducible (first | assumption | apply tuneEnd_kept | apply setBarr_kept | intro _ | split) | simp only [kept_mk_iff] | dsimp only)

theorem suspendCheck_kept {fu : Fuses} {n0 : Nat} (p : Nat) (moved : Option (Nat × Nat)) (d : Dev) (hk : Kept fu n0 d) : Kept fu n0 (suspendCheck p moved d) := by
  unfold suspendCheck
  repeat' (first | with_reducible (first | assumption | apply modTune_kept | apply tuneEvent_kept | intro _ | split) | simp only [kept_mk_iff] | dsimp only)

theorem rdmaWriteTuneStaging_kept {fu : Fuses} {n0 : Nat} (qp p off : Nat) (ce : Bool) (data : List Byte) (d : Dev) (hk : Kept fu n0 d) : Kept fu n0 (rdmaWriteTuneStaging qp p off ce data d) := by
  unfold rdmaWriteTuneStaging
  repeat' (first | with_reducible (first | assumption | apply bump_kept | apply send_kept | apply ceOnRdma_kept | apply rdmaFirewallRefuse_kept | apply modTune_kept | intro _ | split) | simp only [kept_mk_iff] | dsimp only)

theorem rdmaWriteMask_kept {fu : Fuses} {n0 : Nat} (qp p off : Nat) (ce : Bool) (data : List Byte) (d : Dev) (hk : Kept fu n0 d) : Kept fu n0 (rdmaWriteMask qp p off ce data d) := by
  unfold rdmaWriteMask
  repeat' (first | with_reducible (first | assumption | apply send_kept | apply ceOnRdma_kept | apply rdmaFirewallRefuse_kept | apply bridgeBulk_kept | apply hbmCount_kept | apply hbmWrite_kept | apply modTune_kept | intro _ | split) | simp only [kept_mk_iff] | dsimp only)

theorem putMapStg_kept {fu : Fuses} {n0 : Nat} (p kind : Nat) (r : List Byte) (d : Dev) (hk : Kept fu n0 d) : Kept fu n0 (putMapStg p kind r d) := by
  unfold putMapStg
  repeat' (first | with_reducible (first | assumption | intro _ | split) | simp only [kept_mk_iff] | dsimp only)

theorem mapCommit_kept {fu : Fuses} {n0 : Nat} (p : Nat) (d : Dev) (hk : Kept fu n0 d) : Kept fu n0 (mapCommit p d) := by
  unfold mapCommit
  repeat' (first | with_reducible (first | assumption | intro _ | split) | simp only [kept_mk_iff] | dsimp only)

theorem mapDiscard_kept {fu : Fuses} {n0 : Nat} (p : Nat) (d : Dev) (hk : Kept fu n0 d) : Kept fu n0 (mapDiscard p d) := by
  unfold mapDiscard
  repeat' (first | with_reducible (first | assumption | apply forEach_kept | apply putMapStg_kept | intro _ | split) | simp only [kept_mk_iff] | dsimp only)

theorem mapQpLoss_kept {fu : Fuses} {n0 : Nat} (old new_ : List Byte) (d : Dev) (hk : Kept fu n0 d) : Kept fu n0 (mapQpLoss old new_ d) := by
  unfold mapQpLoss
  repeat' (first | with_reducible (first | assumption | intro _ | split) | simp only [kept_mk_iff] | dsimp only)

theorem newMacKey_kept {fu : Fuses} {n0 : Nat} (p : Nat) (old new_ : List Byte) (d : Dev) (hk : Kept fu n0 d) : Kept fu n0 (newMacKey p old new_ d) := by
  unfold newMacKey
  repeat' (first | with_reducible (first | assumption | intro _ | split) | simp only [kept_mk_iff] | dsimp only)

theorem mapBarrier_kept {fu : Fuses} {n0 : Nat} (p : Nat) (d : Dev) (hk : Kept fu n0 d) : Kept fu n0 (mapBarrier p d) := by
  unfold mapBarrier
  repeat' (first | with_reducible (first | assumption | apply mapSyncLoss_kept | apply suspendCheck_kept | apply mapQpLoss_kept | apply newMacKey_kept | apply foldl_kept | apply foldl_kept_snd | intro _ | split) | simp only [kept_mk_iff] | dsimp only)

theorem courseHanded_kept {fu : Fuses} {n0 : Nat} (f c : Nat) (d : Dev) (hk : Kept fu n0 d) : Kept fu n0 (courseHanded f c d) := by
  unfold courseHanded
  repeat' (first | with_reducible (first | assumption | apply regSetField_kept | apply forEach_kept | apply clearCourse_kept | intro _ | split) | simp only [kept_mk_iff] | dsimp only)

theorem mapHandoverEnd_kept {fu : Fuses} {n0 : Nat} (k base count : Nat) (d : Dev) (hk : Kept fu n0 d) : Kept fu n0 (mapHandoverEnd k base count d) := by
  unfold mapHandoverEnd
  repeat' (first | with_reducible (first | assumption | apply forEach_kept | apply courseHanded_kept | intro _ | split) | simp only [kept_mk_iff] | dsimp only)

theorem strumNote_kept {fu : Fuses} {n0 : Nat} (result : Nat) (d : Dev) (hk : Kept fu n0 d) : Kept fu n0 (strumNote result d) := by
  unfold strumNote
  repeat' (first | with_reducible (first | assumption | apply bump_kept | apply modCns_kept | intro _ | split) | simp only [kept_mk_iff] | dsimp only)

theorem strumEvent_kept {fu : Fuses} {n0 : Nat} (result : Nat) (t : DWord) (d : Dev) (hk : Kept fu n0 d) : Kept fu n0 (strumEvent result t d) := by
  unfold strumEvent
  repeat' (first | with_reducible (first | assumption | apply raiseEvent_kept | intro _ | split) | simp only [kept_mk_iff] | dsimp only)

theorem strumCancel_kept {fu : Fuses} {n0 : Nat} (s : Strum) (d : Dev) (hk : Kept fu n0 d) : Kept fu n0 (strumCancel s d) := by
  unfold strumCancel
  repeat' (first | with_reducible (first | assumption | apply strumNote_kept | apply strumEvent_kept | intro _ | split) | simp only [kept_mk_iff] | dsimp only)

theorem cnsStop_kept {fu : Fuses} {n0 : Nat} (d : Dev) (hk : Kept fu n0 d) : Kept fu n0 (cnsStop d) := by
  unfold cnsStop
  repeat' (first | with_reducible (first | assumption | apply forEach_kept | apply endStream_kept | apply modCns_kept | apply strumCancel_kept | intro _ | split) | simp only [kept_mk_iff] | dsimp only)

theorem cnsSettle_kept {fu : Fuses} {n0 : Nat} (d : Dev) (hk : Kept fu n0 d) : Kept fu n0 (cnsSettle d) := by
  unfold cnsSettle
  repeat' (first | with_reducible (first | assumption | apply modCns_kept | intro _ | split) | simp only [kept_mk_iff] | dsimp only)

theorem consortJoin_kept {fu : Fuses} {n0 : Nat} (d : Dev) (hk : Kept fu n0 d) : Kept fu n0 (consortJoin d) := by
  unfold consortJoin
  repeat' (first | with_reducible (first | assumption | apply send_kept | apply forEach_kept | apply modCns_kept | apply strumCancel_kept | apply cnsSettle_kept | intro _ | split) | simp only [kept_mk_iff] | dsimp only)

theorem consortJoinRequestRx_kept {fu : Fuses} {n0 : Nat} (m : Nat) (digest : List Byte) (serial : DWord) (cgen : Nat) (partOn : Bool) (streams : Nat) (timeOk : Bool) (d : Dev) (hk : Kept fu n0 d) : Kept fu n0 (consortJoinRequestRx m digest serial cgen partOn streams timeOk d) := by
  unfold consortJoinRequestRx
  repeat' (first | with_reducible (first | assumption | apply send_kept | apply forEach_kept | apply modCns_kept | apply cnsSettle_kept | intro _ | split) | simp only [kept_mk_iff] | dsimp only)

theorem masterHeard_kept {fu : Fuses} {n0 : Nat} (d : Dev) (hk : Kept fu n0 d) : Kept fu n0 (masterHeard d) := by
  unfold masterHeard
  repeat' (first | with_reducible (first | assumption | apply modCns_kept | intro _ | split) | simp only [kept_mk_iff] | dsimp only)

theorem consortJoinResultRx_kept {fu : Fuses} {n0 : Nat} (code : Nat) (joined : List Nat) (d : Dev) (hk : Kept fu n0 d) : Kept fu n0 (consortJoinResultRx code joined d) := by
  unfold consortJoinResultRx
  repeat' (first | with_reducible (first | assumption | apply modCns_kept | apply cnsSettle_kept | apply masterHeard_kept | intro _ | split) | simp only [kept_mk_iff] | dsimp only)

theorem consortLeave_kept {fu : Fuses} {n0 : Nat} (d : Dev) (hk : Kept fu n0 d) : Kept fu n0 (consortLeave d) := by
  unfold consortLeave
  repeat' (first | with_reducible (first | assumption | apply cnsSendAll_kept | apply modCns_kept | apply cnsStop_kept | intro _ | split) | simp only [kept_mk_iff] | dsimp only)

theorem memberLost_kept {fu : Fuses} {n0 : Nat} (m : Nat) (d : Dev) (hk : Kept fu n0 d) : Kept fu n0 (memberLost m d) := by
  unfold memberLost
  repeat' (first | with_reducible (first | assumption | apply modCns_kept | apply cnsStop_kept | intro _ | split) | simp only [kept_mk_iff] | dsimp only)

theorem memberAlignLost_kept {fu : Fuses} {n0 : Nat} (m : Nat) (d : Dev) (hk : Kept fu n0 d) : Kept fu n0 (memberAlignLost m d) := by
  unfold memberAlignLost
  repeat' (first | with_reducible (first | assumption | apply memberLost_kept | intro _ | split) | simp only [kept_mk_iff] | dsimp only)

theorem masterLost_kept {fu : Fuses} {n0 : Nat} (d : Dev) (hk : Kept fu n0 d) : Kept fu n0 (masterLost d) := by
  unfold masterLost
  repeat' (first | with_reducible (first | assumption | apply cnsStop_kept | intro _ | split) | simp only [kept_mk_iff] | dsimp only)

theorem consortPortTimeout_kept {fu : Fuses} {n0 : Nat} (m : Nat) (d : Dev) (hk : Kept fu n0 d) : Kept fu n0 (consortPortTimeout m d) := by
  unfold consortPortTimeout
  repeat' (first | with_reducible (first | assumption | apply memberLost_kept | intro _ | split) | simp only [kept_mk_iff] | dsimp only)

theorem setOffset_kept {fu : Fuses} {n0 : Nat} (o : Int) (d : Dev) (hk : Kept fu n0 d) : Kept fu n0 (setOffset o d) := by
  unfold setOffset
  repeat' (first | with_reducible (first | assumption | apply modCns_kept | intro _ | split) | simp only [kept_mk_iff] | dsimp only)

theorem ptpSyncRx_kept {fu : Fuses} {n0 : Nat} (dom : Nat) (t1 : Int) (f2 f3 : Nat) (d : Dev) (hk : Kept fu n0 d) : Kept fu n0 (ptpSyncRx dom t1 f2 f3 d) := by
  unfold ptpSyncRx
  repeat' (first | with_reducible (first | assumption | apply send_kept | apply modCns_kept | apply masterHeard_kept | apply setOffset_kept | intro _ | split) | simp only [kept_mk_iff] | dsimp only)

theorem ptpDelayRespRx_kept {fu : Fuses} {n0 : Nat} (dom : Nat) (t4 : Int) (d : Dev) (hk : Kept fu n0 d) : Kept fu n0 (ptpDelayRespRx dom t4 d) := by
  unfold ptpDelayRespRx
  repeat' (first | with_reducible (first | assumption | apply modCns_kept | apply setOffset_kept | intro _ | split) | simp only [kept_mk_iff] | dsimp only)

theorem ptpDelayReqRx_kept {fu : Fuses} {n0 : Nat} (dom : Nat) (d : Dev) (hk : Kept fu n0 d) : Kept fu n0 (ptpDelayReqRx dom d) := by
  unfold ptpDelayReqRx
  repeat' (first | with_reducible (first | assumption | apply send_kept | intro _ | split) | simp only [kept_mk_iff] | dsimp only)

theorem ptpSyncInterval_kept {fu : Fuses} {n0 : Nat} (d : Dev) (hk : Kept fu n0 d) : Kept fu n0 (ptpSyncInterval d) := by
  unfold ptpSyncInterval
  repeat' (first | with_reducible (first | assumption | apply send_kept | apply modCns_kept | intro _ | split) | simp only [kept_mk_iff] | dsimp only)

theorem clockSlew_kept {fu : Fuses} {n0 : Nat} (d : Dev) (hk : Kept fu n0 d) : Kept fu n0 (clockSlew d) := by
  unfold clockSlew
  repeat' (first | with_reducible (first | assumption | apply modCns_kept | apply setOffset_kept | intro _ | split) | simp only [kept_mk_iff] | dsimp only)

theorem strumRequest_kept {fu : Fuses} {n0 : Nat} (action arg obj : Nat) (t : DWord) (d : Dev) (hk : Kept fu n0 d) : Kept fu n0 (strumRequest action arg obj t d) := by
  unfold strumRequest
  repeat' (first | with_reducible (first | assumption | apply cnsSendAll_kept | apply modCns_kept | intro _ | split) | simp only [kept_mk_iff] | dsimp only)

theorem strumReceive_kept {fu : Fuses} {n0 : Nat} (cancel : Bool) (action arg obj : Nat) (t : DWord) (d : Dev) (hk : Kept fu n0 d) : Kept fu n0 (strumReceive cancel action arg obj t d) := by
  unfold strumReceive
  repeat' (first | with_reducible (first | assumption | apply send_kept | apply modCns_kept | apply strumCancel_kept | apply masterHeard_kept | intro _ | split) | simp only [kept_mk_iff] | dsimp only)

theorem strumAckRx_kept {fu : Fuses} {n0 : Nat} (m : Nat) (t : DWord) (d : Dev) (hk : Kept fu n0 d) : Kept fu n0 (strumAckRx m t d) := by
  unfold strumAckRx
  repeat' (first | with_reducible (first | assumption | apply modCns_kept | intro _ | split) | simp only [kept_mk_iff] | dsimp only)

theorem strumAckDeadline_kept {fu : Fuses} {n0 : Nat} (d : Dev) (hk : Kept fu n0 d) : Kept fu n0 (strumAckDeadline d) := by
  unfold strumAckDeadline
  repeat' (first | with_reducible (first | assumption | apply forEach_kept | apply cnsSendAll_kept | apply modCns_kept | apply strumCancel_kept | intro _ | split) | simp only [kept_mk_iff] | dsimp only)

theorem strumAct_kept {fu : Fuses} {n0 : Nat} (s : Strum) (d : Dev) (hk : Kept fu n0 d) : Kept fu n0 (strumAct s d) := by
  unfold strumAct
  repeat' (first | with_reducible (first | assumption | apply syncSet_kept | apply modCns_kept | apply strumTune_kept | intro _ | split) | simp only [kept_mk_iff] | dsimp only)

theorem strumFire_kept {fu : Fuses} {n0 : Nat} (d : Dev) (hk : Kept fu n0 d) : Kept fu n0 (strumFire d) := by
  unfold strumFire
  repeat' (first | with_reducible (first | assumption | apply bump_kept | apply forEach_kept | apply modCns_kept | apply strumNote_kept | apply strumEvent_kept | apply strumAct_kept | intro _ | split) | simp only [kept_mk_iff] | dsimp only)

theorem cnsSignal_kept {fu : Fuses} {n0 : Nat} (p aid o k : Nat) (m : Dgram) (d : Dev) (hk : Kept fu n0 d) : Kept fu n0 (cnsSignal p aid o k m d) := by
  unfold cnsSignal
  repeat' (first | with_reducible (first | assumption | apply send_kept | apply sendReply_kept | apply syncSignal_kept | apply cnsSendAll_kept | intro _ | split) | simp only [kept_mk_iff] | dsimp only)

theorem doSignal_kept {fu : Fuses} {n0 : Nat} (p aid : Nat) (m : Dgram) (d : Dev) (hk : Kept fu n0 d) : Kept fu n0 (doSignal p aid m d) := by
  unfold doSignal
  repeat' (first | with_reducible (first | assumption | apply doSyncSignal_kept | apply cnsSignal_kept | intro _ | split) | simp only [kept_mk_iff] | dsimp only)

theorem consortSyncUpdateRx_kept {fu : Fuses} {n0 : Nat} (k op : Nat) (v : DWord) (cycle : Nat) (d : Dev) (hk : Kept fu n0 d) : Kept fu n0 (consortSyncUpdateRx k op v cycle d) := by
  unfold consortSyncUpdateRx
  repeat' (first | with_reducible (first | assumption | apply syncSet_kept | apply syncSignal_kept | apply cnsSendAll_kept | apply masterHeard_kept | intro _ | split) | simp only [kept_mk_iff] | dsimp only)

theorem rdmaWriteConsortPort_kept {fu : Fuses} {n0 : Nat} (k qp : Nat) (ce : Bool) (data : List Byte) (d : Dev) (hk : Kept fu n0 d) : Kept fu n0 (rdmaWriteConsortPort k qp ce data d) := by
  unfold rdmaWriteConsortPort
  repeat' (first | with_reducible (first | assumption | apply bump_kept | apply addWrap_kept | apply send_kept | apply ceOnRdma_kept | apply masterHeard_kept | intro _ | split) | simp only [kept_mk_iff] | dsimp only)

theorem endWork_kept {fu : Fuses} {n0 : Nat} (d : Dev) (hk : Kept fu n0 d) : Kept fu n0 (endWork d) := by
  unfold endWork
  repeat' (first | with_reducible (first | assumption | apply forEach_kept | apply updAbort_kept | apply abortWindow_kept | apply tuneAbort_kept | intro _ | split) | simp only [kept_mk_iff] | dsimp only)

theorem dropEnded_kept {fu : Fuses} {n0 : Nat} (d : Dev) (hk : Kept fu n0 d) : Kept fu n0 (dropEnded d) := by
  unfold dropEnded
  repeat' (first | with_reducible (first | assumption | apply forEach_kept | apply dropSteps_kept | intro _ | split) | simp only [kept_mk_iff] | dsimp only)

theorem clearDev_kept {fu : Fuses} {n0 : Nat} (s : Scope) (d : Dev) (hk : Kept fu n0 d) : Kept fu n0 (clearDev s d) := by
  unfold clearDev
  have h1 : Kept fu n0 (if isLoss s then { d with eth := resetEth d.eth } else if isWarm s then dropEnded (endWork { d with eth := resetEth d.eth })
      else endWork { d with eth := resetEth d.eth }) := by
    have h0 : Kept fu n0 { d with eth := resetEth d.eth } := kept_same hk rfl rfl rfl rfl rfl
    split
    · exact h0
    · split
      · exact dropEnded_kept _ (endWork_kept _ h0)
      · exact endWork_kept _ h0
  extract_lets w d1 d2
  obtain ⟨⟨a, b, c⟩, g, k⟩ := (show Kept fu n0 d2 from h1)
  clear_value d2
  refine ⟨⟨?_, ?_, ?_⟩, g, k⟩
  · show Registers.wf (keepRegs s d2.regs) = true
    unfold keepRegs
    split
    · exact canonBy_filter _ a
    · exact canonBy_filter _ a
    · rfl
    · exact a
  · show Memory.wf (if isLoss s then [] else d2.mem) = true
    split
    · rfl
    · exact b
  · show SMapWf (if isLoss s then [] else d2.poison) = true
    split
    · rfl
    · exact c

theorem spoilDump_kept {fu : Fuses} {n0 : Nat} (d : Dev) (hk : Kept fu n0 d) : Kept fu n0 (spoilDump d) := by
  unfold spoilDump
  repeat' (first | with_reducible (first | assumption | intro _ | split) | simp only [kept_mk_iff] | dsimp only)

theorem assertReset_kept {fu : Fuses} {n0 : Nat} (count : Bool) (d : Dev) (hk : Kept fu n0 d) : Kept fu n0 (assertReset count d) := by
  unfold assertReset
  repeat' (first | with_reducible (first | assumption | apply clearDev_kept | apply spoilDump_kept | intro _ | split) | simp only [kept_mk_iff] | dsimp only)

theorem startReset_kept {fu : Fuses} {n0 : Nat} (s : Scope) (cause mask : Nat) (d : Dev) (hk : Kept fu n0 d) : Kept fu n0 (startReset s cause mask d) := by
  unfold startReset
  repeat' (first | with_reducible (first | assumption | apply bump_kept | apply assertReset_kept | intro _ | split) | simp only [kept_mk_iff] | dsimp only)

theorem mergeReset_kept {fu : Fuses} {n0 : Nat} (s : Scope) (cause : Nat) (d : Dev) (hk : Kept fu n0 d) : Kept fu n0 (mergeReset s cause d) := by
  unfold mergeReset
  repeat' (first | with_reducible (first | assumption | apply assertReset_kept | intro _ | split) | simp only [kept_mk_iff] | dsimp only)

theorem deviceRequest_kept {fu : Fuses} {n0 : Nat} (s : Scope) (cause : Nat) (d : Dev) (hk : Kept fu n0 d) : Kept fu n0 (deviceRequest s cause d) := by
  unfold deviceRequest
  repeat' (first | with_reducible (first | assumption | apply bump_kept | apply startReset_kept | apply mergeReset_kept | intro _ | split) | simp only [kept_mk_iff] | dsimp only)

theorem lesserRequest_kept {fu : Fuses} {n0 : Nat} (cause : Nat) (d : Dev) (hk : Kept fu n0 d) : Kept fu n0 (lesserRequest cause d) := by
  unfold lesserRequest
  repeat' (first | with_reducible (first | assumption | apply bump_kept | intro _ | split) | simp only [kept_mk_iff] | dsimp only)

theorem nvPulseEnd_kept {fu : Fuses} {n0 : Nat} (next : Option NvWrite) (d : Dev) (hk : Kept fu n0 d) : Kept fu n0 (nvPulseEnd next d) := by
  unfold nvPulseEnd
  repeat' (first | with_reducible (first | assumption | apply assertReset_kept | intro _ | split) | simp only [kept_mk_iff] | dsimp only)

theorem deviceResetRelease_kept {fu : Fuses} {n0 : Nat} (b0 c0 b1 c1 pb pc : BitVec 2) (d : Dev) (hk : Kept fu n0 d) : Kept fu n0 (deviceResetRelease b0 c0 b1 c1 pb pc d) := by
  unfold deviceResetRelease
  repeat' (first | with_reducible (first | assumption | intro _ | split) | simp only [kept_mk_iff] | dsimp only)

theorem readRetMap_kept {fu : Fuses} {n0 : Nat} (d : Dev) (hk : Kept fu n0 d) : Kept fu n0 (readRetMap d) := by
  unfold readRetMap
  repeat' (first | with_reducible (first | assumption | apply forEach_kept | apply modTile_kept | intro _ | split) | simp only [kept_mk_iff] | dsimp only)

theorem bootFirmware_kept {fu : Fuses} {n0 : Nat} (d : Dev) (hk : Kept fu n0 d) : Kept fu n0 (bootFirmware d) := by
  unfold bootFirmware
  repeat' (first | with_reducible (first | assumption | apply forEach_kept | apply addAlert_kept | apply calStart_kept | apply readRetMap_kept | intro _ | split) | simp only [kept_mk_iff] | dsimp only)

theorem rootPllLock_kept {fu : Fuses} {n0 : Nat} (d : Dev) (hk : Kept fu n0 d) : Kept fu n0 (rootPllLock d) := by
  unfold rootPllLock
  repeat' (first | with_reducible (first | assumption | apply bootFirmware_kept | intro _ | split) | simp only [kept_mk_iff] | dsimp only)

theorem updateProgramDone_kept {fu : Fuses} {n0 : Nat} (readBackOk : Bool) (d : Dev) (hk : Kept fu n0 d) : Kept fu n0 (updateProgramDone readBackOk d) := by
  unfold updateProgramDone
  repeat' (first | with_reducible (first | assumption | apply updProgrammed_kept | apply bootEventDue_kept | apply bootFirmware_kept | intro _ | split) | simp only [kept_mk_iff] | dsimp only)

theorem clearDieRegs_kept {fu : Fuses} {n0 : Nat} (n : Nat) (d : Dev) (hk : Kept fu n0 d) : Kept fu n0 (clearDieRegs n d) :=
  kept_filtered hk _ (fun _ => true) (fun _ => true) rfl (filter_id _).symm (filter_id _).symm rfl rfl

theorem trainLinks_kept {fu : Fuses} {n0 : Nat} (l : List Nat) (d : Dev) (hk : Kept fu n0 d) : Kept fu n0 (trainLinks l d) := by
  unfold trainLinks
  repeat' (first | with_reducible (first | assumption | apply forEach_kept | apply putLink_kept | intro _ | split) | simp only [kept_mk_iff] | dsimp only)

theorem rollHome_kept {fu : Fuses} {n0 : Nat} (n : Nat) (done : List Nat) (d : Dev) (hk : Kept fu n0 d) : Kept fu n0 (rollHome n done d) := by
  unfold rollHome
  repeat' (first | with_reducible (first | assumption | apply forEach_kept | apply rollback_kept | intro _ | split) | simp only [kept_mk_iff] | dsimp only)

theorem dropTests_kept {fu : Fuses} {n0 : Nat} (n : Nat) (d : Dev) (hk : Kept fu n0 d) : Kept fu n0 (dropTests n d) := by
  unfold dropTests
  repeat' (first | with_reducible (first | assumption | apply forEach_kept | apply modTile_kept | apply modCourse_kept | intro _ | split) | simp only [kept_mk_iff] | dsimp only)

theorem startStage_kept {fu : Fuses} {n0 : Nat} (p stage : Nat) (d : Dev) (hk : Kept fu n0 d) : Kept fu n0 (startStage p stage d) := by
  unfold startStage
  repeat' (first | with_reducible (first | assumption | apply discardAndSort_kept | apply resetStage_kept | intro _ | split) | simp only [kept_mk_iff] | dsimp only)

theorem startPartition_kept {fu : Fuses} {n0 : Nat} (p : Nat) (d : Dev) (hk : Kept fu n0 d) : Kept fu n0 (startPartition p d) := by
  unfold startPartition
  repeat' (first | with_reducible (first | assumption | apply forEach_kept | apply discardAndSort_kept | apply resetStage_kept | apply abortWindow_kept | apply tuneAbort_kept | intro _ | split) | simp only [kept_mk_iff] | dsimp only)

theorem startDie_kept {fu : Fuses} {n0 : Nat} (n : Nat) (d : Dev) (hk : Kept fu n0 d) : Kept fu n0 (startDie n d) := by
  unfold startDie
  repeat' (first | with_reducible (first | assumption | apply forEach_kept | apply modKv_kept | apply calStart_kept | apply discardAndSort_kept | apply resetStage_kept | apply clearDieRegs_kept | apply trainLinks_kept | apply rollHome_kept | apply dropTests_kept | intro _ | split) | simp only [kept_mk_iff] | dsimp only)

theorem startSub_kept {fu : Fuses} {n0 : Nat} (x : SubReset) (d : Dev) (hk : Kept fu n0 d) : Kept fu n0 (startSub x d) := by
  unfold startSub
  repeat' (first | with_reducible (first | assumption | apply addSub_kept | apply startStage_kept | apply startPartition_kept | apply startDie_kept | intro _ | split) | simp only [kept_mk_iff] | dsimp only)

theorem admitSub_kept {fu : Fuses} {n0 : Nat} (q : SubReset) (d : Dev) (hk : Kept fu n0 d) : Kept fu n0 (admitSub q d) := by
  unfold admitSub
  repeat' (first | with_reducible (first | assumption | apply bump_kept | apply startSub_kept | intro _ | split) | simp only [kept_mk_iff] | dsimp only)

theorem startWaiting_kept {fu : Fuses} {n0 : Nat} (d : Dev) (hk : Kept fu n0 d) : Kept fu n0 (startWaiting d) := by
  unfold startWaiting
  repeat' (first | with_reducible (first | assumption | apply forEach_kept | apply admitSub_kept | intro _ | split) | simp only [kept_mk_iff] | dsimp only)

theorem endSub_kept {fu : Fuses} {n0 : Nat} (x : SubReset) (d : Dev) (hk : Kept fu n0 d) : Kept fu n0 (endSub x d) := by
  unfold endSub
  repeat' (first | with_reducible (first | assumption | apply bump_kept | apply forEach_kept | apply rstEvent_kept | apply startWaiting_kept | intro _ | split) | simp only [kept_mk_iff] | dsimp only)

theorem rebuildCourse_kept {fu : Fuses} {n0 : Nat} (f c : Nat) (d : Dev) (hk : Kept fu n0 d) : Kept fu n0 (rebuildCourse f c d) := by
  unfold rebuildCourse
  repeat' (first | with_reducible (first | assumption | apply forEach_kept | apply modTile_kept | apply modCourse_kept | apply modSlot_kept | apply startObservation_kept | apply writeCourseRegs_kept | apply putUse_kept | apply placeTile_kept | intro _ | split) | simp only [kept_mk_iff] | dsimp only)

theorem rebuildDie_kept {fu : Fuses} {n0 : Nat} (f : Nat) (d : Dev) (hk : Kept fu n0 d) : Kept fu n0 (rebuildDie f d) := by
  unfold rebuildDie
  repeat' (first | with_reducible (first | assumption | apply forEach_kept | apply rebuildCourse_kept | intro _ | split) | simp only [kept_mk_iff] | dsimp only)

theorem escalateSub_kept {fu : Fuses} {n0 : Nat} (x : SubReset) (d : Dev) (hk : Kept fu n0 d) : Kept fu n0 (escalateSub x d) := by
  unfold escalateSub
  repeat' (first | with_reducible (first | assumption | apply bump_kept | apply deviceRequest_kept | apply admitSub_kept | intro _ | split) | simp only [kept_mk_iff] | dsimp only)

theorem escalateDev_kept {fu : Fuses} {n0 : Nat} (d : Dev) (hk : Kept fu n0 d) : Kept fu n0 (escalateDev d) := by
  unfold escalateDev
  repeat' (first | with_reducible (first | assumption | apply bump_kept | apply addAlert_kept | apply startReset_kept | intro _ | split) | simp only [kept_mk_iff] | dsimp only)

theorem escalate_kept {fu : Fuses} {n0 : Nat} (k : Option Nat) (d : Dev) (hk : Kept fu n0 d) : Kept fu n0 (escalate k d) := by
  unfold escalate
  repeat' (first | with_reducible (first | assumption | apply escalateSub_kept | apply escalateDev_kept | intro _ | split) | simp only [kept_mk_iff] | dsimp only)

theorem powerOff_kept {fu : Fuses} {n0 : Nat} (d : Dev) (hk : Kept fu n0 d) : Kept fu n0 (powerOff d) := by
  unfold powerOff
  repeat' (first | with_reducible (first | assumption | apply assertReset_kept | intro _ | split) | simp only [kept_mk_iff] | dsimp only)

theorem powerOn_kept {fu : Fuses} {n0 : Nat} (d : Dev) (hk : Kept fu n0 d) : Kept fu n0 (powerOn d) := by
  unfold powerOn
  repeat' (first | with_reducible (first | assumption | apply startReset_kept | intro _ | split) | simp only [kept_mk_iff] | dsimp only)

theorem brownOut_kept {fu : Fuses} {n0 : Nat} (d : Dev) (hk : Kept fu n0 d) : Kept fu n0 (brownOut d) := by
  unfold brownOut
  repeat' (first | with_reducible (first | assumption | apply startReset_kept | apply mergeReset_kept | intro _ | split) | simp only [kept_mk_iff] | dsimp only)

theorem overVoltage_kept {fu : Fuses} {n0 : Nat} (d : Dev) (hk : Kept fu n0 d) : Kept fu n0 (overVoltage d) := by
  unfold overVoltage
  repeat' (first | with_reducible (first | assumption | apply powerOff_kept | intro _ | split) | simp only [kept_mk_iff] | dsimp only)

theorem overVoltageEnd_kept {fu : Fuses} {n0 : Nat} (d : Dev) (hk : Kept fu n0 d) : Kept fu n0 (overVoltageEnd d) := by
  unfold overVoltageEnd
  repeat' (first | with_reducible (first | assumption | apply powerOn_kept | intro _ | split) | simp only [kept_mk_iff] | dsimp only)

theorem pinReset_kept {fu : Fuses} {n0 : Nat} (d : Dev) (hk : Kept fu n0 d) : Kept fu n0 (pinReset d) := by
  unfold pinReset
  repeat' (first | with_reducible (first | assumption | apply deviceRequest_kept | intro _ | split) | simp only [kept_mk_iff] | dsimp only)

theorem pinResetRelease_kept {fu : Fuses} {n0 : Nat} (d : Dev) (hk : Kept fu n0 d) : Kept fu n0 (pinResetRelease d) := by
  unfold pinResetRelease
  repeat' (first | with_reducible (first | assumption | intro _ | split) | simp only [kept_mk_iff] | dsimp only)

theorem watchdogExpiry_kept {fu : Fuses} {n0 : Nat} (d : Dev) (hk : Kept fu n0 d) : Kept fu n0 (watchdogExpiry d) := by
  unfold watchdogExpiry
  repeat' (first | with_reducible (first | assumption | apply deviceRequest_kept | intro _ | split) | simp only [kept_mk_iff] | dsimp only)

theorem lockup_kept {fu : Fuses} {n0 : Nat} (d : Dev) (hk : Kept fu n0 d) : Kept fu n0 (lockup d) := by
  unfold lockup
  repeat' (first | with_reducible (first | assumption | apply deviceRequest_kept | intro _ | split) | simp only [kept_mk_iff] | dsimp only)

theorem clockFail_kept {fu : Fuses} {n0 : Nat} (d : Dev) (hk : Kept fu n0 d) : Kept fu n0 (clockFail d) := by
  unfold clockFail
  repeat' (first | with_reducible (first | assumption | apply addField_kept | apply deviceRequest_kept | intro _ | split) | simp only [kept_mk_iff] | dsimp only)

theorem debugReset_kept {fu : Fuses} {n0 : Nat} (d : Dev) (hk : Kept fu n0 d) : Kept fu n0 (debugReset d) := by
  unfold debugReset
  repeat' (first | with_reducible (first | assumption | apply deviceRequest_kept | intro _ | split) | simp only [kept_mk_iff] | dsimp only)

theorem logProgram_kept {fu : Fuses} {n0 : Nat} (d : Dev) (hk : Kept fu n0 d) : Kept fu n0 (logProgram d) := by
  unfold logProgram
  repeat' (first | with_reducible (first | assumption | intro _ | split) | simp only [kept_mk_iff] | dsimp only)

theorem tripEvent_kept {fu : Fuses} {n0 : Nat} (die k : Nat) (v : Half) (d : Dev) (hk : Kept fu n0 d) : Kept fu n0 (tripEvent die k v d) := by
  unfold tripEvent
  repeat' (first | with_reducible (first | assumption | apply raiseEvent_kept | intro _ | split) | simp only [kept_mk_iff] | dsimp only)

theorem thermalTrip_kept {fu : Fuses} {n0 : Nat} (die k : Nat) (v : Half) (d : Dev) (hk : Kept fu n0 d) : Kept fu n0 (thermalTrip die k v d) := by
  unfold thermalTrip
  repeat' (first | with_reducible (first | assumption | apply forEach_kept | apply addAlert_kept | apply powerOff_kept | apply logProgram_kept | apply tripEvent_kept | intro _ | split) | simp only [kept_mk_iff] | dsimp only)

theorem pwrStateEvent_kept {fu : Fuses} {n0 : Nat} (from_ : DWord) (d : Dev) (hk : Kept fu n0 d) : Kept fu n0 (pwrStateEvent from_ d) := by
  unfold pwrStateEvent
  repeat' (first | with_reducible (first | assumption | apply pwrEvent_kept | intro _ | split) | simp only [kept_mk_iff] | dsimp only)

theorem startWake_kept {fu : Fuses} {n0 : Nat} (why : Nat) (d : Dev) (hk : Kept fu n0 d) : Kept fu n0 (startWake why d) := by
  unfold startWake
  repeat' (first | with_reducible (first | assumption | apply forEach_kept | apply calStart_kept | apply foldl_kept | apply foldl_kept_snd | intro _ | split) | simp only [kept_mk_iff] | dsimp only)

theorem powerReq_kept {fu : Fuses} {n0 : Nat} (st : Nat) (d : Dev) (hk : Kept fu n0 d) : Kept fu n0 (powerReq st d) := by
  unfold powerReq
  repeat' (first | with_reducible (first | assumption | apply pwrStateEvent_kept | apply startWake_kept | intro _ | split) | simp only [kept_mk_iff] | dsimp only)

theorem flushBridge_kept {fu : Fuses} {n0 : Nat} (b : Nat) (d : Dev) (hk : Kept fu n0 d) : Kept fu n0 (flushBridge b d) := by
  unfold flushBridge
  repeat' (first | with_reducible (first | assumption | apply bump_kept | apply forEach_kept | apply modKv_kept | apply flushBuf_kept | apply editPublish_kept | intro _ | split) | simp only [kept_mk_iff] | dsimp only)

theorem powerDrainDone_kept {fu : Fuses} {n0 : Nat} (held : Nat) (d : Dev) (hk : Kept fu n0 d) : Kept fu n0 (powerDrainDone held d) := by
  unfold powerDrainDone
  repeat' (first | with_reducible (first | assumption | apply addCtr_kept | apply forEach_kept | apply linkGone_kept | apply ppsOut_kept | apply pwrStateEvent_kept | apply startWake_kept | apply flushBridge_kept | intro _ | split) | simp only [kept_mk_iff] | dsimp only)

theorem drainTimeout_kept {fu : Fuses} {n0 : Nat} (d : Dev) (hk : Kept fu n0 d) : Kept fu n0 (drainTimeout d) := by
  unfold drainTimeout
  repeat' (first | with_reducible (first | assumption | apply startWaiting_kept | intro _ | split) | simp only [kept_mk_iff] | dsimp only)

theorem autoIdleEnter_kept {fu : Fuses} {n0 : Nat} (d : Dev) (hk : Kept fu n0 d) : Kept fu n0 (autoIdleEnter d) := by
  unfold autoIdleEnter
  repeat' (first | with_reducible (first | assumption | intro _ | split) | simp only [kept_mk_iff] | dsimp only)

theorem idleExit_kept {fu : Fuses} {n0 : Nat} (d : Dev) (hk : Kept fu n0 d) : Kept fu n0 (idleExit d) := by
  unfold idleExit
  repeat' (first | with_reducible (first | assumption | apply pwrStateEvent_kept | intro _ | split) | simp only [kept_mk_iff] | dsimp only)

theorem applyDue_kept {fu : Fuses} {n0 : Nat} (x : Nat × Due) (d : Dev) (hk : Kept fu n0 d) : Kept fu n0 (applyDue x d) := by
  unfold applyDue
  repeat' (first | with_reducible (first | assumption | apply epochRetireBy_kept | apply parkExpiry_kept | apply deadlineReached_kept | intro _ | split) | simp only [kept_mk_iff] | dsimp only)

theorem wakeEnd_kept {fu : Fuses} {n0 : Nat} (held : Nat) (d : Dev) (hk : Kept fu n0 d) : Kept fu n0 (wakeEnd held d) := by
  unfold wakeEnd
  repeat' (first | with_reducible (first | assumption | apply addCtr_kept | apply forEach_kept | apply startWaiting_kept | apply pwrStateEvent_kept | apply applyDue_kept | intro _ | split) | simp only [kept_mk_iff] | dsimp only)

theorem subRequest_kept {fu : Fuses} {n0 : Nat} (q : SubReset) (d : Dev) (hk : Kept fu n0 d) : Kept fu n0 (subRequest q d) := by
  unfold subRequest
  repeat' (first | with_reducible (first | assumption | apply lesserRequest_kept | apply admitSub_kept | apply startWake_kept | intro _ | split) | simp only [kept_mk_iff] | dsimp only)

theorem linkRetrainDone_kept {fu : Fuses} {n0 : Nat} (l : Nat) (ok : Bool) (d : Dev) (hk : Kept fu n0 d) : Kept fu n0 (linkRetrainDone l ok d) := by
  unfold linkRetrainDone
  repeat' (first | with_reducible (first | assumption | apply forEach_kept | apply retrained_kept | apply subRequest_kept | intro _ | split) | simp only [kept_mk_iff] | dsimp only)

theorem vigilSample_kept {fu : Fuses} {n0 : Nat} (lanes : Nat) (temps : List Half) (vin : Half) (d : Dev) (hk : Kept fu n0 d) : Kept fu n0 (vigilSample lanes temps vin d) := by
  unfold vigilSample
  repeat' (first | with_reducible (first | assumption | apply bump_kept | apply startWake_kept | intro _ | split) | simp only [kept_mk_iff] | dsimp only)

theorem calDie_kept {fu : Fuses} {n0 : Nat} (l : List DieCal) (f : Nat) (d : Dev) (hk : Kept fu n0 d) : Kept fu n0 (calDie l f d) := by
  unfold calDie
  repeat' (first | with_reducible (first | assumption | apply calCommit_kept | intro _ | split) | simp only [kept_mk_iff] | dsimp only)

theorem calibrationCommit_kept {fu : Fuses} {n0 : Nat} (l : List DieCal) (d : Dev) (hk : Kept fu n0 d) : Kept fu n0 (calibrationCommit l d) := by
  unfold calibrationCommit
  repeat' (first | with_reducible (first | assumption | apply forEach_kept | apply linkUp_kept | apply calDie_kept | intro _ | split) | simp only [kept_mk_iff] | dsimp only)

theorem mgmtAnswer_kept {fu : Fuses} {n0 : Nat} (ttype : Byte) (aid : Nat) (m : Dgram) (s : Option Session) (code : Nat) (extra : List Byte) (d : Dev) (hk : Kept fu n0 d) : Kept fu n0 (mgmtAnswer ttype aid m s code extra d) := by
  unfold mgmtAnswer
  repeat' (first | with_reducible (first | assumption | apply queueMsg_kept | intro _ | split) | simp only [kept_mk_iff] | dsimp only)

theorem mgmtReply_kept {fu : Fuses} {n0 : Nat} (aid : Nat) (m : Dgram) (s : Option Session) (extra : List Byte) (d : Dev) (hk : Kept fu n0 d) : Kept fu n0 (mgmtReply aid m s extra d) := by
  unfold mgmtReply
  repeat' (first | with_reducible (first | assumption | apply mgmtAnswer_kept | intro _ | split) | simp only [kept_mk_iff] | dsimp only)

theorem mgmtNack_kept {fu : Fuses} {n0 : Nat} (aid : Nat) (m : Dgram) (s : Option Session) (code addr : Nat) (d : Dev) (hk : Kept fu n0 d) : Kept fu n0 (mgmtNack aid m s code addr d) := by
  unfold mgmtNack
  repeat' (first | with_reducible (first | assumption | apply mgmtAnswer_kept | intro _ | split) | simp only [kept_mk_iff] | dsimp only)

theorem refuseAddr_kept {fu : Fuses} {n0 : Nat} (aid : Nat) (m : Dgram) (s : Session) (e : Nat × Nat) (d : Dev) (hk : Kept fu n0 d) : Kept fu n0 (refuseAddr aid m s e d) := by
  unfold refuseAddr
  repeat' (first | with_reducible (first | assumption | apply bump_kept | apply mgmtNack_kept | intro _ | split) | simp only [kept_mk_iff] | dsimp only)

theorem holdMsg_kept {fu : Fuses} {n0 : Nat} (aid : Nat) (m : Dgram) (units : Nat) (d : Dev) (hk : Kept fu n0 d) : Kept fu n0 (holdMsg aid m units d) := by
  unfold holdMsg
  repeat' (first | with_reducible (first | assumption | intro _ | split) | simp only [kept_mk_iff] | dsimp only)

theorem readReg_kept {fu : Fuses} {n0 : Nat} (s : Session) (a : Nat) (d : Dev) (hk : Kept fu n0 d) : Kept fu n0 (readReg s a d).2 := by
  unfold readReg
  repeat' (first | with_reducible (first | assumption | apply bump_kept | apply modSession_kept | apply foldl_kept | apply foldl_kept_snd | intro _ | split) | simp only [kept_mk_iff] | dsimp only)

theorem readRegs_kept {fu : Fuses} {n0 : Nat} (s : Session) (l : List Nat) (d : Dev) (hk : Kept fu n0 d) :
    Kept fu n0 (readRegs s l d).2 := by
  induction l generalizing d with
  | nil => exact hk
  | cons a r ih => exact ih _ (readReg_kept s a d hk)

theorem clearCtrs_kept {fu : Fuses} {n0 : Nat} (a : Nat) (r : RegDef) (v : Word) (d : Dev) (hk : Kept fu n0 d) : Kept fu n0 (clearCtrs a r v d) := by
  unfold clearCtrs
  repeat' (first | with_reducible (first | assumption | apply regSetField_kept | apply forEach_kept | intro _ | split) | simp only [kept_mk_iff] | dsimp only)

theorem writeRw_kept {fu : Fuses} {n0 : Nat} (a : Nat) (r : RegDef) (v : Word) (d : Dev) (hk : Kept fu n0 d) : Kept fu n0 (writeRw a r v d) := by
  unfold writeRw
  repeat' (first | with_reducible (first | assumption | apply regPut_kept | intro _ | split) | simp only [kept_mk_iff] | dsimp only)

theorem writeSel_kept {fu : Fuses} {n0 : Nat} (s : Session) (a : Nat) (r : RegDef) (v : Word) (d : Dev) (hk : Kept fu n0 d) : Kept fu n0 (writeSel s a r v d) := by
  unfold writeSel
  repeat' (first | with_reducible (first | assumption | apply modSession_kept | intro _ | split) | simp only [kept_mk_iff] | dsimp only)

theorem trackerClear_kept {fu : Fuses} {n0 : Nat} (f c t : Nat) (d : Dev) (hk : Kept fu n0 d) : Kept fu n0 (trackerClear f c t d) := by
  unfold trackerClear
  repeat' (first | with_reducible (first | assumption | apply modTile_kept | intro _ | split) | simp only [kept_mk_iff] | dsimp only)

theorem writeStrum_kept {fu : Fuses} {n0 : Nat} (s : Session) (v : Word) (d : Dev) (hk : Kept fu n0 d) : Kept fu n0 (writeStrum s v d).2 := by
  unfold writeStrum
  repeat' (first | with_reducible (first | assumption | apply regPut_kept | apply strumRequest_kept | intro _ | split) | simp only [kept_mk_iff] | dsimp only)

theorem reinstate_kept {fu : Fuses} {n0 : Nat} (d : Dev) (hk : Kept fu n0 d) : Kept fu n0 (reinstate d) := by
  unfold reinstate
  repeat' (first | with_reducible (first | assumption | apply rstEvent_kept | intro _ | split) | simp only [kept_mk_iff] | dsimp only)

theorem writePwr_kept {fu : Fuses} {n0 : Nat} (v : Word) (d : Dev) (hk : Kept fu n0 d) : Kept fu n0 (writePwr v d) := by
  unfold writePwr
  repeat' (first | with_reducible (first | assumption | apply regSetField_kept | apply powerReq_kept | intro _ | split) | simp only [kept_mk_iff] | dsimp only)

theorem writeTune_kept {fu : Fuses} {n0 : Nat} (p : Nat) (v : Word) (d : Dev) (hk : Kept fu n0 d) : Kept fu n0 (writeTune p v d).2 := by
  unfold writeTune
  repeat' (first | with_reducible (first | assumption | apply tuneLoad_kept | apply tuneAbort_kept | intro _ | split) | simp only [kept_mk_iff] | dsimp only)

theorem writeHs_kept {fu : Fuses} {n0 : Nat} (s : Session) (o : Nat) (r : RegDef) (v : Word) (d : Dev) (hk : Kept fu n0 d) :
    Kept fu n0 (writeHs s o r v d).2 := by
  unfold writeHs
  by_cases h0 : o = HS_STRUMCTL
  · rw [if_pos h0]; exact writeStrum_kept s v d hk
  · rw [if_neg h0]
    dsimp only
    repeat' (with_reducible (first | assumption | apply flushAll_kept | apply writeRw_kept | apply when__kept | apply mapDiscard_kept | apply mapCommit_kept | apply putMapStg_kept | apply consortLeave_kept | apply consortJoin_kept | apply modCns_kept | apply reinstate_kept | apply regSetField_kept | apply writePwr_kept | apply regPut_kept | apply clearCtrs_kept | apply accountThrottle_kept | intro _ | split))

theorem writePeg_kept {fu : Fuses} {n0 : Nat} (s : Session) (o : Nat) (r : RegDef) (v : Word) (d : Dev) (hk : Kept fu n0 d) : Kept fu n0 (writePeg s o r v d) := by
  unfold writePeg
  repeat' (first | with_reducible (first | assumption | apply when__kept | apply modSession_kept | apply keyCtl_kept | apply updAbort_kept | apply settleUpdate_kept | apply clearCtrs_kept | intro _ | split) | simp only [kept_mk_iff] | dsimp only)

theorem writeFt_kept {fu : Fuses} {n0 : Nat} (n o : Nat) (r : RegDef) (v : Word) (d : Dev) (hk : Kept fu n0 d) : Kept fu n0 (writeFt n o r v d) := by
  unfold writeFt
  repeat' (first | with_reducible (first | assumption | apply regPut_kept | apply tileCommand_kept | apply clearCtrs_kept | apply writeRw_kept | intro _ | split) | simp only [kept_mk_iff] | dsimp only)

theorem writeReg_kept {fu : Fuses} {n0 : Nat} (s : Session) (a : Nat) (v : Word) (d : Dev) (hk : Kept fu n0 d) : Kept fu n0 (writeReg s a v d).2 := by
  unfold writeReg
  repeat' (first | with_reducible (first | assumption | apply when__kept | apply clearCtrs_kept | apply writeRw_kept | apply writeSel_kept | apply trackerClear_kept | apply writeTune_kept | apply writeHs_kept | apply writePeg_kept | apply writeFt_kept | intro _ | split) | simp only [kept_mk_iff] | dsimp only)

theorem writeRegs_kept {fu : Fuses} {n0 : Nat} (s : Session) (l : List (Nat × Word)) (d : Dev) (hk : Kept fu n0 d) :
    Kept fu n0 (writeRegs s l d).2 := by
  induction l generalizing d with
  | nil => exact hk
  | cons x r ih =>
    obtain ⟨a, v⟩ := x
    have h1 := writeReg_kept s a v d hk
    unfold writeRegs
    dsimp only
    split
    · exact h1
    · exact ih _ h1

theorem softwareReset_kept {fu : Fuses} {n0 : Nat} (v : Word) (d : Dev) (hk : Kept fu n0 d) : Kept fu n0 (softwareReset v d) := by
  unfold softwareReset
  repeat' (first | with_reducible (first | assumption | apply deviceRequest_kept | apply subRequest_kept | intro _ | split) | simp only [kept_mk_iff] | dsimp only)

theorem holdAccess_kept {fu : Fuses} {n0 : Nat} (aid : Nat) (m : Dgram) (items : List (Nat × Option Word)) (d : Dev) (hk : Kept fu n0 d) : Kept fu n0 (holdAccess aid m items d) := by
  unfold holdAccess
  repeat' (first | with_reducible (first | assumption | apply startWake_kept | apply holdMsg_kept | intro _ | split) | simp only [kept_mk_iff] | dsimp only)

theorem doMgmtRead_kept {fu : Fuses} {n0 : Nat} (aid : Nat) (m : Dgram) (s : Session) (d : Dev) (hk : Kept fu n0 d) : Kept fu n0 (doMgmtRead aid m s d) := by
  unfold doMgmtRead
  repeat' (first | with_reducible (first | assumption | apply accountThrottle_kept | apply mgmtReply_kept | apply mgmtNack_kept | apply refuseAddr_kept | apply readRegs_kept | apply holdAccess_kept | intro _ | split) | simp only [kept_mk_iff] | dsimp only)

theorem doMgmtWrite_kept {fu : Fuses} {n0 : Nat} (aid : Nat) (m : Dgram) (s : Session) (d : Dev) (hk : Kept fu n0 d) : Kept fu n0 (doMgmtWrite aid m s d) := by
  unfold doMgmtWrite
  repeat' (first | with_reducible (first | assumption | apply mgmtReply_kept | apply mgmtNack_kept | apply refuseAddr_kept | apply writeRegs_kept | apply softwareReset_kept | apply holdAccess_kept | intro _ | split) | simp only [kept_mk_iff] | dsimp only)

theorem doMgmtReset_kept {fu : Fuses} {n0 : Nat} (aid : Nat) (m : Dgram) (s : Session) (d : Dev) (hk : Kept fu n0 d) : Kept fu n0 (doMgmtReset aid m s d) := by
  unfold doMgmtReset
  repeat' (first | with_reducible (first | assumption | apply deviceRequest_kept | apply subRequest_kept | apply mgmtReply_kept | apply mgmtNack_kept | intro _ | split) | simp only [kept_mk_iff] | dsimp only)

theorem buildDump_kept {fu : Fuses} {n0 : Nat} (d : Dev) (hk : Kept fu n0 d) : Kept fu n0 (buildDump d) := by
  unfold buildDump
  repeat' (first | with_reducible (first | assumption | apply kept_mk_free | intro _ | split) | simp only [kept_mk_iff] | dsimp only)

theorem restoreWarm_kept {fu : Fuses} {n0 : Nat} (d : Dev) (hk : Kept fu n0 d) : Kept fu n0 (restoreWarm d) := by
  unfold restoreWarm
  repeat' (first | with_reducible (first | assumption | apply forEach_kept | apply settleRefs_kept | apply rollback_kept | apply rebuildDie_kept | intro _ | split) | simp only [kept_mk_iff] | dsimp only)

theorem enterWithdrawn_kept {fu : Fuses} {n0 : Nat} (d : Dev) (hk : Kept fu n0 d) : Kept fu n0 (enterWithdrawn d) := by
  unfold enterWithdrawn
  repeat' (first | with_reducible (first | assumption | apply rstEvent_kept | intro _ | split) | simp only [kept_mk_iff] | dsimp only)

theorem deviceResetDone_kept {fu : Fuses} {n0 : Nat} (d : Dev) (hk : Kept fu n0 d) : Kept fu n0 (deviceResetDone d) := by
  unfold deviceResetDone
  repeat' (first | with_reducible (first | assumption | apply rstEvent_kept | apply buildDump_kept | apply restoreWarm_kept | apply enterWithdrawn_kept | intro _ | split) | simp only [kept_mk_iff] | dsimp only)

theorem finishDie_kept {fu : Fuses} {n0 : Nat} (n : Nat) (d : Dev) (hk : Kept fu n0 d) : Kept fu n0 (finishDie n d) := by
  unfold finishDie
  repeat' (first | with_reducible (first | assumption | apply forEach_kept | apply linkUp_kept | apply rebuildDie_kept | intro _ | split) | simp only [kept_mk_iff] | dsimp only)

theorem doReport_kept {fu : Fuses} {n0 : Nat} (aid : Nat) (m : Dgram) (d : Dev) (hk : Kept fu n0 d) : Kept fu n0 (doReport aid m d) := by
  unfold doReport
  repeat' (first | with_reducible (first | assumption | apply bump_kept | apply mgmtReply_kept | apply mgmtNack_kept | intro _ | split) | simp only [kept_mk_iff] | dsimp only)

theorem doCerts_kept {fu : Fuses} {n0 : Nat} (aid : Nat) (m : Dgram) (d : Dev) (hk : Kept fu n0 d) : Kept fu n0 (doCerts aid m d) := by
  unfold doCerts
  repeat' (first | with_reducible (first | assumption | apply mgmtReply_kept | apply mgmtNack_kept | intro _ | split) | simp only [kept_mk_iff] | dsimp only)

theorem doSessionOpen_kept {fu : Fuses} {n0 : Nat} (aid : Nat) (m : Dgram) (d : Dev) (hk : Kept fu n0 d) : Kept fu n0 (doSessionOpen aid m d) := by
  unfold doSessionOpen
  repeat' (first | with_reducible (first | assumption | apply mgmtReply_kept | apply mgmtNack_kept | apply kept_mk_free | intro _ | split) | simp only [kept_mk_iff] | dsimp only)

theorem closeAll_kept {fu : Fuses} {n0 : Nat} (f : Session → Bool) (d : Dev) (hk : Kept fu n0 d) : Kept fu n0 (closeAll f d) := by
  unfold closeAll
  repeat' (first | with_reducible (first | assumption | apply closeSessions_kept | apply settleUpdate_kept | intro _ | split) | simp only [kept_mk_iff] | dsimp only)

theorem doSessionClose_kept {fu : Fuses} {n0 : Nat} (aid : Nat) (m : Dgram) (s : Session) (d : Dev) (hk : Kept fu n0 d) : Kept fu n0 (doSessionClose aid m s d) := by
  unfold doSessionClose
  repeat' (first | with_reducible (first | assumption | apply mgmtReply_kept | apply mgmtNack_kept | apply closeAll_kept | intro _ | split) | simp only [kept_mk_iff] | dsimp only)

theorem sessionIdleTimeout_kept {fu : Fuses} {n0 : Nat} (num : Word) (d : Dev) (hk : Kept fu n0 d) : Kept fu n0 (sessionIdleTimeout num d) := by
  unfold sessionIdleTimeout
  repeat' (first | with_reducible (first | assumption | apply closeAll_kept | intro _ | split) | simp only [kept_mk_iff] | dsimp only)

theorem zeroHbm_kept {fu : Fuses} {n0 : Nat} (d : Dev) (hk : Kept fu n0 d) : Kept fu n0 (zeroHbm d) := by
  unfold zeroHbm
  repeat' (first | with_reducible (first | assumption | apply kept_mk_mem | apply kept_mk_poison | intro _ | split) | simp only [kept_mk_iff] | dsimp only)

theorem claimAccept_kept {fu : Fuses} {n0 : Nat} (aid : Nat) (m : Dgram) (k : KeyEntry) (d : Dev) (hk : Kept fu n0 d) : Kept fu n0 (claimAccept aid m k d) := by
  unfold claimAccept
  repeat' (first | with_reducible (first | assumption | apply fwEvent_kept | apply mgmtReply_kept | apply closeAll_kept | apply zeroHbm_kept | apply foldl_kept | apply foldl_kept_snd | intro _ | split) | simp only [kept_mk_iff] | dsimp only)

theorem doClaim_kept {fu : Fuses} {n0 : Nat} (aid : Nat) (m : Dgram) (d : Dev) (hk : Kept fu n0 d) : Kept fu n0 (doClaim aid m d) := by
  unfold doClaim
  repeat' (first | with_reducible (first | assumption | apply mgmtNack_kept | apply claimAccept_kept | intro _ | split) | simp only [kept_mk_iff] | dsimp only)

theorem doChunk_kept {fu : Fuses} {n0 : Nat} (aid : Nat) (m : Dgram) (s : Option Session) (d : Dev) (hk : Kept fu n0 d) : Kept fu n0 (doChunk aid m s d) := by
  unfold doChunk
  repeat' (first | with_reducible (first | assumption | apply chunkStage_kept | apply mgmtReply_kept | apply mgmtNack_kept | intro _ | split) | simp only [kept_mk_iff] | dsimp only)

theorem doUpdateChunk_kept {fu : Fuses} {n0 : Nat} (aid : Nat) (m : Dgram) (s : Session) (d : Dev) (hk : Kept fu n0 d) : Kept fu n0 (doUpdateChunk aid m s d) := by
  unfold doUpdateChunk
  repeat' (first | with_reducible (first | assumption | apply mgmtNack_kept | apply doChunk_kept | intro _ | split) | simp only [kept_mk_iff] | dsimp only)

theorem endAssoc_kept {fu : Fuses} {n0 : Nat} (aid : Nat) (d : Dev) (hk : Kept fu n0 d) : Kept fu n0 (endAssoc aid d) := by
  unfold endAssoc
  repeat' (first | with_reducible (first | assumption | apply modAssoc_kept | apply dropWaits_kept | apply closeAll_kept | intro _ | split) | simp only [kept_mk_iff] | dsimp only)

theorem tryClose_kept {fu : Fuses} {n0 : Nat} (aid : Nat) (d : Dev) (hk : Kept fu n0 d) : Kept fu n0 (tryClose aid d) := by
  unfold tryClose
  repeat' (first | with_reducible (first | assumption | apply sendHeaderOnly_kept | apply endAssoc_kept | intro _ | split) | simp only [kept_mk_iff] | dsimp only)

theorem confirmSent_kept {fu : Fuses} {n0 : Nat} (x : Sent) (d : Dev) (hk : Kept fu n0 d) : Kept fu n0 (confirmSent x d) := by
  unfold confirmSent
  repeat' (first | with_reducible (first | assumption | apply modStream_kept | apply tryFree_kept | apply refreshTok_kept | intro _ | split) | simp only [kept_mk_iff] | dsimp only)

theorem takePeer_kept {fu : Fuses} {n0 : Nat} (aid : Nat) (h : Hdr) (d : Dev) (hk : Kept fu n0 d) : Kept fu n0 (takePeer aid h d) := by
  unfold takePeer
  repeat' (first | with_reducible (first | assumption | apply forEach_kept | apply putAssoc_kept | apply flushAssoc_kept | apply tryClose_kept | apply confirmSent_kept | intro _ | split) | simp only [kept_mk_iff] | dsimp only)

theorem doOpen_kept {fu : Fuses} {n0 : Nat} (m : Dgram) (d : Dev) (hk : Kept fu n0 d) : Kept fu n0 (doOpen m d) := by
  unfold doOpen
  repeat' (first | with_reducible (first | assumption | apply sendHeaderOnly_kept | apply flushAssoc_kept | apply sendReject_kept | apply endAssoc_kept | apply kept_mk_free | intro _ | split) | simp only [kept_mk_iff] | dsimp only)

theorem returnUnits_kept {fu : Fuses} {n0 : Nat} (aid n : Nat) (d : Dev) (hk : Kept fu n0 d) : Kept fu n0 (returnUnits aid n d) := by
  unfold returnUnits
  repeat' (first | with_reducible (first | assumption | apply putAssoc_kept | intro _ | split) | simp only [kept_mk_iff] | dsimp only)

theorem answerBad_kept {fu : Fuses} {n0 : Nat} (aid : Nat) (m : Dgram) (d : Dev) (hk : Kept fu n0 d) : Kept fu n0 (answerBad aid m d) := by
  unfold answerBad
  repeat' (first | with_reducible (first | assumption | apply sendReply_kept | apply mgmtNack_kept | intro _ | split) | simp only [kept_mk_iff] | dsimp only)

theorem doWork_kept {fu : Fuses} {n0 : Nat} (p aid : Nat) (m : Dgram) (d : Dev) (hk : Kept fu n0 d) : Kept fu n0 (doWork p aid m d) := by
  unfold doWork
  repeat' (first | with_reducible (first | assumption | apply doSyncWait_kept | apply doLoadBegin_kept | apply doAdapterLoad_kept | apply doLoadAbort_kept | apply doLoadCommit_kept | apply doTableEdit_kept | apply doAdmit_kept | apply doAppend_kept | apply doPause_kept | apply doResume_kept | apply doCancel_kept | apply doPark_kept | apply doUnpark_kept | apply doPrefixRegister_kept | apply doPrefixDrop_kept | apply doSignal_kept | apply answerBad_kept | intro _ | split) | simp only [kept_mk_iff] | dsimp only)

theorem forwardStream_kept {fu : Fuses} {n0 : Nat} (p : Nat) (m : Dgram) (d : Dev) (hk : Kept fu n0 d) : Kept fu n0 (forwardStream p m d) := by
  unfold forwardStream
  repeat' (first | with_reducible (first | assumption | apply cnsSendAll_kept | intro _ | split) | simp only [kept_mk_iff] | dsimp only)

theorem runWork_kept {fu : Fuses} {n0 : Nat} (aid : Nat) (m : Dgram) (d : Dev) (hk : Kept fu n0 d) : Kept fu n0 (runWork aid m d) := by
  unfold runWork
  repeat' (first | with_reducible (first | assumption | apply sendReply_kept | apply answerBad_kept | apply doWork_kept | apply forwardStream_kept | intro _ | split) | simp only [kept_mk_iff] | dsimp only)

theorem authFail_kept {fu : Fuses} {n0 : Nat} (aid : Nat) (m : Dgram) (code : Nat) (d : Dev) (hk : Kept fu n0 d) : Kept fu n0 (authFail aid m code d) := by
  unfold authFail
  repeat' (first | with_reducible (first | assumption | apply bump_kept | apply mgmtNack_kept | intro _ | split) | simp only [kept_mk_iff] | dsimp only)

theorem withSession_kept {fu : Fuses} {n0 : Nat} (aid : Nat) (m : Dgram) (f : Session → Dev → Dev) (d : Dev) (h_f : ∀ x0 e, Kept fu n0 e → Kept fu n0 (f x0 e)) (hk : Kept fu n0 d) : Kept fu n0 (withSession aid m f d) := by
  unfold withSession
  repeat' (first | with_reducible (first | assumption | apply modSession_kept | apply mgmtNack_kept | apply authFail_kept | apply h_f | intro _ | split) | simp only [kept_mk_iff] | dsimp only)

theorem doAttest_kept {fu : Fuses} {n0 : Nat} (aid : Nat) (m : Dgram) (d : Dev) (hk : Kept fu n0 d) : Kept fu n0 (doAttest aid m d) := by
  unfold doAttest
  repeat' (first | with_reducible (first | assumption | apply doReport_kept | apply doCerts_kept | apply doSessionOpen_kept | apply doSessionClose_kept | apply doClaim_kept | apply answerBad_kept | apply withSession_kept | intro _ | split) | simp only [kept_mk_iff] | dsimp only)

theorem runRom_kept {fu : Fuses} {n0 : Nat} (aid : Nat) (m : Dgram) (d : Dev) (hk : Kept fu n0 d) : Kept fu n0 (runRom aid m d) := by
  unfold runRom
  repeat' (first | with_reducible (first | assumption | apply doReport_kept | apply doChunk_kept | apply answerBad_kept | intro _ | split) | simp only [kept_mk_iff] | dsimp only)

theorem runMgmt_kept {fu : Fuses} {n0 : Nat} (aid : Nat) (m : Dgram) (d : Dev) (hk : Kept fu n0 d) : Kept fu n0 (runMgmt aid m d) := by
  unfold runMgmt
  repeat' (first | with_reducible (first | assumption | apply doMgmtRead_kept | apply doMgmtWrite_kept | apply doMgmtReset_kept | apply doUpdateChunk_kept | apply answerBad_kept | apply withSession_kept | apply doAttest_kept | intro _ | split) | simp only [kept_mk_iff] | dsimp only)

theorem runMsg_kept {fu : Fuses} {n0 : Nat} (aid : Nat) (m : Dgram) (d : Dev) (hk : Kept fu n0 d) : Kept fu n0 (runMsg aid m d) := by
  unfold runMsg
  repeat' (first | with_reducible (first | assumption | apply answerBad_kept | apply runWork_kept | apply runRom_kept | apply runMgmt_kept | intro _ | split) | simp only [kept_mk_iff] | dsimp only)

theorem serve_kept {fu : Fuses} {n0 : Nat} (aid units : Nat) (m : Dgram) (d : Dev) (hk : Kept fu n0 d) : Kept fu n0 (serve aid units m d) := by
  unfold serve
  repeat' (first | with_reducible (first | assumption | apply startWake_kept | apply holdMsg_kept | apply returnUnits_kept | apply runMsg_kept | intro _ | split) | simp only [kept_mk_iff] | dsimp only)

theorem serveAgain_kept {fu : Fuses} {n0 : Nat} (h : Held) (d : Dev) (hk : Kept fu n0 d) : Kept fu n0 (serveAgain h d) := by
  unfold serveAgain
  repeat' (first | with_reducible (first | assumption | apply tryClose_kept | apply serve_kept | intro _ | split) | simp only [kept_mk_iff] | dsimp only)

theorem serveHeld_kept {fu : Fuses} {n0 : Nat} (d : Dev) (hk : Kept fu n0 d) : Kept fu n0 (serveHeld d) := by
  unfold serveHeld
  repeat' (first | with_reducible (first | assumption | apply forEach_kept | apply serveAgain_kept | intro _ | split) | simp only [kept_mk_iff] | dsimp only)

theorem serveWork_kept {fu : Fuses} {n0 : Nat} (d : Dev) (hk : Kept fu n0 d) : Kept fu n0 (serveWork d) := by
  unfold serveWork
  repeat' (first | with_reducible (first | assumption | apply forEach_kept | apply serveAgain_kept | intro _ | split) | simp only [kept_mk_iff] | dsimp only)

theorem noteAccept_kept {fu : Fuses} {n0 : Nat} (p aid cycle : Nat) (d : Dev) (hk : Kept fu n0 d) : Kept fu n0 (noteAccept p aid cycle d) := by
  unfold noteAccept
  repeat' (first | with_reducible (first | assumption | apply choice_kept | intro _ | split) | simp only [kept_mk_iff] | dsimp only)

theorem acceptMsg_kept {fu : Fuses} {n0 : Nat} (aid cost : Nat) (m : Dgram) (d : Dev) (hk : Kept fu n0 d) : Kept fu n0 (acceptMsg aid cost m d) := by
  unfold acceptMsg
  repeat' (first | with_reducible (first | assumption | apply modAssoc_kept | apply takePeer_kept | apply serve_kept | apply noteAccept_kept | intro _ | split) | simp only [kept_mk_iff] | dsimp only)

theorem takeMsg_kept {fu : Fuses} {n0 : Nat} (aid : Nat) (a : Assoc) (m : Dgram) (d : Dev) (hk : Kept fu n0 d) : Kept fu n0 (takeMsg aid a m d) := by
  unfold takeMsg
  repeat' (first | with_reducible (first | assumption | apply bump_kept | apply sendHeaderOnly_kept | apply takePeer_kept | apply acceptMsg_kept | intro _ | split) | simp only [kept_mk_iff] | dsimp only)

theorem takeOn_kept {fu : Fuses} {n0 : Nat} (aid : Nat) (a : Assoc) (m : Dgram) (d : Dev) (hk : Kept fu n0 d) : Kept fu n0 (takeOn aid a m d) := by
  unfold takeOn
  repeat' (first | with_reducible (first | assumption | apply modAssoc_kept | apply takePeer_kept | apply takeMsg_kept | intro _ | split) | simp only [kept_mk_iff] | dsimp only)

theorem receive_kept {fu : Fuses} {n0 : Nat} (m : Dgram) (d : Dev) (hk : Kept fu n0 d) : Kept fu n0 (receive m d) := by
  unfold receive
  repeat' (first | with_reducible (first | assumption | apply bump_kept | apply startWake_kept | apply doOpen_kept | apply takeOn_kept | intro _ | split) | simp only [kept_mk_iff] | dsimp only)

theorem ackTimer_kept {fu : Fuses} {n0 : Nat} (aid : Nat) (d : Dev) (hk : Kept fu n0 d) : Kept fu n0 (ackTimer aid d) := by
  unfold ackTimer
  repeat' (first | with_reducible (first | assumption | apply sendHeaderOnly_kept | intro _ | split) | simp only [kept_mk_iff] | dsimp only)

theorem retransmitTimeout_kept {fu : Fuses} {n0 : Nat} (aid : Nat) (d : Dev) (hk : Kept fu n0 d) : Kept fu n0 (retransmitTimeout aid d) := by
  unfold retransmitTimeout
  repeat' (first | with_reducible (first | assumption | apply addCtr_kept | apply forEach_kept | apply putAssoc_kept | apply putOnWire_kept | intro _ | split) | simp only [kept_mk_iff] | dsimp only)

theorem assocLost_kept {fu : Fuses} {n0 : Nat} (aid : Nat) (d : Dev) (hk : Kept fu n0 d) : Kept fu n0 (assocLost aid d) := by
  unfold assocLost
  repeat' (first | with_reducible (first | assumption | apply bump_kept | apply endAssoc_kept | intro _ | split) | simp only [kept_mk_iff] | dsimp only)

theorem tokensLate_kept {fu : Fuses} {n0 : Nat} (aid : Nat) (d : Dev) (hk : Kept fu n0 d) : Kept fu n0 (tokensLate aid d) := by
  unfold tokensLate
  repeat' (first | with_reducible (first | assumption | apply addCtr_kept | apply putAssoc_kept | intro _ | split) | simp only [kept_mk_iff] | dsimp only)

theorem subDone_kept {fu : Fuses} {n0 : Nat} (sc : Scope) (p stage die : Nat) (d : Dev) (hk : Kept fu n0 d) : Kept fu n0 (subDone sc p stage die d) := by
  unfold subDone
  repeat' (first | with_reducible (first | assumption | apply endSub_kept | apply finishDie_kept | apply serveHeld_kept | intro _ | split) | simp only [kept_mk_iff] | dsimp only)

theorem stageResetDone_kept {fu : Fuses} {n0 : Nat} (p stage : Nat) (d : Dev) (hk : Kept fu n0 d) : Kept fu n0 (stageResetDone p stage d) := by
  unfold stageResetDone
  repeat' (first | with_reducible (first | assumption | apply subDone_kept | intro _ | split) | simp only [kept_mk_iff] | dsimp only)

theorem partitionResetDone_kept {fu : Fuses} {n0 : Nat} (p : Nat) (d : Dev) (hk : Kept fu n0 d) : Kept fu n0 (partitionResetDone p d) := by
  unfold partitionResetDone
  repeat' (first | with_reducible (first | assumption | apply subDone_kept | intro _ | split) | simp only [kept_mk_iff] | dsimp only)

theorem dieResetDone_kept {fu : Fuses} {n0 : Nat} (n : Nat) (d : Dev) (hk : Kept fu n0 d) : Kept fu n0 (dieResetDone n d) := by
  unfold dieResetDone
  repeat' (first | with_reducible (first | assumption | apply subDone_kept | intro _ | split) | simp only [kept_mk_iff] | dsimp only)

theorem deviceResetEnd_kept {fu : Fuses} {n0 : Nat} (d : Dev) (hk : Kept fu n0 d) : Kept fu n0 (deviceResetEnd d) := by
  unfold deviceResetEnd
  repeat' (first | with_reducible (first | assumption | apply deviceResetDone_kept | apply serveHeld_kept | intro _ | split) | simp only [kept_mk_iff] | dsimp only)

theorem wakeDone_kept {fu : Fuses} {n0 : Nat} (held : Nat) (d : Dev) (hk : Kept fu n0 d) : Kept fu n0 (wakeDone held d) := by
  unfold wakeDone
  repeat' (first | with_reducible (first | assumption | apply wakeEnd_kept | apply serveHeld_kept | intro _ | split) | simp only [kept_mk_iff] | dsimp only)

theorem editPublishDone_kept {fu : Fuses} {n0 : Nat} (b wait : Nat) (d : Dev) (hk : Kept fu n0 d) : Kept fu n0 (editPublishDone b wait d) := by
  unfold editPublishDone
  repeat' (first | with_reducible (first | assumption | apply editPublish_kept | apply serveWork_kept | intro _ | split) | simp only [kept_mk_iff] | dsimp only)

theorem batchFormed_kept {fu : Fuses} {n0 : Nat} (p : Nat) (d : Dev) (hk : Kept fu n0 d) : Kept fu n0 (batchFormed p d) := by
  unfold batchFormed
  repeat' (first | with_reducible (first | assumption | apply batchFormation_kept | apply serveWork_kept | intro _ | split) | simp only [kept_mk_iff] | dsimp only)

theorem epochRetired_kept {fu : Fuses} {n0 : Nat} (p m : Nat) (d : Dev) (hk : Kept fu n0 d) : Kept fu n0 (epochRetired p m d) := by
  unfold epochRetired
  repeat' (first | with_reducible (first | assumption | apply epochRetireBy_kept | apply serveWork_kept | intro _ | split) | simp only [kept_mk_iff] | dsimp only)

theorem mgmtTimeout_kept {fu : Fuses} {n0 : Nat} (k n : Nat) (d : Dev) (hk : Kept fu n0 d) : Kept fu n0 (mgmtTimeout k n d) := by
  unfold mgmtTimeout
  repeat' (first | with_reducible (first | assumption | apply bump_kept | apply rstEvent_kept | apply mgmtNack_kept | apply writeRegs_kept | apply tryClose_kept | apply serveHeld_kept | intro _ | split) | simp only [kept_mk_iff] | dsimp only)

theorem takeEntry_kept {fu : Fuses} {n0 : Nat} (off : Nat) (entry payload : List Byte) (d : Dev) (hk : Kept fu n0 d) : Kept fu n0 (takeEntry off entry payload d) := by
  unfold takeEntry
  repeat' (first | with_reducible (first | assumption | apply modStream_kept | apply admitAccept_kept | intro _ | split) | simp only [kept_mk_iff] | dsimp only)

theorem takeForwarded_kept {fu : Fuses} {n0 : Nat} (m : Dgram) (d : Dev) (hk : Kept fu n0 d) : Kept fu n0 (takeForwarded m d) := by
  unfold takeForwarded
  repeat' (first | with_reducible (first | assumption | apply modStream_kept | apply doWork_kept | intro _ | split) | simp only [kept_mk_iff] | dsimp only)

theorem consortEntryRx_kept {fu : Fuses} {n0 : Nat} (off : Nat) (entry : List Byte) (m : Dgram) (d : Dev) (hk : Kept fu n0 d) : Kept fu n0 (consortEntryRx off entry m d) := by
  unfold consortEntryRx
  repeat' (first | with_reducible (first | assumption | apply masterHeard_kept | apply takeEntry_kept | apply takeForwarded_kept | intro _ | split) | simp only [kept_mk_iff] | dsimp only)

theorem takeStep_kept {fu : Fuses} {n0 : Nat} (bid : Nat) (x : BatchEnt) (d : Dev) (hk : Kept fu n0 d) : Kept fu n0 (takeStep bid x d).2 := by
  unfold takeStep
  repeat' (first | with_reducible (first | assumption | apply modStream_kept | apply foldl_kept | apply foldl_kept_snd | intro _ | split) | simp only [kept_mk_iff] | dsimp only | refine reserveStep_kept _ _ _ _ _ ?_ _ (by assumption) | apply getD_kept | (intro _ hx; refine reserveStep_kept _ _ _ _ _ ?_ _ hx))

theorem takeSteps_kept {fu : Fuses} {n0 : Nat} (bid : Nat) (l : List BatchEnt) (d : Dev) (hk : Kept fu n0 d) :
    Kept fu n0 (takeSteps bid l d).2 := by
  induction l generalizing d with
  | nil => exact hk
  | cons x r ih => exact ih _ (takeStep_kept bid x d hk)

theorem batchDescriptorRx_kept {fu : Fuses} {n0 : Nat} (bid model : Nat) (epoch : Word) (l : List BatchEnt) (d : Dev) (hk : Kept fu n0 d) : Kept fu n0 (batchDescriptorRx bid model epoch l d) := by
  unfold batchDescriptorRx
  repeat' (first | with_reducible (first | assumption | apply bump_kept | apply modSched_kept | apply pushPasses_kept | apply publishSteps_kept | apply masterHeard_kept | apply takeSteps_kept | intro _ | split) | simp only [kept_mk_iff] | dsimp only)

theorem takeRecord_kept {fu : Fuses} {n0 : Nat} (i : Nat) (rec : List Byte) (d : Dev) (hk : Kept fu n0 d) : Kept fu n0 (takeRecord i rec d) := by
  unfold takeRecord
  repeat' (first | with_reducible (first | assumption | apply modStream_kept | intro _ | split) | simp only [kept_mk_iff] | dsimp only)

theorem takeStepEnd_kept {fu : Fuses} {n0 : Nat} (i : Nat) (d : Dev) (hk : Kept fu n0 d) : Kept fu n0 (takeStepEnd i d) := by
  unfold takeStepEnd
  repeat' (first | with_reducible (first | assumption | apply modStream_kept | apply setLen_kept | apply stepDone_kept | intro _ | split) | simp only [kept_mk_iff] | dsimp only)

theorem consortTokenRecordsRx_kept {fu : Fuses} {n0 : Nat} (h : Word) (recs : List (List Byte)) (d : Dev) (hk : Kept fu n0 d) : Kept fu n0 (consortTokenRecordsRx h recs d) := by
  unfold consortTokenRecordsRx
  repeat' (first | with_reducible (first | assumption | apply forEach_kept | apply tokenRecordArrival_kept | apply takeRecord_kept | apply takeStepEnd_kept | intro _ | split) | simp only [kept_mk_iff] | dsimp only)

theorem ppsInEdge_kept {fu : Fuses} {n0 : Nat} (low gap : Nat) (d : Dev) (hk : Kept fu n0 d) : Kept fu n0 (ppsInEdge low gap d) := by
  unfold ppsInEdge
  repeat' (first | with_reducible (first | assumption | apply bump_kept | intro _ | split) | simp only [kept_mk_iff] | dsimp only)

theorem strandBadHeader_kept {fu : Fuses} {n0 : Nat} (m : Dgram) (d : Dev) (hk : Kept fu n0 d) : Kept fu n0 (strandBadHeader m d) := by
  unfold strandBadHeader
  repeat' (first | with_reducible (first | assumption | apply bump_kept | apply when__kept | intro _ | split) | simp only [kept_mk_iff] | dsimp only)

theorem unboundSourceDrop_kept {fu : Fuses} {n0 : Nat} (m : Dgram) (d : Dev) (hk : Kept fu n0 d) : Kept fu n0 (unboundSourceDrop m d) := by
  unfold unboundSourceDrop
  repeat' (first | with_reducible (first | assumption | apply bump_kept | apply when__kept | intro _ | split) | simp only [kept_mk_iff] | dsimp only)

end Sys2Proof.Machine
end

