-- ==== Sys2Proof/Laws/PerInstr.lean ====
section
/-! SUPPORT. What a well-formed command names exists on the part: one lemma per command. -/

namespace Sys2Proof.Laws.Range

/-- The partitions (10 R388) that a command names. -/
def parts : Instr → List Nat
  | .rdmaWriteLoad _ p _ _ _ _ => [p]
  | .rdmaWriteTuneStaging _ p _ _ _ => [p]
  | .rdmaWriteMask _ p _ _ _ => [p]
  | .rdmaFirewallRefuse p _ => [p]
  | .tuningLoad _ p => [p]
  | .tuningAbort _ p => [p]
  | .tuningVerifyDone p => [p]
  | .tuningBarrierReached p => [p]
  | .tuningBarrierTimeout p => [p]
  | .mapBarrier p => [p]
  | .partitionResetDone p => [p]
  | .stageResetDone p _ => [p]
  | .bridgeTensorPass p _ _ _ _ _ => [p]
  | .batchFormation p => [p]
  | .schedulerResume p => [p]
  | .farPrefetchStart p _ _ _ => [p]
  | .epochRetireBy p _ => [p]
  | _ => []

/-- The Fret dies, Bridge dies or pairs (01 R1, R5) that a command names. -/
def dies : Instr → List Nat
  | .tileTest _ f _ _ => [f]
  | .tileReinstate _ f _ _ => [f]
  | .trackerClear _ f _ _ _ => [f]
  | .dieResetDone n => [n]
  | .firewallFlitDiscard b _ => [b]
  | .sliceArrival f _ _ _ _ _ _ => [f]
  | .passStart f _ _ _ => [f]
  | .pluck f _ _ _ _ _ => [f]
  | .encorePassEnd f _ _ => [f]
  | .groupHandon f _ _ _ => [f]
  | .reconvertResult f _ _ _ _ _ _ => [f]
  | .columnRecomputeDone f _ _ _ => [f]
  | .groupRecomputeDone f _ _ _ => [f]
  | .fetchedRowArrival f _ _ _ => [f]
  | .repairSwap f _ _ => [f]
  | .planeLoadStart f _ _ _ => [f]
  | .rowSegmentArrival f _ _ _ _ _ _ _ => [f]
  | .loadEndMarker f _ _ _ => [f]
  | .planeDrained f _ _ _ _ => [f]
  | .droneSampleDone f _ => [f]
  | .droneRefit f _ _ _ _ => [f]
  | .qualityPublish f _ _ => [f]
  | .foldWindowEnd f _ _ => [f]
  | .passEnd f _ _ => [f]
  | .tailpieceTermArrival f _ _ _ => [f]
  | .tailpieceDataFlit f _ _ _ _ => [f]
  | .treeResult f _ _ _ _ _ => [f]
  | .bufferSealed f _ _ _ _ => [f]
  | .bufferDrainStart f _ _ _ _ => [f]
  | .bufferDrainDone f _ _ _ => [f]
  | .bridgeTensorPass _ b _ _ _ _ => [b]
  | .selftestStart f _ _ => [f]
  | .selftestResult f _ _ _ _ _ _ => [f]
  | .periodicScanDue f _ _ => [f]
  | .observationEnd f _ _ => [f]
  | .hbmPatrolScrub b _ _ _ => [b]
  | .kvAppendPiece b _ _ _ _ _ _ _ _ _ => [b]
  | .attentionStep b _ _ _ => [b]
  | .attentionOutput b _ _ _ _ => [b]
  | .stagingFlushAck b _ _ _ => [b]
  | .editPublish b _ => [b]
  | .generationEnd b => [b]
  | .stagePassTimeout f _ _ => [f]
  | .farReadTimeout b _ => [b]
  | .editDataTransferDone b _ => [b]
  | .exactGroupDone f _ _ _ => [f]
  | _ => []

/-- The courses of a Fret die (01 R2) that a command names. -/
def courses : Instr → List Nat
  | .tileTest _ _ c _ => [c]
  | .tileReinstate _ _ c _ => [c]
  | .trackerClear _ _ c _ _ => [c]
  | .sliceArrival _ c _ _ _ _ _ => [c]
  | .passStart _ c _ _ => [c]
  | .pluck _ c _ _ _ _ => [c]
  | .encorePassEnd _ c _ => [c]
  | .groupHandon _ c _ _ => [c]
  | .reconvertResult _ c _ _ _ _ _ => [c]
  | .columnRecomputeDone _ c _ _ => [c]
  | .groupRecomputeDone _ c _ _ => [c]
  | .fetchedRowArrival _ c _ _ => [c]
  | .repairSwap _ c _ => [c]
  | .planeLoadStart _ c _ _ => [c]
  | .rowSegmentArrival _ c _ _ _ _ _ _ => [c]
  | .loadEndMarker _ c _ _ => [c]
  | .planeDrained _ c _ _ _ => [c]
  | .droneSampleDone _ c => [c]
  | .droneRefit _ c _ _ _ => [c]
  | .qualityPublish _ c _ => [c]
  | .foldWindowEnd _ c _ => [c]
  | .passEnd _ c _ => [c]
  | .tailpieceTermArrival _ c _ _ => [c]
  | .tailpieceDataFlit _ c _ _ _ => [c]
  | .treeResult _ c _ _ _ _ => [c]
  | .bufferSealed _ c _ _ _ => [c]
  | .bufferDrainStart _ c _ _ _ => [c]
  | .bufferDrainDone _ c _ _ => [c]
  | .selftestStart _ c _ => [c]
  | .selftestResult _ c _ _ _ _ _ => [c]
  | .periodicScanDue _ c _ => [c]
  | .observationEnd _ c _ => [c]
  | .stagePassTimeout _ c _ => [c]
  | .exactGroupDone _ c _ _ => [c]
  | _ => []

/-- The physical tiles of a course, the spare among them (01 R3) that a command names. -/
def tiles : Instr → List Nat
  | .tileTest _ _ _ t => [t]
  | .tileReinstate _ _ _ t => [t]
  | .trackerClear _ _ _ t _ => [t]
  | .groupHandon _ _ t _ => [t]
  | .reconvertResult _ _ t _ _ _ _ => [t]
  | .columnRecomputeDone _ _ t _ => [t]
  | .groupRecomputeDone _ _ t _ => [t]
  | .repairSwap _ _ t => [t]
  | .planeLoadStart _ _ t _ => [t]
  | .rowSegmentArrival _ _ t _ _ _ _ _ => [t]
  | .loadEndMarker _ _ t _ => [t]
  | .planeDrained _ _ t _ _ => [t]
  | .droneRefit _ _ t _ _ => [t]
  | .qualityPublish _ _ t => [t]
  | .selftestStart _ _ t => [t]
  | .selftestResult _ _ t _ _ _ _ => [t]
  | .periodicScanDue _ _ t => [t]
  | .observationEnd _ _ t => [t]
  | _ => []

/-- The stage slots of a course (02 R56) that a command names. -/
def slots : Instr → List Nat
  | .passStart _ _ sl _ => [sl]
  | .encorePassEnd _ _ sl => [sl]
  | .foldWindowEnd _ _ sl => [sl]
  | .passEnd _ _ sl => [sl]
  | .tailpieceDataFlit _ _ sl _ _ => [sl]
  | .treeResult _ _ sl _ _ _ => [sl]
  | .bufferSealed _ _ sl _ _ => [sl]
  | .bufferDrainStart _ _ sl _ _ => [sl]
  | .bufferDrainDone _ _ sl _ => [sl]
  | .stagePassTimeout _ _ sl => [sl]
  | .exactGroupDone _ _ sl _ => [sl]
  | _ => []

/-- The entries of the stream table (10 R388) that a command names. -/
def streams : Instr → List Nat
  | .tokenRecordArrival i => [i]
  | .sliceArrival _ _ _ stream _ _ _ => [stream]
  | .tailpieceDataFlit _ _ _ stream _ => [stream]
  | .bridgeTensorPass _ _ _ stream _ _ => [stream]
  | .kvAppendPiece _ i _ _ _ _ _ _ _ _ => [i]
  | .attentionStep _ i _ _ => [i]
  | .attentionOutput _ i _ _ _ => [i]
  | .stagingFlushAck _ i _ _ => [i]
  | .stepBoundary i => [i]
  | .draftStepDone i _ => [i]
  | .pickSample i _ => [i]
  | .deadlineReached i => [i]
  | .parkExpiry i => [i]
  | .kvHoldTimeout i => [i]
  | .atRiskTtft i => [i]
  | _ => []

/-- Partitions, dies, courses, tiles, stage slots and stream entries that the part has. -/
def Exist (ps ds cs ts ss is : List Nat) : Prop :=
  (∀ x ∈ ps, x < 32) ∧ (∀ x ∈ ds, x < 12) ∧ (∀ x ∈ cs, x < 16) ∧ (∀ x ∈ ts, x < 33) ∧ (∀ x ∈ ss, x < 4) ∧ (∀ x ∈ is, x < 262144)

/-- A well-formed command names only what the part has. -/
def Statement (i : Instr) : Prop := WellFormed i = true → Exist (parts i) (dies i) (courses i) (tiles i) (slots i) (streams i)

theorem exist_nil : Exist [] [] [] [] [] [] := by simp [Exist]
theorem okPart_iff (p : Nat) : okPart p = true ↔ p < 32 := by simp [okPart]
theorem okDie_iff (n : Nat) : okDie n = true ↔ n < 12 := by simp [okDie]
theorem okFc_iff (f c : Nat) : okFc f c = true ↔ f < 12 ∧ c < 16 := by simp [okFc, okDie]
theorem okFct_iff (f c t : Nat) : okFct f c t = true ↔ (f < 12 ∧ c < 16) ∧ t < 33 := by simp [okFct, okFc, okDie, okTile]
theorem okSlot_iff (s : Nat) : okSlot s = true ↔ s < 4 := by simp [okSlot]
theorem okStream_iff (i : Nat) : okStream i = true ↔ i < 262144 := by simp [okStream]

theorem frameDrop (corr : Nat) (unc : Nat) : Statement (.frameDrop corr unc) := fun _ => exist_nil
theorem strandBadHeader (m : Dgram) : Statement (.strandBadHeader m) := fun _ => exist_nil
theorem unboundSourceDrop (m : Dgram) : Statement (.unboundSourceDrop m) := fun _ => exist_nil
theorem assocOpen (m : Dgram) : Statement (.assocOpen m) := fun _ => exist_nil
theorem assocClose (m : Dgram) : Statement (.assocClose m) := fun _ => exist_nil
theorem headerAck (m : Dgram) : Statement (.headerAck m) := fun _ => exist_nil
theorem wakeFrame (m : Dgram) : Statement (.wakeFrame m) := fun _ => exist_nil
theorem admitStream (m : Dgram) : Statement (.admitStream m) := fun _ => exist_nil
theorem append (m : Dgram) : Statement (.append m) := fun _ => exist_nil
theorem pause (m : Dgram) : Statement (.pause m) := fun _ => exist_nil
theorem resume (m : Dgram) : Statement (.resume m) := fun _ => exist_nil
theorem cancel (m : Dgram) : Statement (.cancel m) := fun _ => exist_nil
theorem park (m : Dgram) : Statement (.park m) := fun _ => exist_nil
theorem unpark (m : Dgram) : Statement (.unpark m) := fun _ => exist_nil
theorem prefixRegister (m : Dgram) : Statement (.prefixRegister m) := fun _ => exist_nil
theorem prefixDrop (m : Dgram) : Statement (.prefixDrop m) := fun _ => exist_nil
theorem loadBegin (m : Dgram) : Statement (.loadBegin m) := fun _ => exist_nil
theorem loadCommit (m : Dgram) : Statement (.loadCommit m) := fun _ => exist_nil
theorem loadAbort (m : Dgram) : Statement (.loadAbort m) := fun _ => exist_nil
theorem adapterLoadOpen (m : Dgram) : Statement (.adapterLoadOpen m) := fun _ => exist_nil
theorem adapterLoadRemove (m : Dgram) : Statement (.adapterLoadRemove m) := fun _ => exist_nil
theorem tableEdit (m : Dgram) : Statement (.tableEdit m) := fun _ => exist_nil
theorem syncSignalAdd (m : Dgram) : Statement (.syncSignalAdd m) := fun _ => exist_nil
theorem syncSignalSet (m : Dgram) : Statement (.syncSignalSet m) := fun _ => exist_nil
theorem syncWaitNotify (m : Dgram) : Statement (.syncWaitNotify m) := fun _ => exist_nil
theorem mgmtRead (m : Dgram) : Statement (.mgmtRead m) := fun _ => exist_nil
theorem mgmtWrite (m : Dgram) : Statement (.mgmtWrite m) := fun _ => exist_nil
theorem mgmtResetStage (m : Dgram) : Statement (.mgmtResetStage m) := fun _ => exist_nil
theorem mgmtResetPartition (m : Dgram) : Statement (.mgmtResetPartition m) := fun _ => exist_nil
theorem mgmtResetDie (m : Dgram) : Statement (.mgmtResetDie m) := fun _ => exist_nil
theorem mgmtResetWarm (m : Dgram) : Statement (.mgmtResetWarm m) := fun _ => exist_nil
theorem mgmtResetCold (m : Dgram) : Statement (.mgmtResetCold m) := fun _ => exist_nil
theorem attestReport (m : Dgram) : Statement (.attestReport m) := fun _ => exist_nil
theorem sessionOpen (m : Dgram) : Statement (.sessionOpen m) := fun _ => exist_nil
theorem sessionClose (m : Dgram) : Statement (.sessionClose m) := fun _ => exist_nil
theorem claim (m : Dgram) : Statement (.claim m) := fun _ => exist_nil
theorem certs (m : Dgram) : Statement (.certs m) := fun _ => exist_nil
theorem updateChunk (m : Dgram) : Statement (.updateChunk m) := fun _ => exist_nil
theorem updateVerifyDone : Statement .updateVerifyDone := fun _ => exist_nil
theorem updateProgramDone (readBackOk : Bool) : Statement (.updateProgramDone readBackOk) := fun _ => exist_nil
theorem updateAbort (m : Dgram) : Statement (.updateAbort m) := fun _ => exist_nil
theorem updateIdleTimeout : Statement .updateIdleTimeout := fun _ => exist_nil
theorem rdmaWriteLoad (qp : Nat) (p : Nat) (key : Word) (va : DWord) (ce : Bool) (data : List Byte) : Statement (.rdmaWriteLoad qp p key va ce data) := by
  intro (h : (okQp qp && okPart p) = true)
  show Exist [p] [] [] [] [] []
  simp_all [Exist, okPart_iff]
theorem pfcXonTx (strand : Bool) (low : Nat) (high : Nat) : Statement (.pfcXonTx strand low high) := fun _ => exist_nil
theorem rdmaWriteTuneStaging (qp : Nat) (p : Nat) (off : Nat) (ce : Bool) (data : List Byte) : Statement (.rdmaWriteTuneStaging qp p off ce data) := by
  intro (h : (okQp qp && okPart p) = true)
  show Exist [p] [] [] [] [] []
  simp_all [Exist, okPart_iff]
theorem rdmaWriteMask (qp : Nat) (p : Nat) (off : Nat) (ce : Bool) (data : List Byte) : Statement (.rdmaWriteMask qp p off ce data) := by
  intro (h : (okQp qp && okPart p) = true)
  show Exist [p] [] [] [] [] []
  simp_all [Exist, okPart_iff]
theorem rdmaWriteConsortPort (k : Nat) (qp : Nat) (ce : Bool) (data : List Byte) : Statement (.rdmaWriteConsortPort k qp ce data) := fun _ => exist_nil
theorem rdmaFirewallRefuse (p : Nat) (qp : Nat) : Statement (.rdmaFirewallRefuse p qp) := by
  intro (h : (okQp qp && okPart p) = true)
  show Exist [p] [] [] [] [] []
  simp_all [Exist, okPart_iff]
theorem cnpRx (qp : Nat) : Statement (.cnpRx qp) := fun _ => exist_nil
theorem pfcXoffRx (prio : Nat) : Statement (.pfcXoffRx prio) := fun _ => exist_nil
theorem pfcXonRx (prio : Nat) : Statement (.pfcXonRx prio) := fun _ => exist_nil
theorem arpRequest (ip : Word) : Statement (.arpRequest ip) := fun _ => exist_nil
theorem neighborSolicit (ip : BitVec 128) : Statement (.neighborSolicit ip) := fun _ => exist_nil
theorem icmpEchoRequest (dst : BitVec 128) (data : List Byte) : Statement (.icmpEchoRequest dst data) := fun _ => exist_nil
theorem ptpSyncRx (dom : Nat) (t1 : Int) (f2 : Nat) (f3 : Nat) : Statement (.ptpSyncRx dom t1 f2 f3) := fun _ => exist_nil
theorem ptpDelayReqRx (dom : Nat) : Statement (.ptpDelayReqRx dom) := fun _ => exist_nil
theorem ptpSyncInterval : Statement .ptpSyncInterval := fun _ => exist_nil
theorem clockSlew : Statement .clockSlew := fun _ => exist_nil
theorem transceiverInsert : Statement .transceiverInsert := fun _ => exist_nil
theorem transceiverRemove : Statement .transceiverRemove := fun _ => exist_nil
theorem ackTimer (aid : Nat) : Statement (.ackTimer aid) := fun _ => exist_nil
theorem retransmitTimeout (aid : Nat) : Statement (.retransmitTimeout aid) := fun _ => exist_nil
theorem assocLost (aid : Nat) : Statement (.assocLost aid) := fun _ => exist_nil
theorem tokensLate (aid : Nat) : Statement (.tokensLate aid) := fun _ => exist_nil
theorem sessionIdleTimeout (num : Word) : Statement (.sessionIdleTimeout num) := fun _ => exist_nil
theorem tokenRecordArrival (i : Nat) : Statement (.tokenRecordArrival i) := by
  intro (h : (okStream i) = true)
  show Exist [] [] [] [] [] [i]
  simp_all [Exist, okStream_iff]
theorem tuningLoad (m : Dgram) (p : Nat) : Statement (.tuningLoad m p) := by
  intro (h : (okPart p) = true)
  show Exist [p] [] [] [] [] []
  simp_all [Exist, okPart_iff]
theorem tuningAbort (m : Dgram) (p : Nat) : Statement (.tuningAbort m p) := by
  intro (h : (okPart p) = true)
  show Exist [p] [] [] [] [] []
  simp_all [Exist, okPart_iff]
theorem tuningVerifyDone (p : Nat) : Statement (.tuningVerifyDone p) := by
  intro (h : (okPart p) = true)
  show Exist [p] [] [] [] [] []
  simp_all [Exist, okPart_iff]
theorem tuningBarrierReached (p : Nat) : Statement (.tuningBarrierReached p) := by
  intro (h : (okPart p) = true)
  show Exist [p] [] [] [] [] []
  simp_all [Exist, okPart_iff]
theorem tuningBarrierTimeout (p : Nat) : Statement (.tuningBarrierTimeout p) := by
  intro (h : (okPart p) = true)
  show Exist [p] [] [] [] [] []
  simp_all [Exist, okPart_iff]
theorem mapCommit (m : Dgram) : Statement (.mapCommit m) := fun _ => exist_nil
theorem mapDiscard (m : Dgram) : Statement (.mapDiscard m) := fun _ => exist_nil
theorem mapBarrier (p : Nat) : Statement (.mapBarrier p) := by
  intro (h : (okPart p) = true)
  show Exist [p] [] [] [] [] []
  simp_all [Exist, okPart_iff]
theorem mapHandoverEnd (k : Nat) (base : Nat) (count : Nat) : Statement (.mapHandoverEnd k base count) := fun _ => exist_nil
theorem consortJoin (m : Dgram) : Statement (.consortJoin m) := fun _ => exist_nil
theorem consortJoinRequestRx (k : Nat) (digest : List Byte) (serial : DWord) (cgen : Nat) (partOn : Bool) (streams : Nat) (timeOk : Bool) : Statement (.consortJoinRequestRx k digest serial cgen partOn streams timeOk) := fun _ => exist_nil
theorem consortLeave (m : Dgram) : Statement (.consortLeave m) := fun _ => exist_nil
theorem strumSignal (m : Dgram) (arg : Half) (obj : BitVec 10) : Statement (.strumSignal m arg obj) := fun _ => exist_nil
theorem strumGate (m : Dgram) (arg : Half) (obj : BitVec 10) : Statement (.strumGate m arg obj) := fun _ => exist_nil
theorem strumTune (m : Dgram) (arg : Half) (obj : BitVec 10) : Statement (.strumTune m arg obj) := fun _ => exist_nil
theorem strumReceive (cancel : Bool) (action : Nat) (arg : Half) (obj : BitVec 10) (t : DWord) : Statement (.strumReceive cancel action arg obj t) := fun _ => exist_nil
theorem strumAckDeadline : Statement .strumAckDeadline := fun _ => exist_nil
theorem strumFire : Statement .strumFire := fun _ => exist_nil
theorem consortSyncUpdateRx (k : Nat) (op : Nat) (v : DWord) (cycle : Nat) : Statement (.consortSyncUpdateRx k op v cycle) := fun _ => exist_nil
theorem consortEntryRx (off : Nat) (entry : List Byte) (m : Dgram) : Statement (.consortEntryRx off entry m) := fun _ => exist_nil
theorem batchDescriptorRx (bid : Nat) (model : Nat) (epoch : Word) (ents : List BatchEnt) : Statement (.batchDescriptorRx bid model epoch ents) := fun _ => exist_nil
theorem memberAlignLost (k : Nat) : Statement (.memberAlignLost k) := fun _ => exist_nil
theorem masterLost : Statement .masterLost := fun _ => exist_nil
theorem consortPortTimeout (k : Nat) : Statement (.consortPortTimeout k) := fun _ => exist_nil
theorem softwareResetDie (m : Dgram) (die : BitVec 5) : Statement (.softwareResetDie m die) := fun _ => exist_nil
theorem softwareResetWarm (m : Dgram) : Statement (.softwareResetWarm m) := fun _ => exist_nil
theorem softwareResetCold (m : Dgram) : Statement (.softwareResetCold m) := fun _ => exist_nil
theorem reinstate (m : Dgram) : Statement (.reinstate m) := fun _ => exist_nil
theorem powerReqActive (m : Dgram) (autoIdle : Bool) : Statement (.powerReqActive m autoIdle) := fun _ => exist_nil
theorem powerReqHush (m : Dgram) (autoIdle : Bool) : Statement (.powerReqHush m autoIdle) := fun _ => exist_nil
theorem powerReqVigil (m : Dgram) (autoIdle : Bool) : Statement (.powerReqVigil m autoIdle) := fun _ => exist_nil
theorem powerDrainDone (held : Nat) : Statement (.powerDrainDone held) := fun _ => exist_nil
theorem drainTimeout : Statement .drainTimeout := fun _ => exist_nil
theorem autoIdleEnter : Statement .autoIdleEnter := fun _ => exist_nil
theorem idleExit : Statement .idleExit := fun _ => exist_nil
theorem wakeDone (held : Nat) : Statement (.wakeDone held) := fun _ => exist_nil
theorem vigilSample (lanes : Nat) (temps : List Half) (vin : Half) : Statement (.vigilSample lanes temps vin) := fun _ => exist_nil
theorem keyRead (m : Dgram) : Statement (.keyRead m) := fun _ => exist_nil
theorem keyEnroll (m : Dgram) : Statement (.keyEnroll m) := fun _ => exist_nil
theorem keyRevoke (m : Dgram) : Statement (.keyRevoke m) := fun _ => exist_nil
theorem keyStoreWritten : Statement .keyStoreWritten := fun _ => exist_nil
theorem tileTest (m : Dgram) (f : Nat) (c : Nat) (t : Nat) : Statement (.tileTest m f c t) := by
  intro (h : (okFct f c t) = true)
  show Exist [] [f] [c] [t] [] []
  simp_all [Exist, okFct_iff]
theorem tileReinstate (m : Dgram) (f : Nat) (c : Nat) (t : Nat) : Statement (.tileReinstate m f c t) := by
  intro (h : (okFct f c t) = true)
  show Exist [] [f] [c] [t] [] []
  simp_all [Exist, okFct_iff]
theorem trackerClear (m : Dgram) (f : Nat) (c : Nat) (t : Nat) (col : BitVec 10) : Statement (.trackerClear m f c t col) := by
  intro (h : (okFct f c t) = true)
  show Exist [] [f] [c] [t] [] []
  simp_all [Exist, okFct_iff]
theorem loCaptureRead (m : Dgram) (a : Word) : Statement (.loCaptureRead m a) := fun _ => exist_nil
theorem multiWordCaptureRead (m : Dgram) (a : Word) : Statement (.multiWordCaptureRead m a) := fun _ => exist_nil
theorem powerOn : Statement .powerOn := fun _ => exist_nil
theorem brownOut : Statement .brownOut := fun _ => exist_nil
theorem overVoltage : Statement .overVoltage := fun _ => exist_nil
theorem pinReset : Statement .pinReset := fun _ => exist_nil
theorem pinResetRelease : Statement .pinResetRelease := fun _ => exist_nil
theorem watchdogExpiry : Statement .watchdogExpiry := fun _ => exist_nil
theorem lockup : Statement .lockup := fun _ => exist_nil
theorem clockFail : Statement .clockFail := fun _ => exist_nil
theorem debugReset : Statement .debugReset := fun _ => exist_nil
theorem tapReset (level : Bool) : Statement (.tapReset level) := fun _ => exist_nil
theorem jtagIdcode : Statement .jtagIdcode := fun _ => exist_nil
theorem jtagBypass (tdi : List Bool) : Statement (.jtagBypass tdi) := fun _ => exist_nil
theorem jtagSamplePreload (preload : List (Nat × Bool)) : Statement (.jtagSamplePreload preload) := fun _ => exist_nil
theorem jtagExtest (cells : List (Nat × Bool)) (tdi : List Bool) : Statement (.jtagExtest cells tdi) := fun _ => exist_nil
theorem jtagClamp (tdi : List Bool) : Statement (.jtagClamp tdi) := fun _ => exist_nil
theorem escalate (k : Option Nat) : Statement (.escalate k) := fun _ => exist_nil
theorem deviceResetRelease (b0 : BitVec 2) (c0 : BitVec 2) (b1 : BitVec 2) (c1 : BitVec 2) (pb : BitVec 2) (pc : BitVec 2) : Statement (.deviceResetRelease b0 c0 b1 c1 pb pc) := fun _ => exist_nil
theorem rootPllLock : Statement .rootPllLock := fun _ => exist_nil
theorem calibrationCommit (l : List DieCal) : Statement (.calibrationCommit l) := fun _ => exist_nil
theorem deviceResetDone : Statement .deviceResetDone := fun _ => exist_nil
theorem dieResetDone (n : Nat) : Statement (.dieResetDone n) := by
  intro (h : (okDie n) = true)
  show Exist [] [n] [] [] [] []
  simp_all [Exist, okDie_iff]
theorem partitionResetDone (p : Nat) : Statement (.partitionResetDone p) := by
  intro (h : (okPart p) = true)
  show Exist [p] [] [] [] [] []
  simp_all [Exist, okPart_iff]
theorem stageResetDone (p : Nat) (stage : Nat) : Statement (.stageResetDone p stage) := by
  intro (h : (okPart p) = true)
  show Exist [p] [] [] [] [] []
  simp_all [Exist, okPart_iff]
theorem ppsInEdge (low : Nat) (gap : Nat) : Statement (.ppsInEdge low gap) := fun _ => exist_nil
theorem ppsOutPulse : Statement .ppsOutPulse := fun _ => exist_nil
theorem flitCrcFail (ch : Nat) (h : DWord) (payload : List Byte) (crc : BitVec 40) (replayed : Bool) : Statement (.flitCrcFail ch h payload crc replayed) := fun _ => exist_nil
theorem replayRequestRx (ch : Nat) (lseq : Nat) : Statement (.replayRequestRx ch lseq) := fun _ => exist_nil
theorem linkRetrainDone (l : Nat) (ok : Bool) : Statement (.linkRetrainDone l ok) := fun _ => exist_nil
theorem firewallFlitDiscard (b : Nat) (h : DWord) : Statement (.firewallFlitDiscard b h) := by
  intro (h : (okDie b) = true)
  show Exist [] [b] [] [] [] []
  simp_all [Exist, okDie_iff]
theorem sliceArrival (f : Nat) (c : Nat) (w : Nat) (stream : Nat) (scale : Nat) (payload : List Byte) (outl : List Byte) : Statement (.sliceArrival f c w stream scale payload outl) := by
  intro (h : (okFc f c && okW w && okStream stream) = true)
  show Exist [] [f] [c] [] [] [stream]
  simp_all [Exist, okFc_iff, okStream_iff]
theorem passStart (f : Nat) (c : Nat) (sl : Nat) (stall : Nat) : Statement (.passStart f c sl stall) := by
  intro (h : (okFc f c && okSlot sl) = true)
  show Exist [] [f] [c] [] [sl] []
  simp_all [Exist, okFc_iff, okSlot_iff]
theorem pluck (f : Nat) (c : Nat) (go : List Nat) (convs : List ConvEv) (upsets : List Upset) (backlog : Nat) : Statement (.pluck f c go convs upsets backlog) := by
  intro (h : (okFc f c && go.all okTile && convs.all okConv && upsets.all okUpset) = true)
  show Exist [] [f] [c] [] [] []
  simp_all [Exist, okFc_iff]
theorem encorePassEnd (f : Nat) (c : Nat) (sl : Nat) : Statement (.encorePassEnd f c sl) := by
  intro (h : (okFc f c && okSlot sl) = true)
  show Exist [] [f] [c] [] [sl] []
  simp_all [Exist, okFc_iff, okSlot_iff]
theorem groupHandon (f : Nat) (c : Nat) (t : Nat) (g : Nat) : Statement (.groupHandon f c t g) := by
  intro (h : (okFct f c t && okGroup g) = true)
  show Exist [] [f] [c] [t] [] []
  simp_all [Exist, okFct_iff]
theorem reconvertResult (f : Nat) (c : Nat) (t : Nat) (col : Nat) (dev : Int) (unsettled : Bool) (badParity : Bool) : Statement (.reconvertResult f c t col dev unsettled badParity) := by
  intro (h : (okFct f c t && okCol col) = true)
  show Exist [] [f] [c] [t] [] []
  simp_all [Exist, okFct_iff]
theorem columnRecomputeDone (f : Nat) (c : Nat) (t : Nat) (col : Nat) : Statement (.columnRecomputeDone f c t col) := by
  intro (h : (okFct f c t && okCol col) = true)
  show Exist [] [f] [c] [t] [] []
  simp_all [Exist, okFct_iff]
theorem groupRecomputeDone (f : Nat) (c : Nat) (t : Nat) (g : Nat) : Statement (.groupRecomputeDone f c t g) := by
  intro (h : (okFct f c t && okGroup g) = true)
  show Exist [] [f] [c] [t] [] []
  simp_all [Exist, okFct_iff]
theorem fetchedRowArrival (f : Nat) (c : Nat) (w : Nat) (errs : List (Nat × Nat)) : Statement (.fetchedRowArrival f c w errs) := by
  intro (h : (okFc f c && okW w) = true)
  show Exist [] [f] [c] [] [] []
  simp_all [Exist, okFc_iff]
theorem repairSwap (f : Nat) (c : Nat) (t : Nat) : Statement (.repairSwap f c t) := by
  intro (h : (okFct f c t) = true)
  show Exist [] [f] [c] [t] [] []
  simp_all [Exist, okFct_iff]
theorem planeLoadStart (f : Nat) (c : Nat) (t : Nat) (errs : List (Nat × Nat)) : Statement (.planeLoadStart f c t errs) := by
  intro (h : (okFct f c t) = true)
  show Exist [] [f] [c] [t] [] []
  simp_all [Exist, okFct_iff]
theorem rowSegmentArrival (f : Nat) (c : Nat) (t : Nat) (row : Nat) (g : Nat) (planeB : Bool) (parityOk : Bool) (errs : List (Nat × Nat)) : Statement (.rowSegmentArrival f c t row g planeB parityOk errs) := by
  intro (h : (okFct f c t && decide (row < 512) && okGroup g) = true)
  show Exist [] [f] [c] [t] [] []
  simp_all [Exist, okFct_iff]
theorem loadEndMarker (f : Nat) (c : Nat) (t : Nat) (planeB : Bool) : Statement (.loadEndMarker f c t planeB) := by
  intro (h : (okFct f c t) = true)
  show Exist [] [f] [c] [t] [] []
  simp_all [Exist, okFct_iff]
theorem planeDrained (f : Nat) (c : Nat) (t : Nat) (planeB : Bool) (waited : Nat) : Statement (.planeDrained f c t planeB waited) := by
  intro (h : (okFct f c t) = true)
  show Exist [] [f] [c] [t] [] []
  simp_all [Exist, okFct_iff]
theorem droneSampleDone (f : Nat) (c : Nat) : Statement (.droneSampleDone f c) := by
  intro (h : (okFc f c) = true)
  show Exist [] [f] [c] [] [] []
  simp_all [Exist, okFc_iff]
theorem droneRefit (f : Nat) (c : Nat) (t : Nat) (band : Nat) (col : Nat) : Statement (.droneRefit f c t band col) := by
  intro (h : (okFct f c t && decide (band < 4) && okCol col) = true)
  show Exist [] [f] [c] [t] [] []
  simp_all [Exist, okFct_iff]
theorem qualityPublish (f : Nat) (c : Nat) (t : Nat) : Statement (.qualityPublish f c t) := by
  intro (h : (okFct f c t) = true)
  show Exist [] [f] [c] [t] [] []
  simp_all [Exist, okFct_iff]
theorem foldWindowEnd (f : Nat) (c : Nat) (sl : Nat) : Statement (.foldWindowEnd f c sl) := by
  intro (h : (okFc f c && okSlot sl) = true)
  show Exist [] [f] [c] [] [sl] []
  simp_all [Exist, okFc_iff, okSlot_iff]
theorem passEnd (f : Nat) (c : Nat) (sl : Nat) : Statement (.passEnd f c sl) := by
  intro (h : (okFc f c && okSlot sl) = true)
  show Exist [] [f] [c] [] [sl] []
  simp_all [Exist, okFc_iff, okSlot_iff]
theorem tailpieceTermArrival (f : Nat) (c : Nat) (parityErr : Bool) (inside : Bool) : Statement (.tailpieceTermArrival f c parityErr inside) := by
  intro (h : (okFc f c) = true)
  show Exist [] [f] [c] [] [] []
  simp_all [Exist, okFc_iff]
theorem tailpieceDataFlit (f : Nat) (c : Nat) (sl : Nat) (stream : Nat) (payload : List Byte) : Statement (.tailpieceDataFlit f c sl stream payload) := by
  intro (h : (okFc f c && okSlot sl && okStream stream) = true)
  show Exist [] [f] [c] [] [sl] [stream]
  simp_all [Exist, okFc_iff, okSlot_iff, okStream_iff]
theorem treeResult (f : Nat) (c : Nat) (sl : Nat) (slice : Nat) (col : Nat) (parityErr : Bool) : Statement (.treeResult f c sl slice col parityErr) := by
  intro (h : (okFc f c && okSlot sl && decide (col < 512)) = true)
  show Exist [] [f] [c] [] [sl] []
  simp_all [Exist, okFc_iff, okSlot_iff]
theorem bufferSealed (f : Nat) (c : Nat) (sl : Nat) (bufB : Bool) (wait : Nat) : Statement (.bufferSealed f c sl bufB wait) := by
  intro (h : (okFc f c && okSlot sl) = true)
  show Exist [] [f] [c] [] [sl] []
  simp_all [Exist, okFc_iff, okSlot_iff]
theorem bufferDrainStart (f : Nat) (c : Nat) (sl : Nat) (bufB : Bool) (par : Option Nat) : Statement (.bufferDrainStart f c sl bufB par) := by
  intro (h : (okFc f c && okSlot sl) = true)
  show Exist [] [f] [c] [] [sl] []
  simp_all [Exist, okFc_iff, okSlot_iff]
theorem bufferDrainDone (f : Nat) (c : Nat) (sl : Nat) (bufB : Bool) : Statement (.bufferDrainDone f c sl bufB) := by
  intro (h : (okFc f c && okSlot sl) = true)
  show Exist [] [f] [c] [] [sl] []
  simp_all [Exist, okFc_iff, okSlot_iff]
theorem bridgeTensorPass (p : Nat) (b : Nat) (stage : Nat) (stream : Nat) (pos : Nat) (vals : List Word) : Statement (.bridgeTensorPass p b stage stream pos vals) := by
  intro (h : (okPart p && okDie b && okStream stream) = true)
  show Exist [p] [b] [] [] [] [stream]
  simp_all [Exist, okPart_iff, okDie_iff, okStream_iff]
theorem selftestStart (f : Nat) (c : Nat) (t : Nat) : Statement (.selftestStart f c t) := by
  intro (h : (okFct f c t) = true)
  show Exist [] [f] [c] [t] [] []
  simp_all [Exist, okFct_iff]
theorem selftestResult (f : Nat) (c : Nat) (t : Nat) (kat : Nat) (scan : Nat) (katCol : Nat) (scanCol : Nat) : Statement (.selftestResult f c t kat scan katCol scanCol) := by
  intro (h : (okFct f c t && decide (kat < 4) && decide (scan < 4)) = true)
  show Exist [] [f] [c] [t] [] []
  simp_all [Exist, okFct_iff]
theorem periodicScanDue (f : Nat) (c : Nat) (t : Nat) : Statement (.periodicScanDue f c t) := by
  intro (h : (okFct f c t) = true)
  show Exist [] [f] [c] [t] [] []
  simp_all [Exist, okFct_iff]
theorem observationEnd (f : Nat) (c : Nat) (t : Nat) : Statement (.observationEnd f c t) := by
  intro (h : (okFct f c t) = true)
  show Exist [] [f] [c] [t] [] []
  simp_all [Exist, okFct_iff]
theorem hbmPatrolScrub (b : Nat) (stack : Nat) (addr : Nat) (n : Nat) : Statement (.hbmPatrolScrub b stack addr n) := by
  intro (h : (okDie b && decide (stack < 2)) = true)
  show Exist [] [b] [] [] [] []
  simp_all [Exist, okDie_iff]
theorem sensorSample (die : Nat) (k : Nat) (v : Half) : Statement (.sensorSample die k v) := fun _ => exist_nil
theorem powerSensorSample (hbms : List (Nat × Nat × Half)) (vin : Half) (iin : Half) (pin : Half) : Statement (.powerSensorSample hbms vin iin pin) := fun _ => exist_nil
theorem thermalGraceEnd : Statement .thermalGraceEnd := fun _ => exist_nil
theorem tlevelStep (held : Nat) : Statement (.tlevelStep held) := fun _ => exist_nil
theorem plevelStep (held : Nat) : Statement (.plevelStep held) := fun _ => exist_nil
theorem thermalTrip (die : Nat) (k : Nat) (v : Half) : Statement (.thermalTrip die k v) := fun _ => exist_nil
theorem kvAppendPiece (b : Nat) (i : Nat) (draft : Bool) (l : Nat) (pos : Nat) (kind : Nat) (head : Nat) (bf16 : Bool) (data : List Byte) (errs : List (Nat × Nat)) : Statement (.kvAppendPiece b i draft l pos kind head bf16 data errs) := by
  intro (h : (okDie b && okStream i) = true)
  show Exist [] [b] [] [] [] [i]
  simp_all [Exist, okDie_iff, okStream_iff]
theorem attentionStep (b : Nat) (i : Nat) (lk : Nat) (appends : Bool) : Statement (.attentionStep b i lk appends) := by
  intro (h : (okDie b && okStream i) = true)
  show Exist [] [b] [] [] [] [i]
  simp_all [Exist, okDie_iff, okStream_iff]
theorem attentionOutput (b : Nat) (i : Nat) (lk : Nat) (errs : List (Nat × Nat)) (words : List (Nat × Nat)) : Statement (.attentionOutput b i lk errs words) := by
  intro (h : (okDie b && okStream i) = true)
  show Exist [] [b] [] [] [] [i]
  simp_all [Exist, okDie_iff, okStream_iff]
theorem stagingFlushAck (b : Nat) (i : Nat) (lk : Nat) (first : Nat) : Statement (.stagingFlushAck b i lk first) := by
  intro (h : (okDie b && okStream i) = true)
  show Exist [] [b] [] [] [] [i]
  simp_all [Exist, okDie_iff, okStream_iff]
theorem editPublish (b : Nat) (wait : Nat) : Statement (.editPublish b wait) := by
  intro (h : (okDie b) = true)
  show Exist [] [b] [] [] [] []
  simp_all [Exist, okDie_iff]
theorem generationEnd (b : Nat) : Statement (.generationEnd b) := by
  intro (h : (okDie b) = true)
  show Exist [] [b] [] [] [] []
  simp_all [Exist, okDie_iff]
theorem batchFormation (p : Nat) : Statement (.batchFormation p) := by
  intro (h : (okPart p) = true)
  show Exist [p] [] [] [] [] []
  simp_all [Exist, okPart_iff]
theorem stepBoundary (i : Nat) : Statement (.stepBoundary i) := by
  intro (h : (okStream i) = true)
  show Exist [] [] [] [] [] [i]
  simp_all [Exist, okStream_iff]
theorem draftStepDone (i : Nat) (logits : List (List Word)) : Statement (.draftStepDone i logits) := by
  intro (h : (okStream i) = true)
  show Exist [] [] [] [] [] [i]
  simp_all [Exist, okStream_iff]
theorem pickSample (i : Nat) (logits : List (List Word)) : Statement (.pickSample i logits) := by
  intro (h : (okStream i) = true)
  show Exist [] [] [] [] [] [i]
  simp_all [Exist, okStream_iff]
theorem deadlineReached (i : Nat) : Statement (.deadlineReached i) := by
  intro (h : (okStream i) = true)
  show Exist [] [] [] [] [] [i]
  simp_all [Exist, okStream_iff]
theorem parkExpiry (i : Nat) : Statement (.parkExpiry i) := by
  intro (h : (okStream i) = true)
  show Exist [] [] [] [] [] [i]
  simp_all [Exist, okStream_iff]
theorem kvHoldTimeout (i : Nat) : Statement (.kvHoldTimeout i) := by
  intro (h : (okStream i) = true)
  show Exist [] [] [] [] [] [i]
  simp_all [Exist, okStream_iff]
theorem schedulerResume (p : Nat) : Statement (.schedulerResume p) := by
  intro (h : (okPart p) = true)
  show Exist [p] [] [] [] [] []
  simp_all [Exist, okPart_iff]
theorem stagePassTimeout (f : Nat) (c : Nat) (sl : Nat) : Statement (.stagePassTimeout f c sl) := by
  intro (h : (okFc f c && okSlot sl) = true)
  show Exist [] [f] [c] [] [sl] []
  simp_all [Exist, okFc_iff, okSlot_iff]
theorem mgmtCommandTimeout (k : Nat) (n : Nat) : Statement (.mgmtCommandTimeout k n) := fun _ => exist_nil
theorem farPrefetchStart (p : Nat) (model : Nat) (e : Word) (tag : Nat) : Statement (.farPrefetchStart p model e tag) := by
  intro (h : (okPart p && decide (model < 4)) = true)
  show Exist [p] [] [] [] [] []
  simp_all [Exist, okPart_iff]
theorem farLayerLanded (shards : List (Nat × List Byte)) : Statement (.farLayerLanded shards) := fun _ => exist_nil
theorem farReadTimeout (b : Nat) (exhausted : Bool) : Statement (.farReadTimeout b exhausted) := by
  intro (h : (okDie b) = true)
  show Exist [] [b] [] [] [] []
  simp_all [Exist, okDie_iff]
theorem epochRetireBy (p : Nat) (model : Nat) : Statement (.epochRetireBy p model) := by
  intro (h : (okPart p && decide (model < 4)) = true)
  show Exist [p] [] [] [] [] []
  simp_all [Exist, okPart_iff]
theorem windowIdleTimeout (n : Nat) : Statement (.windowIdleTimeout n) := fun _ => exist_nil
theorem ethLinkUp : Statement .ethLinkUp := fun _ => exist_nil
theorem ethLinkDown (lanes : Byte) (fec : Bool) : Statement (.ethLinkDown lanes fec) := fun _ => exist_nil
theorem ptpDelayRespRx (dom : Nat) (t4 : Int) : Statement (.ptpDelayRespRx dom t4) := fun _ => exist_nil
theorem consortJoinResultRx (code : Nat) (joined : List Nat) : Statement (.consortJoinResultRx code joined) := fun _ => exist_nil
theorem strumAckRx (k : Nat) (t : DWord) : Statement (.strumAckRx k t) := fun _ => exist_nil
theorem consortTokenRecordsRx (h : Word) (recs : List (List Byte)) : Statement (.consortTokenRecordsRx h recs) := fun _ => exist_nil
theorem loadCommitResult (n : Nat) (nonFinite : Bool) : Statement (.loadCommitResult n nonFinite) := fun _ => exist_nil
theorem atRiskTtft (i : Nat) : Statement (.atRiskTtft i) := by
  intro (h : (okStream i) = true)
  show Exist [] [] [] [] [] [i]
  simp_all [Exist, okStream_iff]
theorem editDataTransferDone (b : Nat) (data : List Byte) : Statement (.editDataTransferDone b data) := by
  intro (h : (okDie b) = true)
  show Exist [] [b] [] [] [] []
  simp_all [Exist, okDie_iff]
theorem persistentLogProgrammed : Statement .persistentLogProgrammed := fun _ => exist_nil
theorem nvWritePulseEnd (next : Option NvWrite) : Statement (.nvWritePulseEnd next) := fun _ => exist_nil
theorem overVoltageEnd : Statement .overVoltageEnd := fun _ => exist_nil
theorem exactGroupDone (f : Nat) (c : Nat) (sl : Nat) (stall : Nat) : Statement (.exactGroupDone f c sl stall) := by
  intro (h : (okFc f c && okSlot sl) = true)
  show Exist [] [f] [c] [] [sl] []
  simp_all [Exist, okFc_iff, okSlot_iff]

end Sys2Proof.Laws.Range
end

