-- ==== Sys2Proof/Laws/State.lean ====
section
/-! SUPPORT. Every named update of the block, field by field: what it leaves alone, and what reads back. -/

namespace Sys2Proof.Machine

/-! ### Fields that an update leaves alone -/

variable {d : Dev}

@[simp] theorem regPut_time (a : Nat) (v : Word) : (regPut a v d).time = d.time := rfl
@[simp] theorem regPut_timeRun (a : Nat) (v : Word) : (regPut a v d).timeRun = d.timeRun := rfl
@[simp] theorem regPut_osc (a : Nat) (v : Word) : (regPut a v d).osc = d.osc := rfl
@[simp] theorem regPut_free (a : Nat) (v : Word) : (regPut a v d).free = d.free := rfl
@[simp] theorem regPut_fuses (a : Nat) (v : Word) : (regPut a v d).fuses = d.fuses := rfl
@[simp] theorem regPut_flash (a : Nat) (v : Word) : (regPut a v d).flash = d.flash := rfl
@[simp] theorem regPut_strand (a : Nat) (v : Word) : (regPut a v d).strand = d.strand := rfl
@[simp] theorem regPut_eth (a : Nat) (v : Word) : (regPut a v d).eth = d.eth := rfl
@[simp] theorem regPut_map (a : Nat) (v : Word) : (regPut a v d).map = d.map := rfl
@[simp] theorem regPut_sync (a : Nat) (v : Word) : (regPut a v d).sync = d.sync := rfl
@[simp] theorem regPut_peg (a : Nat) (v : Word) : (regPut a v d).peg = d.peg := rfl
@[simp] theorem regPut_rst (a : Nat) (v : Word) : (regPut a v d).rst = d.rst := rfl
@[simp] theorem regPut_pwr (a : Nat) (v : Word) : (regPut a v d).pwr = d.pwr := rfl
@[simp] theorem regPut_pins (a : Nat) (v : Word) : (regPut a v d).pins = d.pins := rfl
@[simp] theorem regPut_links (a : Nat) (v : Word) : (regPut a v d).links = d.links := rfl
@[simp] theorem regPut_fret (a : Nat) (v : Word) : (regPut a v d).fret = d.fret := rfl
@[simp] theorem regPut_mem (a : Nat) (v : Word) : (regPut a v d).mem = d.mem := rfl
@[simp] theorem regPut_poison (a : Nat) (v : Word) : (regPut a v d).poison = d.poison := rfl
@[simp] theorem regPut_loads (a : Nat) (v : Word) : (regPut a v d).loads = d.loads := rfl
@[simp] theorem regPut_tunes (a : Nat) (v : Word) : (regPut a v d).tunes = d.tunes := rfl
@[simp] theorem regPut_streams (a : Nat) (v : Word) : (regPut a v d).streams = d.streams := rfl
@[simp] theorem regPut_incarnation (a : Nat) (v : Word) : (regPut a v d).incarnation = d.incarnation := rfl
@[simp] theorem regPut_prefixes (a : Nat) (v : Word) : (regPut a v d).prefixes = d.prefixes := rfl
@[simp] theorem regPut_scheds (a : Nat) (v : Word) : (regPut a v d).scheds = d.scheds := rfl
@[simp] theorem regPut_kv (a : Nat) (v : Word) : (regPut a v d).kv = d.kv := rfl
@[simp] theorem regPut_cns (a : Nat) (v : Word) : (regPut a v d).cns = d.cns := rfl
@[simp] theorem regPut_tx (a : Nat) (v : Word) : (regPut a v d).tx = d.tx := rfl

@[simp] theorem send_time (t : Tx) : (send t d).time = d.time := rfl
@[simp] theorem send_timeRun (t : Tx) : (send t d).timeRun = d.timeRun := rfl
@[simp] theorem send_osc (t : Tx) : (send t d).osc = d.osc := rfl
@[simp] theorem send_free (t : Tx) : (send t d).free = d.free := rfl
@[simp] theorem send_regs (t : Tx) : (send t d).regs = d.regs := rfl
@[simp] theorem send_fuses (t : Tx) : (send t d).fuses = d.fuses := rfl
@[simp] theorem send_flash (t : Tx) : (send t d).flash = d.flash := rfl
@[simp] theorem send_strand (t : Tx) : (send t d).strand = d.strand := rfl
@[simp] theorem send_eth (t : Tx) : (send t d).eth = d.eth := rfl
@[simp] theorem send_map (t : Tx) : (send t d).map = d.map := rfl
@[simp] theorem send_sync (t : Tx) : (send t d).sync = d.sync := rfl
@[simp] theorem send_peg (t : Tx) : (send t d).peg = d.peg := rfl
@[simp] theorem send_rst (t : Tx) : (send t d).rst = d.rst := rfl
@[simp] theorem send_pwr (t : Tx) : (send t d).pwr = d.pwr := rfl
@[simp] theorem send_pins (t : Tx) : (send t d).pins = d.pins := rfl
@[simp] theorem send_links (t : Tx) : (send t d).links = d.links := rfl
@[simp] theorem send_fret (t : Tx) : (send t d).fret = d.fret := rfl
@[simp] theorem send_mem (t : Tx) : (send t d).mem = d.mem := rfl
@[simp] theorem send_poison (t : Tx) : (send t d).poison = d.poison := rfl
@[simp] theorem send_loads (t : Tx) : (send t d).loads = d.loads := rfl
@[simp] theorem send_tunes (t : Tx) : (send t d).tunes = d.tunes := rfl
@[simp] theorem send_streams (t : Tx) : (send t d).streams = d.streams := rfl
@[simp] theorem send_incarnation (t : Tx) : (send t d).incarnation = d.incarnation := rfl
@[simp] theorem send_prefixes (t : Tx) : (send t d).prefixes = d.prefixes := rfl
@[simp] theorem send_scheds (t : Tx) : (send t d).scheds = d.scheds := rfl
@[simp] theorem send_kv (t : Tx) : (send t d).kv = d.kv := rfl
@[simp] theorem send_cns (t : Tx) : (send t d).cns = d.cns := rfl

@[simp] theorem putTile_time (f c t : Nat) (x : Tile) : (putTile f c t x d).time = d.time := rfl
@[simp] theorem putTile_timeRun (f c t : Nat) (x : Tile) : (putTile f c t x d).timeRun = d.timeRun := rfl
@[simp] theorem putTile_osc (f c t : Nat) (x : Tile) : (putTile f c t x d).osc = d.osc := rfl
@[simp] theorem putTile_free (f c t : Nat) (x : Tile) : (putTile f c t x d).free = d.free := rfl
@[simp] theorem putTile_regs (f c t : Nat) (x : Tile) : (putTile f c t x d).regs = d.regs := rfl
@[simp] theorem putTile_fuses (f c t : Nat) (x : Tile) : (putTile f c t x d).fuses = d.fuses := rfl
@[simp] theorem putTile_flash (f c t : Nat) (x : Tile) : (putTile f c t x d).flash = d.flash := rfl
@[simp] theorem putTile_strand (f c t : Nat) (x : Tile) : (putTile f c t x d).strand = d.strand := rfl
@[simp] theorem putTile_eth (f c t : Nat) (x : Tile) : (putTile f c t x d).eth = d.eth := rfl
@[simp] theorem putTile_map (f c t : Nat) (x : Tile) : (putTile f c t x d).map = d.map := rfl
@[simp] theorem putTile_sync (f c t : Nat) (x : Tile) : (putTile f c t x d).sync = d.sync := rfl
@[simp] theorem putTile_peg (f c t : Nat) (x : Tile) : (putTile f c t x d).peg = d.peg := rfl
@[simp] theorem putTile_rst (f c t : Nat) (x : Tile) : (putTile f c t x d).rst = d.rst := rfl
@[simp] theorem putTile_pwr (f c t : Nat) (x : Tile) : (putTile f c t x d).pwr = d.pwr := rfl
@[simp] theorem putTile_pins (f c t : Nat) (x : Tile) : (putTile f c t x d).pins = d.pins := rfl
@[simp] theorem putTile_links (f c t : Nat) (x : Tile) : (putTile f c t x d).links = d.links := rfl
@[simp] theorem putTile_mem (f c t : Nat) (x : Tile) : (putTile f c t x d).mem = d.mem := rfl
@[simp] theorem putTile_poison (f c t : Nat) (x : Tile) : (putTile f c t x d).poison = d.poison := rfl
@[simp] theorem putTile_loads (f c t : Nat) (x : Tile) : (putTile f c t x d).loads = d.loads := rfl
@[simp] theorem putTile_tunes (f c t : Nat) (x : Tile) : (putTile f c t x d).tunes = d.tunes := rfl
@[simp] theorem putTile_streams (f c t : Nat) (x : Tile) : (putTile f c t x d).streams = d.streams := rfl
@[simp] theorem putTile_incarnation (f c t : Nat) (x : Tile) : (putTile f c t x d).incarnation = d.incarnation := rfl
@[simp] theorem putTile_prefixes (f c t : Nat) (x : Tile) : (putTile f c t x d).prefixes = d.prefixes := rfl
@[simp] theorem putTile_scheds (f c t : Nat) (x : Tile) : (putTile f c t x d).scheds = d.scheds := rfl
@[simp] theorem putTile_kv (f c t : Nat) (x : Tile) : (putTile f c t x d).kv = d.kv := rfl
@[simp] theorem putTile_cns (f c t : Nat) (x : Tile) : (putTile f c t x d).cns = d.cns := rfl
@[simp] theorem putTile_tx (f c t : Nat) (x : Tile) : (putTile f c t x d).tx = d.tx := rfl

@[simp] theorem putCourse_time (f c : Nat) (x : Course) : (putCourse f c x d).time = d.time := rfl
@[simp] theorem putCourse_timeRun (f c : Nat) (x : Course) : (putCourse f c x d).timeRun = d.timeRun := rfl
@[simp] theorem putCourse_osc (f c : Nat) (x : Course) : (putCourse f c x d).osc = d.osc := rfl
@[simp] theorem putCourse_free (f c : Nat) (x : Course) : (putCourse f c x d).free = d.free := rfl
@[simp] theorem putCourse_regs (f c : Nat) (x : Course) : (putCourse f c x d).regs = d.regs := rfl
@[simp] theorem putCourse_fuses (f c : Nat) (x : Course) : (putCourse f c x d).fuses = d.fuses := rfl
@[simp] theorem putCourse_flash (f c : Nat) (x : Course) : (putCourse f c x d).flash = d.flash := rfl
@[simp] theorem putCourse_strand (f c : Nat) (x : Course) : (putCourse f c x d).strand = d.strand := rfl
@[simp] theorem putCourse_eth (f c : Nat) (x : Course) : (putCourse f c x d).eth = d.eth := rfl
@[simp] theorem putCourse_map (f c : Nat) (x : Course) : (putCourse f c x d).map = d.map := rfl
@[simp] theorem putCourse_sync (f c : Nat) (x : Course) : (putCourse f c x d).sync = d.sync := rfl
@[simp] theorem putCourse_peg (f c : Nat) (x : Course) : (putCourse f c x d).peg = d.peg := rfl
@[simp] theorem putCourse_rst (f c : Nat) (x : Course) : (putCourse f c x d).rst = d.rst := rfl
@[simp] theorem putCourse_pwr (f c : Nat) (x : Course) : (putCourse f c x d).pwr = d.pwr := rfl
@[simp] theorem putCourse_pins (f c : Nat) (x : Course) : (putCourse f c x d).pins = d.pins := rfl
@[simp] theorem putCourse_links (f c : Nat) (x : Course) : (putCourse f c x d).links = d.links := rfl
@[simp] theorem putCourse_mem (f c : Nat) (x : Course) : (putCourse f c x d).mem = d.mem := rfl
@[simp] theorem putCourse_poison (f c : Nat) (x : Course) : (putCourse f c x d).poison = d.poison := rfl
@[simp] theorem putCourse_loads (f c : Nat) (x : Course) : (putCourse f c x d).loads = d.loads := rfl
@[simp] theorem putCourse_tunes (f c : Nat) (x : Course) : (putCourse f c x d).tunes = d.tunes := rfl
@[simp] theorem putCourse_streams (f c : Nat) (x : Course) : (putCourse f c x d).streams = d.streams := rfl
@[simp] theorem putCourse_incarnation (f c : Nat) (x : Course) : (putCourse f c x d).incarnation = d.incarnation := rfl
@[simp] theorem putCourse_prefixes (f c : Nat) (x : Course) : (putCourse f c x d).prefixes = d.prefixes := rfl
@[simp] theorem putCourse_scheds (f c : Nat) (x : Course) : (putCourse f c x d).scheds = d.scheds := rfl
@[simp] theorem putCourse_kv (f c : Nat) (x : Course) : (putCourse f c x d).kv = d.kv := rfl
@[simp] theorem putCourse_cns (f c : Nat) (x : Course) : (putCourse f c x d).cns = d.cns := rfl
@[simp] theorem putCourse_tx (f c : Nat) (x : Course) : (putCourse f c x d).tx = d.tx := rfl

@[simp] theorem modDie_time (x : Nat) (g : Die → Die) : (modDie x g d).time = d.time := rfl
@[simp] theorem modDie_timeRun (x : Nat) (g : Die → Die) : (modDie x g d).timeRun = d.timeRun := rfl
@[simp] theorem modDie_osc (x : Nat) (g : Die → Die) : (modDie x g d).osc = d.osc := rfl
@[simp] theorem modDie_free (x : Nat) (g : Die → Die) : (modDie x g d).free = d.free := rfl
@[simp] theorem modDie_regs (x : Nat) (g : Die → Die) : (modDie x g d).regs = d.regs := rfl
@[simp] theorem modDie_fuses (x : Nat) (g : Die → Die) : (modDie x g d).fuses = d.fuses := rfl
@[simp] theorem modDie_flash (x : Nat) (g : Die → Die) : (modDie x g d).flash = d.flash := rfl
@[simp] theorem modDie_strand (x : Nat) (g : Die → Die) : (modDie x g d).strand = d.strand := rfl
@[simp] theorem modDie_eth (x : Nat) (g : Die → Die) : (modDie x g d).eth = d.eth := rfl
@[simp] theorem modDie_map (x : Nat) (g : Die → Die) : (modDie x g d).map = d.map := rfl
@[simp] theorem modDie_sync (x : Nat) (g : Die → Die) : (modDie x g d).sync = d.sync := rfl
@[simp] theorem modDie_peg (x : Nat) (g : Die → Die) : (modDie x g d).peg = d.peg := rfl
@[simp] theorem modDie_rst (x : Nat) (g : Die → Die) : (modDie x g d).rst = d.rst := rfl
@[simp] theorem modDie_pwr (x : Nat) (g : Die → Die) : (modDie x g d).pwr = d.pwr := rfl
@[simp] theorem modDie_pins (x : Nat) (g : Die → Die) : (modDie x g d).pins = d.pins := rfl
@[simp] theorem modDie_links (x : Nat) (g : Die → Die) : (modDie x g d).links = d.links := rfl
@[simp] theorem modDie_mem (x : Nat) (g : Die → Die) : (modDie x g d).mem = d.mem := rfl
@[simp] theorem modDie_poison (x : Nat) (g : Die → Die) : (modDie x g d).poison = d.poison := rfl
@[simp] theorem modDie_loads (x : Nat) (g : Die → Die) : (modDie x g d).loads = d.loads := rfl
@[simp] theorem modDie_tunes (x : Nat) (g : Die → Die) : (modDie x g d).tunes = d.tunes := rfl
@[simp] theorem modDie_streams (x : Nat) (g : Die → Die) : (modDie x g d).streams = d.streams := rfl
@[simp] theorem modDie_incarnation (x : Nat) (g : Die → Die) : (modDie x g d).incarnation = d.incarnation := rfl
@[simp] theorem modDie_prefixes (x : Nat) (g : Die → Die) : (modDie x g d).prefixes = d.prefixes := rfl
@[simp] theorem modDie_scheds (x : Nat) (g : Die → Die) : (modDie x g d).scheds = d.scheds := rfl
@[simp] theorem modDie_kv (x : Nat) (g : Die → Die) : (modDie x g d).kv = d.kv := rfl
@[simp] theorem modDie_cns (x : Nat) (g : Die → Die) : (modDie x g d).cns = d.cns := rfl
@[simp] theorem modDie_tx (x : Nat) (g : Die → Die) : (modDie x g d).tx = d.tx := rfl

@[simp] theorem putChan_time (ch : Nat) (c : Chan) : (putChan ch c d).time = d.time := rfl
@[simp] theorem putChan_timeRun (ch : Nat) (c : Chan) : (putChan ch c d).timeRun = d.timeRun := rfl
@[simp] theorem putChan_osc (ch : Nat) (c : Chan) : (putChan ch c d).osc = d.osc := rfl
@[simp] theorem putChan_free (ch : Nat) (c : Chan) : (putChan ch c d).free = d.free := rfl
@[simp] theorem putChan_regs (ch : Nat) (c : Chan) : (putChan ch c d).regs = d.regs := rfl
@[simp] theorem putChan_fuses (ch : Nat) (c : Chan) : (putChan ch c d).fuses = d.fuses := rfl
@[simp] theorem putChan_flash (ch : Nat) (c : Chan) : (putChan ch c d).flash = d.flash := rfl
@[simp] theorem putChan_strand (ch : Nat) (c : Chan) : (putChan ch c d).strand = d.strand := rfl
@[simp] theorem putChan_eth (ch : Nat) (c : Chan) : (putChan ch c d).eth = d.eth := rfl
@[simp] theorem putChan_map (ch : Nat) (c : Chan) : (putChan ch c d).map = d.map := rfl
@[simp] theorem putChan_sync (ch : Nat) (c : Chan) : (putChan ch c d).sync = d.sync := rfl
@[simp] theorem putChan_peg (ch : Nat) (c : Chan) : (putChan ch c d).peg = d.peg := rfl
@[simp] theorem putChan_rst (ch : Nat) (c : Chan) : (putChan ch c d).rst = d.rst := rfl
@[simp] theorem putChan_pwr (ch : Nat) (c : Chan) : (putChan ch c d).pwr = d.pwr := rfl
@[simp] theorem putChan_pins (ch : Nat) (c : Chan) : (putChan ch c d).pins = d.pins := rfl
@[simp] theorem putChan_fret (ch : Nat) (c : Chan) : (putChan ch c d).fret = d.fret := rfl
@[simp] theorem putChan_mem (ch : Nat) (c : Chan) : (putChan ch c d).mem = d.mem := rfl
@[simp] theorem putChan_poison (ch : Nat) (c : Chan) : (putChan ch c d).poison = d.poison := rfl
@[simp] theorem putChan_loads (ch : Nat) (c : Chan) : (putChan ch c d).loads = d.loads := rfl
@[simp] theorem putChan_tunes (ch : Nat) (c : Chan) : (putChan ch c d).tunes = d.tunes := rfl
@[simp] theorem putChan_streams (ch : Nat) (c : Chan) : (putChan ch c d).streams = d.streams := rfl
@[simp] theorem putChan_incarnation (ch : Nat) (c : Chan) : (putChan ch c d).incarnation = d.incarnation := rfl
@[simp] theorem putChan_prefixes (ch : Nat) (c : Chan) : (putChan ch c d).prefixes = d.prefixes := rfl
@[simp] theorem putChan_scheds (ch : Nat) (c : Chan) : (putChan ch c d).scheds = d.scheds := rfl
@[simp] theorem putChan_kv (ch : Nat) (c : Chan) : (putChan ch c d).kv = d.kv := rfl
@[simp] theorem putChan_cns (ch : Nat) (c : Chan) : (putChan ch c d).cns = d.cns := rfl
@[simp] theorem putChan_tx (ch : Nat) (c : Chan) : (putChan ch c d).tx = d.tx := rfl

@[simp] theorem putLink_time (l : Nat) (k : Link) : (putLink l k d).time = d.time := rfl
@[simp] theorem putLink_timeRun (l : Nat) (k : Link) : (putLink l k d).timeRun = d.timeRun := rfl
@[simp] theorem putLink_osc (l : Nat) (k : Link) : (putLink l k d).osc = d.osc := rfl
@[simp] theorem putLink_free (l : Nat) (k : Link) : (putLink l k d).free = d.free := rfl
@[simp] theorem putLink_regs (l : Nat) (k : Link) : (putLink l k d).regs = d.regs := rfl
@[simp] theorem putLink_fuses (l : Nat) (k : Link) : (putLink l k d).fuses = d.fuses := rfl
@[simp] theorem putLink_flash (l : Nat) (k : Link) : (putLink l k d).flash = d.flash := rfl
@[simp] theorem putLink_strand (l : Nat) (k : Link) : (putLink l k d).strand = d.strand := rfl
@[simp] theorem putLink_eth (l : Nat) (k : Link) : (putLink l k d).eth = d.eth := rfl
@[simp] theorem putLink_map (l : Nat) (k : Link) : (putLink l k d).map = d.map := rfl
@[simp] theorem putLink_sync (l : Nat) (k : Link) : (putLink l k d).sync = d.sync := rfl
@[simp] theorem putLink_peg (l : Nat) (k : Link) : (putLink l k d).peg = d.peg := rfl
@[simp] theorem putLink_rst (l : Nat) (k : Link) : (putLink l k d).rst = d.rst := rfl
@[simp] theorem putLink_pwr (l : Nat) (k : Link) : (putLink l k d).pwr = d.pwr := rfl
@[simp] theorem putLink_pins (l : Nat) (k : Link) : (putLink l k d).pins = d.pins := rfl
@[simp] theorem putLink_fret (l : Nat) (k : Link) : (putLink l k d).fret = d.fret := rfl
@[simp] theorem putLink_mem (l : Nat) (k : Link) : (putLink l k d).mem = d.mem := rfl
@[simp] theorem putLink_poison (l : Nat) (k : Link) : (putLink l k d).poison = d.poison := rfl
@[simp] theorem putLink_loads (l : Nat) (k : Link) : (putLink l k d).loads = d.loads := rfl
@[simp] theorem putLink_tunes (l : Nat) (k : Link) : (putLink l k d).tunes = d.tunes := rfl
@[simp] theorem putLink_streams (l : Nat) (k : Link) : (putLink l k d).streams = d.streams := rfl
@[simp] theorem putLink_incarnation (l : Nat) (k : Link) : (putLink l k d).incarnation = d.incarnation := rfl
@[simp] theorem putLink_prefixes (l : Nat) (k : Link) : (putLink l k d).prefixes = d.prefixes := rfl
@[simp] theorem putLink_scheds (l : Nat) (k : Link) : (putLink l k d).scheds = d.scheds := rfl
@[simp] theorem putLink_kv (l : Nat) (k : Link) : (putLink l k d).kv = d.kv := rfl
@[simp] theorem putLink_cns (l : Nat) (k : Link) : (putLink l k d).cns = d.cns := rfl
@[simp] theorem putLink_tx (l : Nat) (k : Link) : (putLink l k d).tx = d.tx := rfl

@[simp] theorem modStream_time (i : Nat) (f : Stream → Stream) : (modStream i f d).time = d.time := rfl
@[simp] theorem modStream_timeRun (i : Nat) (f : Stream → Stream) : (modStream i f d).timeRun = d.timeRun := rfl
@[simp] theorem modStream_osc (i : Nat) (f : Stream → Stream) : (modStream i f d).osc = d.osc := rfl
@[simp] theorem modStream_free (i : Nat) (f : Stream → Stream) : (modStream i f d).free = d.free := rfl
@[simp] theorem modStream_regs (i : Nat) (f : Stream → Stream) : (modStream i f d).regs = d.regs := rfl
@[simp] theorem modStream_fuses (i : Nat) (f : Stream → Stream) : (modStream i f d).fuses = d.fuses := rfl
@[simp] theorem modStream_flash (i : Nat) (f : Stream → Stream) : (modStream i f d).flash = d.flash := rfl
@[simp] theorem modStream_strand (i : Nat) (f : Stream → Stream) : (modStream i f d).strand = d.strand := rfl
@[simp] theorem modStream_eth (i : Nat) (f : Stream → Stream) : (modStream i f d).eth = d.eth := rfl
@[simp] theorem modStream_map (i : Nat) (f : Stream → Stream) : (modStream i f d).map = d.map := rfl
@[simp] theorem modStream_sync (i : Nat) (f : Stream → Stream) : (modStream i f d).sync = d.sync := rfl
@[simp] theorem modStream_peg (i : Nat) (f : Stream → Stream) : (modStream i f d).peg = d.peg := rfl
@[simp] theorem modStream_rst (i : Nat) (f : Stream → Stream) : (modStream i f d).rst = d.rst := rfl
@[simp] theorem modStream_pwr (i : Nat) (f : Stream → Stream) : (modStream i f d).pwr = d.pwr := rfl
@[simp] theorem modStream_pins (i : Nat) (f : Stream → Stream) : (modStream i f d).pins = d.pins := rfl
@[simp] theorem modStream_links (i : Nat) (f : Stream → Stream) : (modStream i f d).links = d.links := rfl
@[simp] theorem modStream_fret (i : Nat) (f : Stream → Stream) : (modStream i f d).fret = d.fret := rfl
@[simp] theorem modStream_mem (i : Nat) (f : Stream → Stream) : (modStream i f d).mem = d.mem := rfl
@[simp] theorem modStream_poison (i : Nat) (f : Stream → Stream) : (modStream i f d).poison = d.poison := rfl
@[simp] theorem modStream_loads (i : Nat) (f : Stream → Stream) : (modStream i f d).loads = d.loads := rfl
@[simp] theorem modStream_tunes (i : Nat) (f : Stream → Stream) : (modStream i f d).tunes = d.tunes := rfl
@[simp] theorem modStream_incarnation (i : Nat) (f : Stream → Stream) : (modStream i f d).incarnation = d.incarnation := rfl
@[simp] theorem modStream_prefixes (i : Nat) (f : Stream → Stream) : (modStream i f d).prefixes = d.prefixes := rfl
@[simp] theorem modStream_scheds (i : Nat) (f : Stream → Stream) : (modStream i f d).scheds = d.scheds := rfl
@[simp] theorem modStream_kv (i : Nat) (f : Stream → Stream) : (modStream i f d).kv = d.kv := rfl
@[simp] theorem modStream_cns (i : Nat) (f : Stream → Stream) : (modStream i f d).cns = d.cns := rfl
@[simp] theorem modStream_tx (i : Nat) (f : Stream → Stream) : (modStream i f d).tx = d.tx := rfl

@[simp] theorem modSched_time (p : Nat) (f : Sched → Sched) : (modSched p f d).time = d.time := rfl
@[simp] theorem modSched_timeRun (p : Nat) (f : Sched → Sched) : (modSched p f d).timeRun = d.timeRun := rfl
@[simp] theorem modSched_osc (p : Nat) (f : Sched → Sched) : (modSched p f d).osc = d.osc := rfl
@[simp] theorem modSched_free (p : Nat) (f : Sched → Sched) : (modSched p f d).free = d.free := rfl
@[simp] theorem modSched_regs (p : Nat) (f : Sched → Sched) : (modSched p f d).regs = d.regs := rfl
@[simp] theorem modSched_fuses (p : Nat) (f : Sched → Sched) : (modSched p f d).fuses = d.fuses := rfl
@[simp] theorem modSched_flash (p : Nat) (f : Sched → Sched) : (modSched p f d).flash = d.flash := rfl
@[simp] theorem modSched_strand (p : Nat) (f : Sched → Sched) : (modSched p f d).strand = d.strand := rfl
@[simp] theorem modSched_eth (p : Nat) (f : Sched → Sched) : (modSched p f d).eth = d.eth := rfl
@[simp] theorem modSched_map (p : Nat) (f : Sched → Sched) : (modSched p f d).map = d.map := rfl
@[simp] theorem modSched_sync (p : Nat) (f : Sched → Sched) : (modSched p f d).sync = d.sync := rfl
@[simp] theorem modSched_peg (p : Nat) (f : Sched → Sched) : (modSched p f d).peg = d.peg := rfl
@[simp] theorem modSched_rst (p : Nat) (f : Sched → Sched) : (modSched p f d).rst = d.rst := rfl
@[simp] theorem modSched_pwr (p : Nat) (f : Sched → Sched) : (modSched p f d).pwr = d.pwr := rfl
@[simp] theorem modSched_pins (p : Nat) (f : Sched → Sched) : (modSched p f d).pins = d.pins := rfl
@[simp] theorem modSched_links (p : Nat) (f : Sched → Sched) : (modSched p f d).links = d.links := rfl
@[simp] theorem modSched_fret (p : Nat) (f : Sched → Sched) : (modSched p f d).fret = d.fret := rfl
@[simp] theorem modSched_mem (p : Nat) (f : Sched → Sched) : (modSched p f d).mem = d.mem := rfl
@[simp] theorem modSched_poison (p : Nat) (f : Sched → Sched) : (modSched p f d).poison = d.poison := rfl
@[simp] theorem modSched_loads (p : Nat) (f : Sched → Sched) : (modSched p f d).loads = d.loads := rfl
@[simp] theorem modSched_tunes (p : Nat) (f : Sched → Sched) : (modSched p f d).tunes = d.tunes := rfl
@[simp] theorem modSched_streams (p : Nat) (f : Sched → Sched) : (modSched p f d).streams = d.streams := rfl
@[simp] theorem modSched_incarnation (p : Nat) (f : Sched → Sched) : (modSched p f d).incarnation = d.incarnation := rfl
@[simp] theorem modSched_prefixes (p : Nat) (f : Sched → Sched) : (modSched p f d).prefixes = d.prefixes := rfl
@[simp] theorem modSched_kv (p : Nat) (f : Sched → Sched) : (modSched p f d).kv = d.kv := rfl
@[simp] theorem modSched_cns (p : Nat) (f : Sched → Sched) : (modSched p f d).cns = d.cns := rfl
@[simp] theorem modSched_tx (p : Nat) (f : Sched → Sched) : (modSched p f d).tx = d.tx := rfl

@[simp] theorem modKv_time (b : Nat) (f : KvBridge → KvBridge) : (modKv b f d).time = d.time := rfl
@[simp] theorem modKv_timeRun (b : Nat) (f : KvBridge → KvBridge) : (modKv b f d).timeRun = d.timeRun := rfl
@[simp] theorem modKv_osc (b : Nat) (f : KvBridge → KvBridge) : (modKv b f d).osc = d.osc := rfl
@[simp] theorem modKv_free (b : Nat) (f : KvBridge → KvBridge) : (modKv b f d).free = d.free := rfl
@[simp] theorem modKv_regs (b : Nat) (f : KvBridge → KvBridge) : (modKv b f d).regs = d.regs := rfl
@[simp] theorem modKv_fuses (b : Nat) (f : KvBridge → KvBridge) : (modKv b f d).fuses = d.fuses := rfl
@[simp] theorem modKv_flash (b : Nat) (f : KvBridge → KvBridge) : (modKv b f d).flash = d.flash := rfl
@[simp] theorem modKv_strand (b : Nat) (f : KvBridge → KvBridge) : (modKv b f d).strand = d.strand := rfl
@[simp] theorem modKv_eth (b : Nat) (f : KvBridge → KvBridge) : (modKv b f d).eth = d.eth := rfl
@[simp] theorem modKv_map (b : Nat) (f : KvBridge → KvBridge) : (modKv b f d).map = d.map := rfl
@[simp] theorem modKv_sync (b : Nat) (f : KvBridge → KvBridge) : (modKv b f d).sync = d.sync := rfl
@[simp] theorem modKv_peg (b : Nat) (f : KvBridge → KvBridge) : (modKv b f d).peg = d.peg := rfl
@[simp] theorem modKv_rst (b : Nat) (f : KvBridge → KvBridge) : (modKv b f d).rst = d.rst := rfl
@[simp] theorem modKv_pwr (b : Nat) (f : KvBridge → KvBridge) : (modKv b f d).pwr = d.pwr := rfl
@[simp] theorem modKv_pins (b : Nat) (f : KvBridge → KvBridge) : (modKv b f d).pins = d.pins := rfl
@[simp] theorem modKv_links (b : Nat) (f : KvBridge → KvBridge) : (modKv b f d).links = d.links := rfl
@[simp] theorem modKv_fret (b : Nat) (f : KvBridge → KvBridge) : (modKv b f d).fret = d.fret := rfl
@[simp] theorem modKv_mem (b : Nat) (f : KvBridge → KvBridge) : (modKv b f d).mem = d.mem := rfl
@[simp] theorem modKv_poison (b : Nat) (f : KvBridge → KvBridge) : (modKv b f d).poison = d.poison := rfl
@[simp] theorem modKv_loads (b : Nat) (f : KvBridge → KvBridge) : (modKv b f d).loads = d.loads := rfl
@[simp] theorem modKv_tunes (b : Nat) (f : KvBridge → KvBridge) : (modKv b f d).tunes = d.tunes := rfl
@[simp] theorem modKv_streams (b : Nat) (f : KvBridge → KvBridge) : (modKv b f d).streams = d.streams := rfl
@[simp] theorem modKv_incarnation (b : Nat) (f : KvBridge → KvBridge) : (modKv b f d).incarnation = d.incarnation := rfl
@[simp] theorem modKv_prefixes (b : Nat) (f : KvBridge → KvBridge) : (modKv b f d).prefixes = d.prefixes := rfl
@[simp] theorem modKv_scheds (b : Nat) (f : KvBridge → KvBridge) : (modKv b f d).scheds = d.scheds := rfl
@[simp] theorem modKv_cns (b : Nat) (f : KvBridge → KvBridge) : (modKv b f d).cns = d.cns := rfl
@[simp] theorem modKv_tx (b : Nat) (f : KvBridge → KvBridge) : (modKv b f d).tx = d.tx := rfl

@[simp] theorem hbmWrite_time (b a : Nat) (l : List Byte) : (hbmWrite b a l d).time = d.time := rfl
@[simp] theorem hbmWrite_timeRun (b a : Nat) (l : List Byte) : (hbmWrite b a l d).timeRun = d.timeRun := rfl
@[simp] theorem hbmWrite_osc (b a : Nat) (l : List Byte) : (hbmWrite b a l d).osc = d.osc := rfl
@[simp] theorem hbmWrite_free (b a : Nat) (l : List Byte) : (hbmWrite b a l d).free = d.free := rfl
@[simp] theorem hbmWrite_regs (b a : Nat) (l : List Byte) : (hbmWrite b a l d).regs = d.regs := rfl
@[simp] theorem hbmWrite_fuses (b a : Nat) (l : List Byte) : (hbmWrite b a l d).fuses = d.fuses := rfl
@[simp] theorem hbmWrite_flash (b a : Nat) (l : List Byte) : (hbmWrite b a l d).flash = d.flash := rfl
@[simp] theorem hbmWrite_strand (b a : Nat) (l : List Byte) : (hbmWrite b a l d).strand = d.strand := rfl
@[simp] theorem hbmWrite_eth (b a : Nat) (l : List Byte) : (hbmWrite b a l d).eth = d.eth := rfl
@[simp] theorem hbmWrite_map (b a : Nat) (l : List Byte) : (hbmWrite b a l d).map = d.map := rfl
@[simp] theorem hbmWrite_sync (b a : Nat) (l : List Byte) : (hbmWrite b a l d).sync = d.sync := rfl
@[simp] theorem hbmWrite_peg (b a : Nat) (l : List Byte) : (hbmWrite b a l d).peg = d.peg := rfl
@[simp] theorem hbmWrite_rst (b a : Nat) (l : List Byte) : (hbmWrite b a l d).rst = d.rst := rfl
@[simp] theorem hbmWrite_pwr (b a : Nat) (l : List Byte) : (hbmWrite b a l d).pwr = d.pwr := rfl
@[simp] theorem hbmWrite_pins (b a : Nat) (l : List Byte) : (hbmWrite b a l d).pins = d.pins := rfl
@[simp] theorem hbmWrite_links (b a : Nat) (l : List Byte) : (hbmWrite b a l d).links = d.links := rfl
@[simp] theorem hbmWrite_fret (b a : Nat) (l : List Byte) : (hbmWrite b a l d).fret = d.fret := rfl
@[simp] theorem hbmWrite_loads (b a : Nat) (l : List Byte) : (hbmWrite b a l d).loads = d.loads := rfl
@[simp] theorem hbmWrite_tunes (b a : Nat) (l : List Byte) : (hbmWrite b a l d).tunes = d.tunes := rfl
@[simp] theorem hbmWrite_streams (b a : Nat) (l : List Byte) : (hbmWrite b a l d).streams = d.streams := rfl
@[simp] theorem hbmWrite_incarnation (b a : Nat) (l : List Byte) : (hbmWrite b a l d).incarnation = d.incarnation := rfl
@[simp] theorem hbmWrite_prefixes (b a : Nat) (l : List Byte) : (hbmWrite b a l d).prefixes = d.prefixes := rfl
@[simp] theorem hbmWrite_scheds (b a : Nat) (l : List Byte) : (hbmWrite b a l d).scheds = d.scheds := rfl
@[simp] theorem hbmWrite_kv (b a : Nat) (l : List Byte) : (hbmWrite b a l d).kv = d.kv := rfl
@[simp] theorem hbmWrite_cns (b a : Nat) (l : List Byte) : (hbmWrite b a l d).cns = d.cns := rfl
@[simp] theorem hbmWrite_tx (b a : Nat) (l : List Byte) : (hbmWrite b a l d).tx = d.tx := rfl

@[simp] theorem hbmZero_time (b a n : Nat) : (hbmZero b a n d).time = d.time := rfl
@[simp] theorem hbmZero_timeRun (b a n : Nat) : (hbmZero b a n d).timeRun = d.timeRun := rfl
@[simp] theorem hbmZero_osc (b a n : Nat) : (hbmZero b a n d).osc = d.osc := rfl
@[simp] theorem hbmZero_free (b a n : Nat) : (hbmZero b a n d).free = d.free := rfl
@[simp] theorem hbmZero_regs (b a n : Nat) : (hbmZero b a n d).regs = d.regs := rfl
@[simp] theorem hbmZero_fuses (b a n : Nat) : (hbmZero b a n d).fuses = d.fuses := rfl
@[simp] theorem hbmZero_flash (b a n : Nat) : (hbmZero b a n d).flash = d.flash := rfl
@[simp] theorem hbmZero_strand (b a n : Nat) : (hbmZero b a n d).strand = d.strand := rfl
@[simp] theorem hbmZero_eth (b a n : Nat) : (hbmZero b a n d).eth = d.eth := rfl
@[simp] theorem hbmZero_map (b a n : Nat) : (hbmZero b a n d).map = d.map := rfl
@[simp] theorem hbmZero_sync (b a n : Nat) : (hbmZero b a n d).sync = d.sync := rfl
@[simp] theorem hbmZero_peg (b a n : Nat) : (hbmZero b a n d).peg = d.peg := rfl
@[simp] theorem hbmZero_rst (b a n : Nat) : (hbmZero b a n d).rst = d.rst := rfl
@[simp] theorem hbmZero_pwr (b a n : Nat) : (hbmZero b a n d).pwr = d.pwr := rfl
@[simp] theorem hbmZero_pins (b a n : Nat) : (hbmZero b a n d).pins = d.pins := rfl
@[simp] theorem hbmZero_links (b a n : Nat) : (hbmZero b a n d).links = d.links := rfl
@[simp] theorem hbmZero_fret (b a n : Nat) : (hbmZero b a n d).fret = d.fret := rfl
@[simp] theorem hbmZero_loads (b a n : Nat) : (hbmZero b a n d).loads = d.loads := rfl
@[simp] theorem hbmZero_tunes (b a n : Nat) : (hbmZero b a n d).tunes = d.tunes := rfl
@[simp] theorem hbmZero_streams (b a n : Nat) : (hbmZero b a n d).streams = d.streams := rfl
@[simp] theorem hbmZero_incarnation (b a n : Nat) : (hbmZero b a n d).incarnation = d.incarnation := rfl
@[simp] theorem hbmZero_prefixes (b a n : Nat) : (hbmZero b a n d).prefixes = d.prefixes := rfl
@[simp] theorem hbmZero_scheds (b a n : Nat) : (hbmZero b a n d).scheds = d.scheds := rfl
@[simp] theorem hbmZero_kv (b a n : Nat) : (hbmZero b a n d).kv = d.kv := rfl
@[simp] theorem hbmZero_cns (b a n : Nat) : (hbmZero b a n d).cns = d.cns := rfl
@[simp] theorem hbmZero_tx (b a n : Nat) : (hbmZero b a n d).tx = d.tx := rfl

@[simp] theorem setByte_time (b a : Nat) (v : Byte) : (setByte b a v d).time = d.time := rfl
@[simp] theorem setByte_timeRun (b a : Nat) (v : Byte) : (setByte b a v d).timeRun = d.timeRun := rfl
@[simp] theorem setByte_osc (b a : Nat) (v : Byte) : (setByte b a v d).osc = d.osc := rfl
@[simp] theorem setByte_free (b a : Nat) (v : Byte) : (setByte b a v d).free = d.free := rfl
@[simp] theorem setByte_regs (b a : Nat) (v : Byte) : (setByte b a v d).regs = d.regs := rfl
@[simp] theorem setByte_fuses (b a : Nat) (v : Byte) : (setByte b a v d).fuses = d.fuses := rfl
@[simp] theorem setByte_flash (b a : Nat) (v : Byte) : (setByte b a v d).flash = d.flash := rfl
@[simp] theorem setByte_strand (b a : Nat) (v : Byte) : (setByte b a v d).strand = d.strand := rfl
@[simp] theorem setByte_eth (b a : Nat) (v : Byte) : (setByte b a v d).eth = d.eth := rfl
@[simp] theorem setByte_map (b a : Nat) (v : Byte) : (setByte b a v d).map = d.map := rfl
@[simp] theorem setByte_sync (b a : Nat) (v : Byte) : (setByte b a v d).sync = d.sync := rfl
@[simp] theorem setByte_peg (b a : Nat) (v : Byte) : (setByte b a v d).peg = d.peg := rfl
@[simp] theorem setByte_rst (b a : Nat) (v : Byte) : (setByte b a v d).rst = d.rst := rfl
@[simp] theorem setByte_pwr (b a : Nat) (v : Byte) : (setByte b a v d).pwr = d.pwr := rfl
@[simp] theorem setByte_pins (b a : Nat) (v : Byte) : (setByte b a v d).pins = d.pins := rfl
@[simp] theorem setByte_links (b a : Nat) (v : Byte) : (setByte b a v d).links = d.links := rfl
@[simp] theorem setByte_fret (b a : Nat) (v : Byte) : (setByte b a v d).fret = d.fret := rfl
@[simp] theorem setByte_poison (b a : Nat) (v : Byte) : (setByte b a v d).poison = d.poison := rfl
@[simp] theorem setByte_loads (b a : Nat) (v : Byte) : (setByte b a v d).loads = d.loads := rfl
@[simp] theorem setByte_tunes (b a : Nat) (v : Byte) : (setByte b a v d).tunes = d.tunes := rfl
@[simp] theorem setByte_streams (b a : Nat) (v : Byte) : (setByte b a v d).streams = d.streams := rfl
@[simp] theorem setByte_incarnation (b a : Nat) (v : Byte) : (setByte b a v d).incarnation = d.incarnation := rfl
@[simp] theorem setByte_prefixes (b a : Nat) (v : Byte) : (setByte b a v d).prefixes = d.prefixes := rfl
@[simp] theorem setByte_scheds (b a : Nat) (v : Byte) : (setByte b a v d).scheds = d.scheds := rfl
@[simp] theorem setByte_kv (b a : Nat) (v : Byte) : (setByte b a v d).kv = d.kv := rfl
@[simp] theorem setByte_cns (b a : Nat) (v : Byte) : (setByte b a v d).cns = d.cns := rfl
@[simp] theorem setByte_tx (b a : Nat) (v : Byte) : (setByte b a v d).tx = d.tx := rfl

@[simp] theorem putAssoc_time (aid : Nat) (a : Assoc) : (putAssoc aid a d).time = d.time := rfl
@[simp] theorem putAssoc_timeRun (aid : Nat) (a : Assoc) : (putAssoc aid a d).timeRun = d.timeRun := rfl
@[simp] theorem putAssoc_osc (aid : Nat) (a : Assoc) : (putAssoc aid a d).osc = d.osc := rfl
@[simp] theorem putAssoc_free (aid : Nat) (a : Assoc) : (putAssoc aid a d).free = d.free := rfl
@[simp] theorem putAssoc_regs (aid : Nat) (a : Assoc) : (putAssoc aid a d).regs = d.regs := rfl
@[simp] theorem putAssoc_fuses (aid : Nat) (a : Assoc) : (putAssoc aid a d).fuses = d.fuses := rfl
@[simp] theorem putAssoc_flash (aid : Nat) (a : Assoc) : (putAssoc aid a d).flash = d.flash := rfl
@[simp] theorem putAssoc_eth (aid : Nat) (a : Assoc) : (putAssoc aid a d).eth = d.eth := rfl
@[simp] theorem putAssoc_map (aid : Nat) (a : Assoc) : (putAssoc aid a d).map = d.map := rfl
@[simp] theorem putAssoc_sync (aid : Nat) (a : Assoc) : (putAssoc aid a d).sync = d.sync := rfl
@[simp] theorem putAssoc_peg (aid : Nat) (a : Assoc) : (putAssoc aid a d).peg = d.peg := rfl
@[simp] theorem putAssoc_rst (aid : Nat) (a : Assoc) : (putAssoc aid a d).rst = d.rst := rfl
@[simp] theorem putAssoc_pwr (aid : Nat) (a : Assoc) : (putAssoc aid a d).pwr = d.pwr := rfl
@[simp] theorem putAssoc_pins (aid : Nat) (a : Assoc) : (putAssoc aid a d).pins = d.pins := rfl
@[simp] theorem putAssoc_links (aid : Nat) (a : Assoc) : (putAssoc aid a d).links = d.links := rfl
@[simp] theorem putAssoc_fret (aid : Nat) (a : Assoc) : (putAssoc aid a d).fret = d.fret := rfl
@[simp] theorem putAssoc_mem (aid : Nat) (a : Assoc) : (putAssoc aid a d).mem = d.mem := rfl
@[simp] theorem putAssoc_poison (aid : Nat) (a : Assoc) : (putAssoc aid a d).poison = d.poison := rfl
@[simp] theorem putAssoc_loads (aid : Nat) (a : Assoc) : (putAssoc aid a d).loads = d.loads := rfl
@[simp] theorem putAssoc_tunes (aid : Nat) (a : Assoc) : (putAssoc aid a d).tunes = d.tunes := rfl
@[simp] theorem putAssoc_streams (aid : Nat) (a : Assoc) : (putAssoc aid a d).streams = d.streams := rfl
@[simp] theorem putAssoc_incarnation (aid : Nat) (a : Assoc) : (putAssoc aid a d).incarnation = d.incarnation := rfl
@[simp] theorem putAssoc_prefixes (aid : Nat) (a : Assoc) : (putAssoc aid a d).prefixes = d.prefixes := rfl
@[simp] theorem putAssoc_scheds (aid : Nat) (a : Assoc) : (putAssoc aid a d).scheds = d.scheds := rfl
@[simp] theorem putAssoc_kv (aid : Nat) (a : Assoc) : (putAssoc aid a d).kv = d.kv := rfl
@[simp] theorem putAssoc_cns (aid : Nat) (a : Assoc) : (putAssoc aid a d).cns = d.cns := rfl
@[simp] theorem putAssoc_tx (aid : Nat) (a : Assoc) : (putAssoc aid a d).tx = d.tx := rfl

@[simp] theorem modAssoc_time (aid : Nat) (f : Assoc → Assoc) : (modAssoc aid f d).time = d.time := rfl
@[simp] theorem modAssoc_timeRun (aid : Nat) (f : Assoc → Assoc) : (modAssoc aid f d).timeRun = d.timeRun := rfl
@[simp] theorem modAssoc_osc (aid : Nat) (f : Assoc → Assoc) : (modAssoc aid f d).osc = d.osc := rfl
@[simp] theorem modAssoc_free (aid : Nat) (f : Assoc → Assoc) : (modAssoc aid f d).free = d.free := rfl
@[simp] theorem modAssoc_regs (aid : Nat) (f : Assoc → Assoc) : (modAssoc aid f d).regs = d.regs := rfl
@[simp] theorem modAssoc_fuses (aid : Nat) (f : Assoc → Assoc) : (modAssoc aid f d).fuses = d.fuses := rfl
@[simp] theorem modAssoc_flash (aid : Nat) (f : Assoc → Assoc) : (modAssoc aid f d).flash = d.flash := rfl
@[simp] theorem modAssoc_eth (aid : Nat) (f : Assoc → Assoc) : (modAssoc aid f d).eth = d.eth := rfl
@[simp] theorem modAssoc_map (aid : Nat) (f : Assoc → Assoc) : (modAssoc aid f d).map = d.map := rfl
@[simp] theorem modAssoc_sync (aid : Nat) (f : Assoc → Assoc) : (modAssoc aid f d).sync = d.sync := rfl
@[simp] theorem modAssoc_peg (aid : Nat) (f : Assoc → Assoc) : (modAssoc aid f d).peg = d.peg := rfl
@[simp] theorem modAssoc_rst (aid : Nat) (f : Assoc → Assoc) : (modAssoc aid f d).rst = d.rst := rfl
@[simp] theorem modAssoc_pwr (aid : Nat) (f : Assoc → Assoc) : (modAssoc aid f d).pwr = d.pwr := rfl
@[simp] theorem modAssoc_pins (aid : Nat) (f : Assoc → Assoc) : (modAssoc aid f d).pins = d.pins := rfl
@[simp] theorem modAssoc_links (aid : Nat) (f : Assoc → Assoc) : (modAssoc aid f d).links = d.links := rfl
@[simp] theorem modAssoc_fret (aid : Nat) (f : Assoc → Assoc) : (modAssoc aid f d).fret = d.fret := rfl
@[simp] theorem modAssoc_mem (aid : Nat) (f : Assoc → Assoc) : (modAssoc aid f d).mem = d.mem := rfl
@[simp] theorem modAssoc_poison (aid : Nat) (f : Assoc → Assoc) : (modAssoc aid f d).poison = d.poison := rfl
@[simp] theorem modAssoc_loads (aid : Nat) (f : Assoc → Assoc) : (modAssoc aid f d).loads = d.loads := rfl
@[simp] theorem modAssoc_tunes (aid : Nat) (f : Assoc → Assoc) : (modAssoc aid f d).tunes = d.tunes := rfl
@[simp] theorem modAssoc_streams (aid : Nat) (f : Assoc → Assoc) : (modAssoc aid f d).streams = d.streams := rfl
@[simp] theorem modAssoc_incarnation (aid : Nat) (f : Assoc → Assoc) : (modAssoc aid f d).incarnation = d.incarnation := rfl
@[simp] theorem modAssoc_prefixes (aid : Nat) (f : Assoc → Assoc) : (modAssoc aid f d).prefixes = d.prefixes := rfl
@[simp] theorem modAssoc_scheds (aid : Nat) (f : Assoc → Assoc) : (modAssoc aid f d).scheds = d.scheds := rfl
@[simp] theorem modAssoc_kv (aid : Nat) (f : Assoc → Assoc) : (modAssoc aid f d).kv = d.kv := rfl
@[simp] theorem modAssoc_cns (aid : Nat) (f : Assoc → Assoc) : (modAssoc aid f d).cns = d.cns := rfl
@[simp] theorem modAssoc_tx (aid : Nat) (f : Assoc → Assoc) : (modAssoc aid f d).tx = d.tx := rfl

@[simp] theorem modSession_time (n : Word) (f : Session → Session) : (modSession n f d).time = d.time := rfl
@[simp] theorem modSession_timeRun (n : Word) (f : Session → Session) : (modSession n f d).timeRun = d.timeRun := rfl
@[simp] theorem modSession_osc (n : Word) (f : Session → Session) : (modSession n f d).osc = d.osc := rfl
@[simp] theorem modSession_free (n : Word) (f : Session → Session) : (modSession n f d).free = d.free := rfl
@[simp] theorem modSession_regs (n : Word) (f : Session → Session) : (modSession n f d).regs = d.regs := rfl
@[simp] theorem modSession_fuses (n : Word) (f : Session → Session) : (modSession n f d).fuses = d.fuses := rfl
@[simp] theorem modSession_flash (n : Word) (f : Session → Session) : (modSession n f d).flash = d.flash := rfl
@[simp] theorem modSession_eth (n : Word) (f : Session → Session) : (modSession n f d).eth = d.eth := rfl
@[simp] theorem modSession_map (n : Word) (f : Session → Session) : (modSession n f d).map = d.map := rfl
@[simp] theorem modSession_sync (n : Word) (f : Session → Session) : (modSession n f d).sync = d.sync := rfl
@[simp] theorem modSession_peg (n : Word) (f : Session → Session) : (modSession n f d).peg = d.peg := rfl
@[simp] theorem modSession_rst (n : Word) (f : Session → Session) : (modSession n f d).rst = d.rst := rfl
@[simp] theorem modSession_pwr (n : Word) (f : Session → Session) : (modSession n f d).pwr = d.pwr := rfl
@[simp] theorem modSession_pins (n : Word) (f : Session → Session) : (modSession n f d).pins = d.pins := rfl
@[simp] theorem modSession_links (n : Word) (f : Session → Session) : (modSession n f d).links = d.links := rfl
@[simp] theorem modSession_fret (n : Word) (f : Session → Session) : (modSession n f d).fret = d.fret := rfl
@[simp] theorem modSession_mem (n : Word) (f : Session → Session) : (modSession n f d).mem = d.mem := rfl
@[simp] theorem modSession_poison (n : Word) (f : Session → Session) : (modSession n f d).poison = d.poison := rfl
@[simp] theorem modSession_loads (n : Word) (f : Session → Session) : (modSession n f d).loads = d.loads := rfl
@[simp] theorem modSession_tunes (n : Word) (f : Session → Session) : (modSession n f d).tunes = d.tunes := rfl
@[simp] theorem modSession_streams (n : Word) (f : Session → Session) : (modSession n f d).streams = d.streams := rfl
@[simp] theorem modSession_incarnation (n : Word) (f : Session → Session) : (modSession n f d).incarnation = d.incarnation := rfl
@[simp] theorem modSession_prefixes (n : Word) (f : Session → Session) : (modSession n f d).prefixes = d.prefixes := rfl
@[simp] theorem modSession_scheds (n : Word) (f : Session → Session) : (modSession n f d).scheds = d.scheds := rfl
@[simp] theorem modSession_kv (n : Word) (f : Session → Session) : (modSession n f d).kv = d.kv := rfl
@[simp] theorem modSession_cns (n : Word) (f : Session → Session) : (modSession n f d).cns = d.cns := rfl
@[simp] theorem modSession_tx (n : Word) (f : Session → Session) : (modSession n f d).tx = d.tx := rfl

@[simp] theorem modCns_time (f : Cns → Cns) : (modCns f d).time = d.time := rfl
@[simp] theorem modCns_timeRun (f : Cns → Cns) : (modCns f d).timeRun = d.timeRun := rfl
@[simp] theorem modCns_osc (f : Cns → Cns) : (modCns f d).osc = d.osc := rfl
@[simp] theorem modCns_free (f : Cns → Cns) : (modCns f d).free = d.free := rfl
@[simp] theorem modCns_regs (f : Cns → Cns) : (modCns f d).regs = d.regs := rfl
@[simp] theorem modCns_fuses (f : Cns → Cns) : (modCns f d).fuses = d.fuses := rfl
@[simp] theorem modCns_flash (f : Cns → Cns) : (modCns f d).flash = d.flash := rfl
@[simp] theorem modCns_strand (f : Cns → Cns) : (modCns f d).strand = d.strand := rfl
@[simp] theorem modCns_eth (f : Cns → Cns) : (modCns f d).eth = d.eth := rfl
@[simp] theorem modCns_map (f : Cns → Cns) : (modCns f d).map = d.map := rfl
@[simp] theorem modCns_sync (f : Cns → Cns) : (modCns f d).sync = d.sync := rfl
@[simp] theorem modCns_peg (f : Cns → Cns) : (modCns f d).peg = d.peg := rfl
@[simp] theorem modCns_rst (f : Cns → Cns) : (modCns f d).rst = d.rst := rfl
@[simp] theorem modCns_pwr (f : Cns → Cns) : (modCns f d).pwr = d.pwr := rfl
@[simp] theorem modCns_pins (f : Cns → Cns) : (modCns f d).pins = d.pins := rfl
@[simp] theorem modCns_links (f : Cns → Cns) : (modCns f d).links = d.links := rfl
@[simp] theorem modCns_fret (f : Cns → Cns) : (modCns f d).fret = d.fret := rfl
@[simp] theorem modCns_mem (f : Cns → Cns) : (modCns f d).mem = d.mem := rfl
@[simp] theorem modCns_poison (f : Cns → Cns) : (modCns f d).poison = d.poison := rfl
@[simp] theorem modCns_loads (f : Cns → Cns) : (modCns f d).loads = d.loads := rfl
@[simp] theorem modCns_tunes (f : Cns → Cns) : (modCns f d).tunes = d.tunes := rfl
@[simp] theorem modCns_streams (f : Cns → Cns) : (modCns f d).streams = d.streams := rfl
@[simp] theorem modCns_incarnation (f : Cns → Cns) : (modCns f d).incarnation = d.incarnation := rfl
@[simp] theorem modCns_prefixes (f : Cns → Cns) : (modCns f d).prefixes = d.prefixes := rfl
@[simp] theorem modCns_scheds (f : Cns → Cns) : (modCns f d).scheds = d.scheds := rfl
@[simp] theorem modCns_kv (f : Cns → Cns) : (modCns f d).kv = d.kv := rfl
@[simp] theorem modCns_tx (f : Cns → Cns) : (modCns f d).tx = d.tx := rfl

@[simp] theorem modWindow_time (n : Nat) (f : Window → Window) : (modWindow n f d).time = d.time := rfl
@[simp] theorem modWindow_timeRun (n : Nat) (f : Window → Window) : (modWindow n f d).timeRun = d.timeRun := rfl
@[simp] theorem modWindow_osc (n : Nat) (f : Window → Window) : (modWindow n f d).osc = d.osc := rfl
@[simp] theorem modWindow_free (n : Nat) (f : Window → Window) : (modWindow n f d).free = d.free := rfl
@[simp] theorem modWindow_regs (n : Nat) (f : Window → Window) : (modWindow n f d).regs = d.regs := rfl
@[simp] theorem modWindow_fuses (n : Nat) (f : Window → Window) : (modWindow n f d).fuses = d.fuses := rfl
@[simp] theorem modWindow_flash (n : Nat) (f : Window → Window) : (modWindow n f d).flash = d.flash := rfl
@[simp] theorem modWindow_strand (n : Nat) (f : Window → Window) : (modWindow n f d).strand = d.strand := rfl
@[simp] theorem modWindow_eth (n : Nat) (f : Window → Window) : (modWindow n f d).eth = d.eth := rfl
@[simp] theorem modWindow_map (n : Nat) (f : Window → Window) : (modWindow n f d).map = d.map := rfl
@[simp] theorem modWindow_sync (n : Nat) (f : Window → Window) : (modWindow n f d).sync = d.sync := rfl
@[simp] theorem modWindow_peg (n : Nat) (f : Window → Window) : (modWindow n f d).peg = d.peg := rfl
@[simp] theorem modWindow_rst (n : Nat) (f : Window → Window) : (modWindow n f d).rst = d.rst := rfl
@[simp] theorem modWindow_pwr (n : Nat) (f : Window → Window) : (modWindow n f d).pwr = d.pwr := rfl
@[simp] theorem modWindow_pins (n : Nat) (f : Window → Window) : (modWindow n f d).pins = d.pins := rfl
@[simp] theorem modWindow_links (n : Nat) (f : Window → Window) : (modWindow n f d).links = d.links := rfl
@[simp] theorem modWindow_fret (n : Nat) (f : Window → Window) : (modWindow n f d).fret = d.fret := rfl
@[simp] theorem modWindow_mem (n : Nat) (f : Window → Window) : (modWindow n f d).mem = d.mem := rfl
@[simp] theorem modWindow_poison (n : Nat) (f : Window → Window) : (modWindow n f d).poison = d.poison := rfl
@[simp] theorem modWindow_tunes (n : Nat) (f : Window → Window) : (modWindow n f d).tunes = d.tunes := rfl
@[simp] theorem modWindow_streams (n : Nat) (f : Window → Window) : (modWindow n f d).streams = d.streams := rfl
@[simp] theorem modWindow_incarnation (n : Nat) (f : Window → Window) : (modWindow n f d).incarnation = d.incarnation := rfl
@[simp] theorem modWindow_prefixes (n : Nat) (f : Window → Window) : (modWindow n f d).prefixes = d.prefixes := rfl
@[simp] theorem modWindow_scheds (n : Nat) (f : Window → Window) : (modWindow n f d).scheds = d.scheds := rfl
@[simp] theorem modWindow_kv (n : Nat) (f : Window → Window) : (modWindow n f d).kv = d.kv := rfl
@[simp] theorem modWindow_cns (n : Nat) (f : Window → Window) : (modWindow n f d).cns = d.cns := rfl
@[simp] theorem modWindow_tx (n : Nat) (f : Window → Window) : (modWindow n f d).tx = d.tx := rfl

@[simp] theorem addSub_time (x : SubReset) : (addSub x d).time = d.time := rfl
@[simp] theorem addSub_timeRun (x : SubReset) : (addSub x d).timeRun = d.timeRun := rfl
@[simp] theorem addSub_osc (x : SubReset) : (addSub x d).osc = d.osc := rfl
@[simp] theorem addSub_free (x : SubReset) : (addSub x d).free = d.free := rfl
@[simp] theorem addSub_regs (x : SubReset) : (addSub x d).regs = d.regs := rfl
@[simp] theorem addSub_fuses (x : SubReset) : (addSub x d).fuses = d.fuses := rfl
@[simp] theorem addSub_flash (x : SubReset) : (addSub x d).flash = d.flash := rfl
@[simp] theorem addSub_strand (x : SubReset) : (addSub x d).strand = d.strand := rfl
@[simp] theorem addSub_eth (x : SubReset) : (addSub x d).eth = d.eth := rfl
@[simp] theorem addSub_map (x : SubReset) : (addSub x d).map = d.map := rfl
@[simp] theorem addSub_sync (x : SubReset) : (addSub x d).sync = d.sync := rfl
@[simp] theorem addSub_peg (x : SubReset) : (addSub x d).peg = d.peg := rfl
@[simp] theorem addSub_pwr (x : SubReset) : (addSub x d).pwr = d.pwr := rfl
@[simp] theorem addSub_pins (x : SubReset) : (addSub x d).pins = d.pins := rfl
@[simp] theorem addSub_links (x : SubReset) : (addSub x d).links = d.links := rfl
@[simp] theorem addSub_fret (x : SubReset) : (addSub x d).fret = d.fret := rfl
@[simp] theorem addSub_mem (x : SubReset) : (addSub x d).mem = d.mem := rfl
@[simp] theorem addSub_poison (x : SubReset) : (addSub x d).poison = d.poison := rfl
@[simp] theorem addSub_loads (x : SubReset) : (addSub x d).loads = d.loads := rfl
@[simp] theorem addSub_tunes (x : SubReset) : (addSub x d).tunes = d.tunes := rfl
@[simp] theorem addSub_streams (x : SubReset) : (addSub x d).streams = d.streams := rfl
@[simp] theorem addSub_incarnation (x : SubReset) : (addSub x d).incarnation = d.incarnation := rfl
@[simp] theorem addSub_prefixes (x : SubReset) : (addSub x d).prefixes = d.prefixes := rfl
@[simp] theorem addSub_scheds (x : SubReset) : (addSub x d).scheds = d.scheds := rfl
@[simp] theorem addSub_kv (x : SubReset) : (addSub x d).kv = d.kv := rfl
@[simp] theorem addSub_cns (x : SubReset) : (addSub x d).cns = d.cns := rfl
@[simp] theorem addSub_tx (x : SubReset) : (addSub x d).tx = d.tx := rfl

@[simp] theorem dropWaits_time (f : Wait → Bool) : (dropWaits f d).time = d.time := rfl
@[simp] theorem dropWaits_timeRun (f : Wait → Bool) : (dropWaits f d).timeRun = d.timeRun := rfl
@[simp] theorem dropWaits_osc (f : Wait → Bool) : (dropWaits f d).osc = d.osc := rfl
@[simp] theorem dropWaits_free (f : Wait → Bool) : (dropWaits f d).free = d.free := rfl
@[simp] theorem dropWaits_regs (f : Wait → Bool) : (dropWaits f d).regs = d.regs := rfl
@[simp] theorem dropWaits_fuses (f : Wait → Bool) : (dropWaits f d).fuses = d.fuses := rfl
@[simp] theorem dropWaits_flash (f : Wait → Bool) : (dropWaits f d).flash = d.flash := rfl
@[simp] theorem dropWaits_strand (f : Wait → Bool) : (dropWaits f d).strand = d.strand := rfl
@[simp] theorem dropWaits_eth (f : Wait → Bool) : (dropWaits f d).eth = d.eth := rfl
@[simp] theorem dropWaits_map (f : Wait → Bool) : (dropWaits f d).map = d.map := rfl
@[simp] theorem dropWaits_peg (f : Wait → Bool) : (dropWaits f d).peg = d.peg := rfl
@[simp] theorem dropWaits_rst (f : Wait → Bool) : (dropWaits f d).rst = d.rst := rfl
@[simp] theorem dropWaits_pwr (f : Wait → Bool) : (dropWaits f d).pwr = d.pwr := rfl
@[simp] theorem dropWaits_pins (f : Wait → Bool) : (dropWaits f d).pins = d.pins := rfl
@[simp] theorem dropWaits_links (f : Wait → Bool) : (dropWaits f d).links = d.links := rfl
@[simp] theorem dropWaits_fret (f : Wait → Bool) : (dropWaits f d).fret = d.fret := rfl
@[simp] theorem dropWaits_mem (f : Wait → Bool) : (dropWaits f d).mem = d.mem := rfl
@[simp] theorem dropWaits_poison (f : Wait → Bool) : (dropWaits f d).poison = d.poison := rfl
@[simp] theorem dropWaits_loads (f : Wait → Bool) : (dropWaits f d).loads = d.loads := rfl
@[simp] theorem dropWaits_tunes (f : Wait → Bool) : (dropWaits f d).tunes = d.tunes := rfl
@[simp] theorem dropWaits_streams (f : Wait → Bool) : (dropWaits f d).streams = d.streams := rfl
@[simp] theorem dropWaits_incarnation (f : Wait → Bool) : (dropWaits f d).incarnation = d.incarnation := rfl
@[simp] theorem dropWaits_prefixes (f : Wait → Bool) : (dropWaits f d).prefixes = d.prefixes := rfl
@[simp] theorem dropWaits_scheds (f : Wait → Bool) : (dropWaits f d).scheds = d.scheds := rfl
@[simp] theorem dropWaits_kv (f : Wait → Bool) : (dropWaits f d).kv = d.kv := rfl
@[simp] theorem dropWaits_cns (f : Wait → Bool) : (dropWaits f d).cns = d.cns := rfl
@[simp] theorem dropWaits_tx (f : Wait → Bool) : (dropWaits f d).tx = d.tx := rfl

@[simp] theorem putRetMap_time (l : List Nat) : (putRetMap l d).time = d.time := rfl
@[simp] theorem putRetMap_timeRun (l : List Nat) : (putRetMap l d).timeRun = d.timeRun := rfl
@[simp] theorem putRetMap_osc (l : List Nat) : (putRetMap l d).osc = d.osc := rfl
@[simp] theorem putRetMap_free (l : List Nat) : (putRetMap l d).free = d.free := rfl
@[simp] theorem putRetMap_regs (l : List Nat) : (putRetMap l d).regs = d.regs := rfl
@[simp] theorem putRetMap_fuses (l : List Nat) : (putRetMap l d).fuses = d.fuses := rfl
@[simp] theorem putRetMap_strand (l : List Nat) : (putRetMap l d).strand = d.strand := rfl
@[simp] theorem putRetMap_eth (l : List Nat) : (putRetMap l d).eth = d.eth := rfl
@[simp] theorem putRetMap_map (l : List Nat) : (putRetMap l d).map = d.map := rfl
@[simp] theorem putRetMap_sync (l : List Nat) : (putRetMap l d).sync = d.sync := rfl
@[simp] theorem putRetMap_peg (l : List Nat) : (putRetMap l d).peg = d.peg := rfl
@[simp] theorem putRetMap_rst (l : List Nat) : (putRetMap l d).rst = d.rst := rfl
@[simp] theorem putRetMap_pwr (l : List Nat) : (putRetMap l d).pwr = d.pwr := rfl
@[simp] theorem putRetMap_pins (l : List Nat) : (putRetMap l d).pins = d.pins := rfl
@[simp] theorem putRetMap_links (l : List Nat) : (putRetMap l d).links = d.links := rfl
@[simp] theorem putRetMap_fret (l : List Nat) : (putRetMap l d).fret = d.fret := rfl
@[simp] theorem putRetMap_mem (l : List Nat) : (putRetMap l d).mem = d.mem := rfl
@[simp] theorem putRetMap_poison (l : List Nat) : (putRetMap l d).poison = d.poison := rfl
@[simp] theorem putRetMap_loads (l : List Nat) : (putRetMap l d).loads = d.loads := rfl
@[simp] theorem putRetMap_tunes (l : List Nat) : (putRetMap l d).tunes = d.tunes := rfl
@[simp] theorem putRetMap_streams (l : List Nat) : (putRetMap l d).streams = d.streams := rfl
@[simp] theorem putRetMap_incarnation (l : List Nat) : (putRetMap l d).incarnation = d.incarnation := rfl
@[simp] theorem putRetMap_prefixes (l : List Nat) : (putRetMap l d).prefixes = d.prefixes := rfl
@[simp] theorem putRetMap_scheds (l : List Nat) : (putRetMap l d).scheds = d.scheds := rfl
@[simp] theorem putRetMap_kv (l : List Nat) : (putRetMap l d).kv = d.kv := rfl
@[simp] theorem putRetMap_cns (l : List Nat) : (putRetMap l d).cns = d.cns := rfl
@[simp] theorem putRetMap_tx (l : List Nat) : (putRetMap l d).tx = d.tx := rfl

/-! ### Reading back -/

@[simp] theorem regGet_regPut_same (a : Nat) (v : Word) : regGet a (regPut a v d) = v := mgetD_mputD_self ..
theorem regGet_regPut_other {a b : Nat} (v : Word) (h : a ≠ b) : regGet a (regPut b v d) = regGet a d := by
  unfold regGet regPut; exact mgetD_mputD_ne _ _ _ _ h

@[simp] theorem tileAt_putTile_same (f c t : Nat) (x : Tile) : tileAt f c t (putTile f c t x d) = x := mgetD_mputD_self ..
@[simp] theorem courseAt_putTile (f c f' c' t : Nat) (x : Tile) : courseAt f c (putTile f' c' t x d) = courseAt f c d := rfl
@[simp] theorem courseAt_putCourse_same (f c : Nat) (x : Course) : courseAt f c (putCourse f c x d) = x := mgetD_mputD_self ..
@[simp] theorem tileAt_putCourse (f c t f' c' : Nat) (x : Course) : tileAt f c t (putCourse f' c' x d) = tileAt f c t d := rfl
@[simp] theorem dieAt_modDie_same (x : Nat) (g : Die → Die) : dieAt x (modDie x g d) = g (dieAt x d) := mgetD_mputD_self ..
@[simp] theorem slotAt_putSlot_same (f c s : Nat) (x : Slot) : slotAt f c s (putSlot f c s x d) = x := by
  unfold slotAt putSlot modCourse; rw [courseAt_putCourse_same]; exact mgetD_mputD_self ..
@[simp] theorem schedAt_modSched_same (p : Nat) (f : Sched → Sched) : schedAt p (modSched p f d) = f (schedAt p d) := mgetD_mputD_self ..
@[simp] theorem chanAt_putChan_same (ch : Nat) (c : Chan) : chanAt ch (putChan ch c d) = c := mgetD_mputD_self ..
@[simp] theorem linkAt_putLink_same (l : Nat) (k : Link) : linkAt l (putLink l k d) = k := mgetD_mputD_self ..
@[simp] theorem assocAt_putAssoc_same (aid : Nat) (a : Assoc) : assocAt aid (putAssoc aid a d) = some a := mget?_mput_self ..
theorem assocAt_putAssoc_other {aid b : Nat} (a : Assoc) (h : b ≠ aid) : assocAt b (putAssoc aid a d) = assocAt b d := mget?_mput_ne _ _ h

/-- The retirement map written is the map in force. -/
@[simp] theorem retMap_putRetMap (l : List Nat) : retMap (putRetMap l d) = l := by
  simp only [retMap, putRetMap, twoCopyGet, twoCopyPut]
  split <;> simp_all <;> omega

end Sys2Proof.Machine
end

