-- ==== Sys2Proof/Tests/Slice0.lean ====
section
/-! SUPPORT. Own tests: a command that WellFormed refuses for each of its checks, and, for every statement with hypotheses, states and
operands that meet them, at the edges of their ranges. -/

namespace Sys2Proof.Tests
open Sys2Proof.Machine
set_option Elab.async false

def lay (l : List (Nat × List Byte)) : List Byte := l.foldl (fun b e => padTo e.1 b ++ e.2) []
def st (d : Dev) : State := ⟨d, []⟩

/-- A RESOURCE record: enabled, every Bridge and course, 64 streams, 16 sync objects, 4 adapters, 16 prefixes, 8 queue pairs and 2 GiB of
HBM a Bridge. -/
def res0 : List Byte :=
  lay [(0, [1#8, 1#8, 8#8]), (4, leBytes 2 0xFFF), (8, List.replicate 24 0xFF#8), (0x20, leBytes 4 0 ++ leBytes 4 64),
       (0x28, leBytes 2 0 ++ leBytes 2 16 ++ leBytes 2 0 ++ leBytes 2 4), (0x30, leBytes 4 0 ++ leBytes 4 16),
       (0x38, leBytes 2 0 ++ leBytes 2 8), (0x40, (List.range 12).flatMap fun _ => leBytes 4 0 ++ leBytes 4 1024)]

/-- A NET record: 10.0.0.1 and an IPv6 address; the host ::1 is bound. -/
def net0 : List Byte :=
  lay [(2, leBytes 2 3), (4, leBytes 4 0x0A000001), (0x10, List.replicate 16 0x20#8), (0x40, List.replicate 15 0#8 ++ [1#8, 128#8])]

/-- A part in service: partition 0 enabled, the port up, time running. -/
def up : Dev :=
  { resetDev with
    time := 500000000000#64, timeRun := true, osc := 5000000000,
    rst := { resetRst with phase := .idle, lines := [] },
    pins := { resetPinsState with trstN := true, padHold := false, pwrOk := true },
    eth := { resetEthState with module := true, lanes := 0xFF#8, fec := true, up := true },
    peg := { resetPegState with fwOk := true, patOk := true },
    map := { resetDev.map with cur := [(0, res0), (1, net0)] } }

def member (serial qp part sync : Nat) : List Byte :=
  padTo 48 (lay [(0, leBytes 8 serial), (0x18, leBytes 2 qp ++ [BitVec.ofNat 8 part, 0#8] ++ leBytes 2 sync)])

/-- A consort of two members, member 0 the master, with one port from member 1 to member 0 and 4 shared objects. -/
def consortRec (self tsrc mode : Nat) : List Byte :=
  padTo 1024 (lay [(0, leBytes 4 7 ++ leBytes 4 1 ++ [2#8, 0#8, BitVec.ofNat 8 self, BitVec.ofNat 8 tsrc, BitVec.ofNat 8 mode, 1#8]
                 ++ leBytes 2 4), (0x10, member 0 2 0 8 ++ member 5 2 0 8), (0x310, [1#8, 0#8, 0#8, 0#8, 4#8, 0#8])])
def inCns (self tsrc mode state : Nat) : Dev := { up with cns := { resetCns with cur := consortRec self tsrc mode, state := state } }

/-- An image in force: its sections as (type, record size, records). -/
def image (l : List (Nat × Nat × List (List Byte))) : List Byte :=
  padTo 64 (lay [(0x0A, leBytes 2 l.length)])
    ++ l.flatMap fun e => leBytes 2 e.1 ++ leBytes 2 e.2.1 ++ leBytes 4 e.2.2.length ++ (e.2.2.flatMap fun r => padTo e.2.1 r)
def withImage (l : List (Nat × Nat × List (List Byte))) (d : Dev) : Dev := putTune 0 { emptyTune with image := image l } d

def win0 : Window :=
  { num := 0, part := 0, model := 0, adapter := none, rank := 0, state := 2, epoch := 1#32, layout := 1#32, retireAfter := 0, drain := false,
    counts := [1], place := [[0]], written := [], partialEnd := [], last := up.time, reply := none }
def withWin (w : Window) : Dev := { up with loads := { up.loads with windows := [w] } }

def noBytes : List Byte := List.replicate 256 0#8
theorem ne_succ (x : BitVec 40) : x ≠ x + 1#40 := by intro h; have := congrArg BitVec.toNat h; simp [BitVec.toNat_add] at this; omega
def linkUp (l state failed : Nat) (d : Dev) : Dev := putLink l { state := state, failed := failed } d

def batch0 : Batch := { id := 0, model := 0, epoch := 1#32, vecs := [], begun := false }

def sub (sc : Scope) (die t0 : Nat) : SubReset := { scope := sc, part := 0, stage := 3, die := die, source := 12, t0 := t0 }
def inSub (x : SubReset) : State := st { up with rst := { up.rst with subs := [x] } }

/-- The smallest firmware image: 832 bytes, COMMIT_SVN, SVN 2, code address 0. -/
def fwBytes : List Byte :=
  padTo 832 (lay [(0, leBytes 4 0x47460001 ++ [1#8, 0#8, 0#8, 1#8] ++ leBytes 4 2 ++ leBytes 4 832), (0x100, leBytes 4 0x47430001),
                  (0x10C, leBytes 4 1), (688, leBytes 4 0x474600FF ++ leBytes 4 132)])
def updating (f : Update → Update) : Dev := { up with peg := { up.peg with update := f up.peg.update } }
def noKey : List Byte := List.replicate 64 0#8
def sess0 : Session :=
  { num := 5#32, aid := 0, keeper := true, part := 255, ident := 9#32, khd := noKey, kdh := noKey, last := up.time, sel := [], cap := [],
    keybuf := [] }

/-- An image that passes every check of R456: a Bridge stage and a Pick stage of one model on Bridge 0. -/
def goodSecs : List (Nat × Nat × List (List Byte)) :=
  [(1, 16, [leBytes 4 1 ++ leBytes 4 9]), (2, 16, [[0#8, 0#8, 0xFF#8, 0#8] ++ leBytes 4 1 ++ leBytes 4 4 ++ [1#8]]),
   (3, 24, [[0#8, 1#8, 0#8, 0#8, 0#8, 4#8, 0#8, 0#8, 0#8, 0#8, 1#8, 0#8, 1#8, 0#8, 0#8, 0#8, 1#8, 0#8],
            [1#8, 3#8, 0#8, 0#8, 0#8, 0#8, 0#8, 0#8, 0#8, 0#8, 1#8, 0#8, 1#8, 0#8]]),
   (8, 4, [[0#8, 0#8, 0#8, 0#8], [1#8, 0#8, 1#8, 0#8]]), (9, 12, [[0#8, 1#8, 0#8, 0#8, 0#8, 0#8, 1#8, 0#8, 0#8, 0#8, 0#8, 0#8]]),
   (12, 32, [[1#8, 0#8, 0#8, 0#8, 0#8, 0#8, 0#8, 0#8] ++ leBytes 8 0 ++ leBytes 8 0x200000,
             [7#8, 0#8, 0#8, 0#8, 0#8, 0#8, 0#8, 0#8] ++ leBytes 8 0x200000 ++ leBytes 8 0x2000000])]
def goodImage : List Byte :=
  let body := (image goodSecs).drop 64
  let n := 64 + body.length + 144
  padTo n (padTo 64 (lay [(0, leBytes 4 0x47540001 ++ leBytes 2 1), (0x0A, leBytes 2 6 ++ leBytes 4 n ++ leBytes 8 1), (0x20, leBytes 4 7),
    (0x28, leBytes 2 100)]) ++ body ++ leBytes 4 0x475400FF ++ leBytes 2 132)
/-- A point of the curve P-521 (its generator), uncompressed. -/
def pub0 : List Byte := ecBytes (p521x, p521y)
/-- A signature under the private key 1 with the nonce 1. -/
def signG (msg : List Byte) : List Byte :=
  bigBytes 66 (p521x % p521n) ++ bigBytes 66 ((bigNat (sha512 msg) + p521x) % p521n)
/-- The same image signed. -/
def signedImage : List Byte := let t := goodImage.length - 144; goodImage.take (t + 8) ++ signG (goodImage.take t) ++ [0#8, 0#8, 0#8, 0#8]
def tuneKeys : SMap KeyEntry := [(0, { keyid := 7#32, usage := 3#8, part := 0xFF#8, state := 1#8, pub := pub0 })]
def loading (img : List Byte) (state : Nat) (from_ : DWord) : Dev :=
  putTune 0 { emptyTune with load := some { bytes := img, state := state, from_ := from_ } } { up with peg := { up.peg with keys := tuneKeys } }

def ep0 : Epoch :=
  { part := 0, model := 0, num := 1#32, layout := 1#32, retiring := false, retireBy := none, retiredBy := none, place := [], index := [],
    farShards := 0, farVa := 0#64 }
def dg (ttype flags : Byte) (dest : Nat) (seq stream session : Word) (payload : List Byte) : Dgram :=
  { src := 1#128, sport := 7#16, dest := dest, ce := false, cycle := 0,
    hdr := { version := 0x01#8, ttype := ttype, part := BitVec.ofNat 8 (if dest < 32 then dest else 255), flags := flags, seq := seq,
             ack := 0#32, length := BitVec.ofNat 16 payload.length, rsv0 := 0#16, stream := stream, credit := 64#32, session := session,
             rsv1 := 0#32 },
    payload := payload, tag := [] }
def samp0 : Sampling :=
  { temp := 0#32, topK := 0, topP := 0x3F800000#32, minP := 0#32, repPen := 0x3F800000#32, freqPen := 0#32, presPen := 0#32,
    penPrompt := false, bias := [], stopTok := [], stopSeq := [], mask := 0 }
/-- Stream 3 of partition 0, in DECODE. -/
def str0 : Stream :=
  { handle := 0x40003#32, state := 3, part := 0, prio := 1, model := 0, keep := false, more := false, hostp := false, schedp := false,
    home := 0, epoch := 1#32, adapter := 0xFFFF, adpgen := 0, nextpos := 1, avail := 2, turnLeft := 10, draftMax := 0, draft := 0xFF,
    turn := true, moving := false, heldKv := false, heldTok := false, atRisk := false, rejrun := 0, endr := 0, seed := 1#64,
    limit := BitVec.allOnes 64, target := 0#32, emitted := 0, admitT := 0#32, host := 1#128, port := 7#16, maxlen := 64, mode := 0,
    prefixLen := 0, rowsFmt := none, samp := samp0, start := 0, pflags := [], toks := [(0, 1, false), (1, 2, false)], rows := [],
      dataBuf := [], maskBuf := [],
    hist := [], flags := 0, recs := 0, turnBegan := up.time, turnEmitted := false, stepEnd := none, stepGap := 0, stepToks := 0,
    heldFrom := none, steps := [], drafts := [], draftDone := false, rolled := none, lastBatch := 0, park := none, unpark := false,
    finalAcked := false, stop := 0, outq := [] }
def withStr (x : Stream) (d : Dev) : Dev := { d with streams := [(3, x)] }
def admit0 : List Byte := padTo 0x58 []

def as0 : Assoc :=
  { host := 1#128, port := 7#16, dest := 0, lastSeq := 0#32, mySeq := 4#32, limit := 200#32, used := 0#32, busy := 0, hostLimit := 100#32,
    myUsed := 0#32, unacked := [], queued := [], rto := us 50, rtoFrom := 0#64, accepted := none, subscribe := true, ece := false,
    openDue := false, lost := false, closing := false }
def assocs (l : List Assoc) (d : Dev) : Dev :=
  { d with strand := { d.strand with assocs := l.zipIdx.map fun e => (e.2, e.1), nextAid := l.length } }
def sent0 : Sent :=
  { hdr := (dg 0x10#8 0#8 0 4#32 0x40003#32 0#32 []).hdr, payload := [], key := [], first := up.time - 100000000#64, late := false }

theorem takes_of {m : Dgram} {aid : Nat} {d : Dev} (a : Assoc)
    (h : d.eth.up = true ∧ dropped m d = none ∧ headerOnly m = false ∧ findAssoc m.src m.sport (destOf m) d = some (aid, a)
      ∧ assocAt aid d = some a ∧ a.lost = false ∧ m.hdr.seq = a.lastSeq + 1#32
      ∧ (msgCost m.hdr.ttype.toNat m.payload.length = 0
          ∨ seqGe a.limit (a.used + w32 (msgCost m.hdr.ttype.toNat m.payload.length)) = true)
      ∧ mustWait m (accepted aid m d) = false ∧ inRom (heardOn aid m d) = false) : Takes m aid d :=
  ⟨⟨h.1, h.2.1, h.2.2.1, a, h.2.2.2.1, h.2.2.2.2.1, h.2.2.2.2.2.1, h.2.2.2.2.2.2.1, h.2.2.2.2.2.2.2.1⟩, h.2.2.2.2.2.2.2.2.1,
   h.2.2.2.2.2.2.2.2.2⟩

theorem takesWork_of {m : Dgram} {aid : Nat} {d : Dev} (t : Takes m aid d) (h : m.dest < 32 ∧ (heardOn aid m d).rst.withdrawn = false) :
    TakesWork m aid d := ⟨t, h.1, h.2⟩

/-- The same for the association and the partition of most witnesses, decided at once. -/
theorem works {m : Dgram} {aid : Nat} {d : Dev}
    (h : (d.eth.up = true ∧ dropped m d = none ∧ headerOnly m = false ∧ findAssoc m.src m.sport (destOf m) d = some (aid, as0)
      ∧ assocAt aid d = some as0 ∧ as0.lost = false ∧ m.hdr.seq = as0.lastSeq + 1#32
      ∧ (msgCost m.hdr.ttype.toNat m.payload.length = 0
          ∨ seqGe as0.limit (as0.used + w32 (msgCost m.hdr.ttype.toNat m.payload.length)) = true)
      ∧ mustWait m (accepted aid m d) = false ∧ inRom (heardOn aid m d) = false)
      ∧ m.dest < 32 ∧ (heardOn aid m d).rst.withdrawn = false) : TakesWork m aid d := takesWork_of (takes_of as0 h.1) h.2

theorem managed_of {m : Dgram} {aid : Nat} {x : Session} {d : Dev} (t : Takes m aid d)
    (h : hasFlag m.hdr fAUTH = true
      ∧ (heardOn aid m d).strand.sessions.find? (fun s => s.num == m.hdr.session && s.aid == aid) = some x
      ∧ inProgress x (heardOn aid m d) < 4) (g : m.tag = macTag x.khd m.hdr m.payload) : Managed m aid x d :=
  ⟨t, h.1, h.2.1, g, h.2.2⟩

theorem mayWrite_of {m : Dgram} {aid : Nat} {x : Session} {a : Nat} {v : Word} {d : Dev} (t : Managed m aid x d)
    (h : addrCheck (commander aid m x d) a (some v) (commandOn aid m x d) = 0
      ∧ accessWaits (commander aid m x d) [(a, some v)] (commandOn aid m x d) = false) : MayWrite m aid x a v d := ⟨t, h.1, h.2⟩

theorem mayRead_of {m : Dgram} {aid : Nat} {x : Session} {a : Nat} {d : Dev} (t : Managed m aid x d)
    (h : addrCheck (commander aid m x d) a none (commandOn aid m x d) = 0
      ∧ accessWaits (commander aid m x d) [(a, none)] (commandOn aid m x d) = false) : MayRead m aid x a d := ⟨t, h.1, h.2⟩

/-- The image of a small service, with areas of 64 MiB for weights and for adapters, of 2 MiB for parked pages, and the masks. -/
def servSecs : List (Nat × Nat × List (List Byte)) :=
  goodSecs.take 5 ++ [(12, 32, [padTo 8 [1#8] ++ leBytes 8 0 ++ leBytes 8 0x4000000, padTo 8 [2#8] ++ leBytes 8 0x4000000 ++ leBytes 8 0x4000000,
    padTo 8 [4#8] ++ leBytes 8 0x8000000 ++ leBytes 8 0x200000, padTo 8 [7#8] ++ leBytes 8 0x8200000 ++ leBytes 8 0x2000000])]
def serve0 : Dev := assocs [as0] (withImage servSecs { up with loads := { up.loads with epochs := [ep0] } })
/-- ADMIT of model 0 with one token, 64 positions, ten tokens to come and SEED 1. -/
def admit1 : List Byte :=
  lay [(0, []), (4, leBytes 4 64), (0x0C, leBytes 4 0xFFFFFFFF ++ leBytes 2 0xFFFF), (0x14, leBytes 4 10 ++ leBytes 8 1), (0x2E, leBytes 2 0xFFFF),
       (0x34, leBytes 4 0x3F800000), (0x3C, leBytes 4 0x3F800000), (0x4C, leBytes 4 4), (0x58, leBytes 4 1)]
def append1 : List Byte := lay [(0, [1#8]), (0x10, leBytes 4 4), (0x18, leBytes 4 2)]
def noStreams : List Byte := res0.take 0x24 ++ leBytes 4 0 ++ res0.drop 0x28
def gen0 : AdpGen := { slot := 0, gen := 1, part := 0, model := 0, layout := 1#32, rank := 1, retiring := false, place := [] }
def pfx0 : Prefix :=
  { part := 0, model := 0, bridge := 0, epoch := 1#32, adapter := 0xFFFF, adpgen := 0, len := 1, prefixLen := 0, frames := [],
    draftFrames := [], toks := [] }
def reg0 : Region :=
  { part := 0, base := 0, rsize := 1, maxlen := 64, len := 1, mode := 0, model := 0, prefixLen := 0, rows := 0, shared := 0 }
def onKv (f : KvBridge → KvBridge) (d : Dev) : Dev := { d with kv := [(0, f (kvAt 0 d))] }
def keeperKey : KeyEntry := { keyid := 9#32, usage := 1#8, part := 0xFF#8, state := 1#8, pub := pub0 }

def as1 : Assoc := { as0 with dest := 255 }
theorem managed {m : Dgram} {aid : Nat} {x : Session} {d : Dev}
    (h : (d.eth.up = true ∧ dropped m d = none ∧ headerOnly m = false ∧ findAssoc m.src m.sport (destOf m) d = some (aid, as1)
      ∧ assocAt aid d = some as1 ∧ as1.lost = false ∧ m.hdr.seq = as1.lastSeq + 1#32
      ∧ (msgCost m.hdr.ttype.toNat m.payload.length = 0
          ∨ seqGe as1.limit (as1.used + w32 (msgCost m.hdr.ttype.toNat m.payload.length)) = true)
      ∧ mustWait m (accepted aid m d) = false ∧ inRom (heardOn aid m d) = false)
      ∧ hasFlag m.hdr fAUTH = true
      ∧ (heardOn aid m d).strand.sessions.find? (fun s => s.num == m.hdr.session && s.aid == aid) = some x
      ∧ inProgress x (heardOn aid m d) < 4) (g : m.tag = macTag x.khd m.hdr m.payload) : Managed m aid x d :=
  managed_of (takes_of as1 h.1) h.2 g
def keyed (l : List Session) (d : Dev) : Dev :=
  { assocs [as1] d with peg := { d.peg with keys := [(0, keeperKey)] }, strand := { (assocs [as1] d).strand with sessions := l } }
/-- A datagram whose tag is the session's, once the row has given it its form `f`. -/
def signedBy (key : List Byte) (f : Dgram → Dgram) (m : Dgram) : Dgram := { m with tag := macTag key (f m).hdr (f m).payload }
/-- A datagram so signed is found signed, without a hash evaluated. -/
theorem signed_tag {f : Dgram → Dgram} {key : List Byte} {m : Dgram} (hf : ∀ m t, f { m with tag := t } = { f m with tag := t })
    (hl : (f m).hdr.length.toNat = (f m).payload.length) :
    let s := splitDgram (f (signedBy key f m)); s.tag = macTag key s.hdr s.payload := by
  have e : f (signedBy key f m) = { f m with tag := macTag key (f m).hdr (f m).payload } := hf _ _
  simp only [e, splitDgram, hl, List.take_left, List.drop_left]
def mg (ttype : Byte) (payload : List Byte) : Dgram := dg ttype fAUTH 32 1#32 0#32 5#32 payload

def sessP : Session := { sess0 with keeper := false, part := 0 }
/-- The state in which session `x` is open and `d` stands otherwise; a signed write or read of one register. -/
def kept (d : Dev) : State := st (keyed [sess0] d)
def wr (a v : Nat) : Dgram := signedBy noKey (writeOne a v) (mg 0x31#8 [])
def rd (a : Nat) : Dgram := signedBy noKey (readOne a) (mg 0x30#8 [])
theorem wr_tag {a v : Nat} (hl : (writeOne a v (mg 0x31#8 [])).hdr.length.toNat = (writeOne a v (mg 0x31#8 [])).payload.length) :
    let s := splitDgram (writeOne a v (wr a v)); s.tag = macTag noKey s.hdr s.payload := signed_tag (fun _ _ => rfl) hl
theorem writes {a v : Nat} {d : Dev}
    (h : let m := splitDgram (writeOne a v (wr a v))
      (d.eth.up = true ∧ dropped m d = none ∧ headerOnly m = false ∧ findAssoc m.src m.sport (destOf m) d = some (0, as1)
        ∧ assocAt 0 d = some as1 ∧ as1.lost = false ∧ m.hdr.seq = as1.lastSeq + 1#32
        ∧ (msgCost m.hdr.ttype.toNat m.payload.length = 0
            ∨ seqGe as1.limit (as1.used + w32 (msgCost m.hdr.ttype.toNat m.payload.length)) = true)
        ∧ mustWait m (accepted 0 m d) = false ∧ inRom (heardOn 0 m d) = false)
        ∧ hasFlag m.hdr fAUTH = true
        ∧ (heardOn 0 m d).strand.sessions.find? (fun s => s.num == m.hdr.session && s.aid == 0) = some x
        ∧ inProgress x (heardOn 0 m d) < 4 ∧ x.khd = noKey
        ∧ addrCheck (commander 0 m x d) a (some (w32 v)) (commandOn 0 m x d) = 0
        ∧ accessWaits (commander 0 m x d) [(a, some (w32 v))] (commandOn 0 m x d) = false) :
    MayWrite (splitDgram (writeOne a v (wr a v))) 0 x a (w32 v) d :=
  mayWrite_of (managed ⟨h.1, h.2.1, h.2.2.1, h.2.2.2.1⟩ (by rw [h.2.2.2.2.1]; exact wr_tag rfl)) h.2.2.2.2.2
theorem rd_tag {a : Nat} (hl : (readOne a (mg 0x30#8 [])).hdr.length.toNat = (readOne a (mg 0x30#8 [])).payload.length) :
    let s := splitDgram (readOne a (rd a)); s.tag = macTag noKey s.hdr s.payload := signed_tag (fun _ _ => rfl) hl
theorem req_tag {t : Byte} {l : List Byte} (hl : (asReq t (mg t l)).hdr.length.toNat = (asReq t (mg t l)).payload.length) :
    let s := splitDgram (asReq t (signedBy noKey (asReq t) (mg t l))); s.tag = macTag noKey s.hdr s.payload := signed_tag (fun _ _ => rfl) hl
theorem op_tag {t v : Byte} {k : Nat} {l : List Byte} (hl : (asOp t k v (mg t l)).hdr.length.toNat = (asOp t k v (mg t l)).payload.length) :
    let s := splitDgram (asOp t k v (signedBy noKey (asOp t k v) (mg t l))); s.tag = macTag noKey s.hdr s.payload :=
  signed_tag (fun _ _ => rfl) hl
def onRst (f : Rst → Rst) (d : Dev) : Dev := { d with rst := f d.rst }
def onCns (f : Cns → Cns) (d : Dev) : Dev := { d with cns := f d.cns }
def onPwr (f : Pwr → Pwr) (d : Dev) : Dev := { d with pwr := f d.pwr }

/-- The same with the keeper's key first and the Tuning's second. -/
def keyed2 (d : Dev) : State := let d := keyed [sess0] d; st { d with peg := { d.peg with keys := [(0, keeperKey), (1, { keeperKey with keyid := 7#32, usage := 3#8 })] } }

def otherKey : KeyEntry := { keeperKey with keyid := 12#32, usage := 2#8, part := 0#8, state := 1#8 }
def sessK (k : KeyEntry) : Session := { sess0 with keybuf := keyBytes k }

def open_ : Sampling := { samp0 with mask := 0xFFFF }
/-- A service whose model has a draft model, and stream `x` in it. -/
def draftSecs : List (Nat × Nat × List (List Byte)) :=
  (2, 16, [[0#8, 0#8, 1#8, 0#8] ++ leBytes 4 1 ++ leBytes 4 4 ++ [1#8], [1#8, 1#8, 0xFF#8, 0#8] ++ leBytes 4 1 ++ leBytes 4 4 ++ [1#8]]) :: goodSecs
def strs (l : List (Nat × Stream)) (d : Dev) : State := st { d with streams := l }
def drafting (x : Stream) : State := strs [(3, x)] (withImage draftSecs up)
def one32 : Word := 0x3F800000#32
def stepIn (prefill : Bool) : StepRec := ⟨0, 1, 1, prefill⟩
def schedOf (f : Sched → Sched) (d : Dev) : Dev := modSched 0 f d

def greedyOf : PickRes → Option Nat
  | .greedy t => some t
  | _ => none
def candOf : PickRes → Option (List (Nat × Dy))
  | .dist l => some l
  | _ => none
theorem greedy_of {r : PickRes} {t : Nat} (h : greedyOf r = some t) : r = .greedy t := by cases r <;> simp_all [greedyOf]
theorem dist_of {r : PickRes} {P : List (Nat × Dy) → Bool} (h : (candOf r).any P = true) : ∃ l, r = .dist l ∧ P l = true := by
  cases r <;> simp_all [candOf]
theorem empty_of {r : PickRes} (h : greedyOf r = none ∧ candOf r = none) : r = .empty := by cases r <;> simp_all [greedyOf, candOf]

/-- The tables that map page 0 to frame 0, in the TABLE area of Bridge 0. -/
def tables0 : SMap Nat := [(0x100000, 1), (0x101000, 2), (0x102000, 3), (0x103000, 4)]
def withTables (d : Dev) : Dev :=
  forEach [(0x100000, ptrWord 0x101000), (0x101000, ptrWord 0x102000), (0x102000, ptrWord 0x103000), (0x103000, 0xC000000000000000)]
    (fun e d => hbmWrite 0 e.1 (leBytes 8 e.2) d) d
/-- KV pages for one layer of one head of 64 elements, FP8, in pages of 64 KiB, on Bridge 0, with an area for them. -/
def kvSecs : List (Nat × Nat × List (List Byte)) :=
  [(10, 20, [[0#8, 0#8, 1#8, 0#8, 1#8, 0#8, 0#8, 0#8] ++ leBytes 4 64 ++ leBytes 4 0x3F800000 ++ leBytes 2 1]),
   (12, 32, [[3#8, 0#8, 0#8, 0#8, 0#8, 0#8, 0#8, 0#8] ++ leBytes 8 0 ++ leBytes 8 0x20000,
             [5#8, 0#8, 0#8, 0#8, 0#8, 0#8, 0#8, 0#8] ++ leBytes 8 0x100000 ++ leBytes 8 0x100000,
             [8#8, 0#8, 0#8, 0#8, 7#8, 0#8, 0#8, 0#8] ++ leBytes 8 0 ++ leBytes 8 0x20000])]
/-- Stream 3 with region `r` on Bridge 0, whose KV state is `f`'s. -/
def kvSt (r : Region) (x : Stream) (f : KvBridge → KvBridge) : State :=
  strs [(3, x)] (withImage kvSecs (onKv f (onKv (fun k => { k with regions := [(6, r)], tables := tables0 }) (withTables up))))
def kvx : Stream := { str0 with steps := [stepIn false] }
def kst : KvStep :=
  { stream := 3, layer := 0, batch := 0, pos0 := 1, count := 1, appended := [4096, 5120], direct := [], queries := [(1024, [])] }
def walk0 : Walk :=
  { stream := 3, layer := 0, batch := 0, pos0 := 1, count := 1, gen := 0#32, region := reg0, kend := 2, queries := [(1024, [])], gone := false }
def mapped : KvGen := { num := 0#32, roots := [(0, 0x100000)], walks := 1, retire := [], tabs := [], ranges := [] }
def edit0 : Edit := { op := 1, stream := 3, region := 6, arg := 0, changes := [(0, none)] }

def dirShard : List Byte :=
  lay [(0, leBytes 4 0x47530001 ++ leBytes 2 1), (0x0C, leBytes 4 1 ++ leBytes 4 4096), (0x18, leBytes 4 1),
       (0x40, leBytes 4 0x47440001), (0x48, leBytes 4 1 ++ leBytes 4 1 ++ leBytes 2 1), (0x80, [])]
def bytesOf (base : Nat) (l : List Byte) : SMap Byte := (l.zipIdx.map fun e => (base + e.2, e.1)).filter fun e => e.2 != 0#8
def adw : Window := { win0 with adapter := some 3, counts := [], place := [], state := 3 }
def far0 : FarLayer :=
  { part := 0, model := 0, epoch := 1#32, layer := 0x8005, started := up.time - 20000000#64, landed := false, half := 0, index := [], left := [] }
def farSecs : List (Nat × Nat × List (List Byte)) :=
  [(1, 16, [leBytes 4 1 ++ leBytes 4 9 ++ leBytes 4 10000]),
   (2, 16, [[0#8, 0#8, 0xFF#8, 0#8] ++ leBytes 4 1 ++ leBytes 4 4 ++ [1#8]]), (3, 24, [[0#8, 0#8, 0#8, 0#8]]), (8, 4, [[0#8, 1#8, 5#8, 0#8]]),
   (12, 32, [[8#8, 0#8, 0#8, 0#8, 9#8]])]
def farSt (l : List FarLayer) : State :=
  st (withImage farSecs { up with loads := { up.loads with far := l, epochs := [{ ep0 with farShards := 2 }] } })
def farHdr : List Byte := lay [(0, leBytes 4 0x47530001 ++ leBytes 2 1 ++ [1#8]), (0x0C, leBytes 4 1 ++ leBytes 4 4096), (0x18, leBytes 4 1), (0x40, [])]
def late : Dev := { up with time := 600000000000#64 }
/-- A service with a Fret stage 0 on working tile 31 of course 15 of Fret 11, in stage slot 3, a Bridge stage 1 and the tensor entry
stage 2; `fd` has the slot set up and stream 3 in service. -/
def fretSecs : List (Nat × Nat × List (List Byte)) :=
  [(1, 16, [leBytes 4 1 ++ leBytes 4 9]), (2, 16, [[0#8, 0#8, 0xFF#8, 2#8] ++ leBytes 4 1 ++ leBytes 4 4 ++ [1#8]]),
   (3, 24, [[0#8], lay [(0, [1#8, 1#8]), (16, leBytes 2 1)], lay [(0, [2#8, 1#8]), (16, leBytes 2 1)]]),
   (4, 8, [[11#8, 15#8, 3#8, 0#8]]), (5, 12, [[11#8, 15#8, 31#8, 0#8]]), (7, 8, [[0#8, 191#8, 0#8, 0#8, 1#8, 0#8]]),
   (8, 4, [[0#8, 0#8, 5#8, 0#8]])]
def vec3 : VecId := ⟨3, 1, 1#64⟩
def pass3 : PassD := { part := 0, model := 0, stage := 0, layer := 5, epoch := 1#32, batch := 0, vecs := [vec3] }
def rB : List Byte := lay [(0, [1#8, 1#8]), (16, leBytes 2 1)] ++ List.replicate 6 0#8
def rC : List Byte := lay [(0, [2#8, 1#8]), (16, leBytes 2 1)] ++ List.replicate 6 0#8
def stepX : Stream := { str0 with steps := [stepIn false] }
def fd : Dev :=
  regPut (CS_STGCFG0 11 15 + 12) 0x80000000#32 (withStr stepX (withImage fretSecs { up with loads := { up.loads with epochs := [ep0] } }))
/-- Tile 31 with column 511 in use, put through `g`; the course through `k`; the stage slot through `y`. -/
def tl (g : Tile → Tile) (d : Dev) : Dev := modTile 11 15 31 (fun x => g { x with use := 1#512 <<< 511 }) d
def cr (k : Course → Course) (d : Dev) : Dev := modCourse 11 15 k d
def slt (y : Slot → Slot) (d : Dev) : Dev := modSlot 11 15 3 y d
def working (d : Dev) : Dev := slt (fun y => { y with cur := some pass3 }) d
def ready5 (x : Tile) : Tile := { x with pa := { emptyPlane with st := 2, tag := 5 } }
def slice1 : Slice := { stream := 3, codes := 1 :: List.replicate 511 0, scale := 127, outs := [] }
def slice0 : Slice := { slice1 with codes := List.replicate 512 0 }
theorem fin1 : ∀ w, w ∈ [one32] → fpDec fF32 w.toNat ≠ none := by
  intro w h; rw [List.mem_singleton] at h; rw [h]; decide +kernel
theorem not_ex {α : Type} {o : Option α} {P : α → Prop} [DecidablePred P] (h : (o.all fun m => !decide (P m)) = true) :
    ¬ ∃ m, o = some m ∧ P m := by rintro ⟨m, rfl, p⟩; simp [p] at h

def take3 (l : Slice) : Take := { tile := 31, wtile := 31, slot := 3, pass := pass3, idx := 0, vec := vec3, slice := l, fold2 := none }
def taking (l : Slice) : State := st (tl (fun x => { x with inq := [l], pa := { emptyPlane with st := 3, tag := 5 } }) (working fd))
def dense : Slice := { slice1 with codes := List.replicate 512 1 }

/-- A converted pluck of tile 31 whose groups in `w` are not handed on; `gr` and `re` await a recompute or a re-convert. -/
def pl (w : List Nat) (codes : SMap Int) (re cr gr : List Nat) : Pluck :=
  { id := 7, src := 0, tile := 31, wtile := 31, planeB := false, slot := 3, layer := 5, vec := vec3, fold := 0, lastOf := true,
    x := 1 :: List.replicate 511 0, scale := 127, outs := [], recs := [], back := [], step := 0,
    note := { n := 1, folded := false, step1 := 0, step2 := 0, clips := 0 }, bank := [], trims := [], qf := 0, qh := 0,
    converted := true, codes := codes, bad := [], recon := re, trimmed := [], colrec := cr, grprec := gr, exact := [], wait := w,
      open_ := [],
    passed := [], outcome := [], sampled := false, voided := false, sent := [], left := [] }
def plucking (p : Pluck) (g : Tile → Tile) : State := st (cr (fun k => { k with plucks := [p] }) (tl g (working fd)))
def good3 (x : Tile) : Tile := { x with pa := { emptyPlane with st := 3, tag := 5 } }
def badSeg : Plane := { emptyPlane with st := 3, tag := 5, segs := [(7, { slots := List.replicate 64 0#8, harm := 0#11, p0 := true, p1 := false })] }
theorem none_asked {codes : SMap Int} {cols : List Nat} (hc : cols = [511]) (q r : Int) (h1 : mget? codes 511 = some q)
    (c1 : clippedCode q = false) (h2 : mget? codes 519 = some r) (c2 : clippedCode r = false) : ∀ col, col ∈ cols ∨ col = 512 + 7 →
    ¬ ((∃ q, mget? codes col = some q ∧ clippedCode q = true) ∨ (512 ≤ col ∧ mget? codes col = none)) := by
  rintro col (h | rfl) (⟨z, e, k⟩ | ⟨e, k⟩)
  · rw [hc, List.mem_singleton] at h; subst h; rw [h1] at e; cases e; rw [c1] at k; cases k
  · rw [hc, List.mem_singleton] at h; subst h; omega
  · rw [h2] at e; cases e; rw [c2] at k; cases k
  · rw [h2] at k; cases k
theorem the_pluck {f c id : Nat} {p : Pluck} {d : Dev}
    (h : pluckAt f c id d = some p ∧ ∀ q, q ∈ (courseAt f c d).plucks → q.id = id → q = p) : ThePluck f c id p d := h

def dflt : Seg := { slots := List.replicate 64 0#8, harm := 0#11, p0 := false, p1 := false }
theorem seg_default {p : Plane} (h : p.segs = []) (n : Nat) : segAt p n = dflt := by simp [segAt, h, mgetD, mget?, dflt]
theorem segs_good {x : Tile} (h : (planeOf x x.act).segs = [] ∧ (List.range 8).all (fun g => segGood x g dflt) = true) {g : Nat} (hg : g < 8)
    (n : Nat) : segGood x g (segAt (planeOf x x.act) n) = true := by
  rw [seg_default h.1]; exact List.all_eq_true.1 h.2 g (List.mem_range.2 hg)
theorem only31 {l : List Nat} (h : l = [31]) {w : Nat} (hw : w ∈ l) : w = 31 := by rw [h] at hw; exact List.mem_singleton.1 hw
def voided7 : Pluck := { pl [7] [] [] [] [] with voided := true }
/-- The tile's block of layer 5 lies at 256 on Bridge 11. -/
def indexed (d : Dev) : Dev := { d with loads := { d.loads with epochs := [{ ep0 with index := [(blockKey 11 15 31 5, 256)] }] } }
def covered : State := st (indexed (cr (fun k => { k with tmap := [(31, 0x3F)], cov := [(31, [slice1])] }) (working fd)))
def served : State := st (indexed (working fd))
def exact3 (d : Dev) : Dev := regPut (CS_STGCFG0 11 15 + 12) 0x80000040#32 (working d)
def exactly : State := st (tl (fun x => { x with inq := [slice1], pa := { emptyPlane with st := 3, tag := 5 } }) (exact3 fd))

def blk : List Byte := lay [(0, leBytes 4 0x47340001 ++ leBytes 2 1 ++ leBytes 2 5), (0x10, leBytes 4 0x440 ++ leBytes 4 (0x440 + 131072)), (0x40, [])]
def blkBytes : List Byte := blk ++ List.replicate 1024 0#8
theorem blk_hi {o : Nat} (h : 64 ≤ o) : blkBytes.getD o 0#8 = 0#8 := by
  have e : blk.length ≤ o := by have : blk.length = 64 := by decide +kernel
                                omega
  rw [blkBytes, List.getD_eq_getElem?_getD, List.getElem?_append_right e, List.getElem?_replicate]
  split <;> rfl
theorem blk_scales : (List.range 512).any (fun c => fpNonFinite fF16 (u16 blkBytes (0x40 + 2 * c))) = false := by
  rw [List.any_eq_false]
  intro c _
  rw [u16, blk_hi (by omega), blk_hi (by omega)]; decide
theorem blk_good {d : Dev} (h : hbmBytes 11 256 0x440 d = blkBytes) : blockBad 11 256 d = false := by
  have n0 : u16 blkBytes 0x0A = 0 := by decide +kernel
  have e : blockBad 11 256 d = (u32 blkBytes 0 != 0x47340001 || u16 blkBytes 4 != 1 || decide (1 < u8 blkBytes 8) || u16 blkBytes 6 == 0xFFFF
      || decide (8192 < 0) || u32 blkBytes 0x10 != 0x440 + 64 * ((0 + 7) / 8) || u32 blkBytes 0x14 != u32 blkBytes 0x10 + 131072
      || false || (List.range 0).any (fun i => recBad (u64 [] (8 * i))) || !recsRising (blockRecs [] 0)) := by
    simp only [blockBad, h, n0, blk_scales, Nat.mul_zero, Bool.or_assoc]; rfl
  rw [e]; decide +kernel
def onHbm (l : List Byte) (d : Dev) : Dev := { d with mem := (bytesOf 256 l).map fun e => (hbmKey 11 e.1, e.2) }
/-- The tile wants layer 5; the block `l` is on Bridge 11. -/
def wants (l : List Byte) (g : Tile → Tile) (r : List Nat) : State :=
  st (onHbm l (indexed (tl g (slt (fun y => { y with cur := some pass3, repair := r }) fd))))
def pload : PlaneLoad :=
  { addr := 256, codeOff := 0x440, layer := 5, fp4 := false, scales := [], recs := [], resent := false, repair := false, started := true, endHeld := false }
def loading1 (p : Plane) : State := st (tl (fun x => { x with pb := p }) fd)
def lpl (n : Nat) (l : PlaneLoad) : Plane := { emptyPlane with st := n, load := some l }

def term0 : TermMsg :=
  { pid := 7, group := 7, slot := 3, wtile := 31, tile := 31, vec := vec3, layer := 5, terms := [⟨511, 1, 0⟩], last := false, tries := 0 }
def kb (n : Nat) : KbReg := { slot := 3, vec := ⟨3, n, 1#64⟩, layer := 5, oslice := 0, leaf := 0, vals := [], done := [], narrowed := false }
def terms (m : TermMsg) (l : List KbReg) : State := st (cr (fun k => { k with capoOut := [m], kbs := l }) (working fd))
/-- The slot roots an output slice, with settings `v` besides; its buffers are `a` and `o`. -/
def rooted (v : Nat) (a o : Buf) : State :=
  st (regPut (CS_TPCFG0 11 15 + 12) (w32 (0x400 + v)) (slt (fun y => { y with bufA := a, bufB := o }) (working fd)))
theorem some_pair {α β : Type} {o : Option (α × β)} {d : α × β} (h : o.isSome = true) : o = some ((o.getD d).1, (o.getD d).2) := by
  cases o <;> simp_all
def vs0 : VSlot := { vec := vec3, layer := 5, batch := 0, leaves := [(0, [(511, 0)])], results := [], ops := [], flags := 0 }
def vsR : VSlot := { vs0 with results := [(0, (List.range 512).map fun k => (k, 0))] }
def buf (n : Nat) (l : List VSlot) (k : Nat) : Buf := ⟨n, l, k⟩

def nextOf : Host.Outcome State Fault Refusal → State
  | .next t => t
  | _ => State.reset
def isNext : Host.Outcome State Fault Refusal → Bool
  | .next _ => true
  | _ => false
theorem next_of {o : Host.Outcome State Fault Refusal} (h : isNext o = true) : o = .next (nextOf o) := by cases o <;> simp_all [isNext, nextOf]

def other : Stream := { str0 with part := 1 }
def apart : State := st { withStr other serve0 with prefixes := [(15, { pfx0 with part := 1 })] }


theorem key_win (l : List Window) (w : Window) : (w :: l).find? (fun x => Config.windowKey x.num == Config.windowKey w.num) = some w := by
  rw [List.find?_cons, beq_self_eq_true]
theorem closed_key {n : Nat} (h : n < 1024) : closedKey (Config.windowKey n) = true :=
  List.any_eq_true.2 ⟨n, List.mem_range.2 h, beq_self_eq_true _⟩
theorem va_off (a k : DWord) : a + k - a = k := by rw [BitVec.add_comm, BitVec.add_sub_cancel]

theorem sequenced {m : Dgram} {aid : Nat} {a : Assoc} {d : Dev}
    (h : d.eth.up = true ∧ dropped m d = none ∧ headerOnly m = false ∧ findAssoc m.src m.sport (destOf m) d = some (aid, a)
      ∧ assocAt aid d = some a ∧ a.lost = false ∧ m.hdr.seq = a.lastSeq + 1#32
      ∧ (msgCost m.hdr.ttype.toNat m.payload.length = 0
          ∨ seqGe a.limit (a.used + w32 (msgCost m.hdr.ttype.toNat m.payload.length)) = true)) : InSequence m aid d :=
  ⟨h.1, h.2.1, h.2.2.1, a, h.2.2.2⟩

/-- A payload with, at its end, a signature over the message up to there. -/
def signing (f : Dgram → Dgram) (t : Byte) (n len : Nat) (l : List Byte) : Dgram :=
  let m := f (dg t 0#8 32 1#32 0#32 0#32 (padTo len l))
  dg t 0#8 32 1#32 0#32 0#32 (padTo n l ++ signG (signedBytes m.hdr m.payload n))
def opening : Dgram := signing (asOp 0x34#8 0 1#8) 0x34#8 0xB0 308 (leBytes 4 1 ++ leBytes 4 9)
def claiming (l : List Byte) : Dgram := signing (asOp 0x34#8 0 3#8) 0x34#8 0x90 276 (leBytes 4 3 ++ leBytes 4 9 ++ l)

def waiting0 (h : List Held) (d : Dev) : State := let d := keyed [sess0] d; st { d with strand := { d.strand with held := h } }
def heldRead (t : DWord) : Held := { aid := 0, msg := readOne (addrTile 11 15 32 0x100) (mg 0x30#8 []), units := 0, at_ := t }
def heldWrite (t : DWord) : Held := { aid := 0, msg := writeOne (addrTile 11 15 32 0x100) 5 (mg 0x31#8 []), units := 0, at_ := t }

def chunk : Dgram :=
  signedBy noKey (asReq 0x35#8) (mg 0x35#8 (leBytes 4 0 ++ leBytes 4 4 ++ leBytes 2 4 ++ [0#8, 0#8] ++ [1#8, 2#8, 3#8, 4#8]))
def bootChunk (n : Nat) : Dgram := dg 0x35#8 0#8 32 1#32 0#32 0#32 (leBytes 4 n ++ leBytes 4 8 ++ leBytes 2 4 ++ [0#8, 0#8] ++ [1#8, 2#8, 3#8, 4#8])
def romDev : Dev := assocs [as1] { up with peg := { up.peg with mode := 1#2, fwOk := false } }
def chunkOn (m : Dgram) (d : Dev) : Dev := commandOn 0 (splitDgram (asReq 0x35#8 m)) sess0 (kept d).found

/-- Seven facts decided, and what comes after them. -/
theorem seven {A B C D E F G H I : Prop} (h : A ∧ B ∧ C ∧ D ∧ E ∧ F ∧ G ∧ H) (i : I) : A ∧ B ∧ C ∧ D ∧ E ∧ F ∧ G ∧ H ∧ I :=
  ⟨h.1, h.2.1, h.2.2.1, h.2.2.2.1, h.2.2.2.2.1, h.2.2.2.2.2.1, h.2.2.2.2.2.2.1, h.2.2.2.2.2.2.2, i⟩
def tempered : Stream := { str0 with state := 2, nextpos := 1, avail := 2, samp := { open_ with temp := one32 }, steps := [stepIn true] }
def tempSt : State := strs [(3, tempered)] (withImage ((2, 16, [[0#8, 0#8, 0xFF#8, 0#8] ++ leBytes 4 1 ++ leBytes 4 1 ++ [1#8]]) :: goodSecs) up)

/-- The course with pass 3 formed, its tile put through `g`. -/
def formed (g : Tile → Tile) : Dev := tl g (slt (fun y => { y with descs := [pass3] }) fd)

theorem five {A B C D E I : Prop} (h : A ∧ B ∧ C ∧ D ∧ E) (i : I) : A ∧ B ∧ C ∧ D ∧ E ∧ I := ⟨h.1, h.2.1, h.2.2.1, h.2.2.2.1, h.2.2.2.2, i⟩
theorem all_found {α : Type} {o : Option α} {P : α → Prop} [DecidablePred P] (h : (o.all fun m => decide (P m)) = true) :
    ∀ m, o = some m → P m := by rintro m rfl; simpa using h

theorem not_idle {α β : Type} {o : Option α} {x : Option (Nat × β)} {E : Nat → Bool} (h : (o.isSome && x.any fun y => !E y.1) = true) :
    ¬ (o = none ∨ x = none ∨ ∃ j z, x = some (j, z) ∧ E j = true) := by
  rw [Bool.and_eq_true] at h
  rintro (e | e | ⟨j, z, e, g⟩)
  · simp [e] at h
  · simp [e] at h
  · simp [e, g] at h
/-- The tile wants layer 5 once its plane B is mended. -/
def mending (l : List Byte) : State := wants l (fun x => { x with pb := { emptyPlane with src := 256 } }) [63]
def wanting (l : List Byte) : State := wants l id []
def lateTile (s : State) : Tile := tileAt 11 15 31 (dropStale 11 15 31 3 31 s.found)
/-- What a wanted load of a pass's block meets, told apart from the state of its tile. -/
def mustLoad (s : State) : Bool :=
  (loadTarget (lateTile s)).isSome && (loadWant 11 15 31 (dropStale 11 15 31 3 31 s.found)).any fun y => !earlierLoad 11 15 31 y.1 (dropStale 11 15 31 3 31 s.found)

def unindexed : State := st (tl id (slt (fun y => { y with cur := some pass3 }) fd))

/-- Stream 3 with more positions in its step, so that more of its vectors are live. -/
def stepY : Stream := { stepX with steps := [⟨0, 1, 6, false⟩] }
def full4 : State := let s := terms term0 [kb 2, kb 3, kb 4, kb 5]; st (withStr stepY s.dev)

def outOf : Option (List Dy × Nat) := slotOutputs (tpCfg 11 15 3 (rooted 0 (buf 3 [vsR] 1) emptyBuf).dev) (u16 (padTo 8 [0#8, 191#8, 0#8, 0#8, 1#8, 0#8]) 2) vsR

def upCal (d : Dev) : State := st { d with rst := { d.rst with phase := .booted }, fret := { d.fret with dies := [(11, { freshDie with cal := 1 })] } }

/-! ### The hypotheses of the statements -/

theorem test_StepRunsFront :
    (∃ (c : Instr) (r : List Instr) (s : State), s.pending = c :: r)
    ∧ (∃ (s : State), s.pending = []) :=
  ⟨⟨.pinReset, [], { st up with pending := [.pinReset] }, rfl⟩,
   ⟨st up, rfl⟩⟩

theorem test_NothingStops :
    (∃ (i : Instr), WellFormed i = false) :=
  ⟨(.pfcXoffRx 8), by decide +kernel⟩

theorem test_StepKeepsCanon :
    (∃ (s : State) (t : State), Canon s.dev ∧ step s = .next t) :=
  ⟨State.reset, tick State.reset, ⟨by refine ⟨?_, ?_, ?_⟩ <;> decide +kernel, rfl⟩⟩

theorem test_EthernetPort_1 :
    (∃ (s : State), s.dev.eth.up = true)
    ∧ (∃ (ip : Word) (s : State), s.dev.eth.up = true ∧ isOwnIp4 ip s.dev = true)
    ∧ (∃ (ip : BitVec 128) (s : State), s.dev.eth.up = true ∧ isOwnIp6 ip s.dev = true)
    ∧ (∃ (dst : BitVec 128) (s : State), s.dev.eth.up = true ∧ isOwnIp dst s.dev = true)
    ∧ (∃ (s : State), s.dev.eth.up = true)
    ∧ (∃ (s : State), s.dev.eth.module = true ∧ portAwake s.dev = true)
    ∧ (∃ (s : State), (s.dev.eth.module = false ∨ portAwake s.dev = false)) :=
  ⟨⟨st up, by decide +kernel⟩,
   ⟨0x0A000001#32, st up, by decide +kernel⟩,
   ⟨0x20202020202020202020202020202020#128, st up, by decide +kernel⟩,
   ⟨0xFFFF0A000001#128, st up, by decide +kernel⟩,
   ⟨st up, by decide +kernel⟩,
   ⟨st { up with eth := { up.eth with up := false, lanes := 0x00#8 } }, by decide +kernel⟩,
   ⟨st { up with eth := { up.eth with module := false } }, by decide +kernel⟩⟩

theorem test_EthernetPort_2 :
    (∃ (s : State), (s.dev.eth.module = false ∨ portAwake s.dev = false))
    ∧ (∃ (i : Instr) (s : State), overThePort i = true ∧ s.dev.eth.up = false) :=
  ⟨⟨st { up with pwr := { up.pwr with state := 3 } }, by decide +kernel⟩,
   ⟨(.arpRequest 0x0A000001#32), st resetDev, by decide +kernel⟩⟩

theorem test_FlowControl :
    (∃ (prio : Nat) (s : State), prio < 8 ∧ s.dev.eth.up = true ∧ pfcEn s.dev = true)
    ∧ (∃ (prio : Nat) (s : State), prio < 8 ∧ s.dev.eth.up = true ∧ pfcEn s.dev = true)
    ∧ (∃ (low : Nat) (high : Nat) (s : State), low ≤ 4194304 ∧ high ≤ 4194304 ∧ s.dev.eth.up = true)
    ∧ (∃ (qp : Nat) (s : State), qp < 4096 ∧ s.dev.eth.up = true) :=
  ⟨⟨7, st up, by decide +kernel⟩,
   ⟨0, st up, by decide +kernel⟩,
   ⟨524287, 4194304, st up, by decide +kernel⟩,
   ⟨4095, st up, by decide +kernel⟩⟩

theorem test_RdmaWrites :
    (∃ (qp : Nat) (p : Nat) (key : Word) (va : DWord) (data : List Byte) (w : Window) (s : State), qp < 4096 ∧ p < 32
        ∧ s.dev.eth.up = true ∧ ownsQp p qp s.dev = true ∧ keyWindow key s.dev = some w ∧ w.part = p ∧ w.state = 2
        ∧ let o := (va - Config.windowVa w.num).toNat; let b := o / 2 ^ 40; let j := o / 2 ^ 26 % 2 ^ 14; let off := o % 2 ^ 26;
        let at_ := (w.place.getD b []).getD j 0 + off; b < 12 ∧ j < w.counts.getD b 0 ∧ off + data.length ≤ 0x4000000 ∧ off % 65536 = 0
        ∧ at_ + data.length ≤ 2 ^ 37)
    ∧ (∃ (qp : Nat) (p : Nat) (key : Word) (s : State), qp < 4096 ∧ p < 32 ∧ s.dev.eth.up = true ∧ ownsQp p qp s.dev = true
        ∧ keyWindow key s.dev = none ∧ closedKey key = true)
    ∧ (∃ (qp : Nat) (p : Nat) (off : Nat) (data : List Byte) (b : Nat) (base : Nat) (s : State), qp < 4096 ∧ p < 32
        ∧ s.dev.eth.up = true ∧ ownsQp p qp s.dev = true ∧ maskArea p s.dev = some (b, base) ∧ off + data.length ≤ 32 * 2 ^ 20
        ∧ base + off + data.length ≤ 2 ^ 37)
    ∧ (∃ (qp : Nat) (p : Nat) (off : Nat) (data : List Byte) (s : State), qp < 4096 ∧ p < 32 ∧ s.dev.eth.up = true
        ∧ ownsQp p qp s.dev = true ∧ tuneBusy p s.dev = false ∧ off + data.length ≤ 2 ^ 24)
    ∧ (∃ (k : Nat) (qp : Nat) (s : State), qp < 4096 ∧ s.dev.eth.up = true ∧ cnsFormed s.dev = true ∧ k < u8 s.dev.cns.cur 0xD
        ∧ (cnsPort s.dev.cns.cur k).2.2.1 = cnsSelf s.dev.cns.cur
        ∧ qp = memQp (cnsMember s.dev.cns.cur (cnsSelf s.dev.cns.cur)) + (cnsPort s.dev.cns.cur k).1)
    ∧ (∃ (qp : Nat) (p : Nat) (win : Nat) (b : Nat) (j : Nat) (off : Nat) (data : List Byte) (w : Window) (s : State), qp < 4096
        ∧ p < 32 ∧ s.dev.eth.up = true ∧ ownsQp p qp s.dev = true ∧ windowAt win s.dev = some w ∧ w.part = p ∧ w.state = 2 ∧ b < 12
        ∧ j < w.counts.getD b 0 ∧ off + data.length ≤ 0x4000000 ∧ off % 65536 = 0
        ∧ (w.place.getD b []).getD j 0 + off + data.length ≤ 2 ^ 37)
    ∧ (∃ (p : Nat) (qp : Nat) (s : State), qp < 4096 ∧ p < 32 ∧ s.dev.eth.up = true) :=
  ⟨⟨0, 0, Config.windowKey 0, Config.windowVa 0 + 0x3FF0000#64, [1#8], win0, st (withWin win0), ⟨by decide, by decide, rfl,
      by decide +kernel, key_win [] win0, rfl, rfl, by rw [show Config.windowVa win0.num = Config.windowVa 0 from rfl, va_off]; decide +kernel⟩⟩,
   ⟨7, 0, Config.windowKey 1023, st up, ⟨by decide, by decide, rfl, by decide +kernel, rfl, closed_key (by decide)⟩⟩,
   ⟨7, 0, 33554431, [1#8], 0, 0, st (withImage [(12, 32, [[7#8]])] up), by decide +kernel⟩,
   ⟨7, 0, 16777215, [1#8], st up, by decide +kernel⟩,
   ⟨0, 3, st (inCns 0 0 2 2), by decide +kernel⟩,
   ⟨0, 0, 0, 0, 0, 0x3FF0000, [1#8], win0, st (withWin win0), by decide +kernel⟩,
   ⟨31, 4095, st up, by decide +kernel⟩⟩

theorem test_TestAccess_1 :
    (∃ (s : State), tapUsable s.dev = true)
    ∧ (∃ (s : State), tapUsable s.dev = true)
    ∧ (∃ (s : State), tapUsable s.dev = true)
    ∧ (∃ (s : State), tapUsable s.dev = true ∧ s.dev.pins.rstN = false)
    ∧ (∃ (s : State), tapUsable s.dev = true ∧ s.dev.pins.rstN = false)
    ∧ (∃ (s : State), tapUsable s.dev = true ∧ s.dev.pins.rstN = true)
    ∧ (∃ (s : State), tapUsable s.dev = true ∧ s.dev.pins.rstN = true) :=
  ⟨⟨st up, by decide +kernel⟩,
   ⟨st up, by decide +kernel⟩,
   ⟨st up, by decide +kernel⟩,
   ⟨st { up with pins := { up.pins with rstN := false } }, by decide +kernel⟩,
   ⟨st { up with pins := { up.pins with rstN := false } }, by decide +kernel⟩,
   ⟨st up, by decide +kernel⟩,
   ⟨st up, by decide +kernel⟩⟩

theorem test_TestAccess_2 :
    (∃ (i : Instr) (cells : List (Nat × Bool)) (tdi : List Bool) (s : State),
        i ∈ [Instr.jtagIdcode, .jtagBypass tdi, .jtagSamplePreload cells, .jtagExtest cells tdi, .jtagClamp tdi]
        ∧ tapUsable s.dev = false) :=
  ⟨.jtagIdcode, [], [], st { up with pins := { up.pins with trstN := false } }, ⟨List.mem_cons_self, by decide +kernel⟩⟩

theorem test_PulsePerSecond :
    (∃ (low : Nat) (gap : Nat) (s : State), cnsRuns s.dev = true ∧ isCnsMaster s.dev = true ∧ cnsTsrc s.dev.cns.cur = 2
        ∧ s.dev.timeRun = true ∧ 100 ≤ low ∧ 100 ≤ gap ∧ (∀ t,
        s.dev.pins.ppsLast = some t → sec 2 < since t s.dev ∨ (99990000 ≤ since t s.dev ∧ since t s.dev ≤ 100010000)))
    ∧ (∃ (low : Nat) (gap : Nat) (s : State), cnsRuns s.dev = true ∧ isCnsMaster s.dev = true ∧ cnsTsrc s.dev.cns.cur = 2
        ∧ s.dev.timeRun = true ∧ (low < 100 ∨ gap < 100 ∨ ∃ t, s.dev.pins.ppsLast = some t ∧ since t s.dev ≤ sec 2
        ∧ (since t s.dev < 99990000 ∨ 100010000 < since t s.dev)))
    ∧ (∃ (low : Nat) (gap : Nat) (s : State), cnsRuns s.dev = true ∧ isCnsMaster s.dev = true ∧ cnsTsrc s.dev.cns.cur = 2
        ∧ s.dev.timeRun = true ∧ (low < 100 ∨ gap < 100 ∨ ∃ t, s.dev.pins.ppsLast = some t ∧ since t s.dev ≤ sec 2
        ∧ (since t s.dev < 99990000 ∨ 100010000 < since t s.dev)))
    ∧ (∃ (s : State), (isCnsMaster s.dev = false ∨ cnsTsrc s.dev.cns.cur ≠ 2 ∨ cnsRuns s.dev = false ∨ s.dev.timeRun = false))
    ∧ (∃ (s : State), s.dev.time.toNat % 100000000 = 0 ∧ s.dev.timeRun = true ∧ s.dev.pwr.supply = true ∧ s.dev.pins.padHold = false
        ∧ s.dev.pins.latched = false) :=
  ⟨⟨100, 100, st { inCns 0 2 1 2 with pins := { up.pins with ppsLast := some (up.time - 99990000#64) } }, ⟨by decide +kernel,
      by decide +kernel, by decide +kernel, by decide +kernel, by decide, by decide, by intro t h; cases h; decide +kernel⟩⟩,
   ⟨100, 99, st { inCns 0 2 1 2 with pins := { up.pins with ppsLast := none } }, ⟨by decide +kernel, by decide +kernel,
      by decide +kernel, by decide +kernel, Or.inr (Or.inl (by decide))⟩⟩,
   ⟨100, 100, st { inCns 0 2 1 2 with pins := { up.pins with ppsLast := some (up.time - 100010001#64) } }, ⟨by decide +kernel,
      by decide +kernel, by decide +kernel, by decide +kernel, Or.inr (Or.inr ⟨_, rfl, by decide +kernel⟩)⟩⟩,
   ⟨st up, by decide +kernel⟩,
   ⟨st up, by decide +kernel⟩⟩

theorem test_LinkEvents_1 :
    (∃ (ch : Nat) (h : DWord) (payload : List Byte) (crc : BitVec 40) (rep : Bool) (s : State), okChan ch = true ∧ payload.length = 256
        ∧ crc40 h payload ≠ crc ∧ (linkAt (linkOf ch) s.dev).state = 2 ∧ ((chanAt ch s.dev).discard = none ∨ rep = true))
    ∧ (∃ (ch : Nat) (h : DWord) (payload : List Byte) (crc : BitVec 40) (s : State), okChan ch = true ∧ payload.length = 256
        ∧ crc40 h payload ≠ crc ∧ (linkAt (linkOf ch) s.dev).state = 2 ∧ (chanAt ch s.dev).discard = some (fLseq h))
    ∧ (∃ (ch : Nat) (h : DWord) (payload : List Byte) (crc : BitVec 40) (q : Nat) (s : State), okChan ch = true ∧ payload.length = 256
        ∧ crc40 h payload ≠ crc ∧ (chanAt ch s.dev).discard = some q ∧ q ≠ fLseq h)
    ∧ (∃ (ch : Nat) (lseq : Nat) (s : State), okChan ch = true ∧ lseq < 4096 ∧ (linkAt (linkOf ch) s.dev).state = 2)
    ∧ (∃ (ch : Nat) (lseq : Nat) (s : State), okChan ch = true ∧ lseq < 4096 ∧ (linkAt (linkOf ch) s.dev).state ≠ 2)
    ∧ (∃ (l : Nat) (s : State), okLink l = true ∧ (linkAt l s.dev).state = 1)
    ∧ (∃ (l : Nat) (s : State), okLink l = true ∧ (linkAt l s.dev).state = 1 ∧ (linkAt l s.dev).failed < 2) :=
  ⟨⟨11, 5#64, noBytes, crc40 5#64 noBytes + 1#40, false, st (linkUp 11 2 0 up), ⟨by decide,
      by decide +kernel, by generalize crc40 5#64 noBytes = x; exact ne_succ x, by decide +kernel, by decide +kernel⟩⟩,
   ⟨0, 5#64, noBytes, crc40 5#64 noBytes + 1#40, st (putChan 0 { zeroChan with discard := some 5, fails := 15 } (linkUp 0 2 0 up)),
      ⟨by decide, by decide +kernel, by generalize crc40 5#64 noBytes = x; exact ne_succ x, by decide +kernel, by decide +kernel⟩⟩,
   ⟨0, 5#64, noBytes, crc40 5#64 noBytes + 1#40, 4, st (putChan 0 { zeroChan with discard := some 4, fails := 1 } (linkUp 0 2 0 up)),
      ⟨by decide, by decide +kernel, by generalize crc40 5#64 noBytes = x; exact ne_succ x, by decide +kernel, by decide +kernel⟩⟩,
   ⟨16, 4095, st (linkUp (linkOf 16) 2 0 up), by decide +kernel⟩,
   ⟨16, 4095, st up, by decide +kernel⟩,
   ⟨32, st (linkUp 32 1 0 up), by decide +kernel⟩,
   ⟨11, st (linkUp 11 1 1 up), by decide +kernel⟩⟩

theorem test_LinkEvents_2 :
    (∃ (l : Nat) (n : Nat) (s : State), okLink l = true ∧ (linkAt l s.dev).state = 1 ∧ 2 ≤ (linkAt l s.dev).failed
        ∧ powered s.dev = true ∧ s.dev.rst.phase = .idle ∧ s.dev.rst.subs = [] ∧ s.dev.pwr.state < 2 ∧ s.dev.pwr.target = none
        ∧ n ∈ linkPairs l)
    ∧ (∃ (b : Nat) (h : DWord) (s : State), b < 12 ∧ flitAllowed b h s.dev = false) :=
  ⟨⟨11, 11, st (linkUp 11 1 2 up), by decide +kernel⟩,
   ⟨11, 0#64, st { up with map := resetDev.map }, by decide +kernel⟩⟩

theorem test_PatrolScrub :
    (∃ (b : Nat) (stack : Nat) (addr : Nat) (s : State), b < 12 ∧ stack < 2
        ∧ addr / 4096 * 8192 + stack * 4096 + addr % 4096 < hbmSize s.dev)
    ∧ (∃ (b : Nat) (stack : Nat) (addr : Nat) (s : State), b < 12 ∧ stack < 2
        ∧ addr / 4096 * 8192 + stack * 4096 + addr % 4096 < hbmSize s.dev)
    ∧ (∃ (b : Nat) (stack : Nat) (addr : Nat) (s : State), b < 12 ∧ stack < 2
        ∧ addr / 4096 * 8192 + stack * 4096 + addr % 4096 < hbmSize s.dev)
    ∧ (∃ (b : Nat) (stack : Nat) (addr : Nat) (s : State), b < 12 ∧ stack < 2
        ∧ addr / 4096 * 8192 + stack * 4096 + addr % 4096 < hbmSize s.dev)
    ∧ (∃ (b : Nat) (stack : Nat) (addr : Nat) (s : State), b < 12 ∧ stack < 2
        ∧ addr / 4096 * 8192 + stack * 4096 + addr % 4096 < hbmSize s.dev)
    ∧ (∃ (b : Nat) (stack : Nat) (addr : Nat) (s : State), b < 12 ∧ stack < 2
        ∧ addr / 4096 * 8192 + stack * 4096 + addr % 4096 < hbmSize s.dev) :=
  ⟨⟨0, 0, 0, st { up with poison := [] }, by decide +kernel⟩,
   ⟨0, 0, 0, st { up with poison := [] }, by decide +kernel⟩,
   ⟨0, 0, 0, st { up with poison := [] }, by decide +kernel⟩,
   ⟨0, 0, 0, st { up with poison := [] }, by decide +kernel⟩,
   ⟨0, 0, 0, st { up with poison := [(0, true)] }, by decide +kernel⟩,
   ⟨11, 1, 68719476735, st up, by decide +kernel⟩⟩

theorem test_HeatLevels_1 :
    (∃ (die : Nat) (k : Nat) (v : Half), okDieCode die = true ∧ k < 8 ∧ v.toInt < 6080)
    ∧ (∃ (die : Nat) (k : Nat) (v : Half) (s : State), okDieCode die = true ∧ k < 8 ∧ 6080 ≤ v.toInt ∧ s.dev.pwr.tlevel = 0
        ∧ s.dev.pwr.grace = none)
    ∧ (∃ (t : DWord) (s : State), s.dev.pwr.grace = some t ∧ ms 5 ≤ since t s.dev ∧ 6080 ≤ tmax s.dev)
    ∧ (∃ (t : DWord) (s : State), s.dev.pwr.grace = some t ∧ ms 5 ≤ since t s.dev ∧ tmax s.dev < 6080)
    ∧ (∃ (s : State), 0 < s.dev.pwr.tlevel ∧ s.dev.pwr.tlevel < 7 ∧ 6080 ≤ tmax s.dev ∧ ms 1 ≤ since s.dev.pwr.tstep s.dev)
    ∧ (∃ (s : State), 0 < s.dev.pwr.tlevel ∧ s.dev.pwr.tlevel < 7 ∧ 6080 ≤ tmax s.dev ∧ ms 1 ≤ since s.dev.pwr.tstep s.dev)
    ∧ (∃ (t : DWord) (s : State), 0 < s.dev.pwr.tlevel ∧ tmax s.dev < 6080 ∧ s.dev.pwr.below = some t ∧ ms 10 ≤ since t s.dev) :=
  ⟨⟨32, 7, 6079#16, by decide +kernel⟩,
   ⟨0, 0, 6080#16, st up, by decide +kernel⟩,
   ⟨up.time - 500000#64, st { snWrite 0 0 6080#16 up with pwr := { up.pwr with grace := some (up.time - 500000#64), warn := true } },
      by decide +kernel⟩,
   ⟨up.time - 500000#64, st { up with pwr := { up.pwr with grace := some (up.time - 500000#64), warn := true } }, by decide +kernel⟩,
   ⟨st { snWrite 0 0 6080#16 up with pwr := { up.pwr with tlevel := 1, tstep := up.time - 100000#64 } }, by decide +kernel⟩,
   ⟨st { snWrite 0 0 6080#16 up with pwr := { up.pwr with tlevel := 6, tstep := up.time - 100000#64 } }, by decide +kernel⟩,
   ⟨up.time - 1000000#64, st { up with pwr := { up.pwr with tlevel := 1, below := some (up.time - 1000000#64) } }, by decide +kernel⟩⟩

theorem test_HeatLevels_2 :
    (∃ (t : DWord) (s : State), 0 < s.dev.pwr.tlevel ∧ tmax s.dev < 6080 ∧ s.dev.pwr.below = some t ∧ ms 10 ≤ since t s.dev)
    ∧ (∃ (s : State), s.dev.pwr.plevel ≤ 7 ∧ 3600 < s.dev.pwr.psamples.headD 0 ∧ us 100 ≤ since s.dev.pwr.ppeak s.dev)
    ∧ (∃ (s : State), s.dev.pwr.plevel ≤ 7 ∧ s.dev.pwr.psamples.headD 0 ≤ 3600 ∧ s.dev.pwr.psamples.length = 100
        ∧ effLimit s.dev < s.dev.pwr.psamples.foldl (· + ·) 0 ∧ ms 1 ≤ since s.dev.pwr.pmean s.dev)
    ∧ (∃ (t : DWord) (s : State), 0 < s.dev.pwr.plevel ∧ s.dev.pwr.psamples.headD 0 ≤ 3600
        ∧ (s.dev.pwr.psamples.length = 100 → s.dev.pwr.psamples.foldl (· + ·) 0 ≤ effLimit s.dev) ∧ s.dev.pwr.pbelow = some t
        ∧ ms 10 ≤ since t s.dev) :=
  ⟨⟨up.time - 1000000#64, st { up with pwr := { up.pwr with tlevel := 7, below := some (up.time - 1000000#64) } }, by decide +kernel⟩,
   ⟨st { up with pwr := { up.pwr with plevel := 7, psamples := [3601], ppeak := up.time - 10000#64 } }, by decide +kernel⟩,
   ⟨st { up with pwr := { up.pwr with plevel := 0, psamples := List.replicate 100 3600, pmean := up.time - 100000#64 } },
      by decide +kernel⟩,
   ⟨up.time - 1000000#64, st { up with pwr := { up.pwr with plevel := 1, psamples := [3600], pbelow := some (up.time - 1000000#64) } },
      by decide +kernel⟩⟩

theorem test_TripAndSupply_1 :
    (∃ (die : Nat) (k : Nat) (v : Half) (s : State), okDieCode die = true ∧ k < 10 ∧ powered s.dev = true ∧ 7040 ≤ v.toInt)
    ∧ (∃ (s : State), s.dev.pwr.tripped = true)
    ∧ (∃ (s : State), s.dev.pwr.supply = false ∧ s.dev.pwr.overV = false ∧ s.dev.pwr.tripped = false ∧ s.dev.rst.nv = none)
    ∧ (∃ (s : State), s.dev.pwr.supply = false ∧ s.dev.pwr.overV = false ∧ s.dev.pwr.tripped = false ∧ s.dev.rst.nv = none)
    ∧ (∃ (s : State), powered s.dev = true ∧ s.dev.rst.phase = .idle ∧ s.dev.rst.nv = none)
    ∧ (∃ (s : State), powered s.dev = true ∧ s.dev.rst.phase = .idle ∧ s.dev.rst.nv.isSome = true)
    ∧ (∃ (s : State), s.dev.pwr.supply = true ∧ s.dev.pwr.tripped = true) :=
  ⟨⟨27, 9, 7040#16, st up, by decide +kernel⟩,
   ⟨st { up with pwr := { up.pwr with tripped := true } }, by decide +kernel⟩,
   ⟨st { up with pwr := { up.pwr with supply := false } }, by decide +kernel⟩,
   ⟨st { up with pwr := { up.pwr with supply := false }, pins := { up.pins with rstN := false } }, by decide +kernel⟩,
   ⟨st up, by decide +kernel⟩,
   ⟨st { up with rst := { up.rst with nv := some .erase } }, by decide +kernel⟩,
   ⟨st { up with pwr := { up.pwr with tripped := true } }, by decide +kernel⟩⟩

theorem test_TripAndSupply_2 :
    (∃ (s : State), powered s.dev = true)
    ∧ (∃ (s : State), s.dev.pwr.overV = true ∧ s.dev.pwr.supply = false ∧ s.dev.pwr.tripped = false ∧ s.dev.rst.nv = none) :=
  ⟨⟨st up, by decide +kernel⟩,
   ⟨st { up with pwr := { up.pwr with supply := false, overV := true } }, by decide +kernel⟩⟩

theorem test_PowerStates_1 :
    (∃ (s : State), bit (regGet HS_PWRCTL s.dev).toNat 28 = true ∧ s.dev.pwr.state = 0 ∧ s.dev.pwr.target = none
        ∧ s.dev.pwr.transit = false ∧ powered s.dev = true ∧ workless s.dev = true)
    ∧ (∃ (s : State), s.dev.pwr.state = 1 ∧ (workless s.dev = false ∨ bit (regGet HS_PWRCTL s.dev).toNat 28 = false))
    ∧ (∃ (st : Nat) (s : State), s.dev.pwr.target = some st ∧ noBatches s.dev = true ∧ s.dev.pwr.heldWake = 0)
    ∧ (∃ (st : Nat) (s : State), s.dev.pwr.target = some st ∧ noBatches s.dev = true ∧ s.dev.pwr.heldWake = 0)
    ∧ (∃ (s : State), s.dev.pwr.target.isSome = true ∧ noBatches s.dev = false ∧ sec 2 ≤ since s.dev.pwr.drainFrom s.dev)
    ∧ (∃ (lanes : Nat) (s : State), 4 ≤ lanes ∧ lanes ≤ 8 ∧ s.dev.pwr.state = 3 ∧ s.dev.pwr.waking = false ∧ s.dev.pwr.target = none
        ∧ ms 100 ≤ since s.dev.pwr.vigilLast s.dev)
    ∧ (∃ (lanes : Nat) (s : State), 4 ≤ lanes ∧ lanes ≤ 8 ∧ s.dev.pwr.state = 3 ∧ s.dev.pwr.waking = false ∧ s.dev.pwr.target = none
        ∧ ms 100 ≤ since s.dev.pwr.vigilLast s.dev) :=
  ⟨⟨st (regPut HS_PWRCTL 0x10000000#32 up), by decide +kernel⟩,
   ⟨st { up with pwr := { up.pwr with state := 1 } }, by decide +kernel⟩,
   ⟨2, st { up with pwr := { up.pwr with target := some 2 } }, by decide +kernel⟩,
   ⟨3, st { up with pwr := { up.pwr with target := some 3 } }, by decide +kernel⟩,
   ⟨st { up with scheds := [(0, { emptySched with batches := [batch0] })], pwr := { up.pwr with target := some 2, drainFrom := up.time - 200000000#64 } }, by decide +kernel⟩,
   ⟨4, st { up with pwr := { up.pwr with state := 3, vigilLast := up.time - 10000000#64 } }, by decide +kernel⟩,
   ⟨8, st { up with pwr := { up.pwr with state := 3, vigilLast := up.time - 10000000#64 } }, by decide +kernel⟩⟩

theorem test_PowerStates_2 :
    (∃ (lanes : Nat) (temps : List Half) (vin : Half) (s : State), lanes < 4 ∧ s.dev.pwr.state = 3 ∧ s.dev.pwr.waking = false
        ∧ ms 100 ≤ since s.dev.pwr.vigilLast s.dev ∧ 5000 ≤ vin.toNat ∧ vin.toNat ≤ 5800
        ∧ (∀ t, t ∈ temps → t.toInt < 64 * (regField HS_THERMCFG 0 8 s.dev : Int) ∧ t.toInt < 7040))
    ∧ (∃ (s : State), (s.dev.pwr.waking = false ∨ (s.dev.fret.dies.all fun e => e.2.cal == 0) = false))
    ∧ (∃ (s : State), (s.dev.pwr.waking = false ∨ (s.dev.fret.dies.all fun e => e.2.cal == 0) = false))
    ∧ (∃ (s : State), s.dev.pwr.waking = true ∧ (s.dev.fret.dies.all fun e => e.2.cal == 0) = true) :=
  ⟨⟨3, [3839#16], 5000#16, st { up with pwr := { up.pwr with state := 3, vigilLast := up.time - 10000000#64 } }, ⟨by decide,
      by decide +kernel, by decide +kernel, by decide +kernel, by decide,
      by decide, fun t h => by rw [List.mem_singleton] at h; subst h; decide +kernel⟩⟩,
   ⟨st up, by decide +kernel⟩,
   ⟨st { up with pwr := { up.pwr with waking := true }, fret := { up.fret with dies := [(11, { freshDie with cal := 1 })] } },
      by decide +kernel⟩,
   ⟨st { up with pwr := { up.pwr with waking := true } }, by decide +kernel⟩⟩

theorem test_ResetsBegin_1 :
    (∃ (s : State) (i : Instr) (c : Nat), powered s.dev = true ∧ s.dev.rst.phase = .idle ∧ s.dev.rst.nv = none ∧ ((i = .watchdogExpiry
        ∧ c = 4) ∨ (i = .lockup ∧ c = 8) ∨ (i = .clockFail ∧ c = 7)))
    ∧ (∃ (s : State) (i : Instr) (c : Nat), powered s.dev = true ∧ s.dev.rst.phase = .idle ∧ s.dev.rst.nv = none
        ∧ ((i = .watchdogExpiry ∧ c = 4) ∨ (i = .lockup ∧ c = 8) ∨ (i = .clockFail ∧ c = 7)))
    ∧ (∃ (s : State) (i : Instr) (c : Nat), powered s.dev = true ∧ s.dev.rst.phase = .idle ∧ s.dev.rst.nv = none
        ∧ ((i = .watchdogExpiry ∧ c = 4) ∨ (i = .lockup ∧ c = 8) ∨ (i = .clockFail ∧ c = 7)))
    ∧ (∃ (s : State), powered s.dev = true ∧ tapUsable s.dev = true ∧ s.dev.rst.phase = .idle ∧ s.dev.rst.nv = none)
    ∧ (∃ (s : State), powered s.dev = true ∧ s.dev.rst.phase = .idle ∧ s.dev.rst.nv = none ∧ 1 ∉ s.dev.rst.lines)
    ∧ (∃ (b0 : BitVec 2) (c0 : BitVec 2) (b1 : BitVec 2) (c1 : BitVec 2) (s : State), powered s.dev = true
        ∧ s.dev.rst.phase = .asserted ∧ 3 ∉ s.dev.rst.lines ∧ b0 = b1 ∧ c0 = c1)
    ∧ (∃ (b0 : BitVec 2) (b1 : BitVec 2) (s : State), powered s.dev = true ∧ s.dev.rst.phase = .asserted ∧ 3 ∉ s.dev.rst.lines ∧ b0 ≠ b1) :=
  ⟨⟨st up, (.watchdogExpiry : Instr), (4 : Nat), by decide +kernel⟩,
   ⟨st up, (.lockup : Instr), (8 : Nat), by decide +kernel⟩,
   ⟨st up, (.clockFail : Instr), (7 : Nat), by decide +kernel⟩,
   ⟨st up, by decide +kernel⟩,
   ⟨st up, by decide +kernel⟩,
   ⟨0#2, 1#2, 0#2, 1#2, st resetDev, by decide +kernel⟩,
   ⟨0#2, 2#2, st resetDev, by decide +kernel⟩⟩

theorem test_ResetsBegin_2 :
    (∃ (s : State), powered s.dev = true ∧ s.dev.rst.phase = .released ∧ s.dev.peg.mode ≠ 1#2 ∧ fwCode s.dev = 0)
    ∧ (∃ (s : State), powered s.dev = true ∧ s.dev.rst.phase = .released ∧ s.dev.peg.mode ≠ 1#2 ∧ fwCode s.dev ≠ 0)
    ∧ (∃ (s : State), powered s.dev = true ∧ s.dev.rst.phase = .released ∧ s.dev.peg.mode = 1#2)
    ∧ (∃ (l : List DieCal) (s : State), (l.all fun x => okCal x) = true ∧ powered s.dev = true ∧ s.dev.rst.phase = .booted
        ∧ s.dev.peg.fwOk = true)
    ∧ (∃ (s : State), powered s.dev = true ∧ s.dev.rst.phase = .calibrated) :=
  ⟨⟨st { up with rst := { up.rst with phase := .released } }, by decide +kernel⟩,
   ⟨st { up with rst := { up.rst with phase := .released }, flash := { up.flash with fw := none } }, by decide +kernel⟩,
   ⟨st { up with rst := { up.rst with phase := .released }, peg := { up.peg with mode := 1#2 } }, by decide +kernel⟩,
   ⟨[⟨11, 25, [⟨15, 32, 519, 0, 0⟩], []⟩], st { up with rst := { up.rst with phase := .booted } }, by decide +kernel⟩,
   ⟨st { up with rst := { up.rst with phase := .calibrated } }, by decide +kernel⟩⟩

theorem test_ResetEnds_1 :
    (∃ (p : Nat) (stage : Nat) (x : SubReset) (s : State), p < 32 ∧ subNamed .stage p stage 0 s.dev = some x ∧ s.dev.rst.waiting = [])
    ∧ (∃ (p : Nat) (x : SubReset) (s : State), p < 32 ∧ subNamed .partition p 0 0 s.dev = some x ∧ s.dev.rst.waiting = [])
    ∧ (∃ (n : Nat) (x : SubReset) (s : State), n < 12 ∧ (dieAt n s.dev).cal = 0 ∧ subNamed .die 0 0 n s.dev = some x
        ∧ s.dev.rst.waiting = [])
    ∧ (∃ (x : SubReset) (s : State), powered s.dev = true ∧ s.dev.rst.subs = [x] ∧ x.scope = .stage ∧ x.t0 + scopeLimit .stage ≤ s.dev.osc)
    ∧ (∃ (n : Nat) (x : SubReset) (s : State), powered s.dev = true ∧ s.dev.rst.phase = .idle ∧ s.dev.rst.nv = none
        ∧ s.dev.rst.subs[n]? = some x ∧ (x.scope = .partition ∨ x.scope = .die) ∧ x.t0 + scopeLimit x.scope ≤ s.dev.osc)
    ∧ (∃ (n : Nat) (x : SubReset) (s : State), powered s.dev = true ∧ s.dev.rst.phase = .idle ∧ s.dev.rst.nv = none
        ∧ s.dev.rst.subs[n]? = some x ∧ (x.scope = .partition ∨ x.scope = .die) ∧ x.t0 + scopeLimit x.scope ≤ s.dev.osc)
    ∧ (∃ (s : State), powered s.dev = true ∧ (s.dev.rst.phase ≠ .idle ∧ s.dev.rst.phase ≠ .nvWait) ∧ s.dev.rst.nv = none
        ∧ s.dev.rst.t0 + scopeLimit s.dev.rst.scope ≤ s.dev.osc ∧ s.dev.rst.scope ≠ .warm) :=
  ⟨⟨0, 3, sub .stage 0 0, inSub (sub .stage 0 0), by decide +kernel⟩,
   ⟨0, sub .partition 0 0, inSub (sub .partition 0 0), by decide +kernel⟩,
   ⟨11, sub .die 11 0, inSub (sub .die 11 0), by decide +kernel⟩,
   ⟨sub .stage 0 4999800000, inSub (sub .stage 0 4999800000), by decide +kernel⟩,
   ⟨0, sub .partition 0 4996000000, inSub (sub .partition 0 4996000000), by decide +kernel⟩,
   ⟨0, sub .die 11 4940000000, inSub (sub .die 11 4940000000), by decide +kernel⟩,
   ⟨st { resetDev with osc := 5000000000 }, by decide +kernel⟩⟩

theorem test_ResetEnds_2 :
    (∃ (s : State), powered s.dev = true ∧ (s.dev.rst.phase ≠ .idle ∧ s.dev.rst.phase ≠ .nvWait) ∧ s.dev.rst.nv = none
        ∧ s.dev.rst.t0 + scopeLimit s.dev.rst.scope ≤ s.dev.osc)
    ∧ (∃ (s : State), s.dev.rst.nv.isSome = true ∧ s.dev.rst.phase = .nvWait)
    ∧ (∃ (s : State), s.dev.rst.nv.isSome = true ∧ s.dev.rst.phase ≠ .nvWait) :=
  ⟨⟨st { up with rst := { up.rst with phase := .booted, scope := .warm, t0 := 4200000000 } }, by decide +kernel⟩,
   ⟨st { up with rst := { up.rst with phase := .nvWait, nv := some .pageProgram } }, by decide +kernel⟩,
   ⟨st { up with rst := { up.rst with nv := some .fusePulse } }, by decide +kernel⟩⟩

theorem test_UpdatesAndFlash :
    (∃ (s : State), s.dev.peg.update.state = 2)
    ∧ (∃ (im : FwImage) (s : State), s.dev.peg.update.state = 3 ∧ s.dev.peg.update.image = some im)
    ∧ (∃ (im : FwImage) (s : State), s.dev.peg.update.state = 3 ∧ s.dev.peg.update.image = some im)
    ∧ (∃ (s : State), (s.dev.peg.update.state = 1 ∨ s.dev.peg.update.state = 2) ∧ sec 600 ≤ since s.dev.peg.update.last s.dev)
    ∧ (∃ (code : Byte) (id : Word) (s : State), s.dev.peg.keyBusy = some (code, id))
    ∧ (∃ (r : List Byte) (q : List (List Byte)) (s : State), s.dev.peg.logQ = r :: q)
    ∧ (∃ (num : Word) (x : Session) (s : State), sessionOf num s.dev = some x ∧ sec 600 ≤ since x.last s.dev) :=
  ⟨⟨st (updating fun u => { u with state := 2, total := 832, staged := [(0, fwBytes)] }), by decide +kernel⟩,
   ⟨shippedImage 0#8, st (updating fun u => { u with state := 3, image := some (shippedImage 0#8) }), by decide +kernel⟩,
   ⟨shippedImage 0#8, st (updating fun u => { u with state := 3, image := some (shippedImage 0#8) }), by decide +kernel⟩,
   ⟨st (updating fun u => { u with state := 2, last := up.time - 60000000000#64 }), by decide +kernel⟩,
   ⟨1#8, 7#32, st { up with peg := { up.peg with keyBusy := some (1#8, 7#32) } }, by decide +kernel⟩,
   ⟨[1#8], [], st { up with peg := { up.peg with logQ := [[1#8]] } }, by decide +kernel⟩,
   ⟨5#32, { sess0 with last := up.time - 60000000000#64 }, st { up with strand := { up.strand with sessions := [{ sess0 with last := up.time - 60000000000#64 }] } }, by decide +kernel⟩⟩

theorem test_TuningAndMapEvents_1 :
    (∃ (p : Nat) (l : TuneLoad) (code : Nat) (sec : Nat) (rec : Nat) (s : State), p < 32 ∧ (tuneAt p s.dev).load = some l ∧ l.state = 2
        ∧ s.dev.rst.phase = .idle ∧ imageCheck p l.bytes s.found = some (code, sec, rec) ∧ code ≠ 0)
    ∧ (∃ (p : Nat) (l : TuneLoad) (code : Nat) (sec : Nat) (rec : Nat) (s : State), p < 32 ∧ (tuneAt p s.dev).load = some l
        ∧ l.state = 2 ∧ s.dev.rst.phase = .idle ∧ imageCheck p l.bytes s.found = some (code, sec, rec) ∧ code ≠ 0)
    ∧ (∃ (p : Nat) (l : TuneLoad) (s : State), p < 32 ∧ (tuneAt p s.dev).load = some l ∧ l.state = 2 ∧ s.dev.rst.phase = .idle
        ∧ imageCheck p l.bytes s.found = none)
    ∧ (∃ (p : Nat) (l : TuneLoad) (s : State), p < 32 ∧ (tuneAt p s.dev).load = some l ∧ l.state = 3 ∧ atBarrier p s.dev = true
        ∧ (inConsort s.dev && cnsSplit s.dev && cnsPart s.dev == p) = false
        ∧ barrierCheck p l.bytes (setBarr p (usSince l.from_ s.dev) s.found) = none)
    ∧ (∃ (p : Nat) (l : TuneLoad) (s : State), p < 32 ∧ (tuneAt p s.dev).load = some l ∧ l.state = 3 ∧ sec 2 ≤ since l.from_ s.dev)
    ∧ (∃ (p : Nat) (r0 : List Byte) (r1 : List Byte) (r2 : List Byte) (s : State), p < 32 ∧ mget? s.dev.map.waiting p = some [r0, r1, r2])
    ∧ (∃ (k : Nat) (base : Nat) (count : Nat) (h : HandOver) (s : State), s.dev.map.handovers[k]? = some h ∧ 0 < count ∧ h.base ≤ base
        ∧ base + count ≤ h.base + h.count ∧ released h base count s.dev = true) :=
  ⟨⟨0, { bytes := signedImage.drop 1, state := 2, from_ := up.time }, 1, 255, 0xFFFFFFFF,
      st (loading (signedImage.drop 1) 2 up.time), by decide +kernel⟩,
   ⟨0, { bytes := goodImage, state := 2, from_ := up.time }, 6, 255, 0xFFFFFFFF, st (loading goodImage 2 up.time), by decide +kernel⟩,
   ⟨0, { bytes := signedImage, state := 2, from_ := up.time }, st (loading signedImage 2 up.time), by decide +kernel⟩,
   ⟨0, { bytes := goodImage, state := 3, from_ := up.time }, st (loading goodImage 3 up.time), by decide +kernel⟩,
   ⟨0, { bytes := goodImage, state := 3, from_ := up.time - 200000000#64 }, st (loading goodImage 3 (up.time - 200000000#64)),
      by decide +kernel⟩,
   ⟨31, res0, net0, [], st { up with map := { up.map with waiting := [(31, [res0, net0, []])] } }, by decide +kernel⟩,
   ⟨0, 10, 1, { kind := .course, bridge := 0, base := 10, count := 10, loser := 0 },
      st { up with map := { up.map with handovers := [{ kind := .course, bridge := 0, base := 10, count := 10, loser := 0 }] } },
      by decide +kernel⟩⟩

theorem test_TuningAndMapEvents_2 :
    (∃ (k : Nat) (base : Nat) (count : Nat) (h : HandOver) (s : State), s.dev.map.handovers[k]? = some h ∧ 0 < count ∧ h.base ≤ base
        ∧ base + count ≤ h.base + h.count ∧ released h base count s.dev = true)
    ∧ (∃ (k : Nat) (base : Nat) (count : Nat) (h : HandOver) (s : State), s.dev.map.handovers[k]? = some h ∧ 0 < count ∧ h.base ≤ base
        ∧ base + count ≤ h.base + h.count ∧ released h base count s.dev = true) :=
  ⟨⟨0, 10, 1, { kind := .hbm, bridge := 0, base := 10, count := 10, loser := 0 },
      st { up with map := { up.map with handovers := [{ kind := .hbm, bridge := 0, base := 10, count := 10, loser := 0 }] } },
      by decide +kernel⟩,
   ⟨0, 19, 1, { kind := .stream, bridge := 0, base := 10, count := 10, loser := 0 },
      st { up with map := { up.map with handovers := [{ kind := .stream, bridge := 0, base := 10, count := 10, loser := 0 }] } },
      by decide +kernel⟩⟩

theorem test_TimeProtocol_1 :
    (∃ (dom : Nat) (s : State), dom < 256 ∧ s.dev.eth.up = true ∧ isSlave dom s.dev = true)
    ∧ (∃ (dom : Nat) (s : State), dom < 256 ∧ s.dev.eth.up = true ∧ isSlave dom s.dev = true)
    ∧ (∃ (dom : Nat) (s : State), dom < 256 ∧ s.dev.eth.up = true ∧ cnsRuns s.dev = true ∧ isCnsMaster s.dev = true ∧ dom = cnsDomain s.dev)
    ∧ (∃ (s : State), s.dev.eth.up = true ∧ cnsRuns s.dev = true ∧ isCnsMaster s.dev = true ∧ 1562500 ≤ since s.dev.cns.synced s.dev)
    ∧ (∃ (dom : Nat) (m : PtpMeas) (s : State), dom < 256 ∧ s.dev.eth.up = true ∧ isSlave dom s.dev = true ∧ s.dev.cns.meas = some m
        ∧ (s.dev.cns.state ≠ 1 ∨ isCnsMaster s.dev = true ∨ s.dev.cns.stepped = true ∨ cnsSelf s.dev.cns.cur ∈ s.dev.cns.joined))
    ∧ (∃ (dom : Nat) (m : PtpMeas) (s : State), dom < 256 ∧ s.dev.eth.up = true ∧ isSlave dom s.dev = true ∧ s.dev.cns.meas = some m
        ∧ s.dev.cns.state = 1 ∧ isCnsMaster s.dev = false ∧ s.dev.cns.stepped = false ∧ cnsSelf s.dev.cns.cur ∉ s.dev.cns.joined)
    ∧ (∃ (s : State), cnsRuns s.dev = true ∧ (isCnsMaster s.dev = false ∨ cnsTsrc s.dev.cns.cur = 1) ∧ s.dev.timeRun = true
        ∧ us 20 ≤ since s.dev.cns.slewed s.dev ∧ (s.dev.cns.offset.toInt ≤ -40 ∨ 40 ≤ s.dev.cns.offset.toInt)) :=
  ⟨⟨135, st (inCns 1 0 2 1), by decide +kernel⟩,
   ⟨0, st (inCns 0 1 2 2), by decide +kernel⟩,
   ⟨135, st (inCns 0 0 2 2), by decide +kernel⟩,
   ⟨st { inCns 0 0 2 2 with cns := { (inCns 0 0 2 2).cns with synced := up.time - 1562500#64 } }, by decide +kernel⟩,
   ⟨135, ⟨0, 400, 800⟩, st { up with cns := { (inCns 1 0 2 2).cns with meas := some ⟨0, 400, 800⟩ } }, by decide +kernel⟩,
   ⟨135, ⟨0, 400, 800⟩, st { up with cns := { (inCns 1 0 2 1).cns with meas := some ⟨0, 400, 800⟩ } }, by decide +kernel⟩,
   ⟨st { up with cns := { (inCns 1 0 2 2).cns with slewed := up.time - 2000#64, offset := 40#32 } }, by decide +kernel⟩⟩

theorem test_TimeProtocol_2 :
    (∃ (s : State), cnsRuns s.dev = true ∧ (isCnsMaster s.dev = false ∨ cnsTsrc s.dev.cns.cur = 1) ∧ s.dev.timeRun = true
        ∧ us 20 ≤ since s.dev.cns.slewed s.dev ∧ (s.dev.cns.offset.toInt ≤ -40 ∨ 40 ≤ s.dev.cns.offset.toInt)) :=
  ⟨st { up with cns := { (inCns 0 1 2 2).cns with slewed := up.time - 2000#64, offset := 0#32 - 40#32 } }, by decide +kernel⟩

theorem test_ConsortMembers_1 :
    (∃ (m : Nat) (serial : DWord) (cgen : Nat) (streams : Nat) (s : State), isCnsMaster s.dev = true
        ∧ (s.dev.cns.state = 1 ∨ s.dev.cns.state = 2) ∧ m < 16 ∧ m < cnsN s.dev.cns.cur ∧ m ≠ cnsSelf s.dev.cns.cur
        ∧ (cnsDigest s.dev.cns.cur).length = 64 ∧ serial = memSerial (cnsMember s.dev.cns.cur m)
        ∧ streams = resStreamCount (resOf (cnsPart s.dev) s.dev) ∧ cnsGen s.dev.cns.cur ≤ cgen)
    ∧ (∃ (m : Nat) (serial : DWord) (cgen : Nat) (streams : Nat) (s : State), isCnsMaster s.dev = true
        ∧ (s.dev.cns.state = 1 ∨ s.dev.cns.state = 2) ∧ m < 16 ∧ m < cnsN s.dev.cns.cur ∧ m ≠ cnsSelf s.dev.cns.cur
        ∧ (cnsDigest s.dev.cns.cur).length = 64 ∧ serial = memSerial (cnsMember s.dev.cns.cur m)
        ∧ streams = resStreamCount (resOf (cnsPart s.dev) s.dev) ∧ cnsGen s.dev.cns.cur ≤ cgen)
    ∧ (∃ (m : Nat) (digest : List Byte) (s : State), isCnsMaster s.dev = true ∧ (s.dev.cns.state = 1 ∨ s.dev.cns.state = 2) ∧ m < 16
        ∧ m < cnsN s.dev.cns.cur ∧ m ≠ cnsSelf s.dev.cns.cur ∧ digest.length = 64 ∧ digest ≠ cnsDigest s.dev.cns.cur)
    ∧ (∃ (code : Nat) (joined : List Nat) (s : State), code < 6 ∧ (joined.all fun k => decide (k < 16)) = true ∧ inConsort s.dev = true
        ∧ isCnsMaster s.dev = false ∧ s.dev.cns.state = 1)
    ∧ (∃ (code : Nat) (joined : List Nat) (s : State), code < 6 ∧ (joined.all fun k => decide (k < 16)) = true ∧ inConsort s.dev = true
        ∧ isCnsMaster s.dev = false ∧ s.dev.cns.state = 1)
    ∧ (∃ (i : Instr) (m : Nat) (s : State), (i = .memberAlignLost m ∨ i = .consortPortTimeout m) ∧ cnsFormed s.dev = true ∧ m < 16
        ∧ m < cnsN s.dev.cns.cur ∧ m ≠ cnsSelf s.dev.cns.cur ∧ m ∉ s.dev.cns.lost ∧ cnsSplit s.dev = true)
    ∧ (∃ (i : Instr) (m : Nat) (s : State), (i = .memberAlignLost m ∨ i = .consortPortTimeout m) ∧ cnsFormed s.dev = true ∧ m < 16
        ∧ m < cnsN s.dev.cns.cur ∧ m ≠ cnsSelf s.dev.cns.cur ∧ m ∉ s.dev.cns.lost ∧ cnsSplit s.dev = true) :=
  ⟨⟨1, 5#64, 1, 64, st (inCns 0 0 2 1), by decide +kernel⟩,
   ⟨1, 5#64, 2, 64, st (inCns 0 0 2 2), by decide +kernel⟩,
   ⟨1, List.replicate 64 0#8, st (inCns 0 0 2 1), by decide +kernel⟩,
   ⟨0, [0, 1], st (inCns 1 0 2 1), by decide +kernel⟩,
   ⟨5, [15], st (inCns 1 0 2 1), by decide +kernel⟩,
   ⟨.memberAlignLost 1, 1, st (inCns 0 0 2 2), ⟨Or.inl rfl, by decide +kernel, by decide, by decide +kernel, by decide +kernel,
      by decide +kernel, by decide +kernel⟩⟩,
   ⟨.consortPortTimeout 1, 1, st (inCns 0 0 2 2), ⟨Or.inr rfl, by decide +kernel, by decide, by decide +kernel,
      by decide +kernel, by decide +kernel, by decide +kernel⟩⟩⟩

theorem test_ConsortMembers_2 :
    (∃ (i : Instr) (m : Nat) (s : State), (i = .memberAlignLost m ∨ i = .consortPortTimeout m) ∧ cnsFormed s.dev = true ∧ m < 16
        ∧ m < cnsN s.dev.cns.cur ∧ m ≠ cnsSelf s.dev.cns.cur ∧ m ∉ s.dev.cns.lost ∧ cnsSplit s.dev = false ∧ m ≠ cnsMasterNo s.dev.cns.cur)
    ∧ (∃ (s : State), cnsFormed s.dev = true ∧ isCnsMaster s.dev = false ∧ ms 100 ≤ since s.dev.cns.heard s.dev) :=
  ⟨⟨.memberAlignLost 1, 1, st (inCns 0 0 1 2), ⟨Or.inl rfl, by decide +kernel, by decide, by decide +kernel, by decide +kernel,
      by decide +kernel, by decide +kernel⟩⟩,
   ⟨st { up with cns := { (inCns 1 0 2 2).cns with heard := up.time - 10000000#64 } }, by decide +kernel⟩⟩

theorem test_Strums_1 :
    (∃ (action : Nat) (s : State), 1 ≤ action ∧ action ≤ 3 ∧ cnsFormed s.dev = true ∧ isCnsMaster s.dev = false
        ∧ strumReady action s.dev = true)
    ∧ (∃ (action : Nat) (s : State), 1 ≤ action ∧ action ≤ 3 ∧ cnsFormed s.dev = true ∧ isCnsMaster s.dev = false
        ∧ strumReady action s.dev = false)
    ∧ (∃ (action : Nat) (t : DWord) (x : Strum) (s : State), 1 ≤ action ∧ action ≤ 3 ∧ cnsFormed s.dev = true
        ∧ isCnsMaster s.dev = false ∧ x ∈ s.dev.cns.strums ∧ x.at_ = t ∧ x.action = action)
    ∧ (∃ (m : Nat) (s : State), m < 16 ∧ cnsFormed s.dev = true ∧ isCnsMaster s.dev = true)
    ∧ (∃ (s : State), cnsFormed s.dev = true ∧ isCnsMaster s.dev = true)
    ∧ (∃ (x : Strum) (s : State), cnsFormed s.dev = true ∧ s.dev.cns.strums = [x] ∧ x.committed = true ∧ x.at_.toNat ≤ s.dev.time.toNat
        ∧ (x.action = 1 ∨ x.action = 2) ∧ x.obj < cnsSyncCount s.dev.cns.cur)
    ∧ (∃ (x : Strum) (s : State), cnsFormed s.dev = true ∧ s.dev.cns.strums = [x] ∧ x.committed = true ∧ x.at_.toNat ≤ s.dev.time.toNat
        ∧ (x.action = 1 ∨ x.action = 2)) :=
  ⟨⟨1, st (inCns 1 0 2 2), by decide +kernel⟩,
   ⟨3, st (inCns 1 0 2 2), by decide +kernel⟩,
   ⟨1, 7#64, ⟨1, 5, 3, 7#64, [], true, false⟩, st { up with cns := { (inCns 1 0 2 2).cns with strums := [⟨1, 5, 3, 7#64, [], true, false⟩] } }, by decide +kernel⟩,
   ⟨1, st { up with cns := { (inCns 0 0 2 2).cns with strums := [⟨1, 5, 3, 7#64, [], false, false⟩] } }, by decide +kernel⟩,
   ⟨st (inCns 0 0 2 2), by decide +kernel⟩,
   ⟨⟨1, 5, 3, up.time, [], true, false⟩, st { up with cns := { (inCns 0 0 2 2).cns with strums := [⟨1, 5, 3, up.time, [], true, false⟩] } }, by decide +kernel⟩,
   ⟨⟨2, 0, 0, up.time, [], true, true⟩, st { up with cns := { (inCns 1 0 2 2).cns with strums := [⟨2, 0, 0, up.time, [], true, true⟩] } }, by decide +kernel⟩⟩

theorem test_Strums_2 :
    (∃ (k : Nat) (op : Nat) (s : State), k < 1024 ∧ op < 2 ∧ cnsFormed s.dev = true ∧ k < cnsSyncCount s.dev.cns.cur)
    ∧ (∃ (k : Nat) (op : Nat) (s : State), k < 1024 ∧ op < 2 ∧ cnsFormed s.dev = true ∧ k < cnsSyncCount s.dev.cns.cur) :=
  ⟨⟨3, 1, st (inCns 1 0 1 2), by decide +kernel⟩,
   ⟨0, 0, st (inCns 0 0 1 2), by decide +kernel⟩⟩

theorem test_SplitConsort :
    (∃ (off : Nat) (entry : List Byte) (m : Dgram) (e : Epoch) (s : State), cnsFollows s.dev = true ∧ entry.length = 64
        ∧ let p := cnsPart s.dev; let i := resStreamBase (resOf p s.dev) + off; curEpoch p (u8 m.payload 0) s.dev = some e
        ∧ ownsStream p i s.dev = true ∧ streamAt i s.dev = none ∧ 0x58 ≤ m.payload.length ∧ m.payload.length = (admitLists m.payload).len)
    ∧ (∃ (entry : List Byte) (m : Dgram) (s : State), cnsFollows s.dev = true ∧ entry.length ≠ 64 ∧ 2 ≤ m.hdr.ttype.toNat
        ∧ m.hdr.ttype.toNat ≤ 9)
    ∧ (∃ (entry : List Byte) (m : Dgram) (s : State), cnsFollows s.dev = true ∧ entry.length ≠ 64 ∧ 2 ≤ m.hdr.ttype.toNat
        ∧ m.hdr.ttype.toNat ≤ 9)
    ∧ (∃ (model : Nat) (x : BatchEnt) (st : Stream) (s : State), model < 4 ∧ cnsFollows s.dev = true ∧ 0 < x.count
        ∧ let p := cnsPart s.dev; streamAt (resStreamBase (resOf p s.dev) + x.off) s.dev = some st ∧ st.part = p ∧ streamLive st = true)
    ∧ (∃ (h : Word) (recs : List (List Byte)) (i : Nat) (st : Stream) (s : State), cnsServes (cnsPart s.dev) s.dev = true
        ∧ isCnsMaster s.dev = true ∧ byHandle h s.dev = some i ∧ streamAt i s.dev = some st ∧ streamLive st = true ∧ recs ≠ []
        ∧ (∀ r, r ∈ recs → r.length = 16)) :=
  ⟨⟨2, List.replicate 64 0#8, dg 1#8 0#8 0 1#32 0#32 0#32 admit0, ep0,
      st { inCns 1 0 2 2 with loads := { up.loads with epochs := [ep0] } }, by decide +kernel⟩,
   ⟨[], dg 2#8 0#8 0 1#32 0#32 0#32 [], st (inCns 1 0 3 2), by decide +kernel⟩,
   ⟨[], dg 9#8 0#8 0 1#32 0#32 0#32 [], st (inCns 1 0 3 2), by decide +kernel⟩,
   ⟨3, ⟨3, 1, 1, false, []⟩, str0, st (withStr str0 (inCns 1 0 2 2)), by decide +kernel⟩,
   ⟨0x40003#32, [List.replicate 16 0#8], 3, str0, st (withStr str0 (inCns 0 0 2 2)), by decide +kernel⟩⟩

theorem test_DatagramsWithoutWork_1 :
    (∃ (m : Dgram) (s : State), s.dev.eth.up = true ∧ (m.hdr.version ≠ 0x01#8 ∨ m.hdr.length.toNat % 4 ≠ 0 ∨ 8128 < m.hdr.length.toNat ∨ m.payload.length + m.tag.length ≠ m.hdr.length.toNat + (if hasFlag m.hdr fAUTH then 32 else 0) ∨ m.hdr.rsv0 ≠ 0#16 ∨ m.hdr.rsv1 ≠ 0#32 ∨ m.hdr.part ≠ partByte (destOf m)))
    ∧ (∃ (m : Dgram) (s : State), s.dev.eth.up = true ∧ (m.hdr.version ≠ 0x01#8 ∨ m.hdr.length.toNat % 4 ≠ 0 ∨ 8128 < m.hdr.length.toNat ∨ m.payload.length + m.tag.length ≠ m.hdr.length.toNat + (if hasFlag m.hdr fAUTH then 32 else 0) ∨ m.hdr.rsv0 ≠ 0#16 ∨ m.hdr.rsv1 ≠ 0#32 ∨ m.hdr.part ≠ partByte (destOf m)))
    ∧ (∃ (m : Dgram) (s : State), s.dev.eth.up = true ∧ (m.hdr.version ≠ 0x01#8 ∨ m.hdr.length.toNat % 4 ≠ 0 ∨ 8128 < m.hdr.length.toNat ∨ m.payload.length + m.tag.length ≠ m.hdr.length.toNat + (if hasFlag m.hdr fAUTH then 32 else 0) ∨ m.hdr.rsv0 ≠ 0#16 ∨ m.hdr.rsv1 ≠ 0#32 ∨ m.hdr.part ≠ partByte (destOf m)))
    ∧ (∃ (m : Dgram) (s : State), s.dev.eth.up = true ∧ (m.hdr.version ≠ 0x01#8 ∨ m.hdr.length.toNat % 4 ≠ 0 ∨ 8128 < m.hdr.length.toNat ∨ m.payload.length + m.tag.length ≠ m.hdr.length.toNat + (if hasFlag m.hdr fAUTH then 32 else 0) ∨ m.hdr.rsv0 ≠ 0#16 ∨ m.hdr.rsv1 ≠ 0#32 ∨ m.hdr.part ≠ partByte (destOf m)))
    ∧ (∃ (m : Dgram) (s : State), s.dev.eth.up = true ∧ (m.hdr.version ≠ 0x01#8 ∨ m.hdr.length.toNat % 4 ≠ 0 ∨ 8128 < m.hdr.length.toNat ∨ m.payload.length + m.tag.length ≠ m.hdr.length.toNat + (if hasFlag m.hdr fAUTH then 32 else 0) ∨ m.hdr.rsv0 ≠ 0#16 ∨ m.hdr.rsv1 ≠ 0#32 ∨ m.hdr.part ≠ partByte (destOf m)))
    ∧ (∃ (m : Dgram) (s : State), s.dev.eth.up = true ∧ (m.hdr.version ≠ 0x01#8 ∨ m.hdr.length.toNat % 4 ≠ 0 ∨ 8128 < m.hdr.length.toNat ∨ m.payload.length + m.tag.length ≠ m.hdr.length.toNat + (if hasFlag m.hdr fAUTH then 32 else 0) ∨ m.hdr.rsv0 ≠ 0#16 ∨ m.hdr.rsv1 ≠ 0#32 ∨ m.hdr.part ≠ partByte (destOf m)))
    ∧ (∃ (m : Dgram) (s : State), s.dev.eth.up = true ∧ (m.hdr.version ≠ 0x01#8 ∨ m.hdr.length.toNat % 4 ≠ 0 ∨ 8128 < m.hdr.length.toNat ∨ m.payload.length + m.tag.length ≠ m.hdr.length.toNat + (if hasFlag m.hdr fAUTH then 32 else 0) ∨ m.hdr.rsv0 ≠ 0#16 ∨ m.hdr.rsv1 ≠ 0#32 ∨ m.hdr.part ≠ partByte (destOf m))) :=
  ⟨⟨{ dg 0#8 0#8 0 1#32 0#32 0#32 [] with hdr := { (dg 0#8 0#8 0 1#32 0#32 0#32 []).hdr with version := 2#8 } }, st up, by decide +kernel⟩,
   ⟨{ dg 0#8 0#8 0 1#32 0#32 0#32 [] with hdr := { (dg 0#8 0#8 0 1#32 0#32 0#32 []).hdr with length := 2#16 } }, st up, by decide +kernel⟩,
   ⟨{ dg 0#8 0#8 0 1#32 0#32 0#32 [] with hdr := { (dg 0#8 0#8 0 1#32 0#32 0#32 []).hdr with length := 8132#16 } }, st up,
      by decide +kernel⟩,
   ⟨{ dg 0#8 0#8 0 1#32 0#32 0#32 [] with hdr := { (dg 0#8 0#8 0 1#32 0#32 0#32 []).hdr with flags := fAUTH } }, st up, by decide +kernel⟩,
   ⟨{ dg 0#8 0#8 0 1#32 0#32 0#32 [] with hdr := { (dg 0#8 0#8 0 1#32 0#32 0#32 []).hdr with rsv0 := 1#16 } }, st up, by decide +kernel⟩,
   ⟨{ dg 0#8 0#8 0 1#32 0#32 0#32 [] with hdr := { (dg 0#8 0#8 0 1#32 0#32 0#32 []).hdr with rsv1 := 1#32 } }, st up, by decide +kernel⟩,
   ⟨{ dg 0#8 0#8 0 1#32 0#32 0#32 [] with hdr := { (dg 0#8 0#8 0 1#32 0#32 0#32 []).hdr with part := 0xFF#8 } }, st up, by decide +kernel⟩⟩

theorem test_DatagramsWithoutWork_2 :
    (∃ (m : Dgram) (s : State), s.dev.eth.up = true ∧ badHeader (splitDgram m) = false ∧ m.dest < 32 ∧ inRom s.dev = false
        ∧ enabled m.dest s.dev = true ∧ boundSource m.dest m.src s.dev = false)
    ∧ (∃ (m0 : Dgram) (aid : Nat) (a : Assoc) (s : State), let m := splitDgram (asHead 0#8 (fOPEN ||| fCLOSE ||| fREPLY ||| fREJECT ||| fAUTH) m0); s.dev.eth.up = true ∧ dropped m s.found = none ∧ findAssoc m.src m.sport (destOf m) s.dev = some (aid, a) ∧ assocAt aid s.dev = some a ∧ a.lost = false ∧ a.closing = false)
    ∧ (∃ (m0 : Dgram) (aid : Nat) (a : Assoc) (s : State), let m := splitDgram (asHead 0#8 (fOPEN ||| fCLOSE ||| fREPLY ||| fREJECT ||| fAUTH) m0); s.dev.eth.up = true ∧ dropped m s.found = none ∧ findAssoc m.src m.sport (destOf m) s.dev = some (aid, a) ∧ assocAt aid s.dev = some a ∧ a.lost = false ∧ a.closing = false ∧ a.queued = [] ∧ (∀ x, x ∈ a.unacked → hasFlag x.hdr fREPLY = true))
    ∧ (∃ (m0 : Dgram) (s : State), s.dev.eth.up = true ∧ dropped (splitDgram (asHead (fOPEN ||| fCLOSE) 0xFF#8 m0)) s.found = none
        ∧ s.dev.pwr.state = 2 ∧ s.dev.pwr.target = none ∧ s.dev.pwr.waking = false) :=
  ⟨⟨{ dg 0#8 0#8 0 1#32 0#32 0#32 [] with src := 2#128 }, st up, by decide +kernel⟩,
   ⟨dg 0#8 0#8 0 1#32 0#32 0#32 [], 0, as0, st (assocs [as0] up), by decide +kernel⟩,
   ⟨dg 0#8 0#8 0 1#32 0#32 0#32 [], 0, { as0 with unacked := [{ sent0 with hdr := { sent0.hdr with flags := fREPLY } }] },
      st (assocs [{ as0 with unacked := [{ sent0 with hdr := { sent0.hdr with flags := fREPLY } }] }] up), by decide +kernel⟩,
   ⟨dg 0#8 0#8 0 1#32 0#32 0#32 [], st { up with pwr := { up.pwr with state := 2 } }, by decide +kernel⟩⟩

theorem test_AssociationsOpenAndClose :
    (∃ (m0 : Dgram) (s : State), let m := splitDgram (asHead fOPEN (fCLOSE ||| fREPLY ||| fREJECT ||| fAUTH) m0); let dest := destOf m;
        let n := openOn dest s.dev; s.dev.eth.up = true ∧ dropped m s.found = none ∧ findAssoc m.src m.sport dest s.dev = none
        ∧ strandPaused s.dev = false ∧ macSpent dest s.dev = false ∧ n < 64
        ∧ (s.dev.strand.assocs.filter fun e => !e.2.lost).length < 1024 ∧ 4 ≤ shareOf dest (n + 1) s.dev ∧ 64 ≤ m.hdr.credit.toNat)
    ∧ (∃ (m0 : Dgram) (s : State), let m := splitDgram (asHead fOPEN (fCLOSE ||| fREPLY ||| fREJECT ||| fAUTH) m0); let dest := destOf m;
        let n := openOn dest s.dev; s.dev.eth.up = true ∧ dropped m s.found = none ∧ findAssoc m.src m.sport dest s.dev = none
        ∧ macSpent dest s.dev = false ∧ (64 ≤ n ∨ 1024 ≤ (s.dev.strand.assocs.filter fun e => !e.2.lost).length ∨ shareOf dest (n + 1) s.dev < 4 ∨ m.hdr.credit.toNat < 64))
    ∧ (∃ (m0 : Dgram) (s : State), let m := splitDgram (asHead fOPEN (fCLOSE ||| fREPLY ||| fREJECT ||| fAUTH) m0); let dest := destOf m;
        let n := openOn dest s.dev; s.dev.eth.up = true ∧ dropped m s.found = none ∧ findAssoc m.src m.sport dest s.dev = none
        ∧ macSpent dest s.dev = false ∧ (64 ≤ n ∨ 1024 ≤ (s.dev.strand.assocs.filter fun e => !e.2.lost).length ∨ shareOf dest (n + 1) s.dev < 4 ∨ m.hdr.credit.toNat < 64))
    ∧ (∃ (m0 : Dgram) (aid : Nat) (old : Assoc) (s : State), let m := splitDgram (asHead fOPEN (fCLOSE ||| fREPLY ||| fREJECT ||| fAUTH) m0); let dest := destOf m; let k := b2n (!old.lost); let n := openOn dest s.dev - k; s.dev.eth.up = true ∧ dropped m s.found = none ∧ findAssoc m.src m.sport dest s.dev = some (aid, old) ∧ n < 64 ∧ (s.dev.strand.assocs.filter fun e => !e.2.lost).length - k < 1024 ∧ 4 ≤ shareOf dest (n + 1) s.dev ∧ 64 ≤ m.hdr.credit.toNat)
    ∧ (∃ (m0 : Dgram) (aid : Nat) (old : Assoc) (s : State), let m := splitDgram (asHead fOPEN (fCLOSE ||| fREPLY ||| fREJECT ||| fAUTH) m0); let dest := destOf m; let k := b2n (!old.lost); let n := openOn dest s.dev - k; s.dev.eth.up = true ∧ dropped m s.found = none ∧ findAssoc m.src m.sport dest s.dev = some (aid, old) ∧ n < 64 ∧ (s.dev.strand.assocs.filter fun e => !e.2.lost).length - k < 1024 ∧ 4 ≤ shareOf dest (n + 1) s.dev ∧ 64 ≤ m.hdr.credit.toNat)
    ∧ (∃ (m0 : Dgram) (aid : Nat) (a : Assoc) (s : State), let m := splitDgram (asHead fCLOSE (fOPEN ||| fREPLY ||| fREJECT ||| fAUTH) m0); s.dev.eth.up = true ∧ dropped m s.found = none ∧ findAssoc m.src m.sport (destOf m) s.dev = some (aid, a) ∧ assocAt aid s.dev = some a ∧ a.lost = false ∧ a.unacked = [] ∧ a.queued = [] ∧ (∀ h, h ∈ s.dev.strand.held → h.aid ≠ aid))
    ∧ (∃ (m0 : Dgram) (aid : Nat) (a : Assoc) (s : State) (x : Sent),
        let m := splitDgram (asHead fCLOSE (fOPEN ||| fREPLY ||| fREJECT ||| fAUTH) m0); s.dev.eth.up = true ∧ dropped m s.found = none
        ∧ findAssoc m.src m.sport (destOf m) s.dev = some (aid, a) ∧ assocAt aid s.dev = some a ∧ a.lost = false ∧ x ∈ a.unacked
        ∧ seqGe m.hdr.ack x.hdr.seq = false) :=
  ⟨⟨dg 0#8 0#8 0 1#32 0#32 0#32 [], st up, by decide +kernel⟩,
   ⟨{ dg 0#8 0#8 0 1#32 0#32 0#32 [] with hdr := { (dg 0#8 0#8 0 1#32 0#32 0#32 []).hdr with credit := 63#32 } }, st up, by decide +kernel⟩,
   ⟨dg 0#8 0#8 0 1#32 0#32 0#32 [], st { up with map := { up.map with cur := [(0, (res0.take 2 ++ [0#8]) ++ res0.drop 3), (1, net0)] } },
      by decide +kernel⟩,
   ⟨dg 0#8 0#8 0 1#32 0#32 0#32 [], 0, as0, st (assocs [as0] up), by decide +kernel⟩,
   ⟨dg 0#8 0#8 0 1#32 0#32 0#32 [], 0, { as0 with lost := true }, st (assocs [{ as0 with lost := true }] up), by decide +kernel⟩,
   ⟨dg 0#8 0#8 0 1#32 0#32 0#32 [], 0, as0, st (assocs [as0] up), by decide +kernel⟩,
   ⟨dg 0#8 0#8 0 1#32 0#32 0#32 [], 0, { as0 with unacked := [sent0] }, st (assocs [{ as0 with unacked := [sent0] }] up), sent0,
      by decide +kernel⟩⟩

theorem test_AssociationTimers :
    (∃ (aid : Nat) (a : Assoc) (t : DWord) (s : State), assocAt aid s.dev = some a ∧ a.lost = false ∧ a.accepted = some t
        ∧ us 10 ≤ since t s.dev ∧ strandPaused s.dev = false ∧ s.dev.eth.up = true ∧ macSpent a.dest s.dev = false)
    ∧ (∃ (aid : Nat) (a : Assoc) (x : Sent) (r : List Sent) (s : State), assocAt aid s.dev = some a ∧ a.lost = false
        ∧ a.unacked = x :: r ∧ strandPaused s.dev = false ∧ a.rto ≤ since (lastSent a x) s.dev ∧ s.dev.eth.up = true
        ∧ (macCounted a.dest s.dev = true → mgetD s.dev.strand.macPn a.dest 0 + a.unacked.length < 2 ^ 32))
    ∧ (∃ (aid : Nat) (a : Assoc) (x : Sent) (r : List Sent) (s : State), assocAt aid s.dev = some a ∧ a.lost = false
        ∧ a.unacked = x :: r ∧ sec 1 ≤ since x.first s.dev)
    ∧ (∃ (aid : Nat) (a : Assoc) (s : State), assocAt aid s.dev = some a) :=
  ⟨⟨0, { as0 with accepted := some (up.time - 1000#64) }, up.time - 1000#64,
      st (assocs [{ as0 with accepted := some (up.time - 1000#64) }] up), by decide +kernel⟩,
   ⟨0, { as0 with unacked := [{ sent0 with first := up.time - 5000#64 }] }, { sent0 with first := up.time - 5000#64 }, [],
      st (assocs [{ as0 with unacked := [{ sent0 with first := up.time - 5000#64 }] }] up), by decide +kernel⟩,
   ⟨0, { as0 with unacked := [sent0] }, sent0, [], st (assocs [{ as0 with unacked := [sent0] }] up), by decide +kernel⟩,
   ⟨0, { as0 with unacked := [sent0] }, st (assocs [{ as0 with unacked := [sent0] }] up), by decide +kernel⟩⟩

theorem test_StreamsSupplied :
    (∃ (m0 : Dgram) (aid : Nat) (i : Nat) (e : Epoch) (s : State), let m := splitDgram (asReq 0x01#8 m0); let b := heardOn aid m s.found;
        let l := m.payload; let z := admitLists l; TakesWork m aid s.found ∧ 0x58 ≤ l.length ∧ l.length = z.len ∧ z.padOk = true
        ∧ u8 l 3 < 64 ∧ u8 l 0x13 = 0 ∧ u32 l 0x54 = 0 ∧ freeEntry m.dest b = some i ∧ admitStatus m.dest l z i b = 0
        ∧ curEpoch m.dest (u8 l 0) b = some e)
    ∧ (∃ (m0 : Dgram) (aid : Nat) (s : State), let m := splitDgram (asReq 0x01#8 m0); let b := heardOn aid m s.found; let l := m.payload;
        let z := admitLists l; TakesWork m aid s.found ∧ 0x58 ≤ l.length ∧ l.length = z.len ∧ z.padOk = true ∧ u8 l 3 < 64
        ∧ u8 l 0x13 = 0 ∧ u32 l 0x54 = 0 ∧ freeEntry m.dest b = none)
    ∧ (∃ (m0 : Dgram) (aid : Nat) (i : Nat) (x : Stream) (s : State), let m := splitDgram (asReq 0x02#8 m0);
        let b := heardOn aid m s.found; let l := m.payload; let nd := u32 l 0x10; let nm := u32 l 0x14; TakesWork m aid s.found
        ∧ l.length = 0x18 + pad4 nd + pad4 nm ∧ u8 l 0 < 32 ∧ u8 l 1 = 0 ∧ allZero (bytesAt l (0x18 + nd) (pad4 nd - nd)) = true
        ∧ allZero (bytesAt l (0x18 + pad4 nd + nm) (pad4 nm - nm)) = true ∧ handleStream m.dest m.hdr.stream b = some (i, x)
        ∧ appendStatus l x b = 0)
    ∧ (∃ (m0 : Dgram) (aid : Nat) (i : Nat) (x : Stream) (s : State), let m := splitDgram (asReq 0x02#8 m0);
        let b := heardOn aid m s.found; let l := m.payload; let nd := u32 l 0x10; let nm := u32 l 0x14; TakesWork m aid s.found
        ∧ l.length = 0x18 + pad4 nd + pad4 nm ∧ u8 l 0 < 32 ∧ u8 l 1 = 0 ∧ allZero (bytesAt l (0x18 + nd) (pad4 nd - nd)) = true
        ∧ allZero (bytesAt l (0x18 + pad4 nd + nm) (pad4 nm - nm)) = true ∧ handleStream m.dest m.hdr.stream b = some (i, x)
        ∧ appendStatus l x b = 0) :=
  ⟨⟨dg 1#8 0#8 0 1#32 0#32 0#32 admit1, 0, 0, ep0, st serve0, ⟨works (by decide +kernel), by decide +kernel⟩⟩,
   ⟨dg 1#8 0#8 0 1#32 0#32 0#32 admit1, 0, st { serve0 with map := { up.map with cur := [(0, noStreams), (1, net0)] } },
      ⟨works (by decide +kernel), by decide +kernel⟩⟩,
   ⟨dg 2#8 0#8 0 1#32 0x40003#32 0#32 append1, 0, 3, { str0 with state := 2, more := true },
      st (withStr { str0 with state := 2, more := true } serve0), ⟨works (by decide +kernel), by decide +kernel⟩⟩,
   ⟨dg 2#8 0#8 0 1#32 0x40003#32 0#32 append1, 0, 3, { str0 with state := 4 },
      st (withStr { str0 with state := 4 } serve0), ⟨works (by decide +kernel), by decide +kernel⟩⟩⟩

theorem test_StreamsPausedAndCancelled :
    (∃ (m0 : Dgram) (aid : Nat) (i : Nat) (x : Stream) (s : State), let m := splitDgram (asReq 0x03#8 m0);
        let b := heardOn aid m s.found; TakesWork m aid s.found ∧ m.payload = [] ∧ handleStream m.dest m.hdr.stream b = some (i, x)
        ∧ 1 ≤ x.state ∧ x.state < 5 ∧ x.steps = [])
    ∧ (∃ (m0 : Dgram) (aid : Nat) (i : Nat) (x : Stream) (s : State), let m := splitDgram (asReq 0x04#8 m0);
        let b := heardOn aid m s.found; TakesWork m aid s.found ∧ m.payload = [] ∧ handleStream m.dest m.hdr.stream b = some (i, x)
        ∧ 1 ≤ x.state ∧ x.state < 6 ∧ x.state = 4 ∧ x.turn = true ∧ x.schedp = false)
    ∧ (∃ (m0 : Dgram) (aid : Nat) (i : Nat) (x : Stream) (s : State), let m := splitDgram (asReq 0x04#8 m0);
        let b := heardOn aid m s.found; TakesWork m aid s.found ∧ m.payload = [] ∧ handleStream m.dest m.hdr.stream b = some (i, x)
        ∧ 1 ≤ x.state ∧ x.state < 6 ∧ x.state ≠ 4)
    ∧ (∃ (m0 : Dgram) (aid : Nat) (i : Nat) (x : Stream) (s : State), let m := splitDgram (asReq 0x05#8 m0);
        let b := heardOn aid m s.found; TakesWork m aid s.found ∧ m.payload = [] ∧ handleStream m.dest m.hdr.stream b = some (i, x)
        ∧ streamLive x = true) :=
  ⟨⟨dg 3#8 0#8 0 1#32 0x40003#32 0#32 [], 0, 3, str0, st (withStr str0 serve0), ⟨works (by decide +kernel), by decide +kernel⟩⟩,
   ⟨dg 4#8 0#8 0 1#32 0x40003#32 0#32 [], 0, 3, { str0 with state := 4 },
      st (withStr { str0 with state := 4 } serve0), ⟨works (by decide +kernel), by decide +kernel⟩⟩,
   ⟨dg 4#8 0#8 0 1#32 0x40003#32 0#32 [], 0, 3, str0, st (withStr str0 serve0), ⟨works (by decide +kernel), by decide +kernel⟩⟩,
   ⟨dg 5#8 0#8 0 1#32 0x40003#32 0#32 [], 0, 3, str0, st (withStr str0 serve0), ⟨works (by decide +kernel), by decide +kernel⟩⟩⟩

theorem test_ParksAndPrefixes :
    (∃ (m0 : Dgram) (aid : Nat) (i : Nat) (x : Stream) (s : State), let m := splitDgram (asReq 0x06#8 m0);
        let b := heardOn aid m s.found; let l := m.payload; TakesWork m aid s.found ∧ l.length = 8 ∧ allZero (bytesAt l 1 3) = true
        ∧ handleStream m.dest m.hdr.stream b = some (i, x) ∧ parkStatus l i x b = 0 ∧ x.unpark = false)
    ∧ (∃ (m0 : Dgram) (aid : Nat) (i : Nat) (x : Stream) (s : State), let m := splitDgram (asReq 0x06#8 m0);
        let b := heardOn aid m s.found; let l := m.payload; TakesWork m aid s.found ∧ l.length = 8 ∧ allZero (bytesAt l 1 3) = true
        ∧ handleStream m.dest m.hdr.stream b = some (i, x) ∧ parkStatus l i x b = 0 ∧ x.unpark = false)
    ∧ (∃ (m0 : Dgram) (aid : Nat) (i : Nat) (x : Stream) (s : State), let m := splitDgram (asReq 0x07#8 m0);
        let b := heardOn aid m s.found; let ts := moveTransfers x.home i 0 (fun e => e.loc != 0) b; TakesWork m aid s.found
        ∧ m.payload = [] ∧ handleStream m.dest m.hdr.stream b = some (i, x) ∧ unparkStatus i x b = 0 ∧ x.moving = false ∧ ts = [])
    ∧ (∃ (m0 : Dgram) (aid : Nat) (i : Nat) (x : Stream) (s : State), let m := splitDgram (asReq 0x07#8 m0);
        let b := accepted aid m s.found; InSequence m aid s.found ∧ m.dest < 32 ∧ hasFlag m.hdr fREPLY = false ∧ inRom b = false
        ∧ diesAway b = false ∧ handleStream m.dest m.hdr.stream b = some (i, x) ∧ x.moving = true)
    ∧ (∃ (m0 : Dgram) (aid : Nat) (i : Nat) (h : Nat) (x : Stream) (s : State), let m := splitDgram (asReq 0x08#8 m0);
        let b := heardOn aid m s.found; TakesWork m aid s.found ∧ m.payload.length = 4
        ∧ handleStream m.dest m.hdr.stream b = some (i, x) ∧ registerStatus m.dest (u32 m.payload 0) i x b = 0
        ∧ freePrefix m.dest b = some h)
    ∧ (∃ (m0 : Dgram) (aid : Nat) (f : Prefix) (s : State), let m := splitDgram (asReq 0x09#8 m0); let b := heardOn aid m s.found;
        TakesWork m aid s.found ∧ m.payload.length = 4 ∧ m.hdr.stream = 0#32 ∧ mget? b.prefixes (u32 m.payload 0) = some f
        ∧ f.part = m.dest) :=
  ⟨⟨dg 0x6#8 0#8 0 1#32 0x40003#32 0#32 ([0#8, 0#8, 0#8, 0#8] ++ leBytes 4 2592000), 0, 3, str0,
      st (withStr str0 serve0), ⟨works (by decide +kernel), by decide +kernel⟩⟩,
   ⟨dg 0x6#8 0#8 0 1#32 0x40003#32 0#32 ([0#8, 0#8, 0#8, 0#8] ++ leBytes 4 2592000), 0, 3, stepX,
      st (withStr stepX serve0), ⟨works (by decide +kernel), by decide +kernel⟩⟩,
   ⟨dg 7#8 0#8 0 1#32 0x40003#32 0#32 [], 0, 3, { str0 with state := 5 },
      st (withStr { str0 with state := 5 } serve0), ⟨works (by decide +kernel), by decide +kernel⟩⟩,
   ⟨dg 0x7#8 0#8 0 1#32 0x40003#32 0#32 ([]), 0, 3, { str0 with state := 5, moving := true },
      st (withStr { str0 with state := 5, moving := true } serve0), ⟨sequenced (a := as0) (by decide +kernel), by decide +kernel⟩⟩,
   ⟨dg 8#8 0#8 0 1#32 0x40003#32 0#32 (leBytes 4 1), 0, 3, 0, str0, st (withStr str0 serve0), ⟨works (by decide +kernel),
      by decide +kernel⟩⟩,
   ⟨dg 9#8 0#8 0 1#32 0#32 0#32 (leBytes 4 15), 0, pfx0, st { serve0 with prefixes := [(15, pfx0)] },
      ⟨works (by decide +kernel), by decide +kernel⟩⟩⟩

theorem test_WeightAndAdapterWindows :
    (∃ (m0 : Dgram) (aid : Nat) (n : Nat) (s : State), let m := splitDgram (asReq 0x20#8 m0); let b := heardOn aid m s.found;
        let l := m.payload; TakesWork m aid s.found ∧ l.length = 40 ∧ u8 l 1 < 2 ∧ allZero (bytesAt l 2 2) = true
        ∧ loadBeginStatus m.dest l b = stOK ∧ freeWindow b = some n ∧ bit (u8 l 1) 0 = false)
    ∧ (∃ (m0 : Dgram) (aid : Nat) (n : Nat) (s : State), let m := splitDgram (asReq 0x20#8 m0); let b := heardOn aid m s.found;
        let l := m.payload; TakesWork m aid s.found ∧ l.length = 40 ∧ u8 l 1 < 2 ∧ allZero (bytesAt l 2 2) = true
        ∧ loadBeginStatus m.dest l b = stOK ∧ freeWindow b = some n ∧ bit (u8 l 1) 0 = true)
    ∧ (∃ (m0 : Dgram) (aid : Nat) (w : Window) (s : State), let m := splitDgram (asReq 0x21#8 m0); let b := heardOn aid m s.found;
        TakesWork m aid s.found ∧ m.payload.length = 4 ∧ allZero (m.payload.drop 2) = true ∧ windowAt (u16 m.payload 0) b = some w
        ∧ w.part = m.dest ∧ w.state = 2)
    ∧ (∃ (m0 : Dgram) (aid : Nat) (w : Window) (s : State), let m := splitDgram (asReq 0x22#8 m0); let b := heardOn aid m s.found;
        TakesWork m aid s.found ∧ m.payload.length = 4 ∧ allZero (m.payload.drop 2) = true ∧ windowAt (u16 m.payload 0) b = some w
        ∧ w.part = m.dest ∧ w.state ≠ 3)
    ∧ (∃ (m0 : Dgram) (aid : Nat) (n : Nat) (s : State), let m := splitDgram (asOp 0x23#8 2 0#8 m0); let b := heardOn aid m s.found;
        let l := m.payload; TakesWork m aid s.found ∧ adapterMalformed l = false ∧ u8 l 2 = 0 ∧ adapterStatus m.dest l b = stOK
        ∧ freeWindow b = some n)
    ∧ (∃ (m0 : Dgram) (aid : Nat) (n : Nat) (s : State), let m := splitDgram (asOp 0x23#8 2 0#8 m0); let b := heardOn aid m s.found;
        let l := m.payload; TakesWork m aid s.found ∧ adapterMalformed l = false ∧ u8 l 2 = 0 ∧ adapterStatus m.dest l b = stOK
        ∧ freeWindow b = some n)
    ∧ (∃ (m0 : Dgram) (aid : Nat) (s : State), let m := splitDgram (asOp 0x23#8 2 1#8 m0); let b := heardOn aid m s.found;
        let l := m.payload; TakesWork m aid s.found ∧ adapterMalformed l = false ∧ u8 l 2 = 1 ∧ adapterStatus m.dest l b = stOK) :=
  ⟨⟨dg 32#8 0#8 0 1#32 0#32 0#32 (leBytes 4 0 ++ leBytes 4 2 ++ leBytes 4 1 ++ leBytes 4 0 ++ padTo 24 (leBytes 2 1)), 0, 0,
      st serve0, ⟨works (by decide +kernel), by decide +kernel⟩⟩,
   ⟨dg 32#8 0#8 0 1#32 0#32 0#32 (leBytes 4 256 ++ leBytes 4 2 ++ leBytes 4 1 ++ leBytes 4 0 ++ padTo 24 (leBytes 2 1)), 0, 0,
      st serve0, ⟨works (by decide +kernel), by decide +kernel⟩⟩,
   ⟨dg 33#8 0#8 0 1#32 0#32 0#32 (leBytes 4 0), 0, win0, st { serve0 with loads := { serve0.loads with windows := [win0] } },
      ⟨works (by decide +kernel), by decide +kernel⟩⟩,
   ⟨dg 34#8 0#8 0 1#32 0#32 0#32 (leBytes 4 0), 0, win0, st { serve0 with loads := { serve0.loads with windows := [win0] } },
      ⟨works (by decide +kernel), by decide +kernel⟩⟩,
   ⟨dg 35#8 0#8 0 1#32 0#32 0#32 (leBytes 4 0 ++ leBytes 4 1 ++ padTo 8 [1#8] ++ padTo 24 (leBytes 2 1)), 0, 0,
      st serve0, ⟨works (by decide +kernel), by decide +kernel⟩⟩,
   ⟨dg 35#8 0#8 0 1#32 0#32 0#32 (leBytes 4 0 ++ leBytes 4 1 ++ padTo 8 [64#8] ++ padTo 24 (leBytes 2 1)), 0, 0,
      st serve0, ⟨works (by decide +kernel), by decide +kernel⟩⟩,
   ⟨dg 35#8 0#8 0 1#32 0#32 0#32 (leBytes 4 0 ++ leBytes 4 1 ++ padTo 8 [0#8] ++ padTo 24 []), 0,
      st { serve0 with loads := { serve0.loads with gens := [gen0] } }, ⟨works (by decide +kernel), by decide +kernel⟩⟩⟩

theorem test_TableEdits :
    (∃ (m0 : Dgram) (aid : Nat) (s : State), let m := splitDgram (asReq 0x24#8 m0); let b := heardOn aid m s.found; let l := m.payload;
        let n := u16 l 0; let recs := chunks 16 n (l.drop 4); TakesWork m aid s.found ∧ l.length = 4 + 16 * n ∧ u16 l 2 = 0 ∧ 1 ≤ n
        ∧ n ≤ 64 ∧ recs.findIdx? (fun r => truncStatus m.dest r b != 0) = none
        ∧ (∀ r, r ∈ recs → ∀ x, streamAt (u32 r 4) b = some x → ∀ f, f ∈ (kvAt x.home b).bufs → f.stream = u32 r 4 → f.st ≠ 1))
    ∧ (∃ (m0 : Dgram) (aid : Nat) (s : State) (k : Nat), let m := splitDgram (asReq 0x24#8 m0); let b := heardOn aid m s.found;
        let l := m.payload; let n := u16 l 0; let recs := chunks 16 n (l.drop 4); TakesWork m aid s.found ∧ l.length = 4 + 16 * n
        ∧ u16 l 2 = 0 ∧ 1 ≤ n ∧ n ≤ 64 ∧ recs.findIdx? (fun r => truncStatus m.dest r b != 0) = some k) :=
  ⟨⟨dg 36#8 0#8 0 1#32 0#32 0#32 (leBytes 4 1 ++ [6#8, 0#8, 0#8, 0#8] ++ leBytes 4 3 ++ leBytes 4 1 ++ leBytes 4 0), 0,
      st (onKv (fun k => { k with regions := [(6, reg0)] }) (withStr { str0 with state := 4 } serve0)),
      ⟨works (by decide +kernel), by decide +kernel⟩⟩,
   ⟨dg 36#8 0#8 0 1#32 0#32 0#32 (leBytes 4 1 ++ [6#8, 0#8, 0#8, 0#8] ++ leBytes 4 3 ++ leBytes 4 2 ++ leBytes 4 0), 0,
      st (onKv (fun k => { k with regions := [(6, reg0)] }) (withStr { str0 with state := 4 } serve0)), 0,
      ⟨works (by decide +kernel), by decide +kernel⟩⟩⟩

theorem test_SyncObjects_1 :
    (∃ (i : Instr) (op : Nat) (m0 : Dgram) (aid : Nat) (s : State) (o : Nat), ((i = .syncSignalAdd m0
        ∧ op = 0) ∨ (i = .syncSignalSet m0 ∧ op = 1)) ∧ let m := splitDgram (asOp 0x28#8 4 (BitVec.ofNat 8 op) m0);
        let b := heardOn aid m s.found; let l := m.payload; TakesWork m aid s.found ∧ l.length = 16 ∧ allZero (bytesAt l 5 3) = true
        ∧ u8 l 4 = op ∧ syncHandle m.dest (u32 l 0) 16 b = some o ∧ (cnsSyncNo o b = none ∨ cnsPart b ≠ m.dest ∨ isCnsMaster b = true))
    ∧ (∃ (i : Instr) (op : Nat) (m0 : Dgram) (aid : Nat) (s : State) (o : Nat), ((i = .syncSignalAdd m0
        ∧ op = 0) ∨ (i = .syncSignalSet m0 ∧ op = 1)) ∧ let m := splitDgram (asOp 0x28#8 4 (BitVec.ofNat 8 op) m0);
        let b := heardOn aid m s.found; let l := m.payload; TakesWork m aid s.found ∧ l.length = 16 ∧ allZero (bytesAt l 5 3) = true
        ∧ u8 l 4 = op ∧ syncHandle m.dest (u32 l 0) 16 b = some o ∧ (cnsSyncNo o b = none ∨ cnsPart b ≠ m.dest ∨ isCnsMaster b = true))
    ∧ (∃ (i : Instr) (op : Nat) (m0 : Dgram) (aid : Nat) (s : State) (o : Nat) (n : Nat), ((i = .syncSignalAdd m0
        ∧ op = 0) ∨ (i = .syncSignalSet m0 ∧ op = 1)) ∧ let m := splitDgram (asOp 0x28#8 4 (BitVec.ofNat 8 op) m0);
        let b := heardOn aid m s.found; let l := m.payload; TakesWork m aid s.found ∧ l.length = 16 ∧ allZero (bytesAt l 5 3) = true
        ∧ u8 l 4 = op ∧ syncHandle m.dest (u32 l 0) 16 b = some o ∧ cnsSyncNo o b = some n ∧ cnsPart b = m.dest ∧ isCnsMaster b = false)
    ∧ (∃ (i : Instr) (op : Nat) (m0 : Dgram) (aid : Nat) (s : State) (o : Nat) (n : Nat), ((i = .syncSignalAdd m0
        ∧ op = 0) ∨ (i = .syncSignalSet m0 ∧ op = 1)) ∧ let m := splitDgram (asOp 0x28#8 4 (BitVec.ofNat 8 op) m0);
        let b := heardOn aid m s.found; let l := m.payload; TakesWork m aid s.found ∧ l.length = 16 ∧ allZero (bytesAt l 5 3) = true
        ∧ u8 l 4 = op ∧ syncHandle m.dest (u32 l 0) 16 b = some o ∧ cnsSyncNo o b = some n ∧ cnsPart b = m.dest ∧ isCnsMaster b = false)
    ∧ (∃ (i : Instr) (op : Nat) (m0 : Dgram) (aid : Nat) (s : State), ((i = .syncSignalAdd m0 ∧ op = 0) ∨ (i = .syncSignalSet m0
        ∧ op = 1)) ∧ let m := splitDgram (asOp 0x28#8 4 (BitVec.ofNat 8 op) m0); let b := heardOn aid m s.found; let l := m.payload;
        TakesWork m aid s.found ∧ l.length = 16 ∧ allZero (bytesAt l 5 3) = true ∧ u8 l 4 = op ∧ syncHandle m.dest (u32 l 0) 16 b = none)
    ∧ (∃ (i : Instr) (op : Nat) (m0 : Dgram) (aid : Nat) (s : State), ((i = .syncSignalAdd m0 ∧ op = 0) ∨ (i = .syncSignalSet m0
        ∧ op = 1)) ∧ let m := splitDgram (asOp 0x28#8 4 (BitVec.ofNat 8 op) m0); let b := heardOn aid m s.found; let l := m.payload;
        TakesWork m aid s.found ∧ l.length = 16 ∧ allZero (bytesAt l 5 3) = true ∧ u8 l 4 = op ∧ syncHandle m.dest (u32 l 0) 16 b = none)
    ∧ (∃ (m0 : Dgram) (aid : Nat) (s : State) (o : Nat), let m := splitDgram (asReq 0x29#8 m0); let b := heardOn aid m s.found;
        let l := m.payload; TakesWork m aid s.found ∧ l.length = 24 ∧ allZero (bytesAt l 4 4) = true
        ∧ let full := 8192 ≤ b.sync.waits.length ∨ 512 ≤ (b.sync.waits.filter fun w => w.part == m.dest).length;
        syncHandle m.dest (u32 l 0) 17 b = some o ∧ ¬ full) :=
  ⟨⟨.syncSignalAdd (dg 0x28#8 0#8 0 1#32 0#32 0#32 (leBytes 4 15 ++ leBytes 4 0 ++ leBytes 8 5)), 0,
      dg 0x28#8 0#8 0 1#32 0#32 0#32 (leBytes 4 15 ++ leBytes 4 0 ++ leBytes 8 5), 0,
      st serve0, 15, ⟨.inl ⟨rfl, rfl⟩, works (by decide +kernel), by decide +kernel⟩⟩,
   ⟨.syncSignalSet (dg 0x28#8 0#8 0 1#32 0#32 0#32 (leBytes 4 0 ++ leBytes 4 1 ++ leBytes 8 5)), 1,
      dg 0x28#8 0#8 0 1#32 0#32 0#32 (leBytes 4 0 ++ leBytes 4 1 ++ leBytes 8 5), 0,
      st serve0, 0, ⟨.inr ⟨rfl, rfl⟩, works (by decide +kernel), by decide +kernel⟩⟩,
   ⟨.syncSignalAdd (dg 0x28#8 0#8 0 1#32 0#32 0#32 (leBytes 4 8 ++ leBytes 4 0 ++ leBytes 8 5)), 0,
      dg 0x28#8 0#8 0 1#32 0#32 0#32 (leBytes 4 8 ++ leBytes 4 0 ++ leBytes 8 5), 0,
      st (assocs [as0] (inCns 1 0 1 2)), 8, 0, ⟨.inl ⟨rfl, rfl⟩, works (by decide +kernel), by decide +kernel⟩⟩,
   ⟨.syncSignalSet (dg 0x28#8 0#8 0 1#32 0#32 0#32 (leBytes 4 11 ++ leBytes 4 1 ++ leBytes 8 5)), 1,
      dg 0x28#8 0#8 0 1#32 0#32 0#32 (leBytes 4 11 ++ leBytes 4 1 ++ leBytes 8 5), 0,
      st (assocs [as0] (inCns 1 0 1 2)), 11, 3, ⟨.inr ⟨rfl, rfl⟩, works (by decide +kernel), by decide +kernel⟩⟩,
   ⟨.syncSignalAdd (dg 0x28#8 0#8 0 1#32 0#32 0#32 (leBytes 4 16 ++ leBytes 4 0 ++ leBytes 8 5)), 0,
      dg 0x28#8 0#8 0 1#32 0#32 0#32 (leBytes 4 16 ++ leBytes 4 0 ++ leBytes 8 5), 0,
      st serve0, ⟨.inl ⟨rfl, rfl⟩, works (by decide +kernel), by decide +kernel⟩⟩,
   ⟨.syncSignalSet (dg 0x28#8 0#8 0 1#32 0#32 0#32 (leBytes 4 16 ++ leBytes 4 1 ++ leBytes 8 5)), 1,
      dg 0x28#8 0#8 0 1#32 0#32 0#32 (leBytes 4 16 ++ leBytes 4 1 ++ leBytes 8 5), 0,
      st serve0, ⟨.inr ⟨rfl, rfl⟩, works (by decide +kernel), by decide +kernel⟩⟩,
   ⟨dg 0x29#8 0#8 0 1#32 0#32 0#32 (leBytes 4 0 ++ leBytes 4 0 ++ leBytes 8 1 ++ leBytes 8 7), 0,
      st serve0, 0, ⟨works (by decide +kernel), by decide +kernel⟩⟩⟩

theorem test_SyncObjects_2 :
    (∃ (m0 : Dgram) (aid : Nat) (s : State) (o : Nat), let m := splitDgram (asReq 0x29#8 m0); let b := heardOn aid m s.found;
        let l := m.payload; TakesWork m aid s.found ∧ l.length = 24 ∧ allZero (bytesAt l 4 4) = true
        ∧ let full := 8192 ≤ b.sync.waits.length ∨ 512 ≤ (b.sync.waits.filter fun w => w.part == m.dest).length;
        syncHandle m.dest (u32 l 0) 17 b = some o ∧ full)
    ∧ (∃ (m0 : Dgram) (aid : Nat) (s : State), let m := splitDgram (asReq 0x29#8 m0); let b := heardOn aid m s.found; let l := m.payload;
        TakesWork m aid s.found ∧ l.length = 24 ∧ allZero (bytesAt l 4 4) = true ∧ syncHandle m.dest (u32 l 0) 17 b = none) :=
  ⟨⟨dg 0x29#8 0#8 0 1#32 0#32 0#32 (leBytes 4 0 ++ leBytes 4 0 ++ leBytes 8 1 ++ leBytes 8 7), 0,
      st { serve0 with sync := { serve0.sync with waits := List.replicate 512 ⟨0, 0, 0, 0#32, 1#64, 7#64⟩ } }, 0,
      ⟨works (by decide +kernel), by decide +kernel⟩⟩,
   ⟨dg 0x29#8 0#8 0 1#32 0#32 0#32 (leBytes 4 16 ++ leBytes 4 0 ++ leBytes 8 1 ++ leBytes 8 7), 0,
      st serve0, ⟨works (by decide +kernel), by decide +kernel⟩⟩⟩

theorem test_IdentityAndSessions :
    (∃ (m0 : Dgram) (aid : Nat) (s : State), let m := splitDgram (asOp 0x34#8 0 0#8 m0); let b := heardOn aid m s.found;
        let l := m.payload; Takes m aid s.found ∧ l.length = 36 ∧ u8 l 0 = 0 ∧ allZero (bytesAt l 1 3) = true)
    ∧ (∃ (m0 : Dgram) (aid : Nat) (s : State), let m := splitDgram (asOp 0x34#8 0 4#8 m0); let b := heardOn aid m s.found;
        let l := m.payload; Takes m aid s.found ∧ l.length = 4 ∧ u8 l 0 = 4 ∧ allZero (bytesAt l 1 3) = true)
    ∧ (∃ (m0 : Dgram) (aid : Nat) (s : State), let m := splitDgram (asOp 0x34#8 0 1#8 m0); let b := heardOn aid m s.found;
        let l := m.payload; let role := u8 l 1; let good := (openKey role m.dest (w32 (u32 l 4)) b).any fun k => ecdsaOk k.pub (signedBytes m.hdr l 0xB0) (l.drop 0xB0); Takes m aid s.found ∧ hasFlag m.hdr fAUTH = false ∧ l.length = 308 ∧ u8 l 0 = 1 ∧ allZero (bytesAt l 2 2) = true ∧ allZero (bytesAt l 0xAD 3) = true ∧ ((role = 0 ∧ 32 ≤ m.dest) ∨ (role = 1 ∧ m.dest < 32)) ∧ good = true ∧ b.strand.sessions.length < 8)
    ∧ (∃ (m0 : Dgram) (aid : Nat) (s : State), let m := splitDgram (asOp 0x34#8 0 1#8 m0); let b := heardOn aid m s.found;
        let l := m.payload; let role := u8 l 1; let good := (openKey role m.dest (w32 (u32 l 4)) b).any fun k => ecdsaOk k.pub (signedBytes m.hdr l 0xB0) (l.drop 0xB0); Takes m aid s.found ∧ hasFlag m.hdr fAUTH = false ∧ l.length = 308 ∧ u8 l 0 = 1 ∧ allZero (bytesAt l 2 2) = true ∧ allZero (bytesAt l 0xAD 3) = true ∧ ((role = 0 ∧ 32 ≤ m.dest) ∨ (role = 1 ∧ m.dest < 32)) ∧ good = true ∧ 8 ≤ b.strand.sessions.length)
    ∧ (∃ (m0 : Dgram) (aid : Nat) (s : State), let m := splitDgram (asOp 0x34#8 0 1#8 m0); let b := heardOn aid m s.found;
        let l := m.payload; let role := u8 l 1; let good := (openKey role m.dest (w32 (u32 l 4)) b).any fun k => ecdsaOk k.pub (signedBytes m.hdr l 0xB0) (l.drop 0xB0); Takes m aid s.found ∧ hasFlag m.hdr fAUTH = false ∧ l.length = 308 ∧ u8 l 0 = 1 ∧ allZero (bytesAt l 2 2) = true ∧ allZero (bytesAt l 0xAD 3) = true ∧ ((role = 0 ∧ 32 ≤ m.dest) ∨ (role = 1 ∧ m.dest < 32)) ∧ good = false)
    ∧ (∃ (m0 : Dgram) (aid : Nat) (x : Session) (s : State), let m := splitDgram (asOp 0x34#8 0 2#8 m0);
        let b := commandOn aid m x s.found; Managed m aid x s.found ∧ m.payload.length = 4 ∧ u8 m.payload 0 = 2
        ∧ allZero (bytesAt m.payload 1 3) = true) :=
  ⟨⟨dg 0x34#8 0#8 32 1#32 0#32 0#32 (padTo 36 []), 0, st (assocs [as1] up), ⟨takes_of as1 (by decide +kernel), by decide +kernel⟩⟩,
   ⟨dg 0x34#8 0#8 32 1#32 0#32 0#32 (padTo 4 []), 0, st (assocs [as1] up), ⟨takes_of as1 (by decide +kernel), by decide +kernel⟩⟩,
   ⟨opening, 0, st (keyed [] up), ⟨takes_of as1 (by decide +kernel), by decide +kernel⟩⟩,
   ⟨opening, 0, st (keyed ((List.range 8).map fun k => { sess0 with num := w32 (k + 1) }) up),
      ⟨takes_of as1 (by decide +kernel), by decide +kernel⟩⟩,
   ⟨dg 0x34#8 0#8 32 1#32 0#32 0#32 (padTo 308 (leBytes 4 1 ++ leBytes 4 9)), 0,
      st (keyed [] up), ⟨takes_of as1 (by decide +kernel), by decide +kernel⟩⟩,
   ⟨signedBy noKey (asOp 0x34#8 0 2#8) (mg 0x34#8 (padTo 4 [])), 0, sess0,
      st (keyed [sess0] up), ⟨managed (by decide +kernel) (signed_tag (f := asOp 0x34#8 0 2#8) (fun _ _ => rfl) (by decide +kernel)),
      by decide +kernel⟩⟩⟩

theorem test_ClaimAccepted :
    (∃ (m0 : Dgram) (aid : Nat) (s : State), let m := splitDgram (asOp 0x34#8 0 3#8 m0); let b := heardOn aid m s.found;
        let l := m.payload; let k : KeyEntry := ⟨w32 (u32 l 4), 1#8, 0xFF#8, 1#8, bytesAt l 8 133⟩; Takes m aid s.found
        ∧ hasFlag m.hdr fAUTH = false ∧ l.length = 276 ∧ u8 l 0 = 3 ∧ allZero (bytesAt l 1 3) = true
        ∧ allZero (bytesAt l 0x8D 3) = true ∧ b.peg.mode = 2#2 ∧ b.peg.claimTried = false ∧ k.keyid ≠ 0#32 ∧ k.keyid ≠ 0xFFFFFFFF#32
        ∧ ecdsaOk k.pub (signedBytes m.hdr l 0x90) (l.drop 0x90) = true)
    ∧ (∃ (m0 : Dgram) (aid : Nat) (s : State), let m := splitDgram (asOp 0x34#8 0 3#8 m0); let b := heardOn aid m s.found;
        let l := m.payload; let k : KeyEntry := ⟨w32 (u32 l 4), 1#8, 0xFF#8, 1#8, bytesAt l 8 133⟩; Takes m aid s.found
        ∧ hasFlag m.hdr fAUTH = false ∧ l.length = 276 ∧ u8 l 0 = 3 ∧ allZero (bytesAt l 1 3) = true
        ∧ allZero (bytesAt l 0x8D 3) = true ∧ b.peg.mode = 2#2 ∧ b.peg.claimTried = false ∧ k.keyid ≠ 0#32 ∧ k.keyid ≠ 0xFFFFFFFF#32
        ∧ ecdsaOk k.pub (signedBytes m.hdr l 0x90) (l.drop 0x90) = false) :=
  ⟨⟨claiming pub0, 0, st { assocs [as1] up with peg := { up.peg with mode := 2#2 } }, ⟨takes_of as1 (by decide +kernel),
      by decide +kernel⟩⟩,
   ⟨claiming [], 0, st { assocs [as1] up with peg := { up.peg with mode := 2#2 } }, ⟨takes_of as1 (by decide +kernel), by decide +kernel⟩⟩⟩

theorem test_ManagementReads_1 :
    (∃ (m0 : Dgram) (aid : Nat) (x : Session) (s : State), let m := splitDgram (asReq 0x30#8 m0); let b := commandOn aid m x s.found;
        let c := commander aid m x s.found; let as_ := addrsOf m.payload; let items := as_.map fun a => (a, (none : Option Word));
        Managed m aid x s.found ∧ readBad m.payload = false ∧ countBad m.payload = false ∧ firstRefused c items b = none
        ∧ accessWaits c items b = false)
    ∧ (∃ (m0 : Dgram) (aid : Nat) (x : Session) (s : State), let m := splitDgram (asReq 0x30#8 m0); let b := commandOn aid m x s.found;
        let c := commander aid m x s.found; let as_ := addrsOf m.payload; let items := as_.map fun a => (a, (none : Option Word));
        Managed m aid x s.found ∧ readBad m.payload = false ∧ countBad m.payload = false ∧ firstRefused c items b = none
        ∧ accessWaits c items b = true)
    ∧ (∃ (m0 : Dgram) (aid : Nat) (x : Session) (s : State), let m := splitDgram (asReq 0x30#8 m0); let b := commandOn aid m x s.found;
        let c := commander aid m x s.found; let as_ := addrsOf m.payload; let items := as_.map fun a => (a, (none : Option Word));
        Managed m aid x s.found ∧ readBad m.payload = false ∧ countBad m.payload = false ∧ firstRefused c items b = none
        ∧ accessWaits c items b = true)
    ∧ (∃ (m0 : Dgram) (aid : Nat) (a : Nat) (code : Nat) (x : Session) (s : State), let m := splitDgram (asReq 0x30#8 m0);
        let b := commandOn aid m x s.found; let c := commander aid m x s.found; Managed m aid x s.found ∧ readBad m.payload = false
        ∧ countBad m.payload = false ∧ firstRefused c ((addrsOf m.payload).map fun a => (a, none)) b = some (a, code))
    ∧ (∃ (m0 : Dgram) (aid : Nat) (a : Nat) (code : Nat) (x : Session) (s : State), let m := splitDgram (asReq 0x30#8 m0);
        let b := commandOn aid m x s.found; let c := commander aid m x s.found; Managed m aid x s.found ∧ readBad m.payload = false
        ∧ countBad m.payload = false ∧ firstRefused c ((addrsOf m.payload).map fun a => (a, none)) b = some (a, code))
    ∧ (∃ (i : Instr) (m0 : Dgram) (aid : Nat) (a : Word) (x : Session) (s : State),
        (i = .loCaptureRead m0 a ∨ i = .multiWordCaptureRead m0 a) ∧ let m := splitDgram (readOne a.toNat m0);
        let b := accountThrottle (commandOn aid m x s.found); let c := commander aid m x s.found; MayRead m aid x a.toNat s.found
        ∧ mget? c.cap a.toNat = none ∧ (captures a.toNat).isEmpty = false)
    ∧ (∃ (i : Instr) (m0 : Dgram) (aid : Nat) (a : Word) (x : Session) (s : State),
        (i = .loCaptureRead m0 a ∨ i = .multiWordCaptureRead m0 a) ∧ let m := splitDgram (readOne a.toNat m0);
        let b := accountThrottle (commandOn aid m x s.found); let c := commander aid m x s.found; MayRead m aid x a.toNat s.found
        ∧ mget? c.cap a.toNat = none) :=
  ⟨⟨signedBy noKey (asReq 0x30#8) (mg 0x30#8 (leBytes 4 HS_TIMELO ++ [2#8, 0#8, 0#8, 0#8])), 0, sess0, kept up,
      ⟨managed (by decide +kernel) (req_tag (by decide +kernel)), by decide +kernel⟩⟩,
   ⟨signedBy noKey (asReq 0x30#8) (mg 0x30#8 (leBytes 4 (addrTile 11 15 32 0x100) ++ [1#8, 0#8, 0#8, 0#8])), 0, sess0,
      kept { up with pwr := { up.pwr with state := 2 } }, ⟨managed (by decide +kernel) (req_tag (by decide +kernel)), by decide +kernel⟩⟩,
   ⟨signedBy noKey (asReq 0x30#8) (mg 0x30#8 (leBytes 4 HS_TIMELO ++ [2#8, 0#8, 0#8, 0#8])), 0, sess0,
      waiting0 [heldRead up.time] { up with pwr := { up.pwr with state := 2 } },
      ⟨managed (by decide +kernel) (req_tag (by decide +kernel)), by decide +kernel⟩⟩,
   ⟨signedBy noKey (asReq 0x30#8) (mg 0x30#8 (leBytes 4 2 ++ [1#8, 0#8, 0#8, 0#8])), 0, 2, stBAD_ADDRESS, sess0, kept up,
      ⟨(managed (by decide +kernel) (req_tag (by decide +kernel))), by decide +kernel⟩⟩,
   ⟨signedBy noKey (asReq 0x30#8) (mg 0x30#8 (leBytes 4 0x10100 ++ [1#8, 0#8, 0#8, 0#8])), 0, 0x10100, stNOT_OWNER, sessP,
      st (keyed [sessP] up), ⟨(managed (by decide +kernel) (req_tag (by decide +kernel))), by decide +kernel⟩⟩,
   ⟨.loCaptureRead (rd HS_TIMELO) (w32 HS_TIMELO), rd HS_TIMELO, 0, w32 HS_TIMELO, sess0, kept up, ⟨.inl rfl,
      (mayRead_of (managed (by decide +kernel) (rd_tag (by decide +kernel))) (by decide +kernel)), by decide +kernel⟩⟩,
   ⟨.multiWordCaptureRead (rd HS_STDATA0) (w32 HS_STDATA0), rd HS_STDATA0, 0, w32 HS_STDATA0, sess0, kept up, ⟨.inr rfl,
      (mayRead_of (managed (by decide +kernel) (rd_tag (by decide +kernel))) (by decide +kernel)), by decide +kernel⟩⟩⟩

theorem test_ManagementReads_2 :
    (∃ (i : Instr) (m0 : Dgram) (aid : Nat) (a : Word) (v : Word) (x : Session) (s : State),
        (i = .loCaptureRead m0 a ∨ i = .multiWordCaptureRead m0 a) ∧ let m := splitDgram (readOne a.toNat m0);
        let b := commandOn aid m x s.found; let c := commander aid m x s.found; MayRead m aid x a.toNat s.found
        ∧ mget? c.cap a.toNat = some v) :=
  ⟨.loCaptureRead (rd (HS_TIMELO + 4)) (w32 (HS_TIMELO + 4)), rd (HS_TIMELO + 4), 0, w32 (HS_TIMELO + 4), 77#32,
      { sess0 with cap := [((HS_TIMELO + 4), 77#32)] }, st (keyed [{ sess0 with cap := [((HS_TIMELO + 4), 77#32)] }] up), ⟨.inl rfl,
      (mayRead_of (managed (by decide +kernel) (rd_tag (by decide +kernel))) (by decide +kernel)), by decide +kernel⟩⟩

theorem test_ManagementWrites_1 :
    (∃ (m0 : Dgram) (aid : Nat) (x : Session) (s : State), let m := splitDgram (asReq 0x31#8 m0); Managed m aid x s.found
        ∧ writeBad m.payload = true)
    ∧ (∃ (m0 : Dgram) (aid : Nat) (x : Session) (s : State), let m := splitDgram (asReq 0x31#8 m0); Managed m aid x s.found
        ∧ writeBad m.payload = false ∧ countBad m.payload = true)
    ∧ (∃ (m0 : Dgram) (aid : Nat) (x : Session) (s : State), let m := splitDgram (asReq 0x31#8 m0); let b := commandOn aid m x s.found;
        let c := commander aid m x s.found; let ws := writesOf m.payload; let items := ws.map fun e => (e.1, some e.2);
        let w := writeRegs c ws b; Managed m aid x s.found ∧ writeBad m.payload = false ∧ countBad m.payload = false
        ∧ firstRefused c items b = none ∧ accessWaits c items b = false ∧ w.1 = none ∧ ws.find? (fun e => e.1 == HS_RSTCTL) = none)
    ∧ (∃ (m0 : Dgram) (aid : Nat) (x : Session) (s : State) (e : Nat × Word), let m := splitDgram (asReq 0x31#8 m0);
        let b := commandOn aid m x s.found; let c := commander aid m x s.found; let ws := writesOf m.payload;
        let items := ws.map fun e => (e.1, some e.2); let w := writeRegs c ws b; Managed m aid x s.found ∧ writeBad m.payload = false
        ∧ countBad m.payload = false ∧ firstRefused c items b = none ∧ accessWaits c items b = false ∧ w.1 = none
        ∧ ws.find? (fun e => e.1 == HS_RSTCTL) = some e)
    ∧ (∃ (m0 : Dgram) (aid : Nat) (x : Session) (s : State) (e : Nat × Nat), let m := splitDgram (asReq 0x31#8 m0);
        let b := commandOn aid m x s.found; let c := commander aid m x s.found; let ws := writesOf m.payload;
        let items := ws.map fun e => (e.1, some e.2); let w := writeRegs c ws b; Managed m aid x s.found ∧ writeBad m.payload = false
        ∧ countBad m.payload = false ∧ firstRefused c items b = none ∧ accessWaits c items b = false ∧ w.1 = some e)
    ∧ (∃ (m0 : Dgram) (aid : Nat) (x : Session) (s : State), let m := splitDgram (asReq 0x31#8 m0); let b := commandOn aid m x s.found;
        let c := commander aid m x s.found; let ws := writesOf m.payload; let items := ws.map fun e => (e.1, some e.2);
        Managed m aid x s.found ∧ writeBad m.payload = false ∧ countBad m.payload = false ∧ firstRefused c items b = none
        ∧ accessWaits c items b = true)
    ∧ (∃ (m0 : Dgram) (aid : Nat) (a : Nat) (code : Nat) (x : Session) (s : State), let m := splitDgram (asReq 0x31#8 m0);
        let b := commandOn aid m x s.found; let c := commander aid m x s.found; Managed m aid x s.found ∧ writeBad m.payload = false
        ∧ countBad m.payload = false ∧ firstRefused c ((writesOf m.payload).map fun e => (e.1, some e.2)) b = some (a, code)) :=
  ⟨⟨signedBy noKey (asReq 0x31#8) (mg 0x31#8 (leBytes 4 HS_LDSEL)), 0, sess0, kept up,
      ⟨managed (by decide +kernel) (req_tag (by decide +kernel)), by decide +kernel⟩⟩,
   ⟨signedBy noKey (asReq 0x31#8) (mg 0x31#8 (leBytes 4 HS_LDSEL ++ [0#8, 0#8, 0#8, 0#8])), 0, sess0, kept up,
      ⟨managed (by decide +kernel) (req_tag (by decide +kernel)), by decide +kernel⟩⟩,
   ⟨signedBy noKey (asReq 0x31#8) (mg 0x31#8 (leBytes 4 HS_LDSEL ++ [1#8, 0#8, 0#8, 0#8] ++ leBytes 4 0)), 0, sess0, kept up,
      ⟨managed (by decide +kernel) (req_tag (by decide +kernel)), by decide +kernel⟩⟩,
   ⟨signedBy noKey (asReq 0x31#8) (mg 0x31#8 (leBytes 4 HS_RSTCTL ++ [1#8, 0#8, 0#8, 0#8] ++ leBytes 4 0x60000000)), 0, sess0, kept up,
      (HS_RSTCTL, 0x60000000#32), ⟨managed (by decide +kernel) (req_tag (by decide +kernel)), by decide +kernel⟩⟩,
   ⟨signedBy noKey (asReq 0x31#8) (mg 0x31#8 (leBytes 4 (PT_TUNECTL 0) ++ [1#8, 0#8, 0#8, 0#8] ++ leBytes 4 0x80000000)), 0, sess0,
      keyed2 (loading [] 2 up.time), (PT_TUNECTL 0, stLOAD_BUSY), ⟨managed (by decide +kernel) (req_tag (by decide +kernel)),
      by decide +kernel⟩⟩,
   ⟨signedBy noKey (asReq 0x31#8) (mg 0x31#8 (leBytes 4 (addrTile 11 15 32 0x100) ++ [1#8, 0#8, 0#8, 0#8] ++ leBytes 4 0)), 0, sess0,
      kept { up with pwr := { up.pwr with state := 2 } }, ⟨managed (by decide +kernel) (req_tag (by decide +kernel)), by decide +kernel⟩⟩,
   ⟨signedBy noKey (asReq 0x31#8) (mg 0x31#8 (leBytes 4 2 ++ [1#8, 0#8, 0#8, 0#8] ++ leBytes 4 0)), 0, 2, stBAD_ADDRESS, sess0, kept up,
      ⟨(managed (by decide +kernel) (req_tag (by decide +kernel))), by decide +kernel⟩⟩⟩

theorem test_ManagementWrites_2 :
    (∃ (m0 : Dgram) (aid : Nat) (a : Nat) (code : Nat) (x : Session) (s : State), let m := splitDgram (asReq 0x31#8 m0);
        let b := commandOn aid m x s.found; let c := commander aid m x s.found; Managed m aid x s.found ∧ writeBad m.payload = false
        ∧ countBad m.payload = false ∧ firstRefused c ((writesOf m.payload).map fun e => (e.1, some e.2)) b = some (a, code))
    ∧ (∃ (k : Nat) (h : Held) (x : Session) (s : State), s.dev.strand.held[k]? = some h
        ∧ (h.msg.hdr.ttype = 0x30#8 ∨ h.msg.hdr.ttype = 0x31#8) ∧ msgSession h.aid h.msg s.dev = some x ∧ since h.at_ s.dev < sec 2)
    ∧ (∃ (k : Nat) (h : Held) (x : Session) (s : State), s.dev.strand.held[k]? = some h
        ∧ (h.msg.hdr.ttype = 0x30#8 ∨ h.msg.hdr.ttype = 0x31#8) ∧ msgSession h.aid h.msg s.dev = some x ∧ sec 2 ≤ since h.at_ s.dev)
    ∧ (∃ (k : Nat) (h : Held) (x : Session) (s : State), s.dev.strand.held[k]? = some h
        ∧ (h.msg.hdr.ttype = 0x30#8 ∨ h.msg.hdr.ttype = 0x31#8) ∧ msgSession h.aid h.msg s.dev = some x ∧ sec 2 ≤ since h.at_ s.dev)
    ∧ (∃ (m0 : Dgram) (aid : Nat) (f : Nat) (c : Nat) (t : Nat) (col : BitVec 10) (x : Session) (s : State),
        let m := splitDgram (writeOne (addrTile f c t 0x100) (2 ^ 31 + col.toNat) m0); let b := commandOn aid m x s.found; f < 12
        ∧ c < 16 ∧ t < 33 ∧ MayWrite m aid x (addrTile f c t 0x100) (w32 (2 ^ 31 + col.toNat)) s.found) :=
  ⟨⟨signedBy noKey (asReq 0x31#8) (mg 0x31#8 (leBytes 4 0x10100 ++ [1#8, 0#8, 0#8, 0#8] ++ leBytes 4 0)), 0, 0x10100, stNOT_OWNER, sessP,
      st (keyed [sessP] up), ⟨(managed (by decide +kernel) (req_tag (by decide +kernel))), by decide +kernel⟩⟩,
   ⟨0, heldRead up.time, sess0, waiting0 [heldRead up.time] { up with pwr := { up.pwr with state := 2 } }, by decide +kernel⟩,
   ⟨0, heldWrite (up.time - 200000000#64), sess0, waiting0 [heldWrite (up.time - 200000000#64), heldRead up.time] { up with pwr := { up.pwr with state := 2 } }, by decide +kernel⟩,
   ⟨1, heldRead (up.time - 200000000#64), sess0, waiting0 [heldWrite (up.time - 200000001#64), heldRead (up.time - 200000000#64)] { up with pwr := { up.pwr with state := 2 } }, by decide +kernel⟩,
   ⟨wr (addrTile 11 15 32 0x100) (2 ^ 31 + 519), 0, 11, 15, 32, 519, sess0, kept up, ⟨by decide +kernel, by decide +kernel,
      by decide +kernel, writes (by decide +kernel)⟩⟩⟩

theorem test_TuningAndMapControl :
    (∃ (m0 : Dgram) (aid : Nat) (p : Nat) (x : Session) (s : State), let m := splitDgram (writeOne (PT_TUNECTL p) 0x80000000 m0);
        let b := commandOn aid m x s.found; p < 32 ∧ MayWrite m aid x (PT_TUNECTL p) 0x80000000#32 s.found ∧ b.rst.withdrawn = false
        ∧ tuneBusy p b = false)
    ∧ (∃ (m0 : Dgram) (aid : Nat) (p : Nat) (x : Session) (s : State), let m := splitDgram (writeOne (PT_TUNECTL p) 0x80000000 m0);
        let b := commandOn aid m x s.found; p < 32 ∧ MayWrite m aid x (PT_TUNECTL p) 0x80000000#32 s.found ∧ b.rst.withdrawn = false
        ∧ tuneBusy p b = false)
    ∧ (∃ (m0 : Dgram) (aid : Nat) (p : Nat) (x : Session) (s : State), let m := splitDgram (writeOne (PT_TUNECTL p) 0x80000000 m0);
        let b := commandOn aid m x s.found; p < 32 ∧ MayWrite m aid x (PT_TUNECTL p) 0x80000000#32 s.found ∧ b.rst.withdrawn = false
        ∧ tuneBusy p b = true)
    ∧ (∃ (m0 : Dgram) (aid : Nat) (p : Nat) (x : Session) (s : State), let m := splitDgram (writeOne (PT_TUNECTL p) 0x40000000 m0);
        let b := commandOn aid m x s.found; p < 32 ∧ MayWrite m aid x (PT_TUNECTL p) 0x40000000#32 s.found ∧ tuneBusy p b = true)
    ∧ (∃ (m0 : Dgram) (aid : Nat) (x : Session) (s : State), let m := splitDgram (writeOne HS_MAPCTL 0x80000000 m0);
        let b := commandOn aid m x s.found; let p := bits (selOf (some (commander aid m x s.found)) HS_MAPSEL) 0 5;
        MayWrite m aid x HS_MAPCTL 0x80000000#32 s.found ∧ mapBusy b = false)
    ∧ (∃ (m0 : Dgram) (aid : Nat) (x : Session) (s : State), let m := splitDgram (writeOne HS_MAPCTL 0x40000000 m0);
        let b := commandOn aid m x s.found; let p := bits (selOf (some (commander aid m x s.found)) HS_MAPSEL) 0 5;
        MayWrite m aid x HS_MAPCTL 0x40000000#32 s.found ∧ mapBusy b = false) :=
  ⟨⟨wr (PT_TUNECTL 0) 0x80000000, 0, 0, sess0, kept up, ⟨by decide +kernel, writes (by decide +kernel), by decide +kernel⟩⟩,
   ⟨wr (PT_TUNECTL 31) 0x80000000, 0, 31, sess0, kept up, ⟨by decide +kernel, writes (by decide +kernel), by decide +kernel⟩⟩,
   ⟨wr (PT_TUNECTL 0) 0x80000000, 0, 0, sess0, keyed2 (loading [] 2 up.time), ⟨by decide +kernel, writes (by decide +kernel),
      by decide +kernel⟩⟩,
   ⟨wr (PT_TUNECTL 0) 0x40000000, 0, 0, sess0, keyed2 (loading [] 2 up.time), ⟨by decide +kernel, writes (by decide +kernel),
      by decide +kernel⟩⟩,
   ⟨wr HS_MAPCTL 0x80000000, 0, sess0, kept up, ⟨writes (by decide +kernel), by decide +kernel⟩⟩,
   ⟨wr HS_MAPCTL 0x40000000, 0, sess0, kept up, ⟨writes (by decide +kernel), by decide +kernel⟩⟩⟩

theorem test_ConsortControl_1 :
    (∃ (m0 : Dgram) (aid : Nat) (x : Session) (s : State), let m := splitDgram (writeOne HS_CNSCTL 0x80000000 m0);
        let b := commandOn aid m x s.found; MayWrite m aid x HS_CNSCTL 0x80000000#32 s.found ∧ b.cns.busy = false
        ∧ (b.cns.state ≠ 3 ∨ cnsGen b.cns.cur < cnsGen b.cns.stg) ∧ b.cns.state ≠ 3)
    ∧ (∃ (m0 : Dgram) (aid : Nat) (x : Session) (s : State), let m := splitDgram (writeOne HS_CNSCTL 0x80000000 m0);
        let b := commandOn aid m x s.found; MayWrite m aid x HS_CNSCTL 0x80000000#32 s.found ∧ b.cns.busy = false
        ∧ (b.cns.state ≠ 3 ∨ cnsGen b.cns.cur < cnsGen b.cns.stg) ∧ b.cns.state = 3)
    ∧ (∃ (m0 : Dgram) (aid : Nat) (x : Session) (s : State), let m := splitDgram (writeOne HS_CNSCTL 0x40000000 m0);
        let b := commandOn aid m x s.found; MayWrite m aid x HS_CNSCTL 0x40000000#32 s.found ∧ b.cns.busy = false ∧ inConsort b = true)
    ∧ (∃ (i : Instr) (action : Nat) (m0 : Dgram) (aid : Nat) (arg : Half) (obj : BitVec 10) (x : Session) (s : State),
        ((i = .strumSignal m0 arg obj ∧ action = 1) ∨ (i = .strumGate m0 arg obj ∧ action = 2) ∨ (i = .strumTune m0 arg obj
        ∧ action = 3)) ∧ let v := action * 2 ^ 30 + arg.toNat * 2 ^ 10 + obj.toNat; let m := splitDgram (writeOne HS_STRUMCTL v m0);
        let b := commandOn aid m x s.found; let c := commander aid m x s.found;
        let t : DWord := BitVec.ofNat 64 (selOf (some c) HS_STRUMTLO + selOf (some c) HS_STRUMTHI * 2 ^ 32);
        MayWrite m aid x HS_STRUMCTL (w32 v) s.found ∧ strumRefusal t b = 0)
    ∧ (∃ (i : Instr) (action : Nat) (m0 : Dgram) (aid : Nat) (arg : Half) (obj : BitVec 10) (x : Session) (s : State),
        ((i = .strumSignal m0 arg obj ∧ action = 1) ∨ (i = .strumGate m0 arg obj ∧ action = 2) ∨ (i = .strumTune m0 arg obj
        ∧ action = 3)) ∧ let v := action * 2 ^ 30 + arg.toNat * 2 ^ 10 + obj.toNat; let m := splitDgram (writeOne HS_STRUMCTL v m0);
        let b := commandOn aid m x s.found; let c := commander aid m x s.found;
        let t : DWord := BitVec.ofNat 64 (selOf (some c) HS_STRUMTLO + selOf (some c) HS_STRUMTHI * 2 ^ 32);
        MayWrite m aid x HS_STRUMCTL (w32 v) s.found ∧ strumRefusal t b = 0)
    ∧ (∃ (i : Instr) (action : Nat) (m0 : Dgram) (aid : Nat) (arg : Half) (obj : BitVec 10) (x : Session) (s : State),
        ((i = .strumSignal m0 arg obj ∧ action = 1) ∨ (i = .strumGate m0 arg obj ∧ action = 2) ∨ (i = .strumTune m0 arg obj
        ∧ action = 3)) ∧ let v := action * 2 ^ 30 + arg.toNat * 2 ^ 10 + obj.toNat; let m := splitDgram (writeOne HS_STRUMCTL v m0);
        let b := commandOn aid m x s.found; let c := commander aid m x s.found;
        let t : DWord := BitVec.ofNat 64 (selOf (some c) HS_STRUMTLO + selOf (some c) HS_STRUMTHI * 2 ^ 32);
        MayWrite m aid x HS_STRUMCTL (w32 v) s.found ∧ strumRefusal t b = 0)
    ∧ (∃ (i : Instr) (action : Nat) (m0 : Dgram) (aid : Nat) (arg : Half) (obj : BitVec 10) (x : Session) (s : State),
        ((i = .strumSignal m0 arg obj ∧ action = 1) ∨ (i = .strumGate m0 arg obj ∧ action = 2) ∨ (i = .strumTune m0 arg obj
        ∧ action = 3)) ∧ let v := action * 2 ^ 30 + arg.toNat * 2 ^ 10 + obj.toNat; let m := splitDgram (writeOne HS_STRUMCTL v m0);
        let b := commandOn aid m x s.found; let c := commander aid m x s.found;
        let t : DWord := BitVec.ofNat 64 (selOf (some c) HS_STRUMTLO + selOf (some c) HS_STRUMTHI * 2 ^ 32);
        MayWrite m aid x HS_STRUMCTL (w32 v) s.found ∧ strumRefusal t b ≠ 0) :=
  ⟨⟨wr HS_CNSCTL 0x80000000, 0, sess0, kept (onCns (fun c => { c with stg := consortRec 0 1 2 }) up),
      ⟨writes (by decide +kernel), by decide +kernel⟩⟩,
   ⟨wr HS_CNSCTL 0x80000000, 0, sess0, kept (onCns (fun c => { c with stg := consortRec 0 1 2, state := 3 }) up),
      ⟨writes (by decide +kernel), by decide +kernel⟩⟩,
   ⟨wr HS_CNSCTL 0x40000000, 0, sess0, kept (inCns 1 0 2 2), ⟨writes (by decide +kernel), by decide +kernel⟩⟩,
   ⟨.strumSignal (wr HS_STRUMCTL (1 * 2 ^ 30 + 5 * 2 ^ 10 + 3)) 5#16 3#10, 1, wr HS_STRUMCTL (1 * 2 ^ 30 + 5 * 2 ^ 10 + 3), 0, 5#16,
      3#10, { sess0 with sel := [(HS_STRUMTLO, 0#32), (HS_STRUMTHI, 200#32)] },
      st (keyed [{ sess0 with sel := [(HS_STRUMTLO, 0#32), (HS_STRUMTHI, 200#32)] }] (inCns 0 0 2 2)),
      ⟨.inl ⟨rfl, rfl⟩, writes (by decide +kernel), by decide +kernel⟩⟩,
   ⟨.strumGate (wr HS_STRUMCTL (2 * 2 ^ 30 + 5 * 2 ^ 10 + 3)) 5#16 3#10, 2, wr HS_STRUMCTL (2 * 2 ^ 30 + 5 * 2 ^ 10 + 3), 0, 5#16, 3#10,
      { sess0 with sel := [(HS_STRUMTLO, 0#32), (HS_STRUMTHI, 200#32)] },
      st (keyed [{ sess0 with sel := [(HS_STRUMTLO, 0#32), (HS_STRUMTHI, 200#32)] }] (inCns 0 0 2 2)),
      ⟨.inr (.inl ⟨rfl, rfl⟩), writes (by decide +kernel), by decide +kernel⟩⟩,
   ⟨.strumTune (wr HS_STRUMCTL (3 * 2 ^ 30 + 5 * 2 ^ 10 + 3)) 5#16 3#10, 3, wr HS_STRUMCTL (3 * 2 ^ 30 + 5 * 2 ^ 10 + 3), 0, 5#16, 3#10,
      { sess0 with sel := [(HS_STRUMTLO, 0#32), (HS_STRUMTHI, 200#32)] },
      st (keyed [{ sess0 with sel := [(HS_STRUMTLO, 0#32), (HS_STRUMTHI, 200#32)] }] (inCns 0 0 2 2)),
      ⟨.inr (.inr ⟨rfl, rfl⟩), writes (by decide +kernel), by decide +kernel⟩⟩,
   ⟨.strumSignal (wr HS_STRUMCTL (1 * 2 ^ 30 + 5 * 2 ^ 10 + 3)) 5#16 3#10, 1, wr HS_STRUMCTL (1 * 2 ^ 30 + 5 * 2 ^ 10 + 3), 0, 5#16,
      3#10, { sess0 with sel := [(HS_STRUMTLO, 0#32), (HS_STRUMTHI, 200#32)] },
      st (keyed [{ sess0 with sel := [(HS_STRUMTLO, 0#32), (HS_STRUMTHI, 200#32)] }] (inCns 0 0 2 1)),
      ⟨.inl ⟨rfl, rfl⟩, writes (by decide +kernel), by decide +kernel⟩⟩⟩

theorem test_ConsortControl_2 :
    (∃ (i : Instr) (action : Nat) (m0 : Dgram) (aid : Nat) (arg : Half) (obj : BitVec 10) (x : Session) (s : State),
        ((i = .strumSignal m0 arg obj ∧ action = 1) ∨ (i = .strumGate m0 arg obj ∧ action = 2) ∨ (i = .strumTune m0 arg obj
        ∧ action = 3)) ∧ let v := action * 2 ^ 30 + arg.toNat * 2 ^ 10 + obj.toNat; let m := splitDgram (writeOne HS_STRUMCTL v m0);
        let b := commandOn aid m x s.found; let c := commander aid m x s.found;
        let t : DWord := BitVec.ofNat 64 (selOf (some c) HS_STRUMTLO + selOf (some c) HS_STRUMTHI * 2 ^ 32);
        MayWrite m aid x HS_STRUMCTL (w32 v) s.found ∧ strumRefusal t b ≠ 0)
    ∧ (∃ (i : Instr) (action : Nat) (m0 : Dgram) (aid : Nat) (arg : Half) (obj : BitVec 10) (x : Session) (s : State),
        ((i = .strumSignal m0 arg obj ∧ action = 1) ∨ (i = .strumGate m0 arg obj ∧ action = 2) ∨ (i = .strumTune m0 arg obj
        ∧ action = 3)) ∧ let v := action * 2 ^ 30 + arg.toNat * 2 ^ 10 + obj.toNat; let m := splitDgram (writeOne HS_STRUMCTL v m0);
        let b := commandOn aid m x s.found; let c := commander aid m x s.found;
        let t : DWord := BitVec.ofNat 64 (selOf (some c) HS_STRUMTLO + selOf (some c) HS_STRUMTHI * 2 ^ 32);
        MayWrite m aid x HS_STRUMCTL (w32 v) s.found ∧ strumRefusal t b ≠ 0) :=
  ⟨⟨.strumGate (wr HS_STRUMCTL (2 * 2 ^ 30 + 5 * 2 ^ 10 + 3)) 5#16 3#10, 2, wr HS_STRUMCTL (2 * 2 ^ 30 + 5 * 2 ^ 10 + 3), 0, 5#16, 3#10,
      { sess0 with sel := [(HS_STRUMTLO, 0#32), (HS_STRUMTHI, 200#32)] },
      st (keyed [{ sess0 with sel := [(HS_STRUMTLO, 0#32), (HS_STRUMTHI, 200#32)] }] (inCns 0 0 2 1)),
      ⟨.inr (.inl ⟨rfl, rfl⟩), writes (by decide +kernel), by decide +kernel⟩⟩,
   ⟨.strumTune (wr HS_STRUMCTL (3 * 2 ^ 30 + 5 * 2 ^ 10 + 3)) 5#16 3#10, 3, wr HS_STRUMCTL (3 * 2 ^ 30 + 5 * 2 ^ 10 + 3), 0, 5#16, 3#10,
      { sess0 with sel := [(HS_STRUMTLO, 0#32), (HS_STRUMTHI, 200#32)] },
      st (keyed [{ sess0 with sel := [(HS_STRUMTLO, 0#32), (HS_STRUMTHI, 200#32)] }] (inCns 0 0 2 1)),
      ⟨.inr (.inr ⟨rfl, rfl⟩), writes (by decide +kernel), by decide +kernel⟩⟩⟩

theorem test_KeyAndUpdateControl_1 :
    (∃ (m0 : Dgram) (aid : Nat) (x : Session) (s : State), let m := splitDgram (writeOne PG_KEYCTL (1 * 2 ^ 30) m0);
        let b := commandOn aid m x s.found; let c := commander aid m x s.found; MayWrite m aid x PG_KEYCTL (w32 (1 * 2 ^ 30)) s.found
        ∧ b.peg.keyBusy = none)
    ∧ (∃ (m0 : Dgram) (aid : Nat) (i : Nat) (x : Session) (s : State), let m := splitDgram (writeOne PG_KEYCTL (2 * 2 ^ 30) m0);
        let b := commandOn aid m x s.found; let k := { keyOfBytes (commander aid m x s.found).keybuf with state := 1#8 };
        MayWrite m aid x PG_KEYCTL (w32 (2 * 2 ^ 30)) s.found ∧ b.peg.keyBusy = none
        ∧ (b.peg.keys.any fun e => e.2.state != 0#8 && e.2.keyid == k.keyid) = false
        ∧ ((List.range 64).find? fun i => (keyAt b.peg.keys i).state == 0#8) = some i ∧ usageBad k = false ∧ onP521 k.pub = true)
    ∧ (∃ (m0 : Dgram) (aid : Nat) (x : Session) (s : State), let m := splitDgram (writeOne PG_KEYCTL (2 * 2 ^ 30) m0);
        let b := commandOn aid m x s.found; let k := { keyOfBytes (commander aid m x s.found).keybuf with state := 1#8 };
        let held := b.peg.keys.any fun e => e.2.state != 0#8 && e.2.keyid == k.keyid;
        let free := (List.range 64).find? fun i => (keyAt b.peg.keys i).state == 0#8;
        MayWrite m aid x PG_KEYCTL (w32 (2 * 2 ^ 30)) s.found ∧ b.peg.keyBusy = none
        ∧ (held = true ∨ free = none ∨ usageBad k = true ∨ onP521 k.pub = false))
    ∧ (∃ (m0 : Dgram) (aid : Nat) (x : Session) (s : State), let m := splitDgram (writeOne PG_KEYCTL (2 * 2 ^ 30) m0);
        let b := commandOn aid m x s.found; let k := { keyOfBytes (commander aid m x s.found).keybuf with state := 1#8 };
        let held := b.peg.keys.any fun e => e.2.state != 0#8 && e.2.keyid == k.keyid;
        let free := (List.range 64).find? fun i => (keyAt b.peg.keys i).state == 0#8;
        MayWrite m aid x PG_KEYCTL (w32 (2 * 2 ^ 30)) s.found ∧ b.peg.keyBusy = none
        ∧ (held = true ∨ free = none ∨ usageBad k = true ∨ onP521 k.pub = false))
    ∧ (∃ (i : Instr) (op : Nat) (m0 : Dgram) (aid : Nat) (x : Session) (s : State), ((i = .keyRead m0 ∧ op = 1) ∨ (i = .keyEnroll m0
        ∧ op = 2) ∨ (i = .keyRevoke m0 ∧ op = 3)) ∧ let m := splitDgram (writeOne PG_KEYCTL (op * 2 ^ 30) m0);
        let b := commandOn aid m x s.found; MayWrite m aid x PG_KEYCTL (w32 (op * 2 ^ 30)) s.found ∧ b.peg.keyBusy.isSome = true)
    ∧ (∃ (i : Instr) (op : Nat) (m0 : Dgram) (aid : Nat) (x : Session) (s : State), ((i = .keyRead m0 ∧ op = 1) ∨ (i = .keyEnroll m0
        ∧ op = 2) ∨ (i = .keyRevoke m0 ∧ op = 3)) ∧ let m := splitDgram (writeOne PG_KEYCTL (op * 2 ^ 30) m0);
        let b := commandOn aid m x s.found; MayWrite m aid x PG_KEYCTL (w32 (op * 2 ^ 30)) s.found ∧ b.peg.keyBusy.isSome = true)
    ∧ (∃ (i : Instr) (op : Nat) (m0 : Dgram) (aid : Nat) (x : Session) (s : State), ((i = .keyRead m0 ∧ op = 1) ∨ (i = .keyEnroll m0
        ∧ op = 2) ∨ (i = .keyRevoke m0 ∧ op = 3)) ∧ let m := splitDgram (writeOne PG_KEYCTL (op * 2 ^ 30) m0);
        let b := commandOn aid m x s.found; MayWrite m aid x PG_KEYCTL (w32 (op * 2 ^ 30)) s.found ∧ b.peg.keyBusy.isSome = true) :=
  ⟨⟨wr PG_KEYCTL (1 * 2 ^ 30), 0, sess0, kept up, ⟨writes (by decide +kernel), by decide +kernel⟩⟩,
   ⟨wr PG_KEYCTL (2 * 2 ^ 30), 0, 1, sessK otherKey, st (keyed [sessK otherKey] up), ⟨writes (by decide +kernel), by decide +kernel⟩⟩,
   ⟨wr PG_KEYCTL (2 * 2 ^ 30), 0, sessK keeperKey, st (keyed [sessK keeperKey] up), ⟨writes (by decide +kernel), by decide +kernel⟩⟩,
   ⟨wr PG_KEYCTL (2 * 2 ^ 30), 0, sessK { otherKey with usage := 4#8 },
      st (keyed [sessK { otherKey with usage := 4#8 }] up), ⟨writes (by decide +kernel), by decide +kernel⟩⟩,
   ⟨.keyRead (wr PG_KEYCTL (1 * 2 ^ 30)), 1, wr PG_KEYCTL (1 * 2 ^ 30), 0, sess0,
      kept { up with peg := { up.peg with keyBusy := some (1#8, 7#32) } }, ⟨.inl ⟨rfl, rfl⟩, writes (by decide +kernel),
      by decide +kernel⟩⟩,
   ⟨.keyEnroll (wr PG_KEYCTL (2 * 2 ^ 30)), 2, wr PG_KEYCTL (2 * 2 ^ 30), 0, sess0,
      kept { up with peg := { up.peg with keyBusy := some (1#8, 7#32) } }, ⟨.inr (.inl ⟨rfl, rfl⟩), writes (by decide +kernel),
      by decide +kernel⟩⟩,
   ⟨.keyRevoke (wr PG_KEYCTL (3 * 2 ^ 30)), 3, wr PG_KEYCTL (3 * 2 ^ 30), 0, sess0,
      kept { up with peg := { up.peg with keyBusy := some (1#8, 7#32) } }, ⟨.inr (.inr ⟨rfl, rfl⟩), writes (by decide +kernel),
      by decide +kernel⟩⟩⟩

theorem test_KeyAndUpdateControl_2 :
    (∃ (m0 : Dgram) (aid : Nat) (x : Session) (s : State), let m := splitDgram (writeOne PG_KEYCTL (3 * 2 ^ 30) m0);
        let b := commandOn aid m x s.found; let id := (keyOfBytes (commander aid m x s.found).keybuf).keyid;
        MayWrite m aid x PG_KEYCTL (w32 (3 * 2 ^ 30)) s.found ∧ b.peg.keyBusy = none
        ∧ b.peg.keys.find? (fun e => e.2.keyid == id && e.2.state == 1#8) = none)
    ∧ (∃ (m0 : Dgram) (aid : Nat) (i : Nat) (k : KeyEntry) (x : Session) (s : State),
        let m := splitDgram (writeOne PG_KEYCTL (3 * 2 ^ 30) m0); let b := commandOn aid m x s.found;
        let id := (keyOfBytes (commander aid m x s.found).keybuf).keyid; MayWrite m aid x PG_KEYCTL (w32 (3 * 2 ^ 30)) s.found
        ∧ b.peg.keyBusy = none ∧ (b.peg.keys.find? fun e => e.2.keyid == id && e.2.state == 1#8) = some (i, k)
        ∧ (k.usage ≠ 1#8 ∨ 1 < (b.peg.keys.filter fun e => e.2.usage == 1#8 && e.2.state == 1#8).length))
    ∧ (∃ (m0 : Dgram) (aid : Nat) (i : Nat) (k : KeyEntry) (x : Session) (s : State),
        let m := splitDgram (writeOne PG_KEYCTL (3 * 2 ^ 30) m0); let b := commandOn aid m x s.found;
        let id := (keyOfBytes (commander aid m x s.found).keybuf).keyid; MayWrite m aid x PG_KEYCTL (w32 (3 * 2 ^ 30)) s.found
        ∧ b.peg.keyBusy = none ∧ (b.peg.keys.find? fun e => e.2.keyid == id && e.2.state == 1#8) = some (i, k)
        ∧ (k.usage ≠ 1#8 ∨ 1 < (b.peg.keys.filter fun e => e.2.usage == 1#8 && e.2.state == 1#8).length) ∧ k.usage = 1#8)
    ∧ (∃ (m0 : Dgram) (aid : Nat) (i : Nat) (k : KeyEntry) (x : Session) (s : State),
        let m := splitDgram (writeOne PG_KEYCTL (3 * 2 ^ 30) m0); let b := commandOn aid m x s.found;
        let id := (keyOfBytes (commander aid m x s.found).keybuf).keyid; MayWrite m aid x PG_KEYCTL (w32 (3 * 2 ^ 30)) s.found
        ∧ b.peg.keyBusy = none ∧ (b.peg.keys.find? fun e => e.2.keyid == id && e.2.state == 1#8) = some (i, k) ∧ k.usage = 1#8
        ∧ (b.peg.keys.filter fun e => e.2.usage == 1#8 && e.2.state == 1#8).length ≤ 1)
    ∧ (∃ (m0 : Dgram) (aid : Nat) (sess : Word) (b : Dev) (s : State), let m := splitDgram (asReq 0x35#8 m0); let l := m.payload;
        ((∃ x, Managed m aid x s.found ∧ b = commandOn aid m x s.found ∧ (commander aid m x s.found).keeper = true
        ∧ sess = (commander aid m x s.found).num) ∨ (InSequence m aid s.found ∧ b = heardOn aid m s.found
        ∧ inRom (accepted aid m s.found) = true ∧ inRom b = true ∧ hasFlag m.hdr fAUTH = false ∧ sess = 0#32))
        ∧ chunkRefusal sess l b = none)
    ∧ (∃ (m0 : Dgram) (aid : Nat) (sess : Word) (b : Dev) (s : State), let m := splitDgram (asReq 0x35#8 m0); let l := m.payload;
        ((∃ x, Managed m aid x s.found ∧ b = commandOn aid m x s.found ∧ (commander aid m x s.found).keeper = true
        ∧ sess = (commander aid m x s.found).num) ∨ (InSequence m aid s.found ∧ b = heardOn aid m s.found
        ∧ inRom (accepted aid m s.found) = true ∧ inRom b = true ∧ hasFlag m.hdr fAUTH = false ∧ sess = 0#32))
        ∧ chunkRefusal sess l b = none)
    ∧ (∃ (m0 : Dgram) (aid : Nat) (sess : Word) (b : Dev) (s : State) (code : Nat), let m := splitDgram (asReq 0x35#8 m0);
        let l := m.payload; ((∃ x, Managed m aid x s.found ∧ b = commandOn aid m x s.found ∧ (commander aid m x s.found).keeper = true
        ∧ sess = (commander aid m x s.found).num) ∨ (InSequence m aid s.found ∧ b = heardOn aid m s.found
        ∧ inRom (accepted aid m s.found) = true ∧ inRom b = true ∧ hasFlag m.hdr fAUTH = false ∧ sess = 0#32))
        ∧ chunkRefusal sess l b = some code) :=
  ⟨⟨wr PG_KEYCTL (3 * 2 ^ 30), 0, sessK otherKey, st (keyed [sessK otherKey] up), ⟨writes (by decide +kernel), by decide +kernel⟩⟩,
   ⟨wr PG_KEYCTL (3 * 2 ^ 30), 0, 1, otherKey, sessK otherKey,
      (let d := keyed [sessK otherKey] up; st { d with peg := { d.peg with keys := [(0, keeperKey), (1, otherKey)] } }),
      ⟨writes (by decide +kernel), by decide +kernel⟩⟩,
   ⟨wr PG_KEYCTL (3 * 2 ^ 30), 0, 1, { otherKey with usage := 1#8, part := 0xFF#8 }, sessK otherKey,
      (let d := keyed [sessK otherKey] up; st { d with peg := { d.peg with keys := [(0, keeperKey), (1, { otherKey with usage := 1#8, part := 0xFF#8 })] } }), ⟨writes (by decide +kernel), by decide +kernel⟩⟩,
   ⟨wr PG_KEYCTL (3 * 2 ^ 30), 0, 0, keeperKey, sessK keeperKey, st (keyed [sessK keeperKey] up), ⟨writes (by decide +kernel),
      by decide +kernel⟩⟩,
   ⟨chunk, 0, 5#32, chunkOn chunk up, kept up, ⟨.inl ⟨sess0, managed (by decide +kernel) (req_tag (by decide +kernel)), rfl,
      by decide +kernel, by decide +kernel⟩, by decide +kernel⟩⟩,
   ⟨bootChunk 4, 0, 0#32, heardOn 0 (splitDgram (asReq 0x35#8 (bootChunk 4))) (st romDev).found,
      st romDev, ⟨.inr ⟨sequenced (a := as1) (by decide +kernel), rfl, by decide +kernel⟩, by decide +kernel⟩⟩,
   ⟨chunk, 0, 5#32, chunkOn chunk (updating fun u => { u with state := 1, sess := 6#32 }),
      kept (updating fun u => { u with state := 1, sess := 6#32 }), stMGMT_BUSY,
      ⟨.inl ⟨sess0, managed (by decide +kernel) (req_tag (by decide +kernel)), rfl, by decide +kernel, by decide +kernel⟩,
      by decide +kernel⟩⟩⟩

theorem test_KeyAndUpdateControl_3 :
    (∃ (m0 : Dgram) (aid : Nat) (sess : Word) (b : Dev) (s : State) (code : Nat), let m := splitDgram (asReq 0x35#8 m0);
        let l := m.payload; ((∃ x, Managed m aid x s.found ∧ b = commandOn aid m x s.found ∧ (commander aid m x s.found).keeper = true
        ∧ sess = (commander aid m x s.found).num) ∨ (InSequence m aid s.found ∧ b = heardOn aid m s.found
        ∧ inRom (accepted aid m s.found) = true ∧ inRom b = true ∧ hasFlag m.hdr fAUTH = false ∧ sess = 0#32))
        ∧ chunkRefusal sess l b = some code)
    ∧ (∃ (m0 : Dgram) (aid : Nat) (x : Session) (s : State), let m := splitDgram (asReq 0x35#8 m0); Managed m aid x s.found
        ∧ (commander aid m x s.found).keeper = false)
    ∧ (∃ (m0 : Dgram) (aid : Nat) (x : Session) (s : State), let m := splitDgram (writeOne PG_UPDCTL 0x80000000 m0);
        let b := commandOn aid m x s.found; MayWrite m aid x PG_UPDCTL 0x80000000#32 s.found
        ∧ (b.peg.update.state = 1 ∨ b.peg.update.state = 2))
    ∧ (∃ (m0 : Dgram) (aid : Nat) (x : Session) (s : State), let m := splitDgram (writeOne PG_UPDCTL 0x80000000 m0);
        let b := commandOn aid m x s.found; MayWrite m aid x PG_UPDCTL 0x80000000#32 s.found
        ∧ (b.peg.update.state = 1 ∨ b.peg.update.state = 2)) :=
  ⟨⟨bootChunk 2, 0, 0#32, heardOn 0 (splitDgram (asReq 0x35#8 (bootChunk 2))) (st romDev).found,
      st romDev, stBAD_MESSAGE, ⟨.inr ⟨sequenced (a := as1) (by decide +kernel), rfl, by decide +kernel⟩, by decide +kernel⟩⟩,
   ⟨chunk, 0, { sess0 with keeper := false, part := 0 }, st (keyed [{ sess0 with keeper := false, part := 0 }] up),
      ⟨managed (by decide +kernel) (req_tag (by decide +kernel)), by decide +kernel⟩⟩,
   ⟨wr PG_UPDCTL 0x80000000, 0, sess0, kept (updating fun u => { u with state := 1, sess := 5#32 }),
      ⟨writes (by decide +kernel), by decide +kernel⟩⟩,
   ⟨wr PG_UPDCTL 0x80000000, 0, sess0, kept (updating fun u => { u with state := 2, sess := 5#32 }),
      ⟨writes (by decide +kernel), by decide +kernel⟩⟩⟩

theorem test_ResetRequests_1 :
    (∃ (m0 : Dgram) (aid : Nat) (x : Session) (s : State), let m := splitDgram (asOp 0x33#8 0 1#8 m0);
        let b := commandOn aid m x s.found; let c := commander aid m x s.found; let l := m.payload; Managed m aid x s.found
        ∧ resetBad l = false ∧ u8 l 0 = 1 ∧ c.keeper = false ∧ (stageRec (imgOf c.part b) (u8 l 2)).isSome = true ∧ powered b = true
        ∧ b.rst.phase = .idle ∧ asleep b = false ∧ b.pwr.target = none ∧ b.rst.subs = [])
    ∧ (∃ (m0 : Dgram) (aid : Nat) (x : Session) (s : State), let m := splitDgram (asOp 0x33#8 0 2#8 m0);
        let b := commandOn aid m x s.found; let c := commander aid m x s.found; let l := m.payload; Managed m aid x s.found
        ∧ resetBad l = false ∧ u8 l 0 = 2 ∧ c.keeper = false ∧ powered b = true ∧ b.rst.phase = .idle ∧ asleep b = false
        ∧ b.pwr.target = none ∧ b.rst.subs = [])
    ∧ (∃ (m0 : Dgram) (aid : Nat) (x : Session) (s : State), let m := splitDgram (asOp 0x33#8 0 3#8 m0);
        let b := commandOn aid m x s.found; let c := commander aid m x s.found; let l := m.payload; Managed m aid x s.found
        ∧ resetBad l = false ∧ u8 l 0 = 3 ∧ c.keeper = true ∧ (u8 l 1 < 12 ∨ (16 ≤ u8 l 1 ∧ u8 l 1 < 28)) ∧ powered b = true
        ∧ b.rst.phase = .idle ∧ asleep b = false ∧ b.pwr.target = none ∧ b.rst.subs = [])
    ∧ (∃ (m0 : Dgram) (aid : Nat) (x : Session) (s : State), let m := splitDgram (asOp 0x33#8 0 3#8 m0);
        let b := commandOn aid m x s.found; let c := commander aid m x s.found; let l := m.payload; Managed m aid x s.found
        ∧ resetBad l = false ∧ u8 l 0 = 3 ∧ c.keeper = true ∧ (u8 l 1 < 12 ∨ (16 ≤ u8 l 1 ∧ u8 l 1 < 28)) ∧ powered b = true
        ∧ b.rst.phase = .idle ∧ asleep b = false ∧ b.pwr.target = none ∧ b.rst.subs = [])
    ∧ (∃ (i : Instr) (k : Byte) (sc : Scope) (m0 : Dgram) (aid : Nat) (x : Session) (s : State), ((i = .mgmtResetWarm m0 ∧ k = 4#8
        ∧ sc = .warm) ∨ (i = .mgmtResetCold m0 ∧ k = 5#8 ∧ sc = .cold))
        ∧ let m := splitDgram (asOp 0x33#8 0 k m0); let b := commandOn aid m x s.found; let c := commander aid m x s.found;
        let l := m.payload; Managed m aid x s.found ∧ resetBad l = false ∧ u8 l 0 = k.toNat ∧ c.keeper = true ∧ b.peg.update.state ≠ 3
        ∧ powered b = true ∧ b.rst.phase = .idle ∧ b.rst.nv = none)
    ∧ (∃ (i : Instr) (k : Byte) (sc : Scope) (m0 : Dgram) (aid : Nat) (x : Session) (s : State), ((i = .mgmtResetWarm m0 ∧ k = 4#8
        ∧ sc = .warm) ∨ (i = .mgmtResetCold m0 ∧ k = 5#8 ∧ sc = .cold))
        ∧ let m := splitDgram (asOp 0x33#8 0 k m0); let b := commandOn aid m x s.found; let c := commander aid m x s.found;
        let l := m.payload; Managed m aid x s.found ∧ resetBad l = false ∧ u8 l 0 = k.toNat ∧ c.keeper = true ∧ b.peg.update.state ≠ 3
        ∧ powered b = true ∧ b.rst.phase = .idle ∧ b.rst.nv = none)
    ∧ (∃ (m0 : Dgram) (die : BitVec 5) (aid : Nat) (x : Session) (s : State), let v := 3 * 2 ^ 29 + die.toNat * 2 ^ 24;
        let m := splitDgram (writeOne HS_RSTCTL v m0); let b := commandOn aid m x s.found; MayWrite m aid x HS_RSTCTL (w32 v) s.found
        ∧ die.toNat % 16 < 12 ∧ powered b = true ∧ b.rst.phase = .idle ∧ asleep b = false ∧ b.pwr.target = none ∧ b.rst.subs = []) :=
  ⟨⟨signedBy noKey (asOp 0x33#8 0 1#8) (mg 0x33#8 (padTo 4 [])), 0, sessP,
      st (keyed [sessP] (withImage goodSecs up)), ⟨(managed (by decide +kernel) (op_tag (by decide +kernel))), by decide +kernel⟩⟩,
   ⟨signedBy noKey (asOp 0x33#8 0 2#8) (mg 0x33#8 (padTo 4 [])), 0, sessP,
      st (keyed [sessP] up), ⟨(managed (by decide +kernel) (op_tag (by decide +kernel))), by decide +kernel⟩⟩,
   ⟨signedBy noKey (asOp 0x33#8 0 3#8) (mg 0x33#8 (padTo 4 [3#8, 11#8])), 0, sess0, kept up,
      ⟨(managed (by decide +kernel) (op_tag (by decide +kernel))), by decide +kernel⟩⟩,
   ⟨signedBy noKey (asOp 0x33#8 0 3#8) (mg 0x33#8 (padTo 4 [3#8, 27#8])), 0, sess0, kept up,
      ⟨(managed (by decide +kernel) (op_tag (by decide +kernel))), by decide +kernel⟩⟩,
   ⟨.mgmtResetWarm (signedBy noKey (asOp 0x33#8 0 4#8) (mg 0x33#8 (padTo 4 []))), 4#8, .warm,
      signedBy noKey (asOp 0x33#8 0 4#8) (mg 0x33#8 (padTo 4 [])), 0, sess0, kept up, ⟨.inl ⟨rfl, rfl, rfl⟩,
      (managed (by decide +kernel) (op_tag (by decide +kernel))), by decide +kernel⟩⟩,
   ⟨.mgmtResetCold (signedBy noKey (asOp 0x33#8 0 5#8) (mg 0x33#8 (padTo 4 []))), 5#8, .cold,
      signedBy noKey (asOp 0x33#8 0 5#8) (mg 0x33#8 (padTo 4 [])), 0, sess0, kept up, ⟨.inr ⟨rfl, rfl, rfl⟩,
      (managed (by decide +kernel) (op_tag (by decide +kernel))), by decide +kernel⟩⟩,
   ⟨wr HS_RSTCTL (3 * 2 ^ 29 + 11 * 2 ^ 24), 11#5, 0, sess0, kept up, ⟨writes (by decide +kernel), by decide +kernel⟩⟩⟩

theorem test_ResetRequests_2 :
    (∃ (m0 : Dgram) (die : BitVec 5) (aid : Nat) (x : Session) (s : State), let v := 3 * 2 ^ 29 + die.toNat * 2 ^ 24;
        let m := splitDgram (writeOne HS_RSTCTL v m0); let b := commandOn aid m x s.found; MayWrite m aid x HS_RSTCTL (w32 v) s.found
        ∧ die.toNat % 16 < 12 ∧ powered b = true ∧ b.rst.phase = .idle ∧ asleep b = false ∧ b.pwr.target = none ∧ b.rst.subs = [])
    ∧ (∃ (i : Instr) (k : Nat) (sc : Scope) (m0 : Dgram) (aid : Nat) (x : Session) (s : State), ((i = .softwareResetWarm m0 ∧ k = 4
        ∧ sc = .warm) ∨ (i = .softwareResetCold m0 ∧ k = 5 ∧ sc = .cold))
        ∧ let m := splitDgram (writeOne HS_RSTCTL (k * 2 ^ 29) m0); let b := commandOn aid m x s.found;
        MayWrite m aid x HS_RSTCTL (w32 (k * 2 ^ 29)) s.found ∧ powered b = true ∧ b.rst.phase = .idle ∧ b.rst.nv = none)
    ∧ (∃ (i : Instr) (k : Nat) (sc : Scope) (m0 : Dgram) (aid : Nat) (x : Session) (s : State), ((i = .softwareResetWarm m0 ∧ k = 4
        ∧ sc = .warm) ∨ (i = .softwareResetCold m0 ∧ k = 5 ∧ sc = .cold))
        ∧ let m := splitDgram (writeOne HS_RSTCTL (k * 2 ^ 29) m0); let b := commandOn aid m x s.found;
        MayWrite m aid x HS_RSTCTL (w32 (k * 2 ^ 29)) s.found ∧ powered b = true ∧ b.rst.phase = .idle ∧ b.rst.nv = none)
    ∧ (∃ (m0 : Dgram) (aid : Nat) (x : Session) (s : State), let m := splitDgram (writeOne HS_RSTCTL 1 m0);
        let b := commandOn aid m x s.found; MayWrite m aid x HS_RSTCTL 1#32 s.found ∧ b.rst.withdrawn = true) :=
  ⟨⟨wr HS_RSTCTL (3 * 2 ^ 29 + 27 * 2 ^ 24), 27#5, 0, sess0, kept up, ⟨writes (by decide +kernel), by decide +kernel⟩⟩,
   ⟨.softwareResetWarm (wr HS_RSTCTL (4 * 2 ^ 29)), 4, .warm, wr HS_RSTCTL (4 * 2 ^ 29), 0, sess0, kept up,
      ⟨.inl ⟨rfl, rfl, rfl⟩, writes (by decide +kernel), by decide +kernel⟩⟩,
   ⟨.softwareResetCold (wr HS_RSTCTL (5 * 2 ^ 29)), 5, .cold, wr HS_RSTCTL (5 * 2 ^ 29), 0, sess0, kept up,
      ⟨.inr ⟨rfl, rfl, rfl⟩, writes (by decide +kernel), by decide +kernel⟩⟩,
   ⟨wr HS_RSTCTL 1, 0, sess0, kept (onRst (fun r => { r with withdrawn := true }) up), ⟨writes (by decide +kernel), by decide +kernel⟩⟩⟩

theorem test_PowerAndTileRequests :
    (∃ (m0 : Dgram) (auto : Bool) (aid : Nat) (x : Session) (s : State), let v := 1 * 2 ^ 29 + b2n auto * 2 ^ 28;
        let m := splitDgram (writeOne HS_PWRCTL v m0); let b := commandOn aid m x s.found; MayWrite m aid x HS_PWRCTL (w32 v) s.found
        ∧ b.pwr.target = none ∧ b.pwr.transit = false ∧ reqBusy b = false ∧ b.pwr.state = 1)
    ∧ (∃ (m0 : Dgram) (auto : Bool) (aid : Nat) (x : Session) (s : State), let v := 1 * 2 ^ 29 + b2n auto * 2 ^ 28;
        let m := splitDgram (writeOne HS_PWRCTL v m0); let b := commandOn aid m x s.found; MayWrite m aid x HS_PWRCTL (w32 v) s.found
        ∧ b.pwr.target = none ∧ b.pwr.transit = false ∧ reqBusy b = false ∧ 2 ≤ b.pwr.state ∧ b.pwr.waking = false)
    ∧ (∃ (m0 : Dgram) (auto : Bool) (aid : Nat) (x : Session) (s : State), let v := 1 * 2 ^ 29 + b2n auto * 2 ^ 28;
        let m := splitDgram (writeOne HS_PWRCTL v m0); let b := commandOn aid m x s.found; MayWrite m aid x HS_PWRCTL (w32 v) s.found
        ∧ b.pwr.target = none ∧ b.pwr.transit = false ∧ reqBusy b = false ∧ 2 ≤ b.pwr.state ∧ b.pwr.waking = false)
    ∧ (∃ (i : Instr) (k : Nat) (st : Nat) (m0 : Dgram) (auto : Bool) (aid : Nat) (x : Session) (s : State), ((i = .powerReqHush m0 auto
        ∧ k = 3 ∧ st = 2) ∨ (i = .powerReqVigil m0 auto ∧ k = 4 ∧ st = 3))
        ∧ let v := k * 2 ^ 29 + b2n auto * 2 ^ 28; let m := splitDgram (writeOne HS_PWRCTL v m0); let b := commandOn aid m x s.found;
        MayWrite m aid x HS_PWRCTL (w32 v) s.found ∧ b.pwr.target = none ∧ b.pwr.transit = false ∧ reqBusy b = false ∧ b.pwr.state ≠ st
        ∧ (st = 3 → b.cns.state ≠ 1 ∧ b.cns.state ≠ 2))
    ∧ (∃ (i : Instr) (k : Nat) (st : Nat) (m0 : Dgram) (auto : Bool) (aid : Nat) (x : Session) (s : State), ((i = .powerReqHush m0 auto
        ∧ k = 3 ∧ st = 2) ∨ (i = .powerReqVigil m0 auto ∧ k = 4 ∧ st = 3))
        ∧ let v := k * 2 ^ 29 + b2n auto * 2 ^ 28; let m := splitDgram (writeOne HS_PWRCTL v m0); let b := commandOn aid m x s.found;
        MayWrite m aid x HS_PWRCTL (w32 v) s.found ∧ b.pwr.target = none ∧ b.pwr.transit = false ∧ reqBusy b = false ∧ b.pwr.state ≠ st
        ∧ (st = 3 → b.cns.state ≠ 1 ∧ b.cns.state ≠ 2))
    ∧ (∃ (m0 : Dgram) (f : Nat) (c : Nat) (t : Nat) (aid : Nat) (x : Session) (s : State), let v := 1 * 2 ^ 30 + c * 2 ^ 6 + t;
        let m := splitDgram (writeOne (FT_TILECTL f) v m0); let b := commandOn aid m x s.found; f < 12 ∧ c < 16 ∧ t < 33
        ∧ MayWrite m aid x (FT_TILECTL f) (w32 v) s.found)
    ∧ (∃ (m0 : Dgram) (f : Nat) (c : Nat) (t : Nat) (aid : Nat) (x : Session) (s : State), let v := 2 * 2 ^ 30 + c * 2 ^ 6 + t;
        let m := splitDgram (writeOne (FT_TILECTL f) v m0); let b := commandOn aid m x s.found; f < 12 ∧ c < 16 ∧ t < 33
        ∧ MayWrite m aid x (FT_TILECTL f) (w32 v) s.found) :=
  ⟨⟨wr HS_PWRCTL (1 * 2 ^ 29 + 1 * 2 ^ 28), true, 0, sess0, kept (onPwr (fun r => { r with state := 1 }) up),
      ⟨writes (by decide +kernel), by decide +kernel⟩⟩,
   ⟨wr HS_PWRCTL (1 * 2 ^ 29 + 1 * 2 ^ 28), true, 0, sess0, kept (onPwr (fun r => { r with state := 2 }) up),
      ⟨writes (by decide +kernel), by decide +kernel⟩⟩,
   ⟨wr HS_PWRCTL (1 * 2 ^ 29 + 1 * 2 ^ 28), true, 0, sess0, kept (onPwr (fun r => { r with state := 3 }) up),
      ⟨writes (by decide +kernel), by decide +kernel⟩⟩,
   ⟨.powerReqHush (wr HS_PWRCTL (3 * 2 ^ 29 + 1 * 2 ^ 28)) true, 3, 2, wr HS_PWRCTL (3 * 2 ^ 29 + 1 * 2 ^ 28), true, 0, sess0, kept up,
      ⟨.inl ⟨rfl, rfl, rfl⟩, writes (by decide +kernel), by decide +kernel⟩⟩,
   ⟨.powerReqVigil (wr HS_PWRCTL (4 * 2 ^ 29 + 1 * 2 ^ 28)) true, 4, 3, wr HS_PWRCTL (4 * 2 ^ 29 + 1 * 2 ^ 28), true, 0, sess0, kept up,
      ⟨.inr ⟨rfl, rfl, rfl⟩, writes (by decide +kernel), by decide +kernel⟩⟩,
   ⟨wr (FT_TILECTL 11) (1 * 2 ^ 30 + 15 * 2 ^ 6 + 32), 11, 15, 32, 0, sess0, kept up, ⟨by decide +kernel, by decide +kernel,
      by decide +kernel, writes (by decide +kernel)⟩⟩,
   ⟨wr (FT_TILECTL 11) (2 * 2 ^ 30 + 15 * 2 ^ 6 + 32), 11, 15, 32, 0, sess0, kept up, ⟨by decide +kernel, by decide +kernel,
      by decide +kernel, writes (by decide +kernel)⟩⟩⟩

theorem test_TokenRecords :
    (∃ (i : Nat) (x : Stream) (s : State), i < 262144 ∧ streamAt i s.dev = some x
        ∧ let l := (x.outq.takeWhile fun y => outReleased i y s.dev && (y.batch.isNone || recordWay x.home s.dev)).take 255; l = [])
    ∧ (∃ (i : Nat) (x : Stream) (s : State), i < 262144 ∧ streamAt i s.dev = some x
        ∧ let l := (x.outq.takeWhile fun y => outReleased i y s.dev && (y.batch.isNone || recordWay x.home s.dev)).take 255; l = [])
    ∧ (∃ (i : Nat) (x : Stream) (s : State) (aid : Nat) (a : Assoc), i < 262144 ∧ streamAt i s.dev = some x
        ∧ let l := (x.outq.takeWhile fun y => outReleased i y s.dev && (y.batch.isNone || recordWay x.home s.dev)).take 255; l ≠ []
        ∧ (cnsServes x.part s.dev && !isCnsMaster s.dev) = false ∧ findAssoc x.host x.port x.part s.dev = some (aid, a)
        ∧ assocAt aid s.dev = some a)
    ∧ (∃ (i : Nat) (x : Stream) (s : State), i < 262144 ∧ streamAt i s.dev = some x
        ∧ let l := (x.outq.takeWhile fun y => outReleased i y s.dev && (y.batch.isNone || recordWay x.home s.dev)).take 255; l ≠ []
        ∧ cnsServes x.part s.dev = true ∧ isCnsMaster s.dev = false)
    ∧ (∃ (i : Nat) (x : Stream) (s : State), i < 262144 ∧ streamAt i s.dev = some x
        ∧ let l := (x.outq.takeWhile fun y => outReleased i y s.dev && (y.batch.isNone || recordWay x.home s.dev)).take 255; l ≠ []
        ∧ cnsServes x.part s.dev = true ∧ isCnsMaster s.dev = false) :=
  ⟨⟨262143, { str0 with outq := [] }, strs [(262143, { str0 with outq := [] })] up, by decide +kernel⟩,
   ⟨3, { str0 with outq := [⟨some 0, List.replicate 16 1#8⟩] }, strs [(3, { str0 with outq := [⟨some 0, List.replicate 16 1#8⟩] })] up,
      by decide +kernel⟩,
   ⟨3, { str0 with outq := [⟨none, List.replicate 16 1#8⟩, ⟨none, List.replicate 16 2#8⟩] },
      strs [(3, { str0 with outq := [⟨none, List.replicate 16 1#8⟩, ⟨none, List.replicate 16 2#8⟩] })] (assocs [as0] up), 0, as0,
      by decide +kernel⟩,
   ⟨3, { str0 with outq := [⟨none, List.replicate 16 1#8⟩, ⟨none, List.replicate 16 2#8⟩] },
      strs [(3, { str0 with outq := [⟨none, List.replicate 16 1#8⟩, ⟨none, List.replicate 16 2#8⟩] })] (inCns 1 0 2 2), by decide +kernel⟩,
   ⟨262143, { str0 with handle := 0x7FFFF#32, outq := [⟨none, List.replicate 16 1#8⟩] },
      strs [(262143, { str0 with handle := 0x7FFFF#32, outq := [⟨none, List.replicate 16 1#8⟩] })] (inCns 1 0 3 2), by decide +kernel⟩⟩

theorem test_Sampling :
    (∃ (i : Nat) (x : Stream) (l : List DraftTok) (logits : List (List Word)) (s : State), i < 262144 ∧ streamAt i s.dev = some x
        ∧ x.state = 3 ∧ x.draftDone = false ∧ x.steps = [] ∧ gammaOf (restep x) s.dev ≠ 0 ∧ logits.length = gammaOf (restep x) s.dev
        ∧ logitsFinite logits = true ∧ draftToks x s.found ((restep x).nextpos + 1) [] (logits.map logitVals) = some l)
    ∧ (∃ (i : Nat) (tok : Nat) (lp : Word) (x : Stream) (st : StepRec) (r : List StepRec) (z : List Word) (s : State), i < 262144
        ∧ streamAt i s.dev = some x ∧ streamLive x = true ∧ x.steps = st :: r ∧ st.prefill = true ∧ st.pos0 + st.count = x.avail
        ∧ x.more = false ∧ logitsFinite [z] = true ∧ let b := maskRead x s.found; ((∃ best, distOf x [] (logitVals z) b = .greedy best
        ∧ tok = best ∧ lp = 0#32) ∨ ∃ l, distOf x [] (logitVals z) b = .dist l ∧ tok = select l (pickRand x x.avail 0)
        ∧ lp = logpOf (probOf l tok)))
    ∧ (∃ (i : Nat) (tok : Nat) (lp : Word) (x : Stream) (st : StepRec) (r : List StepRec) (z : List Word) (s : State), i < 262144
        ∧ streamAt i s.dev = some x ∧ streamLive x = true ∧ x.steps = st :: r ∧ st.prefill = true ∧ st.pos0 + st.count = x.avail
        ∧ x.more = false ∧ logitsFinite [z] = true ∧ let b := maskRead x s.found; ((∃ best, distOf x [] (logitVals z) b = .greedy best
        ∧ tok = best ∧ lp = 0#32) ∨ ∃ l, distOf x [] (logitVals z) b = .dist l ∧ tok = select l (pickRand x x.avail 0)
        ∧ lp = logpOf (probOf l tok)))
    ∧ (∃ (i : Nat) (x : Stream) (st : StepRec) (r : List StepRec) (logits : List (List Word)) (s : State), i < 262144
        ∧ streamAt i s.dev = some x ∧ streamLive x = true ∧ x.steps = st :: r ∧ st.prefill = false ∧ logitsFinite logits = true
        ∧ logits.length = x.drafts.length + 1 ∧ let v := verifyBlock i (st.pos0 + 1) x.drafts (logits.map logitVals) (maskRead x s.found); v.2.2 = true)
    ∧ (∃ (i : Nat) (x : Stream) (st : StepRec) (r : List StepRec) (z : List Word) (s : State), i < 262144 ∧ streamAt i s.dev = some x
        ∧ streamLive x = true ∧ x.steps = st :: r ∧ st.prefill = true ∧ st.pos0 + st.count = x.avail ∧ x.more = false
        ∧ logitsFinite [z] = true ∧ distOf x [] (logitVals z) (maskRead x s.found) = .empty) :=
  ⟨⟨3, { str0 with draftMax := 2, draft := 2, samp := open_ }, [⟨1, [(1, one32)]⟩, ⟨2, [(2, one32)]⟩],
      [[0#32, one32, 0#32, 0#32], [0#32, 0#32, one32, 0#32]], drafting { str0 with draftMax := 2, draft := 2, samp := open_ },
      by decide +kernel⟩,
   ⟨3, 1, 0#32, { str0 with state := 2, nextpos := 1, avail := 2, samp := open_, steps := [stepIn true] }, stepIn true, [],
      [0#32, one32, 0#32, 0#32], drafting { str0 with state := 2, nextpos := 1, avail := 2, samp := open_, steps := [stepIn true] },
      seven (by decide +kernel) (.inl ⟨1, greedy_of (by decide +kernel), rfl, rfl⟩)⟩,
   ⟨3, 0, 0#32, tempered, stepIn true, [], [one32], tempSt, seven (by decide +kernel) (.inr (let ⟨l, h, k⟩ := dist_of (P := fun l => decide (0 = select l (pickRand tempered 2 0) ∧ 0#32 = logpOf (probOf l 0))) (by decide +kernel); ⟨l, h, by have := of_decide_eq_true k; exact this⟩))⟩,
   ⟨3, { str0 with samp := open_, draftMax := 2, draft := 2, drafts := [⟨1, [(1, one32)]⟩, ⟨2, [(2, one32)]⟩], steps := [stepIn false] },
      stepIn false, [], [[0#32, one32, 0#32, 0#32], [0#32, 0#32, one32, 0#32], [0#32, one32, 0#32, 0#32]],
      drafting { str0 with samp := open_, draftMax := 2, draft := 2, drafts := [⟨1, [(1, one32)]⟩, ⟨2, [(2, one32)]⟩], steps := [stepIn false] }, by decide +kernel⟩,
   ⟨3, { str0 with state := 2, nextpos := 1, avail := 2, samp := samp0, steps := [stepIn true] }, stepIn true, [],
      [0#32, one32, 0#32, 0#32], drafting { str0 with state := 2, nextpos := 1, avail := 2, samp := samp0, steps := [stepIn true] },
      seven (by decide +kernel) (empty_of (by decide +kernel))⟩⟩

theorem test_Scheduling_1 :
    (∃ (p : Nat) (s : State), p < 32 ∧ (formationOpen p s.dev = false ∨ ∃ x, x ∈ (schedAt p s.dev).batches ∧ x.begun = false))
    ∧ (∃ (p : Nat) (s : State), p < 32 ∧ (formationOpen p s.dev = false ∨ ∃ x, x ∈ (schedAt p s.dev).batches ∧ x.begun = false))
    ∧ (∃ (p : Nat) (s : State), p < 32 ∧ formationOpen p s.dev = true ∧ (∀ x, x ∈ (schedAt p s.dev).batches → x.begun = true))
    ∧ (∃ (p : Nat) (s : State), p < 32 ∧ let held := (partStreams p s.dev).filter fun e => streamLive e.2 && e.2.schedp;
        let top := held.foldl (fun m e => min m e.2.prio) 7; (∀ e,
        e ∈ partStreams p s.dev → streamLive e.2 = true → e.2.atRisk = false) ∧ ms 10 ≤ since (schedAt p s.dev).calmFrom s.dev
        ∧ ms 10 ≤ since (schedAt p s.dev).resumed s.dev ∧ held ≠ [])
    ∧ (∃ (i : Nat) (x : Stream) (s : State), i < 262144 ∧ streamAt i s.dev = some x ∧ riskNow x s.dev = true ∧ x.heldKv = true)
    ∧ (∃ (i : Nat) (x : Stream) (s : State), i < 262144 ∧ streamAt i s.dev = some x ∧ riskNow x s.dev = true ∧ x.heldKv = false)
    ∧ (∃ (i : Nat) (s : State), i < 262144 ∧ (∀ x, streamAt i s.dev = some x → riskNow x s.dev = false)) :=
  ⟨⟨31, st up, ⟨by decide +kernel, .inl (by decide +kernel)⟩⟩,
   ⟨0, st (schedOf (fun k => { k with batches := [{ id := 0, model := 0, epoch := 1#32, vecs := [], begun := false }] }) (withImage goodSecs up)), ⟨by decide +kernel, .inr ⟨_, .head _, rfl⟩⟩⟩,
   ⟨0, st (schedOf (fun k => { k with batches := [{ id := 0, model := 0, epoch := 1#32, vecs := [], begun := true }] }) (withImage goodSecs up)), by decide +kernel⟩,
   ⟨0, strs [(3, { str0 with state := 4, schedp := true })] up, by decide +kernel⟩,
   ⟨3, { str0 with heldKv := true }, strs [(3, { str0 with heldKv := true })] up, by decide +kernel⟩,
   ⟨3, { str0 with target := 0x10000#32, turnBegan := up.time - 800000#64 - 1#64 },
      strs [(3, { str0 with target := 0x10000#32, turnBegan := up.time - 800000#64 - 1#64 })] up, by decide +kernel⟩,
   ⟨3, strs [(3, str0)] up, ⟨by decide, by intro x h; cases h; decide +kernel⟩⟩⟩

theorem test_Scheduling_2 :
    (∃ (i : Nat) (x : Stream) (t : DWord) (s : State), i < 262144 ∧ streamAt i s.dev = some x ∧ x.heldKv = true ∧ x.heldFrom = some t
        ∧ sec 2 ≤ since t s.dev ∧ streamLive x = true) :=
  ⟨3, { str0 with heldKv := true, heldFrom := some (up.time - 2000000000#64) }, up.time - 2000000000#64,
      strs [(3, { str0 with heldKv := true, heldFrom := some (up.time - 2000000000#64) })] up, by decide +kernel⟩

theorem test_Boundaries_1 :
    (∃ (i : Nat) (x : Stream) (s : State), i < 262144 ∧ streamAt i s.dev = some x ∧ streamLive x = true ∧ x.steps = [] ∧ x.stop ≠ 0
        ∧ (x.keep = false ∨ x.stop = 4) ∧ x.stop ≠ 4)
    ∧ (∃ (i : Nat) (x : Stream) (s : State), i < 262144 ∧ streamAt i s.dev = some x ∧ streamLive x = true ∧ x.steps = [] ∧ x.stop ≠ 0
        ∧ (x.keep = false ∨ x.stop = 4) ∧ x.keep = true)
    ∧ (∃ (i : Nat) (x : Stream) (s : State), i < 262144 ∧ streamAt i s.dev = some x ∧ streamLive x = true ∧ x.steps = []
        ∧ x.park = none ∧ epochExpired x.part x.model x.epoch s.dev = false ∧ x.stop ≠ 0 ∧ x.keep = true ∧ x.stop ≠ 4)
    ∧ (∃ (i : Nat) (x : Stream) (s : State), i < 262144 ∧ streamAt i s.dev = some x ∧ streamLive x = true ∧ x.steps = []
        ∧ x.park = none ∧ epochExpired x.part x.model x.epoch s.dev = false ∧ (x.state = 2 ∨ x.state = 3) ∧ x.stop = 0
        ∧ (x.limit = BitVec.allOnes 64 ∨ s.dev.time.toNat < x.limit.toNat) ∧ (x.hostp = true ∨ x.schedp = true) ∧ x.state = 2)
    ∧ (∃ (i : Nat) (x : Stream) (s : State), i < 262144 ∧ streamAt i s.dev = some x ∧ streamLive x = true ∧ x.steps = []
        ∧ x.park = none ∧ epochExpired x.part x.model x.epoch s.dev = false ∧ (x.state = 2 ∨ x.state = 3) ∧ x.stop = 0
        ∧ (x.limit = BitVec.allOnes 64 ∨ s.dev.time.toNat < x.limit.toNat) ∧ (x.hostp = true ∨ x.schedp = true) ∧ x.state = 3
        ∧ x.hostp = false)
    ∧ (∃ (i : Nat) (x : Stream) (s : State), i < 262144 ∧ streamAt i s.dev = some x ∧ streamLive x = true ∧ x.steps = []
        ∧ x.park = none ∧ epochExpired x.part x.model x.epoch s.dev = false ∧ (x.state = 2 ∨ x.state = 3) ∧ x.stop = 0
        ∧ (x.limit = BitVec.allOnes 64 ∨ s.dev.time.toNat < x.limit.toNat) ∧ (x.hostp = true ∨ x.schedp = true)
        ∧ x.limit ≠ BitVec.allOnes 64)
    ∧ (∃ (i : Nat) (x : Stream) (s : State), i < 262144 ∧ streamAt i s.dev = some x ∧ streamLive x = true ∧ x.steps = []
        ∧ x.park = none ∧ epochExpired x.part x.model x.epoch s.dev = false ∧ (x.state = 2 ∨ x.state = 3) ∧ x.stop = 0
        ∧ (x.limit = BitVec.allOnes 64 ∨ s.dev.time.toNat < x.limit.toNat) ∧ x.hostp = false ∧ x.schedp = false ∧ x.state = 2
        ∧ promptRemains x = false ∧ x.more = false) :=
  ⟨⟨3, { str0 with stop := 1 }, strs [(3, { str0 with stop := 1 })] up, by decide +kernel⟩,
   ⟨3, { str0 with stop := 4, keep := true }, strs [(3, { str0 with stop := 4, keep := true })] up, by decide +kernel⟩,
   ⟨3, { str0 with stop := 1, keep := true }, strs [(3, { str0 with stop := 1, keep := true })] up, by decide +kernel⟩,
   ⟨3, { str0 with hostp := true, state := 2 }, strs [(3, { str0 with hostp := true, state := 2 })] up, by decide +kernel⟩,
   ⟨3, { str0 with schedp := true }, strs [(3, { str0 with schedp := true })] up, by decide +kernel⟩,
   ⟨3, { str0 with hostp := true, limit := up.time + 1#64 }, strs [(3, { str0 with hostp := true, limit := up.time + 1#64 })] up,
      by decide +kernel⟩,
   ⟨3, { str0 with state := 2, toks := [(0, 1, true), (1, 2, true)] },
      strs [(3, { str0 with state := 2, toks := [(0, 1, true), (1, 2, true)] })] up, by decide +kernel⟩⟩

theorem test_Boundaries_2 :
    (∃ (i : Nat) (x : Stream) (s : State), i < 262144 ∧ streamAt i s.dev = some x ∧ streamLive x = true ∧ x.steps = [] ∧ x.stop = 0
        ∧ let due := (x.state = 2 ∨ x.state = 3) ∧ x.limit ≠ BitVec.allOnes 64 ∧ x.limit.toNat ≤ s.dev.time.toNat; due)
    ∧ (∃ (i : Nat) (x : Stream) (s : State), i < 262144 ∧ streamAt i s.dev = some x ∧ streamLive x = true ∧ x.steps = [] ∧ x.stop = 0
        ∧ let due := (x.state = 2 ∨ x.state = 3) ∧ x.limit ≠ BitVec.allOnes 64 ∧ x.limit.toNat ≤ s.dev.time.toNat; ¬ due
        ∧ epochExpired x.part x.model x.epoch s.dev = true)
    ∧ (∃ (i : Nat) (x : Stream) (s : State), i < 262144 ∧ streamAt i s.dev = some x ∧ streamLive x = true ∧ x.steps = [] ∧ x.stop = 0
        ∧ let due := (x.state = 2 ∨ x.state = 3) ∧ x.limit ≠ BitVec.allOnes 64 ∧ x.limit.toNat ≤ s.dev.time.toNat; ¬ due
        ∧ epochExpired x.part x.model x.epoch s.dev = false ∧ x.park ≠ none ∧ x.state ≠ 5)
    ∧ (∃ (i : Nat) (x : Stream) (s : State), i < 262144 ∧ streamAt i s.dev = some x ∧ x.limit ≠ BitVec.allOnes 64
        ∧ x.limit.toNat ≤ s.dev.time.toNat ∧ asleep s.dev = false ∧ (x.state = 1 ∨ (x.state = 4
        ∧ x.turn = true) ∨ ((x.state = 2 ∨ x.state = 3) ∧ x.steps = [] ∧ x.stop = 0)))
    ∧ (∃ (i : Nat) (x : Stream) (s : State), i < 262144 ∧ streamAt i s.dev = some x ∧ x.limit ≠ BitVec.allOnes 64
        ∧ x.limit.toNat ≤ s.dev.time.toNat ∧ asleep s.dev = false ∧ (x.state = 1 ∨ (x.state = 4
        ∧ x.turn = true) ∨ ((x.state = 2 ∨ x.state = 3) ∧ x.steps = [] ∧ x.stop = 0)))
    ∧ (∃ (i : Nat) (x : Stream) (s : State), i < 262144 ∧ streamAt i s.dev = some x ∧ x.limit ≠ BitVec.allOnes 64
        ∧ x.limit.toNat ≤ s.dev.time.toNat ∧ asleep s.dev = false ∧ (x.state = 1 ∨ (x.state = 4
        ∧ x.turn = true) ∨ ((x.state = 2 ∨ x.state = 3) ∧ x.steps = [] ∧ x.stop = 0)))
    ∧ (∃ (i : Nat) (x : Stream) (s : State), i < 262144 ∧ streamAt i s.dev = some x ∧ x.state = 5 ∧ x.moving = false
        ∧ asleep s.dev = false ∧ x.limit ≠ BitVec.allOnes 64 ∧ x.limit.toNat ≤ s.dev.time.toNat) :=
  ⟨⟨3, { str0 with state := 2, limit := up.time }, strs [(3, { str0 with state := 2, limit := up.time })] up, by decide +kernel⟩,
   ⟨3, str0, strs [(3, str0)] { up with loads := { up.loads with epochs := [{ ep0 with retiring := true, retireBy := some up.time }] } },
      by decide +kernel⟩,
   ⟨3, { str0 with park := some (0, 5), limit := up.time + 1#64 },
      strs [(3, { str0 with park := some (0, 5), limit := up.time + 1#64 })] up, by decide +kernel⟩,
   ⟨3, { str0 with state := 1, limit := up.time }, strs [(3, { str0 with state := 1, limit := up.time })] up, by decide +kernel⟩,
   ⟨3, { str0 with state := 4, limit := up.time }, strs [(3, { str0 with state := 4, limit := up.time })] up, by decide +kernel⟩,
   ⟨3, { str0 with state := 3, limit := up.time }, strs [(3, { str0 with state := 3, limit := up.time })] up, by decide +kernel⟩,
   ⟨3, { str0 with state := 5, limit := up.time }, strs [(3, { str0 with state := 5, limit := up.time })] up, by decide +kernel⟩⟩

theorem test_Attention_1 :
    (∃ (b : Nat) (i : Nat) (l : Nat) (pos : Nat) (kind : Nat) (head : Nat) (draft : Bool) (bf16 : Bool) (data : List Byte) (x : Stream) (r : Region) (st : StepRec) (s : State), b < 12 ∧ i < 262144 ∧ streamAt i s.dev = some x ∧ regionAt b (regKey i draft) s.dev = some r ∧ let lay := regRecOf r s.dev; let w := if bf16 then 2 else 1; let f := if bf16 then fBF16 else fE4M3; let raw := (List.range (kvDim lay)).map fun e => leNat (bytesAt data (w * e) w); let lk := 2 * l + b2n draft; let first := st.pos0 + (pos - st.pos0) / kvEs lay * kvEs lay; x.home = b ∧ streamLive x = true ∧ l < kvLayers lay ∧ pos < r.maxlen ∧ data.length = w * kvDim lay ∧ (∀ v, v ∈ raw → fpNonFinite f v = false) ∧ stepFor x draft pos = some st ∧ kind = 2 ∧ head < kvHeads lay * kvGroup lay)
    ∧ (∃ (b : Nat) (i : Nat) (l : Nat) (pos : Nat) (kind : Nat) (head : Nat) (draft : Bool) (bf16 : Bool) (data : List Byte) (x : Stream) (r : Region) (st : StepRec) (s : State), b < 12 ∧ i < 262144 ∧ streamAt i s.dev = some x ∧ regionAt b (regKey i draft) s.dev = some r ∧ let lay := regRecOf r s.dev; let w := if bf16 then 2 else 1; let f := if bf16 then fBF16 else fE4M3; let raw := (List.range (kvDim lay)).map fun e => leNat (bytesAt data (w * e) w); let lk := 2 * l + b2n draft; let first := st.pos0 + (pos - st.pos0) / kvEs lay * kvEs lay; x.home = b ∧ streamLive x = true ∧ l < kvLayers lay ∧ pos < r.maxlen ∧ data.length = w * kvDim lay ∧ (∀ v, v ∈ raw → fpNonFinite f v = false) ∧ stepFor x draft pos = some st ∧ kind < 2 ∧ head < kvHeads lay ∧ let c := kvConvert lay f raw; let isOpen := (kvAt b s.dev).bufs.any fun y => y.stream == i && y.layer == lk && y.first == first && y.st == 1; (kvStepAt b i lk st s.dev).direct.contains first = false ∧ (isOpen = true ∨ (kvAt b s.dev).bufs.length < 4096) ∧ isOpen = false)
    ∧ (∃ (b : Nat) (i : Nat) (l : Nat) (pos : Nat) (kind : Nat) (head : Nat) (draft : Bool) (bf16 : Bool) (data : List Byte) (x : Stream) (r : Region) (st : StepRec) (s : State), b < 12 ∧ i < 262144 ∧ streamAt i s.dev = some x ∧ regionAt b (regKey i draft) s.dev = some r ∧ let lay := regRecOf r s.dev; let w := if bf16 then 2 else 1; let f := if bf16 then fBF16 else fE4M3; let raw := (List.range (kvDim lay)).map fun e => leNat (bytesAt data (w * e) w); let lk := 2 * l + b2n draft; let first := st.pos0 + (pos - st.pos0) / kvEs lay * kvEs lay; x.home = b ∧ streamLive x = true ∧ l < kvLayers lay ∧ pos < r.maxlen ∧ data.length = w * kvDim lay ∧ (∀ v, v ∈ raw → fpNonFinite f v = false) ∧ stepFor x draft pos = some st ∧ kind < 2 ∧ head < kvHeads lay ∧ let c := kvConvert lay f raw; let isOpen := (kvAt b s.dev).bufs.any fun y => y.stream == i && y.layer == lk && y.first == first && y.st == 1; (kvStepAt b i lk st s.dev).direct.contains first = false ∧ (isOpen = true ∨ (kvAt b s.dev).bufs.length < 4096) ∧ isOpen = true)
    ∧ (∃ (b : Nat) (i : Nat) (l : Nat) (pos : Nat) (kind : Nat) (head : Nat) (draft : Bool) (bf16 : Bool) (data : List Byte) (x : Stream) (r : Region) (st : StepRec) (s : State) (a : Nat), b < 12 ∧ i < 262144 ∧ streamAt i s.dev = some x ∧ regionAt b (regKey i draft) s.dev = some r ∧ let lay := regRecOf r s.dev; let w := if bf16 then 2 else 1; let f := if bf16 then fBF16 else fE4M3; let raw := (List.range (kvDim lay)).map fun e => leNat (bytesAt data (w * e) w); let lk := 2 * l + b2n draft; let first := st.pos0 + (pos - st.pos0) / kvEs lay * kvEs lay; x.home = b ∧ streamLive x = true ∧ l < kvLayers lay ∧ pos < r.maxlen ∧ data.length = w * kvDim lay ∧ (∀ v, v ∈ raw → fpNonFinite f v = false) ∧ stepFor x draft pos = some st ∧ kind < 2 ∧ head < kvHeads lay ∧ let isOpen := (kvAt b s.dev).bufs.any fun y => y.stream == i && y.layer == lk && y.first == first && y.st == 1; ((kvStepAt b i lk st s.dev).direct.contains first = true ∨ (isOpen = false ∧ 4096 ≤ (kvAt b s.dev).bufs.length)) ∧ xlate b (curRoot b r s.dev) lay (posVa r lay l pos) true s.dev = some a ∧ a + kvStride lay ≤ 2 ^ 37)
    ∧ (∃ (b : Nat) (i : Nat) (l : Nat) (pos : Nat) (kind : Nat) (head : Nat) (draft : Bool) (bf16 : Bool) (data : List Byte) (x : Stream) (r : Region) (st : StepRec) (s : State) (a : Nat), b < 12 ∧ i < 262144 ∧ streamAt i s.dev = some x ∧ regionAt b (regKey i draft) s.dev = some r ∧ let lay := regRecOf r s.dev; let w := if bf16 then 2 else 1; let f := if bf16 then fBF16 else fE4M3; let raw := (List.range (kvDim lay)).map fun e => leNat (bytesAt data (w * e) w); let lk := 2 * l + b2n draft; let first := st.pos0 + (pos - st.pos0) / kvEs lay * kvEs lay; x.home = b ∧ streamLive x = true ∧ l < kvLayers lay ∧ pos < r.maxlen ∧ data.length = w * kvDim lay ∧ (∀ v, v ∈ raw → fpNonFinite f v = false) ∧ stepFor x draft pos = some st ∧ kind < 2 ∧ head < kvHeads lay ∧ let isOpen := (kvAt b s.dev).bufs.any fun y => y.stream == i && y.layer == lk && y.first == first && y.st == 1; ((kvStepAt b i lk st s.dev).direct.contains first = true ∨ (isOpen = false ∧ 4096 ≤ (kvAt b s.dev).bufs.length)) ∧ xlate b (curRoot b r s.dev) lay (posVa r lay l pos) true s.dev = some a ∧ a + kvStride lay ≤ 2 ^ 37)
    ∧ (∃ (b : Nat) (i : Nat) (l : Nat) (pos : Nat) (kind : Nat) (head : Nat) (draft : Bool) (bf16 : Bool) (data : List Byte) (x : Stream) (r : Region) (st : StepRec) (s : State), b < 12 ∧ i < 262144 ∧ streamAt i s.dev = some x ∧ regionAt b (regKey i draft) s.dev = some r ∧ let lay := regRecOf r s.dev; let w := if bf16 then 2 else 1; let f := if bf16 then fBF16 else fE4M3; let raw := (List.range (kvDim lay)).map fun e => leNat (bytesAt data (w * e) w); let lk := 2 * l + b2n draft; let first := st.pos0 + (pos - st.pos0) / kvEs lay * kvEs lay; x.home = b ∧ streamLive x = true ∧ l < kvLayers lay ∧ pos < r.maxlen ∧ data.length = w * kvDim lay ∧ (∀ v, v ∈ raw → fpNonFinite f v = false) ∧ stepFor x draft pos = some st ∧ kind < 2 ∧ head < kvHeads lay ∧ let isOpen := (kvAt b s.dev).bufs.any fun y => y.stream == i && y.layer == lk && y.first == first && y.st == 1; ((kvStepAt b i lk st s.dev).direct.contains first = true ∨ (isOpen = false ∧ 4096 ≤ (kvAt b s.dev).bufs.length)) ∧ xlate b (curRoot b r s.dev) lay (posVa r lay l pos) true s.dev = none)
    ∧ (∃ (b : Nat) (i : Nat) (lk : Nat) (appends : Bool) (r : Region) (x : Stream) (k : KvStep) (s : State), b < 12 ∧ i < 262144
        ∧ regionAt b (regKey i (lk % 2 == 1)) s.dev = some r ∧ streamAt i s.dev = some x ∧ streamLive x = true
        ∧ let lay := regRecOf r s.dev; let ready := fun (q : KvStep) => q.stream == i && q.layer == lk && queriesWhole (kvHeads lay * kvGroup lay) q && (if appends then (List.range q.count).all (fun j => entryWhole (kvHeads lay) (q.pos0 + j) q) else q.appended.isEmpty); (kvAt b s.dev).kvsteps.find? ready = some k ∧ (kvAt b s.dev).walks.length < 256 ∧ (r.mode ≠ 2 ∨ (k.pos0 + k.count - 1) / 64 < r.rows) ∧ r.mode = 0) :=
  ⟨⟨0, 3, 0, 1, 2, 0, false, true, List.replicate 128 0x3F#8, kvx, reg0, stepIn false, kvSt reg0 kvx id, by decide +kernel⟩,
   ⟨0, 3, 0, 1, 1, 0, false, false, List.replicate 64 0x3F#8, kvx, reg0, stepIn false, kvSt reg0 kvx id, by decide +kernel⟩,
   ⟨0, 3, 0, 1, 0, 0, false, true, List.replicate 128 0x3F#8, kvx, reg0, stepIn false,
      kvSt reg0 kvx fun k => { k with bufs := [⟨3, 0, 1, 1, [], []⟩] }, by decide +kernel⟩,
   ⟨0, 3, 0, 1, 1, 0, false, false, List.replicate 64 0x3F#8, kvx, reg0, stepIn false,
      kvSt reg0 kvx fun k => { k with gens := [mapped], bufs := List.replicate 4096 ⟨4, 0, 1, 1, [], []⟩ }, 136, by decide +kernel⟩,
   ⟨0, 3, 0, 1, 1, 0, false, false, List.replicate 64 0x3F#8, kvx, reg0, stepIn false,
      kvSt reg0 kvx fun k => { k with gens := [mapped], kvsteps := [{ kst with direct := [1] }] }, 136, by decide +kernel⟩,
   ⟨0, 3, 0, 1, 1, 0, false, false, List.replicate 64 0x3F#8, kvx, reg0, stepIn false,
      kvSt reg0 kvx fun k => { k with kvsteps := [{ kst with direct := [1] }] }, by decide +kernel⟩,
   ⟨0, 3, 0, true, reg0, kvx, kst, kvSt reg0 kvx fun k => { k with kvsteps := [kst] }, by decide +kernel⟩⟩

theorem test_Attention_2 :
    (∃ (b : Nat) (i : Nat) (lk : Nat) (appends : Bool) (r : Region) (x : Stream) (k : KvStep) (s : State), b < 12 ∧ i < 262144
        ∧ regionAt b (regKey i (lk % 2 == 1)) s.dev = some r ∧ streamAt i s.dev = some x ∧ streamLive x = true
        ∧ let lay := regRecOf r s.dev; let ready := fun (q : KvStep) => q.stream == i && q.layer == lk && queriesWhole (kvHeads lay * kvGroup lay) q && (if appends then (List.range q.count).all (fun j => entryWhole (kvHeads lay) (q.pos0 + j) q) else q.appended.isEmpty); (kvAt b s.dev).kvsteps.find? ready = some k ∧ (kvAt b s.dev).walks.length < 256 ∧ (r.mode ≠ 2 ∨ (k.pos0 + k.count - 1) / 64 < r.rows) ∧ r.mode = 0)
    ∧ (∃ (b : Nat) (i : Nat) (lk : Nat) (appends : Bool) (r : Region) (x : Stream) (k : KvStep) (s : State), b < 12 ∧ i < 262144
        ∧ regionAt b (regKey i (lk % 2 == 1)) s.dev = some r ∧ streamAt i s.dev = some x ∧ streamLive x = true
        ∧ let lay := regRecOf r s.dev; let ready := fun (q : KvStep) => q.stream == i && q.layer == lk && queriesWhole (kvHeads lay * kvGroup lay) q && (if appends then (List.range q.count).all (fun j => entryWhole (kvHeads lay) (q.pos0 + j) q) else q.appended.isEmpty); (kvAt b s.dev).kvsteps.find? ready = some k ∧ (kvAt b s.dev).walks.length < 256 ∧ (r.mode ≠ 2 ∨ (k.pos0 + k.count - 1) / 64 < r.rows) ∧ r.mode = 2)
    ∧ (∃ (b : Nat) (i : Nat) (lk : Nat) (appends : Bool) (r : Region) (x : Stream) (k : KvStep) (s : State), b < 12 ∧ i < 262144
        ∧ regionAt b (regKey i (lk % 2 == 1)) s.dev = some r ∧ streamAt i s.dev = some x ∧ streamLive x = true
        ∧ let lay := regRecOf r s.dev; let ready := fun (q : KvStep) => q.stream == i && q.layer == lk && queriesWhole (kvHeads lay * kvGroup lay) q && (if appends then (List.range q.count).all (fun j => entryWhole (kvHeads lay) (q.pos0 + j) q) else q.appended.isEmpty); (kvAt b s.dev).kvsteps.find? ready = some k ∧ (kvAt b s.dev).walks.length < 256 ∧ r.mode = 2 ∧ r.rows ≤ (k.pos0 + k.count - 1) / 64)
    ∧ (∃ (b : Nat) (i : Nat) (lk : Nat) (n : Nat) (w : Walk) (s : State), b < 12 ∧ i < 262144
        ∧ (kvAt b s.dev).walks.findIdx? (fun y => y.stream == i && y.layer == lk) = some n ∧ (kvAt b s.dev).walks[n]? = some w
        ∧ (w.gone = true ∨ (∀ x, streamAt i s.dev = some x → streamLive x = false)))
    ∧ (∃ (b : Nat) (i : Nat) (lk : Nat) (n : Nat) (errs : List (Nat × Nat)) (words : List (Nat × Nat)) (w : Walk) (s : State) (x : Machine.Stream), b < 12 ∧ i < 262144 ∧ (kvAt b s.dev).walks.findIdx? (fun y => y.stream == i && y.layer == lk) = some n ∧ (kvAt b s.dev).walks[n]? = some w ∧ let r := w.region; let lay := regRecOf r s.dev; let m := ((kvAt b s.dev).gens.find? fun g => g.num == w.gen).bind (genRoot r.part); let fill := (curGen (kvAt b s.dev)).num == w.gen; let z := readGroups b i lk w m fill r lay (kvWin (imgOf r.part s.dev) r.model (lk / 2)) (queryGroups w) errs (markStaged b i lk lay words s.found); streamAt i s.dev = some x ∧ w.gone = false ∧ streamLive x = true ∧ z.1 = 0)
    ∧ (∃ (b : Nat) (i : Nat) (lk : Nat) (n : Nat) (errs : List (Nat × Nat)) (words : List (Nat × Nat)) (w : Walk) (s : State) (x : Machine.Stream), b < 12 ∧ i < 262144 ∧ (kvAt b s.dev).walks.findIdx? (fun y => y.stream == i && y.layer == lk) = some n ∧ (kvAt b s.dev).walks[n]? = some w ∧ let r := w.region; let lay := regRecOf r s.dev; let m := ((kvAt b s.dev).gens.find? fun g => g.num == w.gen).bind (genRoot r.part); let fill := (curGen (kvAt b s.dev)).num == w.gen; let z := readGroups b i lk w m fill r lay (kvWin (imgOf r.part s.dev) r.model (lk / 2)) (queryGroups w) errs (markStaged b i lk lay words s.found); streamAt i s.dev = some x ∧ w.gone = false ∧ streamLive x = true ∧ z.1 = 1)
    ∧ (∃ (b : Nat) (i : Nat) (lk : Nat) (n : Nat) (errs : List (Nat × Nat)) (words : List (Nat × Nat)) (w : Walk) (s : State) (x : Machine.Stream), b < 12 ∧ i < 262144 ∧ (kvAt b s.dev).walks.findIdx? (fun y => y.stream == i && y.layer == lk) = some n ∧ (kvAt b s.dev).walks[n]? = some w ∧ let r := w.region; let lay := regRecOf r s.dev; let m := ((kvAt b s.dev).gens.find? fun g => g.num == w.gen).bind (genRoot r.part); let fill := (curGen (kvAt b s.dev)).num == w.gen; let z := readGroups b i lk w m fill r lay (kvWin (imgOf r.part s.dev) r.model (lk / 2)) (queryGroups w) errs (markStaged b i lk lay words s.found); streamAt i s.dev = some x ∧ w.gone = false ∧ streamLive x = true ∧ z.1 = 2) :=
  ⟨⟨0, 3, 0, false, reg0, kvx, { kst with appended := [] }, kvSt reg0 kvx fun k => { k with kvsteps := [{ kst with appended := [] }] },
      by decide +kernel⟩,
   ⟨0, 3, 0, true, { reg0 with mode := 2, rows := 1 }, kvx, kst,
      kvSt { reg0 with mode := 2, rows := 1 } kvx fun k => { k with kvsteps := [kst] }, by decide +kernel⟩,
   ⟨0, 3, 0, true, { reg0 with mode := 2, rows := 0 }, kvx, kst,
      kvSt { reg0 with mode := 2, rows := 0 } kvx fun k => { k with kvsteps := [kst] }, by decide +kernel⟩,
   ⟨0, 3, 0, 0, { walk0 with gone := true }, kvSt reg0 kvx fun k => { k with walks := [{ walk0 with gone := true }], gens := [mapped] },
      by decide +kernel⟩,
   ⟨0, 3, 0, 0, [], [], walk0, kvSt reg0 kvx fun k => { k with walks := [walk0], gens := [mapped] }, kvx, by decide +kernel⟩,
   ⟨0, 3, 0, 0, [], [], walk0, kvSt reg0 kvx fun k => { k with walks := [walk0], gens := [{ mapped with roots := [] }] }, kvx,
      by decide +kernel⟩,
   ⟨0, 3, 0, 0, [], [], walk0, (let s := kvSt reg0 kvx fun k => { k with walks := [walk0], gens := [mapped] }; st { s.dev with poison := [(17, true)] }), kvx, by decide +kernel⟩⟩

theorem test_Attention_3 :
    (∃ (b : Nat) (i : Nat) (lk : Nat) (first : Nat) (n : Nat) (s : State), b < 12 ∧ i < 262144
        ∧ (kvAt b s.dev).bufs.findIdx? (fun y => y.stream == i && y.layer == lk && y.first == first && y.st == 2) = some n) :=
  ⟨0, 3, 0, 1, 0, kvSt reg0 kvx fun k => { k with bufs := [⟨3, 0, 1, 2, [], []⟩] }, by decide +kernel⟩

theorem test_Generations_1 :
    (∃ (b : Nat) (s : State) (roots : SMap Nat) (pub : Pub), b < 12 ∧ (kvAt b s.dev).edits ≠ []
        ∧ let k := kvAt b s.dev; let es := k.edits.take 1024; let changes := es.flatMap fun e => e.changes;
        let made := pubChanges b (fun p => pageOf p s.dev) s.dev changes (curGen k).roots { tabs := k.tables, fresh := [], gone := [] };
        let held := 16 ≤ (k.gens.filter fun g => g.walks != 0).length; ¬ held ∧ made = some (roots, pub))
    ∧ (∃ (b : Nat) (s : State) (roots : SMap Nat) (pub : Pub), b < 12 ∧ (kvAt b s.dev).edits ≠ []
        ∧ let k := kvAt b s.dev; let es := k.edits.take 1024; let changes := es.flatMap fun e => e.changes;
        let made := pubChanges b (fun p => pageOf p s.dev) s.dev changes (curGen k).roots { tabs := k.tables, fresh := [], gone := [] };
        let held := 16 ≤ (k.gens.filter fun g => g.walks != 0).length; ¬ held ∧ made = some (roots, pub))
    ∧ (∃ (b : Nat) (s : State), b < 12 ∧ (kvAt b s.dev).edits ≠ [] ∧ let k := kvAt b s.dev; let es := k.edits.take 1024;
        let changes := es.flatMap fun e => e.changes; let made := pubChanges b (fun p => pageOf p s.dev) s.dev changes (curGen k).roots { tabs := k.tables, fresh := [], gone := [] }; let held := 16 ≤ (k.gens.filter fun g => g.walks != 0).length; (held ∨ made = none))
    ∧ (∃ (b : Nat) (s : State), b < 12 ∧ (kvAt b s.dev).edits ≠ [] ∧ let k := kvAt b s.dev; let es := k.edits.take 1024;
        let changes := es.flatMap fun e => e.changes; let made := pubChanges b (fun p => pageOf p s.dev) s.dev changes (curGen k).roots { tabs := k.tables, fresh := [], gone := [] }; let held := 16 ≤ (k.gens.filter fun g => g.walks != 0).length; (held ∨ made = none))
    ∧ (∃ (b : Nat) (g : KvGen) (h : KvGen) (r : List KvGen) (s : State), b < 12 ∧ (kvAt b s.dev).gens = g :: h :: r ∧ g.walks = 0)
    ∧ (∃ (b : Nat) (g : KvGen) (h : KvGen) (r : List KvGen) (s : State), b < 12 ∧ (kvAt b s.dev).gens = g :: h :: r ∧ g.walks ≠ 0)
    ∧ (∃ (b : Nat) (a : Nat) (t : Transfer) (rest : List Transfer) (r : Region) (s : State), b < 12
        ∧ (kvAt b s.dev).transfers = t :: rest ∧ regionAt b t.region s.dev = some r
        ∧ let page := pageOf r.part s.dev; let loc := if t.op = 5 then t.loc else 0;
        let gone := t.op = 5 ∧ mget? (effPages r.part b s.dev) t.page = none; freeFrame r.part b loc s.dev = some a ∧ ¬ gone ∧ loc < 2
        ∧ a + page ≤ 2 ^ 37) :=
  ⟨⟨0, kvSt reg0 kvx fun k => { k with edits := [edit0] }, [], { tabs := tables0, fresh := [], gone := [] }, by decide +kernel⟩,
   ⟨0, kvSt reg0 kvx fun k => { k with edits := [edit0], gens := [mapped] },
      [], { tabs := tables0, fresh := [], gone := [0x100000, 0x101000, 0x102000, 0x103000] }, by decide +kernel⟩,
   ⟨0, kvSt reg0 kvx fun k => { k with edits := [edit0], gens := List.replicate 17 mapped }, by decide +kernel⟩,
   ⟨11, st { up with kv := [(11, { emptyKv with edits := [{ edit0 with changes := [(0, some { loc := 0, ro := false, addr := 0 })] }] })] }, by decide +kernel⟩,
   ⟨0, { mapped with walks := 0 }, firstGen, [firstGen], kvSt reg0 kvx fun k => { k with gens := [{ mapped with walks := 0 }, firstGen, firstGen] }, by decide +kernel⟩,
   ⟨0, { mapped with walks := 1 }, firstGen, [firstGen], kvSt reg0 kvx fun k => { k with gens := [{ mapped with walks := 1 }, firstGen, firstGen] }, by decide +kernel⟩,
   ⟨0, 0, { op := 4, stream := 3, region := 6, page := 0, src := 0x10000, loc := 0 },
      [], reg0, kvSt reg0 kvx fun k => { k with transfers := [{ op := 4, stream := 3, region := 6, page := 0, src := 0x10000, loc := 0 }] }, by decide +kernel⟩⟩

theorem test_Generations_2 :
    (∃ (b : Nat) (a : Nat) (t : Transfer) (rest : List Transfer) (r : Region) (s : State), b < 12
        ∧ (kvAt b s.dev).transfers = t :: rest ∧ regionAt b t.region s.dev = some r
        ∧ let page := pageOf r.part s.dev; let loc := if t.op = 5 then t.loc else 0;
        let gone := t.op = 5 ∧ mget? (effPages r.part b s.dev) t.page = none; freeFrame r.part b loc s.dev = some a ∧ ¬ gone ∧ loc < 2
        ∧ a + page ≤ 2 ^ 37)
    ∧ (∃ (b : Nat) (a : Nat) (t : Transfer) (rest : List Transfer) (r : Region) (s : State) (f : List Byte), b < 12
        ∧ (kvAt b s.dev).transfers = t :: rest ∧ regionAt b t.region s.dev = some r
        ∧ let loc := if t.op = 5 then t.loc else 0; let gone := t.op = 5 ∧ mget? (effPages r.part b s.dev) t.page = none;
        freeFrame r.part b loc s.dev = some a ∧ ¬ gone ∧ 2 ≤ loc ∧ (memRecs (imgOf r.part s.dev)).find? (fun x => u8 x 0 == 8) = some f)
    ∧ (∃ (b : Nat) (a : Nat) (t : Transfer) (rest : List Transfer) (r : Region) (s : State), b < 12
        ∧ (kvAt b s.dev).transfers = t :: rest ∧ regionAt b t.region s.dev = some r
        ∧ let loc := if t.op = 5 then t.loc else 0; let gone := t.op = 5 ∧ mget? (effPages r.part b s.dev) t.page = none;
        freeFrame r.part b loc s.dev = some a ∧ gone) :=
  ⟨⟨0, 0x10000, { op := 5, stream := 3, region := 6, page := 0, src := 0, loc := 0 },
      [], reg0, kvSt reg0 kvx fun k => { k with transfers := [{ op := 5, stream := 3, region := 6, page := 0, src := 0, loc := 0 }], gens := [mapped], frames := [(0, 1)] }, by decide +kernel⟩,
   ⟨0, 0, { op := 5, stream := 3, region := 6, page := 0, src := 0, loc := 2 },
      [], reg0, kvSt reg0 kvx fun k => { k with transfers := [{ op := 5, stream := 3, region := 6, page := 0, src := 0, loc := 2 }], gens := [mapped], frames := [(0, 1)] }, padTo 32 ([8#8, 0#8, 0#8, 0#8, 7#8, 0#8, 0#8, 0#8] ++ leBytes 8 0 ++ leBytes 8 0x20000), by decide +kernel⟩,
   ⟨0, 0, { op := 5, stream := 3, region := 6, page := 0, src := 0, loc := 0 },
      [], reg0, kvSt reg0 kvx fun k => { k with transfers := [{ op := 5, stream := 3, region := 6, page := 0, src := 0, loc := 0 }] },
      by decide +kernel⟩⟩

theorem test_WindowsAndEpochs :
    (∃ (n : Nat) (w : Window) (s : State), n < 1024 ∧ windowAt n s.dev = some w ∧ sec 600 ≤ since w.last s.dev ∧ w.state ≠ 3)
    ∧ (∃ (n : Nat) (nonFinite : Bool) (w : Window) (s : State) (slot : Nat), n < 1024 ∧ windowAt n s.dev = some w ∧ w.state = 3
        ∧ w.adapter = some slot ∧ nonFinite = true)
    ∧ (∃ (n : Nat) (nonFinite : Bool) (w : Window) (s : State), n < 1024 ∧ windowAt n s.dev = some w ∧ w.state = 3
        ∧ (w.adapter = none ∨ nonFinite = false) ∧ (missingShards w s.dev ≠ [] ∨ (∃ slot, w.adapter = some slot
        ∧ (oldGenOf slot s.dev).isSome = true) ∨ (w.adapter = none
        ∧ (w.counts.getD 0 0 = 0 ∨ directoryOk w s.dev = false ∨ indexOk w (imgOf w.part s.dev) (blockList w.counts w.place s.dev) = false))))
    ∧ (∃ (n : Nat) (w : Window) (s : State), n < 1024 ∧ windowAt n s.dev = some w ∧ w.state = 3 ∧ w.adapter = none
        ∧ missingShards w s.dev = [] ∧ w.counts.getD 0 0 ≠ 0 ∧ directoryOk w s.dev = true
        ∧ indexOk w (imgOf w.part s.dev) (blockList w.counts w.place s.dev) = true)
    ∧ (∃ (n : Nat) (nonFinite : Bool) (w : Window) (s : State) (slot : Nat), n < 1024 ∧ windowAt n s.dev = some w ∧ w.state = 3
        ∧ w.adapter = some slot ∧ missingShards w s.dev = [] ∧ nonFinite = false ∧ oldGenOf slot s.dev = none)
    ∧ (∃ (p : Nat) (model : Nat) (e : Epoch) (s : State), p < 32 ∧ model < 4 ∧ oldEpoch p model s.dev = some e
        ∧ epochExpired p model e.num s.dev = true ∧ asleep s.dev = false) :=
  ⟨⟨1023, { win0 with num := 1023, last := 0#64 }, (let d := withWin { win0 with num := 1023, last := 0#64 }; st { d with time := 600000000000#64 }), by decide +kernel⟩,
   ⟨0, true, adw, st (withWin adw), 3, by decide +kernel⟩,
   ⟨0, false, { win0 with state := 3 }, st (withWin { win0 with state := 3 }), ⟨by decide, rfl, rfl, .inl rfl, .inl (by decide +kernel)⟩⟩,
   ⟨0, { win0 with state := 3, written := [(0, true)] }, (let d := withImage goodSecs (withWin { win0 with state := 3, written := [(0, true)] }); st { d with mem := bytesOf 0 dirShard }), by decide +kernel⟩,
   ⟨0, false, adw, st (withWin adw), 3, by decide +kernel⟩,
   ⟨0, 0, { ep0 with retiring := true, retireBy := some up.time },
      st { up with loads := { up.loads with epochs := [{ ep0 with retiring := true, retireBy := some up.time }] } }, by decide +kernel⟩⟩

theorem test_FarTier :
    (∃ (p : Nat) (model : Nat) (tag : Nat) (k : Nat) (e : Word) (ep : Epoch) (r : List Byte) (s : State), p < 32 ∧ model < 4
        ∧ epochAt p model e s.dev = some ep ∧ (farTags (imgOf p s.dev) model).findIdx? (fun t => t == tag % 2 ^ 15) = some k
        ∧ farRec (imgOf p s.dev) = some r ∧ (∀ x, x ∈ s.dev.loads.far → x.landed = true ∧ sameFar p model e (tagOf tag e) x = false)
        ∧ s.dev.eth.up = true ∧ farResets p model (tagOf tag e) s.dev = false
        ∧ (∀ t, k ≠ 0 → (farTags (imgOf p s.dev) model)[k - 1]? = some t → ∃ x, x ∈ s.dev.loads.far
        ∧ sameFar p model e (tagOf t e) x = true) ∧ halfFree p model e k (if k < 2 then none else (farTags (imgOf p s.dev) model)[k - 2]?) s.dev = true)
    ∧ (∃ (p : Nat) (model : Nat) (tag : Nat) (k : Nat) (e : Word) (ep : Epoch) (r : List Byte) (s : State), p < 32 ∧ model < 4
        ∧ epochAt p model e s.dev = some ep ∧ (farTags (imgOf p s.dev) model).findIdx? (fun t => t == tag % 2 ^ 15) = some k
        ∧ farRec (imgOf p s.dev) = some r ∧ (∀ x, x ∈ s.dev.loads.far → x.landed = true ∧ sameFar p model e (tagOf tag e) x = false)
        ∧ s.dev.eth.up = true ∧ farResets p model (tagOf tag e) s.dev = false
        ∧ (∀ t, k ≠ 0 → (farTags (imgOf p s.dev) model)[k - 1]? = some t → ∃ x, x ∈ s.dev.loads.far
        ∧ sameFar p model e (tagOf t e) x = true) ∧ halfFree p model e k (if k < 2 then none else (farTags (imgOf p s.dev) model)[k - 2]?) s.dev = true)
    ∧ (∃ (x : FarLayer) (e : Epoch) (shards : List (Nat × List Byte)) (s : State), s.dev.loads.far.find? (fun y => !y.landed) = some x
        ∧ epochAt x.part x.model x.epoch s.dev = some e ∧ (∃ z, z ∈ shards ∧ farHdrOk x e.layout z.1 (z.2.take 64) = false) ∧ x.part < 32)
    ∧ (∃ (x : FarLayer) (e : Epoch) (shards : List (Nat × List Byte)) (s : State), s.dev.loads.far.find? (fun y => !y.landed) = some x
        ∧ epochAt x.part x.model x.epoch s.dev = some e ∧ (∀ z, z ∈ shards → farHdrOk x e.layout z.1 (z.2.take 64) = true))
    ∧ (∃ (x : FarLayer) (e : Epoch) (shards : List (Nat × List Byte)) (s : State) (b : Nat) (data : List Byte),
        s.dev.loads.far.find? (fun y => !y.landed) = some x ∧ epochAt x.part x.model x.epoch s.dev = some e ∧ shards = [(b, data)]
        ∧ farHdrOk x e.layout b (data.take 64) = true ∧ landingBase x.part b x.half s.dev + data.length ≤ 2 ^ 37)
    ∧ (∃ (b : Nat) (exhausted : Bool) (x : FarLayer) (s : State), b < 12 ∧ s.dev.loads.far.find? (fun y => !y.landed) = some x
        ∧ x.part < 32 ∧ (exhausted = true ∨ us (farTmo (imgOf x.part s.dev)) ≤ since x.started s.dev))
    ∧ (∃ (b : Nat) (exhausted : Bool) (x : FarLayer) (s : State), b < 12 ∧ s.dev.loads.far.find? (fun y => !y.landed) = some x
        ∧ x.part < 32 ∧ (exhausted = true ∨ us (farTmo (imgOf x.part s.dev)) ≤ since x.started s.dev)) :=
  ⟨⟨0, 0, 5, 0, 1#32, { ep0 with farShards := 2 }, (padTo 32 [8#8, 0#8, 0#8, 0#8, 9#8]), farSt [], ⟨by decide, by decide,
      by decide +kernel, by decide +kernel, by decide +kernel, by decide +kernel, rfl,
      by decide +kernel, fun _ h => absurd rfl h, by decide +kernel⟩⟩,
   ⟨0, 0, 5, 0, 1#32, { ep0 with farShards := 2 }, (padTo 32 [8#8, 0#8, 0#8, 0#8, 9#8]),
      farSt [{ far0 with layer := 7, landed := true }], ⟨by decide, by decide, by decide +kernel, by decide +kernel,
      by decide +kernel, by decide +kernel, rfl, by decide +kernel, fun _ h => absurd rfl h, by decide +kernel⟩⟩,
   ⟨far0, { ep0 with farShards := 2 }, [(0, farHdr), (11, [])], farSt [far0], by decide +kernel⟩,
   ⟨far0, { ep0 with farShards := 2 }, [(0, farHdr)], farSt [far0], by decide +kernel⟩,
   ⟨far0, { ep0 with farShards := 2 }, [(0, farHdr)], farSt [far0], 0, farHdr, by decide +kernel⟩,
   ⟨11, true, far0, farSt [far0], by decide +kernel⟩,
   ⟨0, false, far0, farSt [far0], by decide +kernel⟩⟩

theorem test_Passes_1 :
    (∃ (f : Nat) (c : Nat) (w : Nat) (i : Nat) (s : State), f < 12 ∧ c < 16 ∧ w < 32 ∧ i < 262144
        ∧ (dieAlive f s.dev = false ∨ tileRec (courseImg f c s.dev) f c w = none))
    ∧ (∃ (f : Nat) (c : Nat) (w : Nat) (i : Nat) (s : State), f < 12 ∧ c < 16 ∧ w < 32 ∧ i < 262144
        ∧ (dieAlive f s.dev = false ∨ tileRec (courseImg f c s.dev) f c w = none))
    ∧ (∃ (f : Nat) (c : Nat) (w : Nat) (i : Nat) (s : State) (t : Nat), f < 12 ∧ c < 16 ∧ w < 32 ∧ i < 262144 ∧ dieAlive f s.dev = true
        ∧ tileRec (courseImg f c s.dev) f c w ≠ none ∧ physOf f c w s.dev = t ∧ t < 33)
    ∧ (∃ (f : Nat) (c : Nat) (w : Nat) (i : Nat) (s : State) (t : Nat), f < 12 ∧ c < 16 ∧ w < 32 ∧ i < 262144 ∧ dieAlive f s.dev = true
        ∧ tileRec (courseImg f c s.dev) f c w ≠ none ∧ physOf f c w s.dev = t ∧ t < 33)
    ∧ (∃ (f : Nat) (c : Nat) (w : Nat) (i : Nat) (s : State), f < 12 ∧ c < 16 ∧ w < 32 ∧ i < 262144 ∧ dieAlive f s.dev = true
        ∧ tileRec (courseImg f c s.dev) f c w ≠ none ∧ 33 ≤ physOf f c w s.dev)
    ∧ (∃ (f : Nat) (c : Nat) (k : Nat) (q : PassD) (rest : List PassD) (s : State), f < 12 ∧ c < 16 ∧ k < 4 ∧ dieAlive f s.dev = true
        ∧ stgValid f c k s.dev = true ∧ (slotAt f c k s.dev).cur = none ∧ (slotAt f c k s.dev).descs = q :: rest
        ∧ let published := ∀ v, v ∈ q.vecs → vecLive v s.dev = true → mapsDue v.stream s.dev = false; ¬ published)
    ∧ (∃ (f : Nat) (c : Nat) (k : Nat) (q : PassD) (rest : List PassD) (s : State), f < 12 ∧ c < 16 ∧ k < 4 ∧ dieAlive f s.dev = true
        ∧ stgValid f c k s.dev = true ∧ (slotAt f c k s.dev).cur = none ∧ (slotAt f c k s.dev).descs = q :: rest
        ∧ let e := forEach (stageTiles (courseImg f c s.dev) f c (stgStage f c k s.dev)) (fun w d => switchTile f c w q.layer d) s.found;
        let finds := (servers f c k e).map fun t => planeFind (tileAt f c t e) q.layer;
        let published := ∀ v, v ∈ q.vecs → vecLive v s.dev = true → mapsDue v.stream s.dev = false; published
        ∧ (∀ x, x ∈ finds → x = .ok)) :=
  ⟨⟨11, 15, 31, 262143, st { fd with pwr := { fd.pwr with state := 2 } }, by decide +kernel⟩,
   ⟨11, 15, 31, 262143, st up, by decide +kernel⟩,
   ⟨11, 15, 31, 262143, st fd, 31, by decide +kernel⟩,
   ⟨11, 15, 31, 262143, st (cr (fun k => { k with tmap := [(31, 32)] }) fd), 32, by decide +kernel⟩,
   ⟨11, 15, 31, 262143, st (cr (fun k => { k with tmap := [(31, 0x3F)] }) fd), by decide +kernel⟩,
   ⟨11, 15, 3, pass3, [], st { formed ready5 with kv := [(0, { emptyKv with edits := [edit0] })] }, by decide +kernel⟩,
   ⟨11, 15, 3, pass3, [], st (formed ready5), by decide +kernel⟩⟩

theorem test_Passes_2 :
    (∃ (f : Nat) (c : Nat) (k : Nat) (q : PassD) (rest : List PassD) (s : State), f < 12 ∧ c < 16 ∧ k < 4 ∧ dieAlive f s.dev = true
        ∧ stgValid f c k s.dev = true ∧ (slotAt f c k s.dev).cur = none ∧ (slotAt f c k s.dev).descs = q :: rest
        ∧ let e := forEach (stageTiles (courseImg f c s.dev) f c (stgStage f c k s.dev)) (fun w d => switchTile f c w q.layer d) s.found;
        let finds := (servers f c k e).map fun t => planeFind (tileAt f c t e) q.layer;
        let published := ∀ v, v ∈ q.vecs → vecLive v s.dev = true → mapsDue v.stream s.dev = false; published ∧ .wait ∈ finds
        ∧ .mismatch ∉ finds)
    ∧ (∃ (f : Nat) (c : Nat) (k : Nat) (q : PassD) (rest : List PassD) (s : State), f < 12 ∧ c < 16 ∧ k < 4 ∧ dieAlive f s.dev = true
        ∧ stgValid f c k s.dev = true ∧ (slotAt f c k s.dev).cur = none ∧ (slotAt f c k s.dev).descs = q :: rest
        ∧ let e := forEach (stageTiles (courseImg f c s.dev) f c (stgStage f c k s.dev)) (fun w d => switchTile f c w q.layer d) s.found;
        let finds := (servers f c k e).map fun t => planeFind (tileAt f c t e) q.layer;
        let published := ∀ v, v ∈ q.vecs → vecLive v s.dev = true → mapsDue v.stream s.dev = false; published ∧ .mismatch ∈ finds
        ∧ coursePart f c s.dev < 32)
    ∧ (∃ (f : Nat) (c : Nat) (k : Nat) (q : PassD) (s : State), f < 12 ∧ c < 16 ∧ k < 4 ∧ (slotAt f c k s.dev).cur = some q
        ∧ slotHeld f c k s.dev = false ∧ (∀ t, t ∈ servers f c k s.dev → nextVec q (tileAt f c t s.dev).taken s.dev = none
        ∧ (tileAt f c t s.dev).next = none) ∧ (∀ w, w ∈ stageTiles (courseImg f c s.dev) f c (stgStage f c k s.dev) → physOf f c w s.dev = 0x3F → nextVec q (mgetD (courseAt f c s.dev).covTaken w 0) s.dev = none) ∧ (isRoot f c k s.dev = true → ∀ v, v ∈ q.vecs.drop (slotAt f c k s.dev).assigned → vecLive v s.dev = false))
    ∧ (∃ (f : Nat) (c : Nat) (k : Nat) (q : PassD) (s : State), f < 12 ∧ c < 16 ∧ k < 4 ∧ (slotAt f c k s.dev).cur = some q
        ∧ slotHeld f c k s.dev = false ∧ (∀ t, t ∈ servers f c k s.dev → nextVec q (tileAt f c t s.dev).taken s.dev = none
        ∧ (tileAt f c t s.dev).next = none) ∧ (∀ w, w ∈ stageTiles (courseImg f c s.dev) f c (stgStage f c k s.dev) → physOf f c w s.dev = 0x3F → nextVec q (mgetD (courseAt f c s.dev).covTaken w 0) s.dev = none) ∧ (isRoot f c k s.dev = true → ∀ v, v ∈ q.vecs.drop (slotAt f c k s.dev).assigned → vecLive v s.dev = false))
    ∧ (∃ (f : Nat) (c : Nat) (k : Nat) (q : PassD) (rest : List PassD) (s : State), f < 12 ∧ c < 16 ∧ k < 4 ∧ dieAlive f s.dev = true
        ∧ stgValid f c k s.dev = true ∧ (slotAt f c k s.dev).cur = none ∧ (slotAt f c k s.dev).descs = q :: rest
        ∧ let e := forEach (stageTiles (courseImg f c s.dev) f c (stgStage f c k s.dev)) (fun w d => switchTile f c w q.layer d) s.found;
        let finds := (servers f c k e).map fun t => planeFind (tileAt f c t e) q.layer; (∀ x, x ∈ finds → x = .ok))
    ∧ (∃ (f : Nat) (c : Nat) (k : Nat) (q : PassD) (rest : List PassD) (s : State), f < 12 ∧ c < 16 ∧ k < 4 ∧ dieAlive f s.dev = true
        ∧ stgValid f c k s.dev = true ∧ (slotAt f c k s.dev).cur = none ∧ (slotAt f c k s.dev).descs = q :: rest
        ∧ let e := forEach (stageTiles (courseImg f c s.dev) f c (stgStage f c k s.dev)) (fun w d => switchTile f c w q.layer d) s.found;
        let finds := (servers f c k e).map fun t => planeFind (tileAt f c t e) q.layer; .wait ∈ finds ∧ .mismatch ∉ finds)
    ∧ (∃ (f : Nat) (c : Nat) (k : Nat) (q : PassD) (rest : List PassD) (s : State), f < 12 ∧ c < 16 ∧ k < 4 ∧ dieAlive f s.dev = true
        ∧ stgValid f c k s.dev = true ∧ (slotAt f c k s.dev).cur = none ∧ (slotAt f c k s.dev).descs = q :: rest
        ∧ let e := forEach (stageTiles (courseImg f c s.dev) f c (stgStage f c k s.dev)) (fun w d => switchTile f c w q.layer d) s.found;
        let finds := (servers f c k e).map fun t => planeFind (tileAt f c t e) q.layer; .mismatch ∈ finds ∧ coursePart f c s.dev < 32) :=
  ⟨⟨11, 15, 3, pass3, [], st (formed id), by decide +kernel⟩,
   ⟨11, 15, 3, pass3, [], st (formed fun x => { x with pb := { emptyPlane with st := 2, tag := 6 } }), by decide +kernel⟩,
   ⟨11, 15, 3, pass3, st (tl (fun x => { x with taken := 1 }) (working fd)), by decide +kernel⟩,
   ⟨11, 15, 3, pass3, st (cr (fun k => { k with tmap := [(31, 0x3F)], covTaken := [(31, 1)] }) (working fd)), by decide +kernel⟩,
   ⟨11, 15, 3, pass3, [], st (tl (fun x => ready5 x) (slt (fun y => { y with descs := [pass3] }) fd)), by decide +kernel⟩,
   ⟨11, 15, 3, pass3, [], st (tl (fun x => x) (slt (fun y => { y with descs := [pass3] }) fd)), by decide +kernel⟩,
   ⟨11, 15, 3, pass3, [], st (tl (fun x => { x with pb := { emptyPlane with st := 2, tag := 6 } }) (slt (fun y => { y with descs := [pass3] }) fd)), by decide +kernel⟩⟩

theorem test_Passes_3 :
    (∃ (f : Nat) (c : Nat) (k : Nat) (q : PassD) (s : State), f < 12 ∧ c < 16 ∧ k < 4 ∧ (slotAt f c k s.dev).cur = some q
        ∧ slotHeld f c k s.dev = false ∧ (∀ t, t ∈ servers f c k s.dev → nextVec q (tileAt f c t s.dev).taken s.dev = none
        ∧ (tileAt f c t s.dev).next = none) ∧ (∀ w, w ∈ stageTiles (courseImg f c s.dev) f c (stgStage f c k s.dev) → physOf f c w s.dev = 0x3F → nextVec q (mgetD (courseAt f c s.dev).covTaken w 0) s.dev = none))
    ∧ (∃ (f : Nat) (c : Nat) (k : Nat) (q : PassD) (s : State), f < 12 ∧ c < 16 ∧ k < 4 ∧ (slotAt f c k s.dev).cur = some q
        ∧ slotHeld f c k s.dev = false ∧ (∀ t, t ∈ servers f c k s.dev → nextVec q (tileAt f c t s.dev).taken s.dev = none
        ∧ (tileAt f c t s.dev).next = none) ∧ (∀ w, w ∈ stageTiles (courseImg f c s.dev) f c (stgStage f c k s.dev) → physOf f c w s.dev = 0x3F → nextVec q (mgetD (courseAt f c s.dev).covTaken w 0) s.dev = none))
    ∧ (∃ (f : Nat) (c : Nat) (k : Nat), f < 12 ∧ c < 16 ∧ k < 4)
    ∧ (∃ (f : Nat) (c : Nat) (k : Nat) (q : PassD) (s : State), f < 12 ∧ c < 16 ∧ k < 4 ∧ (slotAt f c k s.dev).cur = some q
        ∧ coursePart f c s.dev < 32 ∧ let late := ms (stageTmo (imgOf q.part s.dev)) ≤ since (slotAt f c k s.dev).passStart s.dev;
        let landing := ∃ y, y ∈ s.dev.loads.far ∧ y.part = q.part ∧ y.landed = false; late ∧ ¬ landing)
    ∧ (∃ (f : Nat) (c : Nat) (k : Nat) (q : PassD) (s : State), f < 12 ∧ c < 16 ∧ k < 4 ∧ (slotAt f c k s.dev).cur = some q
        ∧ coursePart f c s.dev < 32 ∧ let late := ms (stageTmo (imgOf q.part s.dev)) ≤ since (slotAt f c k s.dev).passStart s.dev;
        let landing := ∃ y, y ∈ s.dev.loads.far ∧ y.part = q.part ∧ y.landed = false; (¬ late ∨ landing) ∧ ¬ late)
    ∧ (∃ (f : Nat) (c : Nat) (k : Nat) (q : PassD) (s : State), f < 12 ∧ c < 16 ∧ k < 4 ∧ (slotAt f c k s.dev).cur = some q
        ∧ coursePart f c s.dev < 32 ∧ let late := ms (stageTmo (imgOf q.part s.dev)) ≤ since (slotAt f c k s.dev).passStart s.dev;
        let landing := ∃ y, y ∈ s.dev.loads.far ∧ y.part = q.part ∧ y.landed = false; (¬ late ∨ landing) ∧ late)
    ∧ (∃ (p : Nat) (b : Nat) (stage : Nat) (i : Nat) (pos : Nat) (vals : List Word) (r : List Byte) (x : Stream) (s : State), p < 32
        ∧ b < 12 ∧ i < 262144 ∧ stageRec (imgOf p s.dev) stage = some r ∧ sKind r = 1 ∧ bit (sBridges r) b = true
        ∧ streamAt i s.dev = some x ∧ x.part = p ∧ streamLive x = true ∧ (∃ st, st ∈ x.steps ∧ inRange st.pos0 st.count pos = true)
        ∧ let y := (vals.take 512 ++ List.replicate (512 - vals.length) 0#32).map fun (w : Word) => fpDec fF32 w.toNat;
        let codes := u8 r 5; let k := conditionFin (bit codes 1) (bits codes 4 4) (y.map fun v => v.getD dyZero) (List.replicate 512 dyZero); let atEntry := ∃ m, modelRec (imgOf p s.dev) (sModel r) = some m ∧ mEntry m = stage; ¬ atEntry ∧ (∃ w, w ∈ vals ∧ fpDec fF32 w.toNat = none)) :=
  ⟨⟨11, 15, 3, pass3, st (tl (fun x => { x with taken := 1 }) (working fd)), by decide +kernel⟩,
   ⟨11, 15, 3, pass3, st (cr (fun k => { k with tmap := [(31, 0x3F)], covTaken := [(31, 1)] }) (working fd)), by decide +kernel⟩,
   ⟨11, 15, 3, by decide +kernel⟩,
   ⟨11, 15, 3, pass3, st (working fd), by decide +kernel⟩,
   ⟨11, 15, 3, pass3, st (slt (fun y => { y with passStart := up.time - 4999999#64 }) (working fd)), by decide +kernel⟩,
   ⟨11, 15, 3, pass3, (let d := working fd; st { d with loads := { d.loads with far := [far0] } }), by decide +kernel⟩,
   ⟨0, 0, 1, 3, 1, [0x7F800000#32], rB, stepX, st fd, ⟨by decide, by decide, by decide, by decide +kernel, by decide +kernel,
      by decide +kernel, by decide +kernel, by decide +kernel, by decide +kernel, ⟨_, .head _,
      by decide +kernel⟩, (show ¬ ∃ m, modelRec (imgOf 0 (st fd).dev) (sModel rB) = some m ∧ mEntry m = 1 from not_ex (by decide +kernel)), ⟨_, .head _, by decide +kernel⟩⟩⟩⟩

theorem test_Passes_4 :
    (∃ (p : Nat) (b : Nat) (stage : Nat) (i : Nat) (pos : Nat) (vals : List Word) (r : List Byte) (x : Stream) (s : State), p < 32
        ∧ b < 12 ∧ i < 262144 ∧ stageRec (imgOf p s.dev) stage = some r ∧ sKind r = 1 ∧ bit (sBridges r) b = true
        ∧ streamAt i s.dev = some x ∧ x.part = p ∧ streamLive x = true ∧ (∃ st, st ∈ x.steps ∧ inRange st.pos0 st.count pos = true)
        ∧ let y := (vals.take 512 ++ List.replicate (512 - vals.length) 0#32).map fun (w : Word) => fpDec fF32 w.toNat;
        let codes := u8 r 5; let k := conditionFin (bit codes 1) (bits codes 4 4) (y.map fun v => v.getD dyZero) (List.replicate 512 dyZero); let atEntry := ∃ m, modelRec (imgOf p s.dev) (sModel r) = some m ∧ mEntry m = stage; ¬ atEntry ∧ 0 < vals.length ∧ vals.length ≤ 512 ∧ (∀ w, w ∈ vals → fpDec fF32 w.toNat ≠ none))
    ∧ (∃ (p : Nat) (b : Nat) (stage : Nat) (i : Nat) (pos : Nat) (r : List Byte) (x : Stream) (s : State), p < 32 ∧ b < 12 ∧ i < 262144
        ∧ stageRec (imgOf p s.dev) stage = some r ∧ sKind r = 1 ∧ bit (sBridges r) b = true ∧ streamAt i s.dev = some x ∧ x.part = p
        ∧ streamLive x = true ∧ (∃ st, st ∈ x.steps ∧ inRange st.pos0 st.count pos = true))
    ∧ (∃ (p : Nat) (b : Nat) (stage : Nat) (i : Nat) (pos : Nat) (vals : List Word) (r : List Byte) (x : Stream) (s : State), p < 32
        ∧ b < 12 ∧ i < 262144 ∧ stageRec (imgOf p s.dev) stage = some r ∧ sKind r = 1 ∧ bit (sBridges r) b = true
        ∧ streamAt i s.dev = some x ∧ x.part = p ∧ streamLive x = true ∧ (∃ st, st ∈ x.steps ∧ inRange st.pos0 st.count pos = true)
        ∧ let y := (vals.take 512 ++ List.replicate (512 - vals.length) 0#32).map fun (w : Word) => fpDec fF32 w.toNat;
        let codes := u8 r 5; let k := conditionFin (bit codes 1) (bits codes 4 4) (y.map fun v => v.getD dyZero) (List.replicate 512 dyZero); let atEntry := ∃ m, modelRec (imgOf p s.dev) (sModel r) = some m ∧ mEntry m = stage; atEntry) :=
  ⟨⟨0, 0, 1, 3, 1, [one32], rB, stepX, st fd, ⟨by decide, by decide, by decide, by decide +kernel, by decide +kernel,
      by decide +kernel, by decide +kernel, by decide +kernel, by decide +kernel, ⟨_, .head _,
      by decide +kernel⟩, (show ¬ ∃ m, modelRec (imgOf 0 (st fd).dev) (sModel rB) = some m ∧ mEntry m = 1 from not_ex (by decide +kernel)), by decide +kernel, by decide +kernel, fin1⟩⟩,
   ⟨0, 0, 1, 3, 1, rB, stepX, st fd, ⟨by decide, by decide, by decide, by decide +kernel, rfl,
      by decide +kernel, rfl, rfl, rfl, ⟨_, .head _, by decide +kernel⟩⟩⟩,
   ⟨0, 0, 2, 3, 1, [one32], rC, stepX, st fd, ⟨by decide, by decide, by decide, by decide +kernel, by decide +kernel,
      by decide +kernel, by decide +kernel, by decide +kernel, by decide +kernel, ⟨_, .head _,
      by decide +kernel⟩, ⟨padTo 16 ([0#8, 0#8, 0xFF#8, 2#8] ++ leBytes 4 1 ++ leBytes 4 4 ++ [1#8]), by decide +kernel⟩⟩⟩⟩

theorem test_PluckPeriods :
    (∃ (f : Nat) (c : Nat) (go : List Nat) (convs : List ConvEv) (ups : List Upset) (s : State), f < 12 ∧ c < 16
        ∧ (∀ t, t ∈ go → t < 33) ∧ (∀ x, x ∈ convs → x.tile < 33 ∧ x.col < 520) ∧ (∀ x, x ∈ ups → x.tile < 33 ∧ x.seg < 4096
        ∧ x.slot ≤ 64) ∧ dieAlive f s.dev = false)
    ∧ (∃ (f : Nat) (c : Nat) (go : List Nat) (convs : List ConvEv) (ups : List Upset) (s : State), f < 12 ∧ c < 16
        ∧ (∀ t, t ∈ go → t < 33) ∧ (∀ x, x ∈ convs → x.tile < 33 ∧ x.col < 520) ∧ (∀ x, x ∈ ups → x.tile < 33 ∧ x.seg < 4096
        ∧ x.slot ≤ 64) ∧ dieAlive f s.dev = true ∧ coursePart f c s.dev < 32)
    ∧ (∃ (f : Nat) (c : Nat) (n : Nat) (go : List Nat) (convs : List ConvEv) (ups : List Upset) (s : State), f < 12 ∧ c < 16
        ∧ (∀ t, t ∈ go → t < 33) ∧ (∀ x, x ∈ convs → x.tile < 33 ∧ x.col < 520) ∧ (∀ x, x ∈ ups → x.tile < 33 ∧ x.seg < 4096
        ∧ x.slot ≤ 64) ∧ dieAlive f s.dev = true ∧ coursePart f c s.dev < 32 ∧ 4 * capoWindow f c s.dev < n)
    ∧ (∃ (f : Nat) (c : Nat) (t : Nat) (n : Nat) (convs : List ConvEv) (k : Take) (s : State), f < 12 ∧ c < 16 ∧ t < 33
        ∧ (∀ x, x ∈ convs → x.tile < 33 ∧ x.col < 520) ∧ dieAlive f s.dev = true ∧ coursePart f c s.dev < 32
        ∧ (∀ p, p ∈ (courseAt f c s.dev).plucks → p.converted = true) ∧ n ≤ 4 * capoWindow f c s.dev ∧ queueFull f c s.dev = false
        ∧ treeHeld f c s.dev = false ∧ takesNow f c [t] s.dev = [k] ∧ k.fold2 = none
        ∧ (∀ j, j < 4 → t ∈ servers f c j s.dev → slotNoBuf f c j s.dev = false) ∧ demandCount (demandOf f c [k] s.dev) ≤ 2048
        ∧ let x := sliceX (bit (qCfg f c k.slot s.dev) 0) k.slice; countNonzero x ≠ 0)
    ∧ (∃ (f : Nat) (c : Nat) (t : Nat) (n : Nat) (convs : List ConvEv) (k : Take) (s : State), f < 12 ∧ c < 16 ∧ t < 33
        ∧ (∀ x, x ∈ convs → x.tile < 33 ∧ x.col < 520) ∧ dieAlive f s.dev = true ∧ coursePart f c s.dev < 32
        ∧ (∀ p, p ∈ (courseAt f c s.dev).plucks → p.converted = true) ∧ n ≤ 4 * capoWindow f c s.dev ∧ queueFull f c s.dev = false
        ∧ treeHeld f c s.dev = false ∧ takesNow f c [t] s.dev = [k] ∧ k.fold2 = none
        ∧ (∀ j, j < 4 → t ∈ servers f c j s.dev → slotNoBuf f c j s.dev = false) ∧ demandCount (demandOf f c [k] s.dev) ≤ 2048
        ∧ let x := sliceX (bit (qCfg f c k.slot s.dev) 0) k.slice; countNonzero x ≠ 0)
    ∧ (∃ (f : Nat) (c : Nat) (t : Nat) (n : Nat) (convs : List ConvEv) (k : Take) (s : State), f < 12 ∧ c < 16 ∧ t < 33
        ∧ (∀ x, x ∈ convs → x.tile < 33 ∧ x.col < 520) ∧ dieAlive f s.dev = true ∧ coursePart f c s.dev < 32
        ∧ (∀ p, p ∈ (courseAt f c s.dev).plucks → p.converted = true) ∧ n ≤ 4 * capoWindow f c s.dev ∧ queueFull f c s.dev = false
        ∧ treeHeld f c s.dev = false ∧ takesNow f c [t] s.dev = [k] ∧ k.fold2 = none
        ∧ (∀ j, j < 4 → t ∈ servers f c j s.dev → slotNoBuf f c j s.dev = false) ∧ demandCount (demandOf f c [k] s.dev) ≤ 2048
        ∧ let x := sliceX (bit (qCfg f c k.slot s.dev) 0) k.slice; countNonzero x = 0 ∧ (tileAt f c t s.dev).inq = [k.slice]) :=
  ⟨⟨11, 15, [31], [⟨31, 511, 0, false, false⟩], [⟨31, true, 4095, 64, 10⟩], st { fd with pwr := { fd.pwr with state := 2 } },
      by decide +kernel⟩,
   ⟨11, 15, [31], [⟨31, 511, 0, false, false⟩], [⟨31, true, 4095, 64, 10⟩], st (working fd), by decide +kernel⟩,
   ⟨11, 15, 8193, [31], [⟨31, 511, 0, false, false⟩], [⟨31, true, 4095, 64, 10⟩], st (working fd), by decide +kernel⟩,
   ⟨11, 15, 31, 16, [⟨31, 511, 0, false, false⟩], take3 slice1, taking slice1, by decide +kernel⟩,
   ⟨11, 15, 31, 16, [⟨31, 511, 0, false, false⟩], take3 dense, taking dense, by decide +kernel⟩,
   ⟨11, 15, 31, 16, [⟨31, 511, 0, false, false⟩], take3 slice0, taking slice0, by decide +kernel⟩⟩

theorem test_GroupChecks_1 :
    (∃ (f : Nat) (c : Nat) (t : Nat) (g : Nat) (p : Pluck) (s : State), f < 12 ∧ c < 16 ∧ t < 33 ∧ g < 8
        ∧ pluckOf f c t (fun p => p.converted && !p.voided && p.wait.contains g) s.dev = some p ∧ ThePluck f c p.id p s.dev
        ∧ let x := tileAt f c t s.dev; let cols := groupCols (scanMask x) g;
        let asked := fun (col : Nat) => (∃ q, mget? p.codes col = some q ∧ clippedCode q = true) ∨ (512 ≤ col ∧ mget? p.codes col = none); cols ≠ [] ∧ (∃ col, (col ∈ cols ∨ col = 512 + g) ∧ asked col))
    ∧ (∃ (f : Nat) (c : Nat) (t : Nat) (g : Nat) (p : Pluck) (s : State), f < 12 ∧ c < 16 ∧ t < 33 ∧ g < 8
        ∧ pluckOf f c t (fun p => p.converted && !p.voided && p.wait.contains g) s.dev = some p ∧ ThePluck f c p.id p s.dev
        ∧ let x := tileAt f c t s.dev; let cols := groupCols (scanMask x) g;
        let asked := fun (col : Nat) => (∃ q, mget? p.codes col = some q ∧ clippedCode q = true) ∨ (512 ≤ col ∧ mget? p.codes col = none); cols ≠ [] ∧ (∃ col, (col ∈ cols ∨ col = 512 + g) ∧ asked col))
    ∧ (∃ (f : Nat) (c : Nat) (t : Nat) (g : Nat) (p : Pluck) (s : State), f < 12 ∧ c < 16 ∧ t < 33 ∧ g < 8
        ∧ pluckOf f c t (fun p => p.converted && !p.voided && p.wait.contains g) s.dev = some p ∧ ThePluck f c p.id p s.dev
        ∧ let x := tileAt f c t s.dev; let cols := groupCols (scanMask x) g;
        let asked := fun (col : Nat) => (∃ q, mget? p.codes col = some q ∧ clippedCode q = true) ∨ (512 ≤ col ∧ mget? p.codes col = none); cols ≠ [] ∧ (∀ col, col ∈ cols ∨ col = 512 + g → ¬ asked col) ∧ (∀ col, col ∈ p.recon ++ p.colrec → groupOf col ≠ g) ∧ g ∉ p.grprec ∧ g ∉ p.passed ∧ checkPasses (hcK f c p.slot s.dev) x p g = true ∧ retiredCols x g = [])
    ∧ (∃ (f : Nat) (c : Nat) (t : Nat) (g : Nat) (p : Pluck) (s : State), f < 12 ∧ c < 16 ∧ t < 33 ∧ g < 8
        ∧ pluckOf f c t (fun p => p.converted && !p.voided && p.wait.contains g) s.dev = some p ∧ ThePluck f c p.id p s.dev
        ∧ let x := tileAt f c t s.dev; let cols := groupCols (scanMask x) g;
        let asked := fun (col : Nat) => (∃ q, mget? p.codes col = some q ∧ clippedCode q = true) ∨ (512 ≤ col ∧ mget? p.codes col = none); cols ≠ [] ∧ (∀ col, col ∈ cols ∨ col = 512 + g → ¬ asked col) ∧ (∀ col, col ∈ p.recon ++ p.colrec → groupOf col ≠ g) ∧ g ∉ p.grprec ∧ g ∉ p.passed ∧ checkPasses (hcK f c p.slot s.dev) x p g = false)
    ∧ (∃ (f : Nat) (c : Nat) (t : Nat) (col : Nat) (p : Pluck) (s : State), f < 12 ∧ c < 16 ∧ t < 33 ∧ col < 520
        ∧ pluckOf f c t (fun p => p.recon.contains col) s.dev = some p ∧ ThePluck f c p.id p s.dev)
    ∧ (∃ (f : Nat) (c : Nat) (t : Nat) (col : Nat) (p : Pluck) (s : State), f < 12 ∧ c < 16 ∧ t < 33 ∧ col < 520
        ∧ pluckOf f c t (fun p => p.recon.contains col) s.dev = some p ∧ ThePluck f c p.id p s.dev)
    ∧ (∃ (f : Nat) (c : Nat) (t : Nat) (col : Nat) (dev : Int) (unset : Bool) (par : Bool) (p : Pluck) (s : State), f < 12 ∧ c < 16
        ∧ t < 33 ∧ col < 520 ∧ pluckOf f c t (fun p => p.recon.contains col) s.dev = some p ∧ ThePluck f c p.id p s.dev
        ∧ let q := codeOf p.step col (mgetD p.bank col 0) dev; let clip := b2n (!unset && !par && clippedCode q); p.lastOf = true
        ∧ p.converted = true ∧ p.recon = [col] ∧ clip = 0) :=
  ⟨⟨11, 15, 31, 7, pl [7] [(511, 255), (519, 0)] [] [] [], plucking (pl [7] [(511, 255), (519, 0)] [] [] []) good3,
      ⟨by decide +kernel, by decide +kernel, by decide +kernel, by decide +kernel,
      by decide +kernel, the_pluck (by decide +kernel), by decide +kernel, ⟨511, by decide +kernel, .inl ⟨255,
      by decide +kernel, by decide +kernel⟩⟩⟩⟩,
   ⟨11, 15, 31, 7, pl [7] [(511, 0)] [] [] [], plucking (pl [7] [(511, 0)] [] [] []) good3, ⟨by decide +kernel,
      by decide +kernel, by decide +kernel, by decide +kernel, by decide +kernel, the_pluck (by decide +kernel),
      by decide +kernel, ⟨519, by decide +kernel, .inr ⟨by decide, by decide +kernel⟩⟩⟩⟩,
   ⟨11, 15, 31, 7, pl [7] [(511, 0), (519, 0)] [] [] [], plucking (pl [7] [(511, 0), (519, 0)] [] [] []) good3,
      ⟨by decide +kernel, by decide +kernel, by decide +kernel, by decide +kernel,
      by decide +kernel, the_pluck (by decide +kernel), by decide +kernel,
      none_asked (by decide +kernel) 0 0 (by decide +kernel) (by decide) (by decide +kernel) (by decide), by decide +kernel⟩⟩,
   ⟨11, 15, 31, 7, pl [7] [(511, 200), (519, 0)] [] [] [], plucking (pl [7] [(511, 200), (519, 0)] [] [] []) good3,
      ⟨by decide +kernel, by decide +kernel, by decide +kernel, by decide +kernel,
      by decide +kernel, the_pluck (by decide +kernel), by decide +kernel,
      none_asked (by decide +kernel) 200 0 (by decide +kernel) (by decide) (by decide +kernel) (by decide), by decide +kernel⟩⟩,
   ⟨11, 15, 31, 511, pl [7] [] [511] [] [], plucking (pl [7] [] [511] [] []) good3,
      five (by decide +kernel) (the_pluck (by decide +kernel))⟩,
   ⟨11, 15, 31, 511, pl [7] [] [511] [] [], plucking (pl [7] [] [511] [] []) good3,
      five (by decide +kernel) (the_pluck (by decide +kernel))⟩,
   ⟨11, 15, 31, 511, 3, false, false, pl [7] [] [511] [] [], plucking (pl [7] [] [511] [] []) good3,
      five (by decide +kernel) ⟨the_pluck (by decide +kernel), by decide +kernel⟩⟩⟩

theorem test_GroupChecks_2 :
    (∃ (f : Nat) (c : Nat) (t : Nat) (col : Nat) (dev : Int) (unset : Bool) (par : Bool) (p : Pluck) (s : State), f < 12 ∧ c < 16
        ∧ t < 33 ∧ col < 520 ∧ pluckOf f c t (fun p => p.recon.contains col) s.dev = some p ∧ ThePluck f c p.id p s.dev
        ∧ let q := codeOf p.step col (mgetD p.bank col 0) dev; let clip := b2n (!unset && !par && clippedCode q); p.lastOf = true
        ∧ p.converted = true ∧ p.recon = [col] ∧ clip = 0)
    ∧ (∃ (f : Nat) (c : Nat) (t : Nat) (col : Nat) (s : State), f < 12 ∧ c < 16 ∧ t < 33 ∧ col < 520
        ∧ let found := pluckOf f c t (fun p => p.colrec.contains col && inQueue (courseAt f c s.dev) p (p.colrec.findIdx (· == col))) s.dev; (∀ p, found = some p → portReads (planeOf (tileAt f c t s.dev) p.planeB) = false))
    ∧ (∃ (f : Nat) (c : Nat) (t : Nat) (col : Nat) (s : State), f < 12 ∧ c < 16 ∧ t < 33 ∧ col < 520
        ∧ let found := pluckOf f c t (fun p => p.colrec.contains col && inQueue (courseAt f c s.dev) p (p.colrec.findIdx (· == col))) s.dev; (∀ p, found = some p → portReads (planeOf (tileAt f c t s.dev) p.planeB) = false))
    ∧ (∃ (f : Nat) (c : Nat) (t : Nat) (col : Nat) (s : State) (p : Pluck), f < 12 ∧ c < 16 ∧ t < 33 ∧ col < 520
        ∧ let found := pluckOf f c t (fun p => p.colrec.contains col && inQueue (courseAt f c s.dev) p (p.colrec.findIdx (· == col))) s.dev; found = some p ∧ ThePluck f c p.id p s.dev ∧ portReads (planeOf (tileAt f c t s.dev) p.planeB) = true)
    ∧ (∃ (f : Nat) (c : Nat) (t : Nat) (g : Nat) (p : Pluck) (s : State), f < 12 ∧ c < 16 ∧ t < 33 ∧ g < 8 ∧ coursePart f c s.dev < 32
        ∧ pluckOf f c t (fun p => p.grprec.contains g && portReads (planeOf (tileAt f c t s.dev) p.planeB) && inQueue (courseAt f c s.dev) p (p.colrec.length + p.grprec.findIdx (· == g))) s.dev = some p ∧ ThePluck f c p.id p s.dev ∧ p.voided = false ∧ let x := tileAt f c t s.dev; let pl := planeOf x p.planeB; let good := cellsGood x pl ((activeRows p.x).map (·.1)) g; good = false ∧ x.suspect = true ∧ groupsHeld x p ≠ [])
    ∧ (∃ (f : Nat) (c : Nat) (t : Nat) (g : Nat) (p : Pluck) (s : State), f < 12 ∧ c < 16 ∧ t < 33 ∧ g < 8 ∧ coursePart f c s.dev < 32
        ∧ pluckOf f c t (fun p => p.grprec.contains g && portReads (planeOf (tileAt f c t s.dev) p.planeB) && inQueue (courseAt f c s.dev) p (p.colrec.length + p.grprec.findIdx (· == g))) s.dev = some p ∧ ThePluck f c p.id p s.dev ∧ p.voided = false ∧ let x := tileAt f c t s.dev; let pl := planeOf x p.planeB; let good := cellsGood x pl ((activeRows p.x).map (·.1)) g; good = true ∧ (x.suspect = true ∨ x.tstate ≠ 1)) :=
  ⟨⟨11, 15, 31, 511, 3, true, false, pl [7] [] [511] [] [], plucking (pl [7] [] [511] [] []) good3,
      five (by decide +kernel) ⟨the_pluck (by decide +kernel), by decide +kernel⟩⟩,
   ⟨11, 15, 31, 511, st (working fd), ⟨by decide, by decide, by decide, by decide, all_found (by decide +kernel)⟩⟩,
   ⟨11, 15, 31, 511, plucking (pl [7] [] [] [511] []) id, ⟨by decide, by decide, by decide, by decide, all_found (by decide +kernel)⟩⟩,
   ⟨11, 15, 31, 511, plucking (pl [7] [] [] [511] []) good3, pl [7] [] [] [511] [],
      five (by decide +kernel) ⟨the_pluck (by decide +kernel), by decide +kernel⟩⟩,
   ⟨11, 15, 31, 7, pl [7] [] [] [] [7], plucking (pl [7] [] [] [] [7]) fun x => { x with pa := badSeg, suspect := true },
      ⟨by decide, by decide, by decide, by decide, by decide +kernel, by decide +kernel, the_pluck (by decide +kernel), by decide +kernel⟩⟩,
   ⟨11, 15, 31, 7, pl [7] [] [] [] [7], plucking (pl [7] [] [] [] [7]) good3, ⟨by decide, by decide, by decide, by decide,
      by decide +kernel, by decide +kernel, the_pluck (by decide +kernel), by decide +kernel⟩⟩⟩

theorem test_FetchedAndExact_1 :
    (∃ (f : Nat) (c : Nat) (w : Nat) (errs : List (Nat × Nat)) (p : Pluck) (s : State), f < 12 ∧ c < 16 ∧ w < 32
        ∧ (courseAt f c s.dev).plucks.find? (fun p => p.wtile == w && p.voided && !p.wait.isEmpty) = some p
        ∧ let e := readRows f p.src (rowsNeeded p.x p.outs) errs s.found; rowsPoisoned f p.src (rowsNeeded p.x p.outs) e = false)
    ∧ (∃ (f : Nat) (c : Nat) (w : Nat) (errs : List (Nat × Nat)) (p : Pluck) (s : State), f < 12 ∧ c < 16 ∧ w < 32
        ∧ (courseAt f c s.dev).plucks.find? (fun p => p.wtile == w && p.voided && !p.wait.isEmpty) = some p
        ∧ let e := readRows f p.src (rowsNeeded p.x p.outs) errs s.found; rowsPoisoned f p.src (rowsNeeded p.x p.outs) e = true
        ∧ coursePart f c s.dev < 32)
    ∧ (∃ (f : Nat) (c : Nat) (w : Nat) (k : Nat) (a : Nat) (q : PassD) (r : List Byte) (s : State), f < 12 ∧ c < 16 ∧ w < 32
        ∧ (courseAt f c s.dev).plucks.find? (fun p => p.wtile == w && p.voided && !p.wait.isEmpty) = none
        ∧ tileRec (courseImg f c s.dev) f c w = some r ∧ slotOfStage (courseImg f c s.dev) f c (tStage r) = some k
        ∧ (slotAt f c k s.dev).cur = some q ∧ blockAddr f c w q s.dev = some a
        ∧ let taken := mgetD (courseAt f c s.dev).covTaken w 0;
        let z := takeGroup q s.found 8 taken (mgetD (courseAt f c s.dev).cov w []);
        let due := physOf f c w s.dev = 0x3F ∧ groupReady q taken z.1 s.dev = true ∧ groupHeld f c k q (z.1.map fun e => e.2.1) s.dev = false; ¬ due)
    ∧ (∃ (f : Nat) (c : Nat) (w : Nat) (k : Nat) (a : Nat) (errs : List (Nat × Nat)) (q : PassD) (r : List Byte) (s : State), f < 12
        ∧ c < 16 ∧ w < 32 ∧ (courseAt f c s.dev).plucks.find? (fun p => p.wtile == w && p.voided && !p.wait.isEmpty) = none
        ∧ tileRec (courseImg f c s.dev) f c w = some r ∧ slotOfStage (courseImg f c s.dev) f c (tStage r) = some k
        ∧ (slotAt f c k s.dev).cur = some q ∧ blockAddr f c w q s.dev = some a
        ∧ let taken := mgetD (courseAt f c s.dev).covTaken w 0;
        let z := takeGroup q s.found 8 taken (mgetD (courseAt f c s.dev).cov w []);
        let rows := (z.1.flatMap fun e => rowsNeeded (sliceX (bit (qCfg f c k s.dev) 0) e.2.2) e.2.2.outs).eraseDups;
        let ea := readRows f a rows errs s.found; let due := physOf f c w s.dev = 0x3F ∧ groupReady q taken z.1 s.dev = true ∧ groupHeld f c k q (z.1.map fun e => e.2.1) s.dev = false; due ∧ rowsPoisoned f a rows ea = true ∧ coursePart f c s.dev < 32)
    ∧ (∃ (f : Nat) (c : Nat) (w : Nat) (k : Nat) (a : Nat) (errs : List (Nat × Nat)) (q : PassD) (r : List Byte) (s : State), f < 12
        ∧ c < 16 ∧ w < 32 ∧ (courseAt f c s.dev).plucks.find? (fun p => p.wtile == w && p.voided && !p.wait.isEmpty) = none
        ∧ tileRec (courseImg f c s.dev) f c w = some r ∧ slotOfStage (courseImg f c s.dev) f c (tStage r) = some k
        ∧ (slotAt f c k s.dev).cur = some q ∧ blockAddr f c w q s.dev = some a
        ∧ let taken := mgetD (courseAt f c s.dev).covTaken w 0;
        let z := takeGroup q s.found 8 taken (mgetD (courseAt f c s.dev).cov w []);
        let rows := (z.1.flatMap fun e => rowsNeeded (sliceX (bit (qCfg f c k s.dev) 0) e.2.2) e.2.2.outs).eraseDups;
        let ea := readRows f a rows errs s.found; let due := physOf f c w s.dev = 0x3F ∧ groupReady q taken z.1 s.dev = true ∧ groupHeld f c k q (z.1.map fun e => e.2.1) s.dev = false; due ∧ rowsPoisoned f a rows ea = false)
    ∧ (∃ (f : Nat) (c : Nat) (t : Nat) (k : Nat) (b : Bool) (s : State), f < 12 ∧ c < 16 ∧ t < 33 ∧ slotOfTile f c t s.dev = some k
        ∧ (planeOf (tileAt f c t s.dev) b).st = 2 ∧ (slotAt f c k s.dev).repair.contains (2 * t + b2n b) = true
        ∧ (b = true → ¬ ((tileAt f c t s.dev).pa.st = 2 ∧ (slotAt f c k s.dev).repair.contains (2 * t) = true)))
    ∧ (∃ (f : Nat) (c : Nat) (t : Nat) (k : Nat) (b : Bool) (s : State), f < 12 ∧ c < 16 ∧ t < 33 ∧ slotOfTile f c t s.dev = some k
        ∧ (planeOf (tileAt f c t s.dev) b).st = 2 ∧ (slotAt f c k s.dev).repair.contains (2 * t + b2n b) = true
        ∧ (b = true → ¬ ((tileAt f c t s.dev).pa.st = 2 ∧ (slotAt f c k s.dev).repair.contains (2 * t) = true))) :=
  ⟨⟨11, 15, 31, [(0, 1)], voided7, plucking voided7 id, by decide +kernel⟩,
   ⟨11, 15, 31, [(0, 3)], voided7, plucking voided7 id, by decide +kernel⟩,
   ⟨11, 15, 31, 3, 256, pass3, (padTo 12 [11#8, 15#8, 31#8, 0#8]), served, by decide +kernel⟩,
   ⟨11, 15, 31, 3, 256, [(0, 3)], pass3, (padTo 12 [11#8, 15#8, 31#8, 0#8]), covered, by decide +kernel⟩,
   ⟨11, 15, 31, 3, 256, [(0, 1)], pass3, (padTo 12 [11#8, 15#8, 31#8, 0#8]), covered, by decide +kernel⟩,
   ⟨11, 15, 31, 3, true, st (tl (fun x => { x with pb := { emptyPlane with st := 2 } }) (slt (fun y => { y with repair := [63] }) fd)),
      by decide +kernel⟩,
   ⟨11, 15, 31, 3, false, st (tl (fun x => { x with pa := { emptyPlane with st := 2 } }) (slt (fun y => { y with repair := [62] }) fd)),
      by decide +kernel⟩⟩

theorem test_FetchedAndExact_2 :
    (∃ (f : Nat) (c : Nat) (k : Nat) (q : PassD) (s : State), f < 12 ∧ c < 16 ∧ k < 4 ∧ (slotAt f c k s.dev).cur = some q
        ∧ dieAlive f s.dev = true ∧ let ws := (stageTiles (courseImg f c s.dev) f c (stgStage f c k s.dev)).filter fun w => decide (physOf f c w s.dev < 33); let tile := fun w => tileAt f c (physOf f c w s.dev) s.dev; let z := fun w => takeGroup q s.found 8 (tile w).taken (tile w).inq; let n := (ws.map fun w => (z w).1.length).foldl min 8; let vs := (ws.head?.map fun w => (z w).1.map fun e => e.2.1).getD []; let due := stgExact f c k s.dev = true ∧ slotHeld f c k s.dev = false ∧ exactHeld f c k s.dev = false ∧ ws ≠ [] ∧ (∀ w, w ∈ ws → (z w).1.length = n ∧ groupReady q (tile w).taken (z w).1 s.dev = true) ∧ groupHeld f c k q vs s.dev = false; ¬ due)
    ∧ (∃ (f : Nat) (c : Nat) (k : Nat) (q : PassD) (s : State), f < 12 ∧ c < 16 ∧ k < 4 ∧ (slotAt f c k s.dev).cur = some q
        ∧ dieAlive f s.dev = true ∧ let ws := (stageTiles (courseImg f c s.dev) f c (stgStage f c k s.dev)).filter fun w => decide (physOf f c w s.dev < 33); let tile := fun w => tileAt f c (physOf f c w s.dev) s.dev; let z := fun w => takeGroup q s.found 8 (tile w).taken (tile w).inq; let n := (ws.map fun w => (z w).1.length).foldl min 8; let vs := (ws.head?.map fun w => (z w).1.map fun e => e.2.1).getD []; let due := stgExact f c k s.dev = true ∧ slotHeld f c k s.dev = false ∧ exactHeld f c k s.dev = false ∧ ws ≠ [] ∧ (∀ w, w ∈ ws → (z w).1.length = n ∧ groupReady q (tile w).taken (z w).1 s.dev = true) ∧ groupHeld f c k q vs s.dev = false; ¬ due)
    ∧ (∃ (f : Nat) (c : Nat) (k : Nat) (q : PassD) (s : State), f < 12 ∧ c < 16 ∧ k < 4 ∧ (slotAt f c k s.dev).cur = some q
        ∧ dieAlive f s.dev = true ∧ let ws := (stageTiles (courseImg f c s.dev) f c (stgStage f c k s.dev)).filter fun w => decide (physOf f c w s.dev < 33); let tile := fun w => tileAt f c (physOf f c w s.dev) s.dev; let fp4 := bit (qCfg f c k s.dev) 0; let z := fun w => takeGroup q s.found 8 (tile w).taken (tile w).inq; let rows := fun w => ((z w).1.flatMap fun e => rowsNeeded (sliceX fp4 e.2.2) e.2.2.outs).eraseDups; let n := (ws.map fun w => (z w).1.length).foldl min 8; let vs := (ws.head?.map fun w => (z w).1.map fun e => e.2.1).getD []; let due := stgExact f c k s.dev = true ∧ slotHeld f c k s.dev = false ∧ exactHeld f c k s.dev = false ∧ ws ≠ [] ∧ (∀ w, w ∈ ws → (z w).1.length = n ∧ groupReady q (tile w).taken (z w).1 s.dev = true) ∧ groupHeld f c k q vs s.dev = false; due ∧ (∀ w, w ∈ ws → badSegs (tile w) (planeOf (tile w) (tile w).act) (rows w) = [])) :=
  ⟨⟨11, 15, 3, pass3, st (working fd), by decide +kernel⟩,
   ⟨11, 15, 3, pass3, st (slt (fun y => { y with encore := 1 }) (exact3 fd)), by decide +kernel⟩,
   ⟨11, 15, 3, pass3, exactly, by decide +kernel⟩⟩

theorem test_PlaneLoads_1 :
    (∃ (f : Nat) (c : Nat) (t : Nat) (k : Nat) (w : Nat) (s : State), f < 12 ∧ c < 16 ∧ t < 33 ∧ servedW f c t s.dev = some w
        ∧ slotOfTile f c t s.dev = some k ∧ let x := tileAt f c t s.dev;
        let mends := fun b => (planeOf x b).st = 0 ∧ (planeOf x b).load = none ∧ (slotAt f c k s.dev).repair.contains (2 * t + b2n b) = true; let e := dropStale f c t k w s.found; let idle := loadTarget (tileAt f c t e) = none ∨ loadWant f c t e = none ∨ ∃ j z, loadWant f c t e = some (j, z) ∧ earlierLoad f c t j e = true; ¬ mends false ∧ ¬ mends true ∧ idle)
    ∧ (∃ (f : Nat) (c : Nat) (t : Nat) (k : Nat) (w : Nat) (s : State), f < 12 ∧ c < 16 ∧ t < 33 ∧ servedW f c t s.dev = some w
        ∧ slotOfTile f c t s.dev = some k ∧ let x := tileAt f c t s.dev; x.inTest = true)
    ∧ (∃ (f : Nat) (c : Nat) (t : Nat) (k : Nat) (w : Nat) (s : State) (j : Nat) (q : PassD), f < 12 ∧ c < 16 ∧ t < 33
        ∧ servedW f c t s.dev = some w ∧ slotOfTile f c t s.dev = some k
        ∧ let x := tileAt f c t s.dev; let mends := fun b => (planeOf x b).st = 0 ∧ (planeOf x b).load = none ∧ (slotAt f c k s.dev).repair.contains (2 * t + b2n b) = true; let e := dropStale f c t k w s.found; let idle := loadTarget (tileAt f c t e) = none ∨ loadWant f c t e = none ∨ ∃ j z, loadWant f c t e = some (j, z) ∧ earlierLoad f c t j e = true; let part := coursePart f c s.dev; ¬ mends false ∧ ¬ mends true ∧ ¬ idle ∧ loadWant f c t e = some (j, .inr q) ∧ layerFar (imgOf q.part e) q.stage q.layer = false ∧ blockAddr f c w q e = none ∧ part < 32)
    ∧ (∃ (f : Nat) (c : Nat) (t : Nat) (k : Nat) (w : Nat) (errs : List (Nat × Nat)) (s : State) (b : Bool) (a : Nat) (y : Tile),
        f < 12 ∧ c < 16 ∧ t < 33 ∧ servedW f c t s.dev = some w ∧ slotOfTile f c t s.dev = some k
        ∧ let x := tileAt f c t s.dev; let mends := fun b => (planeOf x b).st = 0 ∧ (planeOf x b).load = none ∧ (slotAt f c k s.dev).repair.contains (2 * t + b2n b) = true; let e := dropStale f c t k w s.found; let idle := loadTarget (tileAt f c t e) = none ∨ loadWant f c t e = none ∨ ∃ j z, loadWant f c t e = some (j, z) ∧ earlierLoad f c t j e = true; ((y = x ∧ mends b ∧ (b = true → ¬ mends false) ∧ (planeOf x b).src = a) ∨ (y = tileAt f c t e ∧ ¬ mends false ∧ ¬ mends true ∧ ¬ idle ∧ loadTarget y = some b ∧ ((∃ j, loadWant f c t e = some (j, .inl a)) ∨ ∃ j q, loadWant f c t e = some (j, .inr q) ∧ layerFar (imgOf q.part e) q.stage q.layer = false ∧ blockAddr f c w q e = some a))) ∧ let n := 0x440 + 8 * u16 (hbmBytes f a 0x40 s.dev) 0x0A; let ea := hbmReadEcc f a n errs s.found; hbmPoisoned f a n ea = false ∧ blockBad f a s.dev = false)
    ∧ (∃ (f : Nat) (c : Nat) (t : Nat) (k : Nat) (w : Nat) (errs : List (Nat × Nat)) (s : State) (b : Bool) (a : Nat) (y : Tile),
        f < 12 ∧ c < 16 ∧ t < 33 ∧ servedW f c t s.dev = some w ∧ slotOfTile f c t s.dev = some k
        ∧ let x := tileAt f c t s.dev; let mends := fun b => (planeOf x b).st = 0 ∧ (planeOf x b).load = none ∧ (slotAt f c k s.dev).repair.contains (2 * t + b2n b) = true; let e := dropStale f c t k w s.found; let idle := loadTarget (tileAt f c t e) = none ∨ loadWant f c t e = none ∨ ∃ j z, loadWant f c t e = some (j, z) ∧ earlierLoad f c t j e = true; ((y = x ∧ mends b ∧ (b = true → ¬ mends false) ∧ (planeOf x b).src = a) ∨ (y = tileAt f c t e ∧ ¬ mends false ∧ ¬ mends true ∧ ¬ idle ∧ loadTarget y = some b ∧ ((∃ j, loadWant f c t e = some (j, .inl a)) ∨ ∃ j q, loadWant f c t e = some (j, .inr q) ∧ layerFar (imgOf q.part e) q.stage q.layer = false ∧ blockAddr f c w q e = some a))) ∧ let n := 0x440 + 8 * u16 (hbmBytes f a 0x40 s.dev) 0x0A; let ea := hbmReadEcc f a n errs s.found; hbmPoisoned f a n ea = false ∧ blockBad f a s.dev = false)
    ∧ (∃ (f : Nat) (c : Nat) (t : Nat) (k : Nat) (w : Nat) (errs : List (Nat × Nat)) (s : State) (b : Bool) (a : Nat) (y : Tile),
        f < 12 ∧ c < 16 ∧ t < 33 ∧ servedW f c t s.dev = some w ∧ slotOfTile f c t s.dev = some k
        ∧ let x := tileAt f c t s.dev; let mends := fun b => (planeOf x b).st = 0 ∧ (planeOf x b).load = none ∧ (slotAt f c k s.dev).repair.contains (2 * t + b2n b) = true; let e := dropStale f c t k w s.found; let idle := loadTarget (tileAt f c t e) = none ∨ loadWant f c t e = none ∨ ∃ j z, loadWant f c t e = some (j, z) ∧ earlierLoad f c t j e = true; let part := coursePart f c s.dev; ((y = x ∧ mends b ∧ (b = true → ¬ mends false) ∧ (planeOf x b).src = a) ∨ (y = tileAt f c t e ∧ ¬ mends false ∧ ¬ mends true ∧ ¬ idle ∧ loadTarget y = some b ∧ ((∃ j, loadWant f c t e = some (j, .inl a)) ∨ ∃ j q, loadWant f c t e = some (j, .inr q) ∧ layerFar (imgOf q.part e) q.stage q.layer = false ∧ blockAddr f c w q e = some a))) ∧ let n := 0x440 + 8 * u16 (hbmBytes f a 0x40 s.dev) 0x0A; let ea := hbmReadEcc f a n errs s.found; hbmPoisoned f a n ea = true ∧ part < 32) :=
  ⟨⟨11, 15, 31, 3, 31, st fd, ⟨by decide, by decide, by decide, by decide +kernel, by decide +kernel, by decide +kernel,
      by decide +kernel, .inr (.inl (by decide +kernel))⟩⟩,
   ⟨11, 15, 31, 3, 31, st (tl (fun x => { x with inTest := true }) fd), by decide +kernel⟩,
   ⟨11, 15, 31, 3, 31, unindexed, 0, pass3, ⟨by decide, by decide, by decide, by decide +kernel, by decide +kernel,
      by decide +kernel, by decide +kernel, not_idle (by decide +kernel), by decide +kernel⟩⟩,
   ⟨11, 15, 31, 3, 31, [(0, 1)], mending blk, true, 256, tileAt 11 15 31 (mending blk).dev, ⟨by decide, by decide, by decide,
      by decide +kernel, by decide +kernel, .inl (by decide +kernel), by decide +kernel, blk_good (by decide +kernel)⟩⟩,
   ⟨11, 15, 31, 3, 31, [(0, 1)], wanting blk, false, 256, lateTile (wanting blk), ⟨by decide, by decide, by decide,
      by decide +kernel, by decide +kernel, .inr ⟨rfl, by decide +kernel, by decide +kernel, not_idle (by decide +kernel),
      by decide +kernel, .inr ⟨0, pass3, by decide +kernel⟩⟩, by decide +kernel, blk_good (by decide +kernel)⟩⟩,
   ⟨11, 15, 31, 3, 31, [(0, 3)], mending blk, true, 256, tileAt 11 15 31 (mending blk).dev, ⟨by decide, by decide, by decide,
      by decide +kernel, by decide +kernel, .inl (by decide +kernel), by decide +kernel⟩⟩⟩

theorem test_PlaneLoads_2 :
    (∃ (f : Nat) (c : Nat) (t : Nat) (k : Nat) (w : Nat) (errs : List (Nat × Nat)) (s : State) (b : Bool) (a : Nat) (y : Tile), f < 12
        ∧ c < 16 ∧ t < 33 ∧ servedW f c t s.dev = some w ∧ slotOfTile f c t s.dev = some k
        ∧ let x := tileAt f c t s.dev; let mends := fun b => (planeOf x b).st = 0 ∧ (planeOf x b).load = none ∧ (slotAt f c k s.dev).repair.contains (2 * t + b2n b) = true; let e := dropStale f c t k w s.found; let idle := loadTarget (tileAt f c t e) = none ∨ loadWant f c t e = none ∨ ∃ j z, loadWant f c t e = some (j, z) ∧ earlierLoad f c t j e = true; let part := coursePart f c s.dev; ((y = x ∧ mends b ∧ (b = true → ¬ mends false) ∧ (planeOf x b).src = a) ∨ (y = tileAt f c t e ∧ ¬ mends false ∧ ¬ mends true ∧ ¬ idle ∧ loadTarget y = some b ∧ ((∃ j, loadWant f c t e = some (j, .inl a)) ∨ ∃ j q, loadWant f c t e = some (j, .inr q) ∧ layerFar (imgOf q.part e) q.stage q.layer = false ∧ blockAddr f c w q e = some a))) ∧ let n := 0x440 + 8 * u16 (hbmBytes f a 0x40 s.dev) 0x0A; let ea := hbmReadEcc f a n errs s.found; hbmPoisoned f a n ea = true ∧ part < 32)
    ∧ (∃ (f : Nat) (c : Nat) (t : Nat) (k : Nat) (w : Nat) (errs : List (Nat × Nat)) (s : State) (b : Bool) (a : Nat) (y : Tile),
        f < 12 ∧ c < 16 ∧ t < 33 ∧ servedW f c t s.dev = some w ∧ slotOfTile f c t s.dev = some k
        ∧ let x := tileAt f c t s.dev; let mends := fun b => (planeOf x b).st = 0 ∧ (planeOf x b).load = none ∧ (slotAt f c k s.dev).repair.contains (2 * t + b2n b) = true; let e := dropStale f c t k w s.found; let idle := loadTarget (tileAt f c t e) = none ∨ loadWant f c t e = none ∨ ∃ j z, loadWant f c t e = some (j, z) ∧ earlierLoad f c t j e = true; let part := coursePart f c s.dev; ((y = x ∧ mends b ∧ (b = true → ¬ mends false) ∧ (planeOf x b).src = a) ∨ (y = tileAt f c t e ∧ ¬ mends false ∧ ¬ mends true ∧ ¬ idle ∧ loadTarget y = some b ∧ ((∃ j, loadWant f c t e = some (j, .inl a)) ∨ ∃ j q, loadWant f c t e = some (j, .inr q) ∧ layerFar (imgOf q.part e) q.stage q.layer = false ∧ blockAddr f c w q e = some a))) ∧ let n := 0x440 + 8 * u16 (hbmBytes f a 0x40 s.dev) 0x0A; let ea := hbmReadEcc f a n errs s.found; hbmPoisoned f a n ea = false ∧ blockBad f a s.dev = true ∧ part < 32)
    ∧ (∃ (f : Nat) (c : Nat) (t : Nat) (k : Nat) (w : Nat) (errs : List (Nat × Nat)) (s : State) (b : Bool) (a : Nat) (y : Tile),
        f < 12 ∧ c < 16 ∧ t < 33 ∧ servedW f c t s.dev = some w ∧ slotOfTile f c t s.dev = some k
        ∧ let x := tileAt f c t s.dev; let mends := fun b => (planeOf x b).st = 0 ∧ (planeOf x b).load = none ∧ (slotAt f c k s.dev).repair.contains (2 * t + b2n b) = true; let e := dropStale f c t k w s.found; let idle := loadTarget (tileAt f c t e) = none ∨ loadWant f c t e = none ∨ ∃ j z, loadWant f c t e = some (j, z) ∧ earlierLoad f c t j e = true; let part := coursePart f c s.dev; ((y = x ∧ mends b ∧ (b = true → ¬ mends false) ∧ (planeOf x b).src = a) ∨ (y = tileAt f c t e ∧ ¬ mends false ∧ ¬ mends true ∧ ¬ idle ∧ loadTarget y = some b ∧ ((∃ j, loadWant f c t e = some (j, .inl a)) ∨ ∃ j q, loadWant f c t e = some (j, .inr q) ∧ layerFar (imgOf q.part e) q.stage q.layer = false ∧ blockAddr f c w q e = some a))) ∧ let n := 0x440 + 8 * u16 (hbmBytes f a 0x40 s.dev) 0x0A; let ea := hbmReadEcc f a n errs s.found; hbmPoisoned f a n ea = false ∧ blockBad f a s.dev = true ∧ part < 32)
    ∧ (∃ (f : Nat) (c : Nat) (t : Nat) (row : Nat) (g : Nat) (k : Nat) (b : Bool) (l : PlaneLoad) (s : State), f < 12 ∧ c < 16 ∧ t < 33
        ∧ row < 512 ∧ g < 8 ∧ slotOfTile f c t s.dev = some k ∧ (planeOf (tileAt f c t s.dev) b).load = some l
        ∧ let p := planeOf (tileAt f c t s.dev) b; p.st = 4)
    ∧ (∃ (f : Nat) (c : Nat) (t : Nat) (row : Nat) (g : Nat) (k : Nat) (b : Bool) (ok : Bool) (errs : List (Nat × Nat)) (l : PlaneLoad) (s : State), f < 12 ∧ c < 16 ∧ t < 33 ∧ row < 512 ∧ g < 8 ∧ slotOfTile f c t s.dev = some k ∧ (planeOf (tileAt f c t s.dev) b).load = some l ∧ let p := planeOf (tileAt f c t s.dev) b; let a := l.addr + l.codeOff + 32 * (8 * row + g); let bad := hbmPoisoned f a 32 (hbmReadEcc f a 32 errs s.found); p.st ≠ 4 ∧ ok = true ∧ bad = false)
    ∧ (∃ (f : Nat) (c : Nat) (t : Nat) (row : Nat) (g : Nat) (k : Nat) (b : Bool) (ok : Bool) (errs : List (Nat × Nat)) (l : PlaneLoad) (s : State), f < 12 ∧ c < 16 ∧ t < 33 ∧ row < 512 ∧ g < 8 ∧ slotOfTile f c t s.dev = some k ∧ (planeOf (tileAt f c t s.dev) b).load = some l ∧ let p := planeOf (tileAt f c t s.dev) b; let a := l.addr + l.codeOff + 32 * (8 * row + g); let bad := hbmPoisoned f a 32 (hbmReadEcc f a 32 errs s.found); p.st ≠ 4 ∧ ok = true ∧ bad = true ∧ coursePart f c s.dev < 32) :=
  ⟨⟨11, 15, 31, 3, 31, [(0, 3)], wanting blk, false, 256, lateTile (wanting blk), ⟨by decide, by decide, by decide,
      by decide +kernel, by decide +kernel, .inr ⟨rfl, by decide +kernel, by decide +kernel, not_idle (by decide +kernel),
      by decide +kernel, .inr ⟨0, pass3, by decide +kernel⟩⟩, by decide +kernel⟩⟩,
   ⟨11, 15, 31, 3, 31, [], mending [], true, 256, tileAt 11 15 31 (mending []).dev, ⟨by decide, by decide, by decide,
      by decide +kernel, by decide +kernel, .inl (by decide +kernel), by decide +kernel⟩⟩,
   ⟨11, 15, 31, 3, 31, [], wanting [], false, 256, lateTile (wanting []), ⟨by decide, by decide, by decide, by decide +kernel,
      by decide +kernel, .inr ⟨rfl, by decide +kernel, by decide +kernel, not_idle (by decide +kernel),
      by decide +kernel, .inr ⟨0, pass3, by decide +kernel⟩⟩, by decide +kernel⟩⟩,
   ⟨11, 15, 31, 511, 7, 3, true, pload, loading1 (lpl 4 pload), by decide +kernel⟩,
   ⟨11, 15, 31, 511, 7, 3, true, true, [(0, 1)], pload, loading1 (lpl 1 pload), by decide +kernel⟩,
   ⟨11, 15, 31, 511, 7, 3, true, true, [(0, 3)], pload, loading1 (lpl 1 pload), by decide +kernel⟩⟩

theorem test_PlaneLoads_3 :
    (∃ (f : Nat) (c : Nat) (t : Nat) (row : Nat) (g : Nat) (k : Nat) (b : Bool) (ok : Bool) (l : PlaneLoad) (s : State), f < 12
        ∧ c < 16 ∧ t < 33 ∧ row < 512 ∧ g < 8 ∧ slotOfTile f c t s.dev = some k ∧ (planeOf (tileAt f c t s.dev) b).load = some l
        ∧ let p := planeOf (tileAt f c t s.dev) b; p.st ≠ 4 ∧ ok = false ∧ l.resent = false)
    ∧ (∃ (f : Nat) (c : Nat) (t : Nat) (row : Nat) (g : Nat) (k : Nat) (b : Bool) (ok : Bool) (l : PlaneLoad) (s : State), f < 12
        ∧ c < 16 ∧ t < 33 ∧ row < 512 ∧ g < 8 ∧ slotOfTile f c t s.dev = some k ∧ (planeOf (tileAt f c t s.dev) b).load = some l
        ∧ let p := planeOf (tileAt f c t s.dev) b; p.st ≠ 4 ∧ ok = false ∧ l.resent = true ∧ coursePart f c s.dev < 32)
    ∧ (∃ (f : Nat) (c : Nat) (t : Nat) (k : Nat) (b : Bool) (l : PlaneLoad) (s : State), f < 12 ∧ c < 16 ∧ t < 33
        ∧ slotOfTile f c t s.dev = some k ∧ (planeOf (tileAt f c t s.dev) b).load = some l
        ∧ let p := planeOf (tileAt f c t s.dev) b; p.st = 1 ∧ p.segs.length = 4096)
    ∧ (∃ (f : Nat) (c : Nat) (t : Nat) (k : Nat) (b : Bool) (l : PlaneLoad) (s : State), f < 12 ∧ c < 16 ∧ t < 33
        ∧ slotOfTile f c t s.dev = some k ∧ (planeOf (tileAt f c t s.dev) b).load = some l
        ∧ let p := planeOf (tileAt f c t s.dev) b; p.st ≠ 4 ∧ ¬ (p.st = 1 ∧ p.segs.length = 4096) ∧ coursePart f c s.dev < 32)
    ∧ (∃ (f : Nat) (c : Nat) (t : Nat) (k : Nat) (b : Bool) (l : PlaneLoad) (s : State), f < 12 ∧ c < 16 ∧ t < 33
        ∧ slotOfTile f c t s.dev = some k ∧ (planeOf (tileAt f c t s.dev) b).load = some l
        ∧ let p := planeOf (tileAt f c t s.dev) b; p.st = 4)
    ∧ (∃ (f : Nat) (c : Nat) (t : Nat) (b : Bool) (s : State), f < 12 ∧ c < 16 ∧ t < 33
        ∧ let p := planeOf (tileAt f c t s.dev) b; (p.st ≠ 4 ∨ planeRefs f c t b s.dev = true) ∧ p.st ≠ 4) :=
  ⟨⟨11, 15, 31, 511, 7, 3, true, false, pload, loading1 (lpl 1 pload), by decide +kernel⟩,
   ⟨11, 15, 31, 511, 7, 3, true, false, ({ pload with resent := true }), loading1 (lpl 1 ({ pload with resent := true })),
      by decide +kernel⟩,
   ⟨11, 15, 31, 3, true, pload, loading1 ({ lpl 1 pload with segs := (List.range 4096).map fun k => (k, dflt) }), by decide +kernel⟩,
   ⟨11, 15, 31, 3, true, pload, loading1 (lpl 1 pload), by decide +kernel⟩,
   ⟨11, 15, 31, 3, true, pload, loading1 (lpl 4 pload), by decide +kernel⟩,
   ⟨11, 15, 31, true, loading1 (lpl 1 pload), by decide +kernel⟩⟩

theorem test_PlaneLoads_4 :
    (∃ (f : Nat) (c : Nat) (t : Nat) (b : Bool) (s : State), f < 12 ∧ c < 16 ∧ t < 33
        ∧ let p := planeOf (tileAt f c t s.dev) b; (p.st ≠ 4 ∨ planeRefs f c t b s.dev = true) ∧ p.st = 4)
    ∧ (∃ (f : Nat) (c : Nat) (t : Nat) (b : Bool) (s : State), f < 12 ∧ c < 16 ∧ t < 33
        ∧ let p := planeOf (tileAt f c t s.dev) b; p.st = 4 ∧ planeRefs f c t b s.dev = false ∧ p.load = none
        ∧ (∀ x, x ∈ (courseAt f c s.dev).samples → ¬ (x.pluck.tile = t ∧ x.pluck.planeB = b)))
    ∧ (∃ (f : Nat) (c : Nat) (t : Nat) (b : Bool) (s : State), f < 12 ∧ c < 16 ∧ t < 33
        ∧ let p := planeOf (tileAt f c t s.dev) b; p.st = 4 ∧ planeRefs f c t b s.dev = false ∧ p.load = none
        ∧ (∃ x, x ∈ (courseAt f c s.dev).samples ∧ x.pluck.tile = t ∧ x.pluck.planeB = b))
    ∧ (∃ (f : Nat) (c : Nat) (t : Nat) (b : Bool) (s : State) (l : PlaneLoad) (k : Nat), f < 12 ∧ c < 16 ∧ t < 33
        ∧ let p := planeOf (tileAt f c t s.dev) b; p.st = 4 ∧ planeRefs f c t b s.dev = false ∧ p.load = some l
        ∧ slotOfTile f c t s.dev = some k ∧ p.held = [] ∧ l.endHeld = false ∧ coursePart f c s.dev < 32) :=
  ⟨⟨11, 15, 31, false, st (cr (fun k => { k with plucks := [pl [7] [] [] [] []] }) (tl (fun x => { x with pa := { emptyPlane with st := 4 } }) fd)), by decide +kernel⟩,
   ⟨11, 15, 31, true, loading1 { emptyPlane with st := 4 }, by decide +kernel⟩,
   ⟨11, 15, 31, true, st (cr (fun k => { k with samples := [⟨{ pl [] [] [] [] [] with planeB := true }, 0⟩] }) (loading1 { emptyPlane with st := 4 }).dev), by decide +kernel⟩,
   ⟨11, 15, 31, true, loading1 (lpl 4 pload), pload, 3, by decide +kernel⟩⟩

theorem test_Tailpiece_1 :
    (∃ (f : Nat) (c : Nat) (s : State), f < 12 ∧ c < 16 ∧ let e := assignWaiting f c (purgeSets f c s.found); nextTerm f c e = none)
    ∧ (∃ (f : Nat) (c : Nat) (s : State), f < 12 ∧ c < 16 ∧ let e := assignWaiting f c (purgeSets f c s.found); nextTerm f c e = none)
    ∧ (∃ (f : Nat) (c : Nat) (par : Bool) (inside : Bool) (s : State) (m : TermMsg) (pre : List TermMsg) (rest : List TermMsg), f < 12
        ∧ c < 16 ∧ let e := assignWaiting f c (purgeSets f c s.found); nextTerm f c e = some (pre, m, rest) ∧ par = true
        ∧ inside = false ∧ m.tries = 0)
    ∧ (∃ (f : Nat) (c : Nat) (par : Bool) (inside : Bool) (s : State) (m : TermMsg) (pre : List TermMsg) (rest : List TermMsg), f < 12
        ∧ c < 16 ∧ let e := assignWaiting f c (purgeSets f c s.found); nextTerm f c e = some (pre, m, rest)
        ∧ (inside = true ∨ (par = true ∧ 1 ≤ m.tries)) ∧ coursePart f c s.dev < 32)
    ∧ (∃ (f : Nat) (c : Nat) (par : Bool) (inside : Bool) (s : State) (m : TermMsg) (pre : List TermMsg) (rest : List TermMsg), f < 12
        ∧ c < 16 ∧ let e := assignWaiting f c (purgeSets f c s.found); nextTerm f c e = some (pre, m, rest)
        ∧ (inside = true ∨ (par = true ∧ 1 ≤ m.tries)) ∧ coursePart f c s.dev < 32)
    ∧ (∃ (f : Nat) (c : Nat) (par : Bool) (inside : Bool) (s : State) (m : TermMsg) (pre : List TermMsg) (rest : List TermMsg), f < 12
        ∧ c < 16 ∧ let e := assignWaiting f c (purgeSets f c s.found); nextTerm f c e = some (pre, m, rest) ∧ par = false
        ∧ inside = false ∧ vecLive m.vec s.dev = false)
    ∧ (∃ (f : Nat) (c : Nat) (par : Bool) (inside : Bool) (s : State) (m : TermMsg) (pre : List TermMsg) (rest : List TermMsg) (r : List Byte), f < 12 ∧ c < 16 ∧ let e := assignWaiting f c (purgeSets f c s.found); nextTerm f c e = some (pre, m, rest) ∧ par = false ∧ inside = false ∧ tileRec (courseImg f c s.dev) f c m.wtile = some r ∧ vecLive m.vec s.dev = true ∧ m.last = false) :=
  ⟨⟨11, 15, full4, by decide +kernel⟩,
   ⟨11, 15, st fd, by decide +kernel⟩,
   ⟨11, 15, true, false, terms term0 [], term0, [], [], by decide +kernel⟩,
   ⟨11, 15, false, true, terms term0 [], term0, [], [], by decide +kernel⟩,
   ⟨11, 15, true, false, terms ({ term0 with tries := 1 }) [], ({ term0 with tries := 1 }), [], [], by decide +kernel⟩,
   ⟨11, 15, false, false, terms ({ term0 with vec := ⟨9, 1, 1#64⟩ }) [], ({ term0 with vec := ⟨9, 1, 1#64⟩ }), [], [], by decide +kernel⟩,
   ⟨11, 15, false, false, terms term0 [], term0, [], [], (padTo 12 [11#8, 15#8, 31#8, 0#8]), by decide +kernel⟩⟩

theorem test_Tailpiece_2 :
    (∃ (f : Nat) (c : Nat) (k : Nat) (i : Nat) (payload : List Byte) (s : State), f < 12 ∧ c < 16 ∧ k < 4 ∧ i < 262144
        ∧ let w := u32 payload 0; let kind := bits w 30 2; let takes := kind ≠ 3 ∧ isRoot f c k s.dev = true ∧ dieAlive f s.dev = true;
        ¬ takes)
    ∧ (∃ (f : Nat) (c : Nat) (k : Nat) (i : Nat) (payload : List Byte) (s : State), f < 12 ∧ c < 16 ∧ k < 4 ∧ i < 262144
        ∧ let w := u32 payload 0; let kind := bits w 30 2; let takes := kind ≠ 3 ∧ isRoot f c k s.dev = true ∧ dieAlive f s.dev = true;
        ¬ takes)
    ∧ (∃ (f : Nat) (c : Nat) (k : Nat) (i : Nat) (payload : List Byte) (s : State), f < 12 ∧ c < 16 ∧ k < 4 ∧ i < 262144
        ∧ let w := u32 payload 0; let kind := bits w 30 2; let first := bits w 0 9;
        let key := if kind = 0 then 64 * bits w 9 15 + bits w 24 6 else 2 * bits w 9 15 + (kind - 1);
        let mapOf := fun (v : VSlot) => if kind = 0 then v.leaves else v.ops;
        let lacks := fun (v : VSlot) => v.vec.stream == i && (mget? (mgetD (mapOf v) key []) first).isNone;
        let e := match oldestV (slotAt f c k s.dev) lacks, passVec f c k i s.dev with | none, some z => assignVec f c k z.1 z.2 s.found | _, _ => s.found; let takes := kind ≠ 3 ∧ isRoot f c k s.dev = true ∧ dieAlive f s.dev = true; takes ∧ oldestV (slotAt f c k e) lacks = none)
    ∧ (∃ (f : Nat) (c : Nat) (k : Nat) (i : Nat) (payload : List Byte) (u : VSlot) (s : State), f < 12 ∧ c < 16 ∧ k < 4 ∧ i < 262144
        ∧ let w := u32 payload 0; let kind := bits w 30 2; let first := bits w 0 9;
        let key := if kind = 0 then 64 * bits w 9 15 + bits w 24 6 else 2 * bits w 9 15 + (kind - 1);
        let mapOf := fun (v : VSlot) => if kind = 0 then v.leaves else v.ops;
        let lacks := fun (v : VSlot) => v.vec.stream == i && (mget? (mgetD (mapOf v) key []) first).isNone;
        let e := match oldestV (slotAt f c k s.dev) lacks, passVec f c k i s.dev with | none, some z => assignVec f c k z.1 z.2 s.found | _, _ => s.found; let takes := kind ≠ 3 ∧ isRoot f c k s.dev = true ∧ dieAlive f s.dev = true; takes ∧ oldestV (slotAt f c k e) lacks = some u)
    ∧ (∃ (f : Nat) (c : Nat) (k : Nat) (i : Nat) (payload : List Byte) (u : VSlot) (s : State), f < 12 ∧ c < 16 ∧ k < 4 ∧ i < 262144
        ∧ let w := u32 payload 0; let kind := bits w 30 2; let first := bits w 0 9;
        let key := if kind = 0 then 64 * bits w 9 15 + bits w 24 6 else 2 * bits w 9 15 + (kind - 1);
        let mapOf := fun (v : VSlot) => if kind = 0 then v.leaves else v.ops;
        let lacks := fun (v : VSlot) => v.vec.stream == i && (mget? (mgetD (mapOf v) key []) first).isNone;
        let e := match oldestV (slotAt f c k s.dev) lacks, passVec f c k i s.dev with | none, some z => assignVec f c k z.1 z.2 s.found | _, _ => s.found; let takes := kind ≠ 3 ∧ isRoot f c k s.dev = true ∧ dieAlive f s.dev = true; takes ∧ oldestV (slotAt f c k e) lacks = some u)
    ∧ (∃ (f : Nat) (c : Nat) (k : Nat) (i : Nat) (payload : List Byte) (u : VSlot) (s : State), f < 12 ∧ c < 16 ∧ k < 4 ∧ i < 262144
        ∧ let w := u32 payload 0; let kind := bits w 30 2; let first := bits w 0 9;
        let key := if kind = 0 then 64 * bits w 9 15 + bits w 24 6 else 2 * bits w 9 15 + (kind - 1);
        let mapOf := fun (v : VSlot) => if kind = 0 then v.leaves else v.ops;
        let lacks := fun (v : VSlot) => v.vec.stream == i && (mget? (mgetD (mapOf v) key []) first).isNone;
        let e := match oldestV (slotAt f c k s.dev) lacks, passVec f c k i s.dev with | none, some z => assignVec f c k z.1 z.2 s.found | _, _ => s.found; let takes := kind ≠ 3 ∧ isRoot f c k s.dev = true ∧ dieAlive f s.dev = true; takes ∧ oldestV (slotAt f c k e) lacks = some u)
    ∧ (∃ (f : Nat) (c : Nat) (k : Nat) (slice : Nat) (col : Nat) (r : List Byte) (u : VSlot) (s : State), f < 12 ∧ c < 16 ∧ k < 4
        ∧ col < 512 ∧ sliceRec (courseImg f c s.dev) (stgStage f c k s.dev) slice = some r
        ∧ let leaf := fun (v : VSlot) (j : Nat) => mget? (mgetD v.leaves (64 * slice + j) []) col;
        oldestV (slotAt f c k s.dev) (fun v => (mget? (mgetD v.results slice []) col).isNone && (List.range (slNk r)).all fun j => (leaf v j).isSome) = some u ∧ coursePart f c s.dev < 32) :=
  ⟨⟨11, 15, 3, 3, (leBytes 4 (3 * 2 ^ 30)), rooted 0 (buf 1 [vs0] 0) emptyBuf, by decide +kernel⟩,
   ⟨11, 15, 3, 3, (leBytes 4 (0 * 2 ^ 30)), st (working fd), by decide +kernel⟩,
   ⟨11, 15, 3, 9, (leBytes 4 (0 * 2 ^ 30)), rooted 0 emptyBuf emptyBuf, by decide +kernel⟩,
   ⟨11, 15, 3, 3, (leBytes 4 (0 * 2 ^ 30)), vs0, rooted 0 (buf 1 [vs0] 0) emptyBuf, by decide +kernel⟩,
   ⟨11, 15, 3, 3, (leBytes 4 (1 * 2 ^ 30)), vs0, rooted 0 (buf 1 [vs0] 0) emptyBuf, by decide +kernel⟩,
   ⟨11, 15, 3, 3, (leBytes 4 (2 * 2 ^ 30)), vs0, rooted 0 (buf 1 [vs0] 0) emptyBuf, by decide +kernel⟩,
   ⟨11, 15, 3, 0, 511, (padTo 8 [0#8, 191#8, 0#8, 0#8, 1#8, 0#8]), vs0, rooted 0 (buf 1 [vs0] 0) emptyBuf, by decide +kernel⟩⟩

theorem test_Tailpiece_3 :
    (∃ (f : Nat) (c : Nat) (k : Nat) (slice : Nat) (col : Nat) (r : List Byte) (u : VSlot) (s : State), f < 12 ∧ c < 16 ∧ k < 4
        ∧ col < 512 ∧ sliceRec (courseImg f c s.dev) (stgStage f c k s.dev) slice = some r
        ∧ let leaf := fun (v : VSlot) (j : Nat) => mget? (mgetD v.leaves (64 * slice + j) []) col; let fm := treeFmt (tpCfg f c k s.dev);
        let val := fun j => fpVal fm ((leaf u j).getD 0); let sr := fun (x y : Dy) (node : Nat) => (srRound fm (dyAdd x y) (rand24 u.vec.seed u.layer u.vec.pos slice col node)).1; oldestV (slotAt f c k s.dev) (fun v => (mget? (mgetD v.results slice []) col).isNone && (List.range (slNk r)).all fun j => (leaf v j).isSome) = some u)
    ∧ (∃ (f : Nat) (c : Nat) (k : Nat) (b : Bool) (s : State), f < 12 ∧ c < 16 ∧ k < 4
        ∧ let y := bufOf (slotAt f c k s.dev) b; let ready := y.st = 2 ∧ ∀ u, u ∈ y.slots → slotComplete f c k u s.dev = true; ¬ ready)
    ∧ (∃ (f : Nat) (c : Nat) (k : Nat) (b : Bool) (s : State), f < 12 ∧ c < 16 ∧ k < 4
        ∧ let y := bufOf (slotAt f c k s.dev) b; let ready := y.st = 2 ∧ ∀ u, u ∈ y.slots → slotComplete f c k u s.dev = true; ¬ ready)
    ∧ (∃ (f : Nat) (c : Nat) (k : Nat) (b : Bool) (s : State), f < 12 ∧ c < 16 ∧ k < 4
        ∧ let y := bufOf (slotAt f c k s.dev) b; let ready := y.st = 2 ∧ ∀ u, u ∈ y.slots → slotComplete f c k u s.dev = true; ready)
    ∧ (∃ (f : Nat) (c : Nat) (k : Nat) (b : Bool) (s : State), f < 12 ∧ c < 16 ∧ k < 4
        ∧ let x := slotAt f c k s.dev; let y := bufOf x b; let o := bufOf x (!b);
        let turn := y.st = 3 ∧ o.st ≠ 4 ∧ ¬ (o.st = 3 ∧ o.order < y.order); ¬ turn)
    ∧ (∃ (f : Nat) (c : Nat) (k : Nat) (b : Bool) (s : State), f < 12 ∧ c < 16 ∧ k < 4
        ∧ let x := slotAt f c k s.dev; let y := bufOf x b; let o := bufOf x (!b);
        let turn := y.st = 3 ∧ o.st ≠ 4 ∧ ¬ (o.st = 3 ∧ o.order < y.order); ¬ turn)
    ∧ (∃ (f : Nat) (c : Nat) (k : Nat) (b : Bool) (par : Option Nat) (s : State) (u : VSlot), f < 12 ∧ c < 16 ∧ k < 4
        ∧ let x := slotAt f c k s.dev; let y := bufOf x b; let o := bufOf x (!b); let hit := par.bind fun i => y.slots[i]?;
        let turn := y.st = 3 ∧ o.st ≠ 4 ∧ ¬ (o.st = 3 ∧ o.order < y.order); turn ∧ hit = some u ∧ coursePart f c s.dev < 32) :=
  ⟨⟨11, 15, 3, 0, 511, (padTo 8 [0#8, 191#8, 0#8, 0#8, 1#8, 0#8]), vs0, rooted 0 (buf 1 [vs0] 0) emptyBuf, by decide +kernel⟩,
   ⟨11, 15, 3, true, rooted 0 emptyBuf (buf 1 [] 0), by decide +kernel⟩,
   ⟨11, 15, 3, false, rooted 0 (buf 2 [vs0] 0) emptyBuf, by decide +kernel⟩,
   ⟨11, 15, 3, false, rooted 0 (buf 2 [vsR] 0) emptyBuf, by decide +kernel⟩,
   ⟨11, 15, 3, false, rooted 0 (buf 3 [] 2) (buf 3 [] 1), by decide +kernel⟩,
   ⟨11, 15, 3, false, rooted 0 (buf 3 [] 1) (buf 4 [] 0), by decide +kernel⟩,
   ⟨11, 15, 3, false, (some 0), rooted 0 (buf 3 [vsR] 1) emptyBuf, vsR, by decide +kernel⟩⟩

theorem test_Tailpiece_4 :
    (∃ (f : Nat) (c : Nat) (k : Nat) (b : Bool) (par : Option Nat) (s : State), f < 12 ∧ c < 16 ∧ k < 4
        ∧ let x := slotAt f c k s.dev; let y := bufOf x b; let o := bufOf x (!b); let hit := par.bind fun i => y.slots[i]?;
        let turn := y.st = 3 ∧ o.st ≠ 4 ∧ ¬ (o.st = 3 ∧ o.order < y.order); turn ∧ hit = none)
    ∧ (∃ (f : Nat) (c : Nat) (k : Nat) (b : Bool) (par : Option Nat) (s : State) (u : VSlot), f < 12 ∧ c < 16 ∧ k < 4
        ∧ let x := slotAt f c k s.dev; let y := bufOf x b; let o := bufOf x (!b); let hit := par.bind fun i => y.slots[i]?;
        let turn := y.st = 3 ∧ o.st ≠ 4 ∧ ¬ (o.st = 3 ∧ o.order < y.order); turn ∧ hit = none ∧ y.slots = [u]
        ∧ vecLive u.vec s.dev = true ∧ (∃ r, r ∈ stageSlices f c k s.dev ∧ slotOutputs (tpCfg f c k s.dev) (u16 r 2) u = none))
    ∧ (∃ (f : Nat) (c : Nat) (k : Nat) (b : Bool) (par : Option Nat) (s : State) (u : VSlot) (r : List Byte) (ys : List Dy) (sat : Nat),
        f < 12 ∧ c < 16 ∧ k < 4 ∧ let x := slotAt f c k s.dev; let y := bufOf x b; let o := bufOf x (!b);
        let hit := par.bind fun i => y.slots[i]?; let turn := y.st = 3 ∧ o.st ≠ 4 ∧ ¬ (o.st = 3 ∧ o.order < y.order); turn ∧ hit = none
        ∧ y.slots = [u] ∧ vecLive u.vec s.dev = true ∧ stageSlices f c k s.dev = [r]
        ∧ slotOutputs (tpCfg f c k s.dev) (u16 r 2) u = some (ys, sat) ∧ bits (qCfg f c k s.dev) 10 2 = 0)
    ∧ (∃ (f : Nat) (c : Nat) (k : Nat) (b : Bool) (s : State), f < 12 ∧ c < 16 ∧ k < 4 ∧ (bufOf (slotAt f c k s.dev) b).st ≠ 4)
    ∧ (∃ (f : Nat) (c : Nat) (k : Nat) (b : Bool) (s : State), f < 12 ∧ c < 16 ∧ k < 4 ∧ (bufOf (slotAt f c k s.dev) b).st = 4) :=
  ⟨⟨11, 15, 3, false, (some 1), rooted 0 (buf 3 [] 1) (buf 3 [] 2), by decide +kernel⟩,
   ⟨11, 15, 3, false, none, rooted 1 (buf 3 [{ vsR with ops := [(0, [(511, 0x7F)])] }] 1) emptyBuf,
      { vsR with ops := [(0, [(511, 0x7F)])] }, ⟨by decide, by decide, by decide, by decide +kernel, rfl, by decide +kernel,
      by decide +kernel, ⟨padTo 8 [0#8, 191#8, 0#8, 0#8, 1#8, 0#8], by decide +kernel, by decide +kernel⟩⟩⟩,
   ⟨11, 15, 3, false, none, rooted 0 (buf 3 [vsR] 1) emptyBuf, vsR, (padTo 8 [0#8, 191#8, 0#8, 0#8, 1#8, 0#8]), (outOf.getD ([], 0)).1,
      (outOf.getD ([], 0)).2, ⟨by decide, by decide, by decide, by decide +kernel, rfl, by decide +kernel, by decide +kernel,
      by decide +kernel, some_pair (by decide +kernel), by decide +kernel⟩⟩,
   ⟨11, 15, 3, true, rooted 0 emptyBuf (buf 3 [] 0), by decide +kernel⟩,
   ⟨11, 15, 3, true, rooted 0 emptyBuf (buf 4 [] 0), by decide +kernel⟩⟩

theorem test_DroneLearns_1 :
    (∃ (f : Nat) (c : Nat) (y : Sample) (s : State), f < 12 ∧ c < 16
        ∧ (courseAt f c s.dev).samples.find? (fun z => sampleReady (tileAt f c z.pluck.tile s.dev) z.pluck) = some y
        ∧ SMapWf y.pluck.codes = true)
    ∧ (∃ (f : Nat) (c : Nat) (t : Nat) (band : Nat) (col : Nat) (s : State), f < 12 ∧ c < 16 ∧ t < 33 ∧ band < 4 ∧ col < 520
        ∧ let x := tileAt f c t s.dev; let key := 520 * band + col; let m := mgetD x.sums key zeroSums;
        let old := trimEntry f x band col s.dev; m.n < 256)
    ∧ (∃ (f : Nat) (c : Nat) (t : Nat) (band : Nat) (col : Nat) (s : State), f < 12 ∧ c < 16 ∧ t < 33 ∧ band < 4 ∧ col < 520
        ∧ let x := tileAt f c t s.dev; let key := 520 * band + col; let m := mgetD x.sums key zeroSums;
        let old := trimEntry f x band col s.dev; 256 ≤ m.n ∧ dyLt m.s0 (dyInt 1024) = true)
    ∧ (∃ (f : Nat) (c : Nat) (t : Nat) (band : Nat) (col : Nat) (s : State), f < 12 ∧ c < 16 ∧ t < 33 ∧ band < 4 ∧ col < 520
        ∧ let x := tileAt f c t s.dev; let key := 520 * band + col; let m := mgetD x.sums key zeroSums;
        let old := trimEntry f x band col s.dev; 256 ≤ m.n ∧ dyLt m.s0 (dyInt 1024) = false)
    ∧ (∃ (f : Nat) (c : Nat) (t : Nat) (s : State), f < 12 ∧ c < 16 ∧ t < 33
        ∧ let x := tileAt f c t s.dev; let qf := qualityOf x.mseF; let qh := qualityOf x.mseH; x.nsamp < 256)
    ∧ (∃ (f : Nat) (c : Nat) (t : Nat) (s : State), f < 12 ∧ c < 16 ∧ t < 33
        ∧ let x := tileAt f c t s.dev; let qf := qualityOf x.mseF; let qh := qualityOf x.mseH; 256 ≤ x.nsamp)
    ∧ (∃ (f : Nat) (c : Nat) (k : Nat) (s : State), f < 12 ∧ c < 16 ∧ k < 4 ∧ coursePart f c s.dev < 32
        ∧ let x := slotAt f c k s.dev; let eff := stgFold f c k s.dev; let lim := bits (stgCfg f c k s.dev) 0 2;
        let due := 65536 ≤ x.fplucks ∧ bit (drnCfg f c k s.dev) 8 = true; ¬ due) :=
  ⟨⟨11, 15, ⟨{ pl [] [(511, 3), (519, 0)] [] [] [] with outcome := [(7, 0)] }, 0⟩,
      st (cr (fun k => { k with samples := [⟨{ pl [] [(511, 3), (519, 0)] [] [] [] with outcome := [(7, 0)] }, 0⟩] }) (tl good3 fd)),
      by decide +kernel⟩,
   ⟨11, 15, 31, 3, 519, st (tl (fun x => { x with sums := [(2079, { zeroSums with n := 255, s0 := ⟨1024, 0⟩ })] }) fd), by decide +kernel⟩,
   ⟨11, 15, 31, 3, 519, st (tl (fun x => { x with sums := [(2079, { zeroSums with n := 256, s0 := ⟨1023, 0⟩ })] }) fd), by decide +kernel⟩,
   ⟨11, 15, 31, 3, 519, st (tl (fun x => { x with sums := [(2079, { zeroSums with n := 256, s0 := ⟨1024, 0⟩ })] }) fd), by decide +kernel⟩,
   ⟨11, 15, 31, st (tl (fun x => { x with nsamp := 255 }) fd), by decide +kernel⟩,
   ⟨11, 15, 31, st (tl (fun x => { x with nsamp := 256 }) fd), by decide +kernel⟩,
   ⟨11, 15, 3, st (regPut (CS_STGCFG0 11 15 + 12) 2147483653#32 (regPut (CS_DRNCFG0 11 15 + 12) 256#32 (slt (fun y => { y with fplucks := 65535, fmarks := 9000, flow := 0 }) fd))), by decide +kernel⟩⟩

theorem test_DroneLearns_2 :
    (∃ (f : Nat) (c : Nat) (k : Nat) (s : State), f < 12 ∧ c < 16 ∧ k < 4 ∧ coursePart f c s.dev < 32
        ∧ let x := slotAt f c k s.dev; let eff := stgFold f c k s.dev; let lim := bits (stgCfg f c k s.dev) 0 2;
        let due := 65536 ≤ x.fplucks ∧ bit (drnCfg f c k s.dev) 8 = true; ¬ due)
    ∧ (∃ (f : Nat) (c : Nat) (k : Nat) (s : State), f < 12 ∧ c < 16 ∧ k < 4 ∧ coursePart f c s.dev < 32
        ∧ let x := slotAt f c k s.dev; let eff := stgFold f c k s.dev; let lim := bits (stgCfg f c k s.dev) 0 2;
        let due := 65536 ≤ x.fplucks ∧ bit (drnCfg f c k s.dev) 8 = true; due ∧ 8192 ≤ x.fmarks ∧ 0 < eff)
    ∧ (∃ (f : Nat) (c : Nat) (k : Nat) (s : State), f < 12 ∧ c < 16 ∧ k < 4 ∧ coursePart f c s.dev < 32
        ∧ let x := slotAt f c k s.dev; let eff := stgFold f c k s.dev; let lim := bits (stgCfg f c k s.dev) 0 2;
        let due := 65536 ≤ x.fplucks ∧ bit (drnCfg f c k s.dev) 8 = true; due ∧ x.fmarks ≤ 512 ∧ 3 ≤ x.flow ∧ eff < lim)
    ∧ (∃ (f : Nat) (c : Nat) (k : Nat) (s : State), f < 12 ∧ c < 16 ∧ k < 4 ∧ coursePart f c s.dev < 32
        ∧ let x := slotAt f c k s.dev; let eff := stgFold f c k s.dev; let lim := bits (stgCfg f c k s.dev) 0 2;
        let due := 65536 ≤ x.fplucks ∧ bit (drnCfg f c k s.dev) 8 = true; due ∧ 512 < x.fmarks ∧ x.fmarks < 8192)
    ∧ (∃ (f : Nat) (c : Nat) (k : Nat) (s : State), f < 12 ∧ c < 16 ∧ k < 4 ∧ coursePart f c s.dev < 32
        ∧ let x := slotAt f c k s.dev; let eff := stgFold f c k s.dev; let lim := bits (stgCfg f c k s.dev) 0 2;
        let due := 65536 ≤ x.fplucks ∧ bit (drnCfg f c k s.dev) 8 = true; due ∧ 512 < x.fmarks ∧ x.fmarks < 8192) :=
  ⟨⟨11, 15, 3, st (regPut (CS_STGCFG0 11 15 + 12) 2147483653#32 (regPut (CS_DRNCFG0 11 15 + 12) 0#32 (slt (fun y => { y with fplucks := 65536, fmarks := 9000, flow := 0 }) fd))), by decide +kernel⟩,
   ⟨11, 15, 3, st (regPut (CS_STGCFG0 11 15 + 12) 2147483653#32 (regPut (CS_DRNCFG0 11 15 + 12) 256#32 (slt (fun y => { y with fplucks := 65536, fmarks := 8192, flow := 0 }) fd))), by decide +kernel⟩,
   ⟨11, 15, 3, st (regPut (CS_STGCFG0 11 15 + 12) 2147483649#32 (regPut (CS_DRNCFG0 11 15 + 12) 256#32 (slt (fun y => { y with fplucks := 65536, fmarks := 512, flow := 3 }) fd))), by decide +kernel⟩,
   ⟨11, 15, 3, st (regPut (CS_STGCFG0 11 15 + 12) 2147483649#32 (regPut (CS_DRNCFG0 11 15 + 12) 256#32 (slt (fun y => { y with fplucks := 65536, fmarks := 513, flow := 3 }) fd))), by decide +kernel⟩,
   ⟨11, 15, 3, st (regPut (CS_STGCFG0 11 15 + 12) 2147483649#32 (regPut (CS_DRNCFG0 11 15 + 12) 256#32 (slt (fun y => { y with fplucks := 65536, fmarks := 8191, flow := 3 }) fd))), by decide +kernel⟩⟩

theorem test_SelfTests_1 :
    (∃ (f : Nat) (c : Nat) (t : Nat) (q : TestReq) (s : State), f < 12 ∧ c < 16 ∧ t < 33 ∧ testOf f c t s.dev = some q
        ∧ let may := q.running = false ∧ dieAlive f s.dev = true ∧ turnFree f c s.dev = true ∧ outOfService f c t s.dev = true ∧ planeRefs f c t false s.dev = false ∧ planeRefs f c t true s.dev = false; ¬ may)
    ∧ (∃ (f : Nat) (c : Nat) (t : Nat) (q : TestReq) (s : State), f < 12 ∧ c < 16 ∧ t < 33 ∧ testOf f c t s.dev = some q
        ∧ let may := q.running = false ∧ dieAlive f s.dev = true ∧ turnFree f c s.dev = true ∧ outOfService f c t s.dev = true ∧ planeRefs f c t false s.dev = false ∧ planeRefs f c t true s.dev = false; ¬ may)
    ∧ (∃ (f : Nat) (c : Nat) (t : Nat) (q : TestReq) (s : State), f < 12 ∧ c < 16 ∧ t < 33 ∧ testOf f c t s.dev = some q
        ∧ let may := q.running = false ∧ dieAlive f s.dev = true ∧ turnFree f c s.dev = true ∧ outOfService f c t s.dev = true ∧ planeRefs f c t false s.dev = false ∧ planeRefs f c t true s.dev = false; may)
    ∧ (∃ (f : Nat) (c : Nat) (t : Nat) (kat : Nat) (scan : Nat) (q : TestReq) (s : State), f < 12 ∧ c < 16 ∧ t < 33 ∧ kat < 4
        ∧ scan < 4 ∧ testOf f c t s.dev = some q ∧ (q.running = false ∨ 2 < scan ∨ (q.keeper ≠ 0 ∧ 2 < kat)))
    ∧ (∃ (f : Nat) (c : Nat) (t : Nat) (kat : Nat) (scan : Nat) (q : TestReq) (s : State), f < 12 ∧ c < 16 ∧ t < 33 ∧ kat < 4
        ∧ scan < 4 ∧ testOf f c t s.dev = some q ∧ (q.running = false ∨ 2 < scan ∨ (q.keeper ≠ 0 ∧ 2 < kat)))
    ∧ (∃ (f : Nat) (c : Nat) (t : Nat) (kat : Nat) (scan : Nat) (q : TestReq) (s : State), f < 12 ∧ c < 16 ∧ t < 33 ∧ kat < 4
        ∧ scan < 4 ∧ testOf f c t s.dev = some q ∧ q.running = true ∧ scan ≤ 2 ∧ q.keeper = 0)
    ∧ (∃ (f : Nat) (c : Nat) (t : Nat) (kat : Nat) (scan : Nat) (q : TestReq) (s : State), f < 12 ∧ c < 16 ∧ t < 33 ∧ kat < 4
        ∧ scan < 4 ∧ testOf f c t s.dev = some q ∧ q.running = true ∧ scan ≤ 2 ∧ q.keeper = 0) :=
  ⟨⟨11, 15, 32, ⟨32, 1, false, true⟩, st (cr (fun k => { k with tests := [⟨32, 1, false, true⟩] }) fd), by decide +kernel⟩,
   ⟨11, 15, 31, ⟨31, 0, false, false⟩, st (cr (fun k => { k with tests := [⟨31, 0, false, false⟩] }) fd), by decide +kernel⟩,
   ⟨11, 15, 32, ⟨32, 1, false, false⟩, st (cr (fun k => { k with tests := [⟨32, 1, false, false⟩] }) fd), by decide +kernel⟩,
   ⟨11, 15, 32, 3, 3, ⟨32, 1, false, true⟩, st (cr (fun k => { k with tests := [⟨32, 1, false, true⟩] }) fd), by decide +kernel⟩,
   ⟨11, 15, 32, 0, 0, ⟨32, 0, false, false⟩, st (cr (fun k => { k with tests := [⟨32, 0, false, false⟩] }) fd), by decide +kernel⟩,
   ⟨11, 15, 32, 3, 0, ⟨32, 0, false, true⟩, st (cr (fun k => { k with tests := [⟨32, 0, false, true⟩] }) fd), by decide +kernel⟩,
   ⟨11, 15, 32, 3, 1, ⟨32, 0, true, true⟩, st (cr (fun k => { k with tests := [⟨32, 0, true, true⟩] }) fd), by decide +kernel⟩⟩

theorem test_SelfTests_2 :
    (∃ (f : Nat) (c : Nat) (t : Nat) (kat : Nat) (scan : Nat) (q : TestReq) (s : State), f < 12 ∧ c < 16 ∧ t < 33 ∧ kat < 4 ∧ scan < 4
        ∧ testOf f c t s.dev = some q ∧ q.running = true ∧ scan ≤ 2 ∧ q.keeper = 0)
    ∧ (∃ (f : Nat) (c : Nat) (t : Nat) (kat : Nat) (scan : Nat) (q : TestReq) (s : State), f < 12 ∧ c < 16 ∧ t < 33 ∧ kat < 4
        ∧ scan < 4 ∧ testOf f c t s.dev = some q ∧ q.running = true ∧ scan ≤ 2 ∧ kat ≤ 2 ∧ q.keeper ≠ 0)
    ∧ (∃ (f : Nat) (c : Nat) (t : Nat) (kat : Nat) (scan : Nat) (q : TestReq) (s : State), f < 12 ∧ c < 16 ∧ t < 33 ∧ kat < 4
        ∧ scan < 4 ∧ testOf f c t s.dev = some q ∧ q.running = true ∧ scan ≤ 2 ∧ kat ≤ 2 ∧ q.keeper ≠ 0)
    ∧ (∃ (f : Nat) (c : Nat) (t : Nat) (kat : Nat) (scan : Nat) (q : TestReq) (s : State), f < 12 ∧ c < 16 ∧ t < 33 ∧ kat < 4
        ∧ scan < 4 ∧ testOf f c t s.dev = some q ∧ q.running = true ∧ scan ≤ 2 ∧ kat ≤ 2 ∧ q.keeper ≠ 0)
    ∧ (∃ (f : Nat) (c : Nat) (t : Nat) (kat : Nat) (scan : Nat) (q : TestReq) (s : State), f < 12 ∧ c < 16 ∧ t < 33 ∧ kat < 4
        ∧ scan < 4 ∧ testOf f c t s.dev = some q ∧ q.running = true ∧ scan ≤ 2 ∧ kat ≤ 2 ∧ q.keeper ≠ 0)
    ∧ (∃ (f : Nat) (c : Nat) (t : Nat) (kat : Nat) (scan : Nat) (q : TestReq) (s : State), f < 12 ∧ c < 16 ∧ t < 33 ∧ kat < 4
        ∧ scan < 4 ∧ testOf f c t s.dev = some q ∧ q.running = true ∧ scan ≤ 2 ∧ kat ≤ 2 ∧ q.keeper ≠ 0)
    ∧ (∃ (f : Nat) (c : Nat) (t : Nat) (kat : Nat) (scan : Nat) (q : TestReq) (s : State), f < 12 ∧ c < 16 ∧ t < 33 ∧ kat < 4
        ∧ scan < 4 ∧ testOf f c t s.dev = some q ∧ q.running = true ∧ scan ≤ 2 ∧ kat ≤ 2 ∧ q.keeper ≠ 0) :=
  ⟨⟨11, 15, 32, 3, 2, ⟨32, 0, true, true⟩, st (cr (fun k => { k with tests := [⟨32, 0, true, true⟩] }) fd), by decide +kernel⟩,
   ⟨11, 15, 32, 0, 0, ⟨32, 1, false, true⟩, st (cr (fun k => { k with tests := [⟨32, 1, false, true⟩] }) fd), by decide +kernel⟩,
   ⟨11, 15, 32, 1, 1, ⟨32, 1, false, true⟩, st (cr (fun k => { k with tests := [⟨32, 1, false, true⟩] }) fd), by decide +kernel⟩,
   ⟨11, 15, 32, 0, 2, ⟨32, 1, false, true⟩, st (cr (fun k => { k with tests := [⟨32, 1, false, true⟩] }) fd), by decide +kernel⟩,
   ⟨11, 15, 32, 0, 0, ⟨32, 2, false, true⟩, st (cr (fun k => { k with tests := [⟨32, 2, false, true⟩] }) fd), by decide +kernel⟩,
   ⟨11, 15, 32, 1, 1, ⟨32, 2, false, true⟩, st (cr (fun k => { k with tests := [⟨32, 2, false, true⟩] }) fd), by decide +kernel⟩,
   ⟨11, 15, 32, 0, 2, ⟨32, 2, false, true⟩, st (cr (fun k => { k with tests := [⟨32, 2, false, true⟩] }) fd), by decide +kernel⟩⟩

theorem test_SelfTests_3 :
    (∃ (f : Nat) (c : Nat) (t : Nat) (kat : Nat) (scan : Nat) (s : State), f < 12 ∧ c < 16 ∧ t < 33 ∧ kat < 4 ∧ scan < 4
        ∧ testOf f c t s.dev = none ∧ let x := tileAt f c t s.dev; let may := katRuns f s.dev = true ∧ x.tstate ≠ 2 ∧ kat ≤ 2; ¬ may)
    ∧ (∃ (f : Nat) (c : Nat) (t : Nat) (kat : Nat) (scan : Nat) (s : State), f < 12 ∧ c < 16 ∧ t < 33 ∧ kat < 4 ∧ scan < 4
        ∧ testOf f c t s.dev = none ∧ let x := tileAt f c t s.dev; let may := katRuns f s.dev = true ∧ x.tstate ≠ 2 ∧ kat ≤ 2; ¬ may)
    ∧ (∃ (f : Nat) (c : Nat) (t : Nat) (kat : Nat) (scan : Nat) (s : State), f < 12 ∧ c < 16 ∧ t < 33 ∧ kat < 4 ∧ scan < 4
        ∧ testOf f c t s.dev = none ∧ let x := tileAt f c t s.dev; let may := katRuns f s.dev = true ∧ x.tstate ≠ 2 ∧ kat ≤ 2; may)
    ∧ (∃ (f : Nat) (c : Nat) (t : Nat) (kat : Nat) (scan : Nat) (s : State), f < 12 ∧ c < 16 ∧ t < 33 ∧ kat < 4 ∧ scan < 4
        ∧ testOf f c t s.dev = none ∧ let x := tileAt f c t s.dev; let may := katRuns f s.dev = true ∧ x.tstate ≠ 2 ∧ kat ≤ 2; may)
    ∧ (∃ (f : Nat) (c : Nat) (t : Nat) (kat : Nat) (scan : Nat) (s : State), f < 12 ∧ c < 16 ∧ t < 33 ∧ kat < 4 ∧ scan < 4
        ∧ testOf f c t s.dev = none ∧ let x := tileAt f c t s.dev; let may := katRuns f s.dev = true ∧ x.tstate ≠ 2 ∧ kat ≤ 2; may)
    ∧ (∃ (f : Nat) (c : Nat) (t : Nat) (s : State), f < 12 ∧ c < 16 ∧ t < 33
        ∧ let x := tileAt f c t s.dev; let due := dieAlive f s.dev = true ∧ x.tstate = 1 ∧ x.suspect = false ∧ x.inTest = false ∧ x.obsLeft ≠ 0 ∧ sec 10 ≤ since x.scanFrom s.dev ∧ testOf f c t s.dev = none; ¬ due)
    ∧ (∃ (f : Nat) (c : Nat) (t : Nat) (s : State), f < 12 ∧ c < 16 ∧ t < 33
        ∧ let x := tileAt f c t s.dev; let due := dieAlive f s.dev = true ∧ x.tstate = 1 ∧ x.suspect = false ∧ x.inTest = false ∧ x.obsLeft ≠ 0 ∧ sec 10 ≤ since x.scanFrom s.dev ∧ testOf f c t s.dev = none; due) :=
  ⟨⟨11, 15, 32, 2, 3, st fd, by decide +kernel⟩,
   ⟨11, 15, 32, 3, 3, upCal up, by decide +kernel⟩,
   ⟨11, 15, 32, 0, 3, upCal up, by decide +kernel⟩,
   ⟨11, 15, 32, 1, 3, upCal up, by decide +kernel⟩,
   ⟨11, 15, 32, 2, 3, upCal up, by decide +kernel⟩,
   ⟨11, 15, 31, st (tl (fun x => { x with tstate := 1, obsLeft := 360, obsFrom := up.time - 2000000000#64, scanFrom := up.time - 999999999#64 }) fd), by decide +kernel⟩,
   ⟨11, 15, 31, st (tl (fun x => { x with tstate := 1, obsLeft := 360, obsFrom := up.time - 2000000000#64, scanFrom := up.time - 1000000000#64 }) fd), by decide +kernel⟩⟩

theorem test_SelfTests_4 :
    (∃ (f : Nat) (c : Nat) (t : Nat) (s : State), f < 12 ∧ c < 16 ∧ t < 33
        ∧ let x := tileAt f c t s.dev; let done := x.tstate = 1 ∧ x.suspect = false ∧ x.inTest = false ∧ sec 3600 ≤ since x.obsFrom s.dev ∧ testOf f c t s.dev = none; ¬ done)
    ∧ (∃ (f : Nat) (c : Nat) (t : Nat) (s : State), f < 12 ∧ c < 16 ∧ t < 33
        ∧ let x := tileAt f c t s.dev; let done := x.tstate = 1 ∧ x.suspect = false ∧ x.inTest = false ∧ sec 3600 ≤ since x.obsFrom s.dev ∧ testOf f c t s.dev = none; done) :=
  ⟨⟨11, 15, 31, st (tl (fun x => { x with tstate := 1, obsFrom := up.time }) fd), by decide +kernel⟩,
   ⟨11, 15, 31, st (tl (fun x => { x with tstate := 1, obsFrom := up.time - 360000000000#64 }) fd), by decide +kernel⟩⟩

theorem test_CountersCodesTrimsTrees_1 :
    (∃ (lo : Nat) (n : Nat), lo + n ≤ 32)
    ∧ (∃ (lo : Nat) (n : Nat), lo + n ≤ 32)
    ∧ (∃ (lo : Nat) (n : Nat), lo + n ≤ 32)
    ∧ (∃ (a : Nat) (lo : Nat) (n : Nat) (k : Nat) (d : Dev) (j : Nat), lo + n ≤ 32
        ∧ let e := addField a lo n k d; (j < lo ∨ lo + n ≤ j) ∧ j < lo)
    ∧ (∃ (a : Nat) (lo : Nat) (n : Nat) (k : Nat) (d : Dev) (j : Nat), lo + n ≤ 32
        ∧ let e := addField a lo n k d; (j < lo ∨ lo + n ≤ j) ∧ lo + n ≤ j)
    ∧ (∃ (c : Nat), c < 16)
    ∧ (∃ (c : Nat), c < 16) :=
  ⟨⟨0, 32, by decide +kernel⟩,
   ⟨8, 8, by decide +kernel⟩,
   ⟨0, 32, by decide +kernel⟩,
   ⟨CS_TFAULT 11 15 32, 8, 8, 1, up, 7, by decide +kernel⟩,
   ⟨CS_TFAULT 11 15 32, 8, 8, 1, up, 16, by decide +kernel⟩,
   ⟨15, by decide +kernel⟩,
   ⟨15, by decide +kernel⟩⟩

theorem test_CountersCodesTrimsTrees_2 :
    (∃ (c : Nat), c < 16)
    ∧ (∃ (l : List Nat), l.length = 512 ∧ (∀ c, c ∈ l → c < 16))
    ∧ (∃ (l : List Nat), l.length = 512 ∧ (∀ c, c ∈ l → c < 16))
    ∧ (∃ (e : Trim) (step : Nat) (col : Nat) (q : Int), step < 4 ∧ col < 520
        ∧ let lsb2 : Int := if col < 512 then ([4, 6, 7, 8] : List Int).getD step 0 else ([64, 96, 112, 128] : List Int).getD step 0;
        let n := (64 * q - e.off) * lsb2 * (16384 + e.gain); let t := trimmed e step col q; 519 ≤ col)
    ∧ (∃ (e : Trim) (step : Nat) (col : Nat) (q : Int), step < 4 ∧ col < 520
        ∧ let lsb2 : Int := if col < 512 then ([4, 6, 7, 8] : List Int).getD step 0 else ([64, 96, 112, 128] : List Int).getD step 0;
        let n := (64 * q - e.off) * lsb2 * (16384 + e.gain); let t := trimmed e step col q; col < 512)
    ∧ (∃ (e : Trim) (step : Nat) (col : Nat) (q : Int), step < 4 ∧ col < 520
        ∧ let lsb2 : Int := if col < 512 then ([4, 6, 7, 8] : List Int).getD step 0 else ([64, 96, 112, 128] : List Int).getD step 0;
        let n := (64 * q - e.off) * lsb2 * (16384 + e.gain); let t := trimmed e step col q; 2 * (n - 32768 * t).natAbs = 32768) :=
  ⟨⟨15, by decide +kernel⟩,
   ⟨List.replicate 512 15, by decide +kernel⟩,
   ⟨List.replicate 512 15, by decide +kernel⟩,
   ⟨⟨0, 0, false, false⟩, 3, 519, 255, by decide +kernel⟩,
   ⟨⟨0, 0, false, false⟩, 0, 511, -256, by decide +kernel⟩,
   ⟨⟨0, 1, false, false⟩, 2, 511, 1, by decide +kernel⟩⟩

theorem test_BlownAndUntouched :
    (∃ (i : Instr) (s : State) (t : State), (∀ ok, i ≠ .updateProgramDone ok) ∧ exec i s = .next t)
    ∧ (∃ (i : Instr) (s : State) (t : State), fretEvent i = true ∧ exec i s = .next t) :=
  ⟨⟨.pinReset, st up, nextOf (exec .pinReset (st up)), ⟨nofun, next_of (by decide +kernel)⟩⟩,
   ⟨(.encorePassEnd 11 15 3), st fd, nextOf (exec (.encorePassEnd 11 15 3) (st fd)), ⟨rfl, next_of (by decide +kernel)⟩⟩⟩

theorem test_PartitionsApart_1 :
    (∃ (k : Nat) (i : Instr) (m0 : Dgram) (aid : Nat) (s : State) (t : State) (j : Nat) (x : Machine.Stream),
        [Instr.admitStream m0, .append m0, .pause m0, .resume m0, .cancel m0, .park m0, .unpark m0, .prefixRegister m0, .prefixDrop m0][k]? = some i ∧ let m := splitDgram (asReq (BitVec.ofNat 8 (k + 1)) m0); let b := heardOn aid m s.found; TakesWork m aid s.found ∧ exec i s = .next t ∧ streamAt j b = some x ∧ x.part ≠ m.dest)
    ∧ (∃ (k : Nat) (i : Instr) (m0 : Dgram) (aid : Nat) (s : State) (t : State) (j : Nat) (x : Machine.Stream),
        [Instr.admitStream m0, .append m0, .pause m0, .resume m0, .cancel m0, .park m0, .unpark m0, .prefixRegister m0, .prefixDrop m0][k]? = some i ∧ let m := splitDgram (asReq (BitVec.ofNat 8 (k + 1)) m0); let b := heardOn aid m s.found; TakesWork m aid s.found ∧ exec i s = .next t ∧ streamAt j b = some x ∧ x.part ≠ m.dest)
    ∧ (∃ (k : Nat) (i : Instr) (m0 : Dgram) (aid : Nat) (s : State) (t : State) (h : Nat) (x : Prefix),
        [Instr.admitStream m0, .append m0, .pause m0, .resume m0, .cancel m0, .park m0, .unpark m0, .prefixRegister m0, .prefixDrop m0][k]? = some i ∧ let m := splitDgram (asReq (BitVec.ofNat 8 (k + 1)) m0); let b := heardOn aid m s.found; TakesWork m aid s.found ∧ exec i s = .next t ∧ mget? b.prefixes h = some x ∧ x.part ≠ m.dest)
    ∧ (∃ (k : Nat) (i : Instr) (m0 : Dgram) (aid : Nat) (s : State) (t : State) (h : Nat) (x : Prefix),
        [Instr.admitStream m0, .append m0, .pause m0, .resume m0, .cancel m0, .park m0, .unpark m0, .prefixRegister m0, .prefixDrop m0][k]? = some i ∧ let m := splitDgram (asReq (BitVec.ofNat 8 (k + 1)) m0); let b := heardOn aid m s.found; TakesWork m aid s.found ∧ exec i s = .next t ∧ mget? b.prefixes h = some x ∧ x.part ≠ m.dest)
    ∧ (∃ (k : Nat) (i : Instr) (m0 : Dgram) (aid : Nat) (s : State) (t : State) (p : Nat),
        [Instr.admitStream m0, .append m0, .pause m0, .resume m0, .cancel m0, .park m0, .unpark m0, .prefixRegister m0, .prefixDrop m0][k]? = some i ∧ let m := splitDgram (asReq (BitVec.ofNat 8 (k + 1)) m0); let b := heardOn aid m s.found; TakesWork m aid s.found ∧ exec i s = .next t ∧ p ≠ m.dest)
    ∧ (∃ (k : Nat) (i : Instr) (m0 : Dgram) (aid : Nat) (s : State) (t : State) (p : Nat),
        [Instr.admitStream m0, .append m0, .pause m0, .resume m0, .cancel m0, .park m0, .unpark m0, .prefixRegister m0, .prefixDrop m0][k]? = some i ∧ let m := splitDgram (asReq (BitVec.ofNat 8 (k + 1)) m0); let b := heardOn aid m s.found; TakesWork m aid s.found ∧ exec i s = .next t ∧ p ≠ m.dest)
    ∧ (∃ (k : Nat) (i : Instr) (m0 : Dgram) (aid : Nat) (s : State) (t : State),
        [Instr.admitStream m0, .append m0, .pause m0, .resume m0, .cancel m0, .park m0, .unpark m0, .prefixRegister m0, .prefixDrop m0][k]? = some i ∧ let m := splitDgram (asReq (BitVec.ofNat 8 (k + 1)) m0); let b := heardOn aid m s.found; TakesWork m aid s.found ∧ exec i s = .next t) :=
  ⟨⟨0, .admitStream (dg 1#8 0#8 0 1#32 0#32 0#32 admit1), dg 1#8 0#8 0 1#32 0#32 0#32 admit1, 0, apart,
      nextOf (exec (.admitStream (dg 1#8 0#8 0 1#32 0#32 0#32 admit1)) apart), 3, other,
      ⟨rfl, works (by decide +kernel), next_of (by decide +kernel), by decide +kernel⟩⟩,
   ⟨8, .prefixDrop (dg 9#8 0#8 0 1#32 0#32 0#32 (leBytes 4 15)), dg 9#8 0#8 0 1#32 0#32 0#32 (leBytes 4 15), 0, apart,
      nextOf (exec (.prefixDrop (dg 9#8 0#8 0 1#32 0#32 0#32 (leBytes 4 15))) apart), 3, other,
      ⟨rfl, works (by decide +kernel), next_of (by decide +kernel), by decide +kernel⟩⟩,
   ⟨0, .admitStream (dg 1#8 0#8 0 1#32 0#32 0#32 admit1), dg 1#8 0#8 0 1#32 0#32 0#32 admit1, 0, apart,
      nextOf (exec (.admitStream (dg 1#8 0#8 0 1#32 0#32 0#32 admit1)) apart), 15, { pfx0 with part := 1 },
      ⟨rfl, works (by decide +kernel), next_of (by decide +kernel), by decide +kernel⟩⟩,
   ⟨8, .prefixDrop (dg 9#8 0#8 0 1#32 0#32 0#32 (leBytes 4 15)), dg 9#8 0#8 0 1#32 0#32 0#32 (leBytes 4 15), 0, apart,
      nextOf (exec (.prefixDrop (dg 9#8 0#8 0 1#32 0#32 0#32 (leBytes 4 15))) apart), 15, { pfx0 with part := 1 },
      ⟨rfl, works (by decide +kernel), next_of (by decide +kernel), by decide +kernel⟩⟩,
   ⟨0, .admitStream (dg 1#8 0#8 0 1#32 0#32 0#32 admit1), dg 1#8 0#8 0 1#32 0#32 0#32 admit1, 0, apart,
      nextOf (exec (.admitStream (dg 1#8 0#8 0 1#32 0#32 0#32 admit1)) apart), 1,
      ⟨rfl, works (by decide +kernel), next_of (by decide +kernel), by decide +kernel⟩⟩,
   ⟨8, .prefixDrop (dg 9#8 0#8 0 1#32 0#32 0#32 (leBytes 4 15)), dg 9#8 0#8 0 1#32 0#32 0#32 (leBytes 4 15), 0, apart,
      nextOf (exec (.prefixDrop (dg 9#8 0#8 0 1#32 0#32 0#32 (leBytes 4 15))) apart), 1,
      ⟨rfl, works (by decide +kernel), next_of (by decide +kernel), by decide +kernel⟩⟩,
   ⟨0, .admitStream (dg 1#8 0#8 0 1#32 0#32 0#32 admit1), dg 1#8 0#8 0 1#32 0#32 0#32 admit1, 0, apart,
      nextOf (exec (.admitStream (dg 1#8 0#8 0 1#32 0#32 0#32 admit1)) apart),
      ⟨rfl, works (by decide +kernel), next_of (by decide +kernel)⟩⟩⟩

theorem test_PartitionsApart_2 :
    (∃ (k : Nat) (i : Instr) (m0 : Dgram) (aid : Nat) (s : State) (t : State),
        [Instr.admitStream m0, .append m0, .pause m0, .resume m0, .cancel m0, .park m0, .unpark m0, .prefixRegister m0, .prefixDrop m0][k]? = some i ∧ let m := splitDgram (asReq (BitVec.ofNat 8 (k + 1)) m0); let b := heardOn aid m s.found; TakesWork m aid s.found ∧ exec i s = .next t) :=
  ⟨8, .prefixDrop (dg 9#8 0#8 0 1#32 0#32 0#32 (leBytes 4 15)), dg 9#8 0#8 0 1#32 0#32 0#32 (leBytes 4 15), 0, apart,
      nextOf (exec (.prefixDrop (dg 9#8 0#8 0 1#32 0#32 0#32 (leBytes 4 15))) apart),
      ⟨rfl, works (by decide +kernel), next_of (by decide +kernel)⟩⟩

/-! ### The spec's worked examples -/

/-- The examples of 00 R4, 02 R102 and 02 R103: windows of a course, a Fret die and a tile. -/
theorem test_addresses : addrCs 3 5 0 = 0x2350000 ∧ addrFt 3 0x8000 = 0x2308000 ∧ addrTile 3 5 7 0 = 0x2351200 ∧ addrTile 3 5 7 0x100 = 0x2351300
    ∧ locOf 0x2351300 = some (.tile 3 5 7 0x100) := by decide +kernel

/-- The three conversion examples of 02 (after R91). -/
theorem test_conversions : stepOf 150 = 2 ∧ stepOf 75 = 1 ∧ codeOf 2 37 611 0 = 175 ∧ codeOf 3 37 (-703) 0 = -176 ∧ codeOf 3 37 418 0 = 105
    ∧ codeOf 0 300 840 0 = 255 ∧ clippedCode 255 = true ∧ pluckPeriod 2 = 16 := by decide

/-- The record of the example of 03 (after R127). -/
theorem test_weight_record : sigE4m3 0xF0 = (-8, 4) ∧ fpVal fE4M3 0xF0 = ⟨-8, 4⟩ ∧ sigFp16 0x2C00 = (1024, -14) := by decide +kernel

/-- The example of 04 (after R158): the trimmed value, the main term and the two corrections of column 37. -/
theorem test_terms :
    let k : Cells := { w := fun r c => if r = 301 ∧ c = 37 then -2 else 0, scale := fun _ => 0x2C00, recs := [⟨40, 37, 0x72, 0xF0⟩] }
    trimmed { zeroTrim with gain := -230, off := 40 } 1 37 100 = 18812 ∧ mainTrim k 0x7E 37 18812 = ⟨37, 19263488, -21⟩
      ∧ corrections k ((List.range 512).map fun r => if r = 40 then 3 else 0) 0x7E [⟨301, 0x7A, 0xF3⟩] [⟨40, 37, 0x72, 0xF0⟩] true [37]
        = [⟨37, -24, -10⟩, ⟨37, 22528, -15⟩] := by decide +kernel

/-- The example of 05 (after R205): a narrowing and two additions of a BF16 tree with their stochastic rounding. -/
theorem test_tree : (srRound fBF16 ⟨6599609375, -30⟩ 0).2 = false
    ∧ dyEq (srRound fBF16 ⟨3379, -9⟩ 0x9C4000).1 ⟨211, -5⟩ = true ∧ dyEq (srRound fBF16 ⟨145, -5⟩ 0xFFFFFF).1 ⟨145, -5⟩ = true
    ∧ dyEq (srRound fBF16 ⟨317, -6⟩ 0x3FA2C1).1 ⟨79, -4⟩ = true := by decide +kernel

/-- The example of 06 R227. -/
theorem test_bands : bandG 6 64 120 150 = 889 ∧ bandC 6 120 = 20 ∧ bandH 6 150 = 359 := by decide +kernel

/-- The cases of the example of 07 (after R283). -/
theorem test_trims : [(171, 472, 80, 39119), (166, 472, 80, 37967), (166, 1128, 190, 39033), (166, 1147, 186, 39091), (163, 1147, 186, 38372),
    (163, 1432, 186, 38995)].all (fun (e : Int × Int × Int × Int) =>
      trimmed { zeroTrim with gain := e.2.1, off := e.2.2.1 } 2 37 e.1 == e.2.2.2) = true := by decide +kernel

/-- The examples of 09 R348 and R353: strides, the size of a region and the place of a position. -/
theorem test_kv_layout :
    let r : List Byte := [0#8, 0#8, 8#8, 1#8, 1#8, 95#8, 0#8, 0#8]
    kvStride r = 2064 ∧ kvEpp r = 31 ∧ kvEs r = 7 ∧ kvLstride r 32768 = 0x4220000 ∧ kvLayers r * kvLstride r 32768 = 0x18CC00000
      ∧ 0x3A400000 + kvOffset r 0 32768 37 20000 = 0xD5AF2850 := by decide +kernel

/-! ### Ill-formed commands -/

def m0 : Dgram := dg 0#8 0#8 0 1#32 0#32 0#32 []
/-- One command for each check of `WellFormed`. -/
def illFormed1 : List Instr :=
  [.rdmaWriteLoad 4096 0 0#32 0#64 true [], .rdmaWriteLoad 0 32 0#32 0#64 true [], .pfcXonTx true 4194305 0, .pfcXonTx true 0 4194305,
   .rdmaWriteTuneStaging 4096 0 0 true [], .rdmaWriteTuneStaging 0 32 0 true [], .rdmaWriteMask 4096 0 0 true [],
   .rdmaWriteMask 0 32 0 true [], .rdmaWriteConsortPort 0 4096 true [], .rdmaFirewallRefuse 0 4096, .rdmaFirewallRefuse 32 0, .cnpRx 4096,
   .pfcXoffRx 8, .pfcXonRx 8, .ptpSyncRx 256 0 0 0, .ptpDelayReqRx 256, .tokenRecordArrival 262144, .tuningLoad m0 32, .tuningAbort m0 32,
   .tuningVerifyDone 32, .tuningBarrierReached 32, .tuningBarrierTimeout 32, .mapBarrier 32,
   .consortJoinRequestRx 16 (List.replicate 64 0#8) 0#64 0 true 0 true,
   .consortJoinRequestRx 0 (List.replicate 63 0#8) 0#64 0 true 0 true, .strumReceive true 0 0#16 0#10 0#64]
def illFormed2 : List Instr :=
  [.strumReceive true 4 0#16 0#10 0#64, .consortSyncUpdateRx 1024 0 0#64 0, .consortSyncUpdateRx 0 2 0#64 0,
   .batchDescriptorRx 0 4 0#32 [], .memberAlignLost 16, .consortPortTimeout 16, .vigilSample 9 [] 0#16, .tileTest m0 12 0 0,
   .tileTest m0 0 16 0, .tileTest m0 0 0 33, .tileReinstate m0 12 0 0, .tileReinstate m0 0 16 0, .tileReinstate m0 0 0 33,
   .trackerClear m0 12 0 0 0#10, .trackerClear m0 0 16 0 0#10, .trackerClear m0 0 0 33 0#10, .calibrationCommit [⟨12, 0, [], []⟩],
   .calibrationCommit [⟨0, 0, [⟨16, 0, 0, 0, 0⟩], []⟩], .calibrationCommit [⟨0, 0, [⟨0, 33, 0, 0, 0⟩], []⟩],
   .calibrationCommit [⟨0, 0, [⟨0, 0, 520, 0, 0⟩], []⟩], .calibrationCommit [⟨0, 0, [], [⟨16, 0, ⟨0, 0⟩, ⟨0, 0⟩⟩]⟩],
   .calibrationCommit [⟨0, 0, [], [⟨0, 33, ⟨0, 0⟩, ⟨0, 0⟩⟩]⟩], .dieResetDone 12, .partitionResetDone 32, .stageResetDone 32 0,
   .flitCrcFail 12 0#64 (List.replicate 256 0#8) 0#40 true]
def illFormed3 : List Instr :=
  [.flitCrcFail 28 0#64 (List.replicate 256 0#8) 0#40 true, .flitCrcFail 80 0#64 (List.replicate 256 0#8) 0#40 true,
   .flitCrcFail 97 0#64 (List.replicate 256 0#8) 0#40 true, .flitCrcFail 112 0#64 (List.replicate 256 0#8) 0#40 true,
   .flitCrcFail 0 0#64 (List.replicate 255 0#8) 0#40 true, .replayRequestRx 12 0, .replayRequestRx 28 0, .replayRequestRx 80 0,
   .replayRequestRx 97 0, .replayRequestRx 112 0, .replayRequestRx 0 4096, .linkRetrainDone 12 true, .linkRetrainDone 33 true,
   .linkRetrainDone 80 true, .linkRetrainDone 98 true, .linkRetrainDone 112 true, .firewallFlitDiscard 12 0#64,
   .sliceArrival 12 0 0 0 0 [] [], .sliceArrival 0 16 0 0 0 [] [], .sliceArrival 0 0 32 0 0 [] [], .sliceArrival 0 0 0 262144 0 [] [],
   .passStart 12 0 0 0, .passStart 0 16 0 0, .passStart 0 0 4 0, .pluck 12 0 [] [] [] 0, .pluck 0 16 [] [] [] 0]
def illFormed4 : List Instr :=
  [.pluck 0 0 [33] [] [] 0, .pluck 0 0 [] [⟨33, 0, 0, false, false⟩] [] 0, .pluck 0 0 [] [⟨0, 520, 0, false, false⟩] [] 0,
   .pluck 0 0 [] [] [⟨33, true, 0, 0, 0⟩] 0, .pluck 0 0 [] [] [⟨0, true, 4096, 0, 0⟩] 0, .pluck 0 0 [] [] [⟨0, true, 0, 65, 0⟩] 0,
   .encorePassEnd 12 0 0, .encorePassEnd 0 16 0, .encorePassEnd 0 0 4, .groupHandon 12 0 0 0, .groupHandon 0 16 0 0,
   .groupHandon 0 0 33 0, .groupHandon 0 0 0 8, .reconvertResult 12 0 0 0 0 true true, .reconvertResult 0 16 0 0 0 true true,
   .reconvertResult 0 0 33 0 0 true true, .reconvertResult 0 0 0 520 0 true true, .columnRecomputeDone 12 0 0 0,
   .columnRecomputeDone 0 16 0 0, .columnRecomputeDone 0 0 33 0, .columnRecomputeDone 0 0 0 520, .groupRecomputeDone 12 0 0 0,
   .groupRecomputeDone 0 16 0 0, .groupRecomputeDone 0 0 33 0, .groupRecomputeDone 0 0 0 8, .fetchedRowArrival 12 0 0 []]
def illFormed5 : List Instr :=
  [.fetchedRowArrival 0 16 0 [], .fetchedRowArrival 0 0 32 [], .repairSwap 12 0 0, .repairSwap 0 16 0, .repairSwap 0 0 33,
   .planeLoadStart 12 0 0 [], .planeLoadStart 0 16 0 [], .planeLoadStart 0 0 33 [], .rowSegmentArrival 12 0 0 0 0 true true [],
   .rowSegmentArrival 0 16 0 0 0 true true [], .rowSegmentArrival 0 0 33 0 0 true true [], .rowSegmentArrival 0 0 0 512 0 true true [],
   .rowSegmentArrival 0 0 0 0 8 true true [], .loadEndMarker 12 0 0 true, .loadEndMarker 0 16 0 true, .loadEndMarker 0 0 33 true,
   .planeDrained 12 0 0 true 0, .planeDrained 0 16 0 true 0, .planeDrained 0 0 33 true 0, .droneSampleDone 12 0, .droneSampleDone 0 16,
   .droneRefit 12 0 0 0 0, .droneRefit 0 16 0 0 0, .droneRefit 0 0 33 0 0, .droneRefit 0 0 0 4 0, .droneRefit 0 0 0 0 520]
def illFormed6 : List Instr :=
  [.qualityPublish 12 0 0, .qualityPublish 0 16 0, .qualityPublish 0 0 33, .foldWindowEnd 12 0 0, .foldWindowEnd 0 16 0,
   .foldWindowEnd 0 0 4, .passEnd 12 0 0, .passEnd 0 16 0, .passEnd 0 0 4, .tailpieceTermArrival 12 0 true true,
   .tailpieceTermArrival 0 16 true true, .tailpieceDataFlit 12 0 0 0 [], .tailpieceDataFlit 0 16 0 0 [], .tailpieceDataFlit 0 0 4 0 [],
   .tailpieceDataFlit 0 0 0 262144 [], .treeResult 12 0 0 0 0 true, .treeResult 0 16 0 0 0 true, .treeResult 0 0 4 0 0 true,
   .treeResult 0 0 0 0 512 true, .bufferSealed 12 0 0 true 0, .bufferSealed 0 16 0 true 0, .bufferSealed 0 0 4 true 0,
   .bufferDrainStart 12 0 0 true none, .bufferDrainStart 0 16 0 true none, .bufferDrainStart 0 0 4 true none,
   .bufferDrainDone 12 0 0 true]
def illFormed7 : List Instr :=
  [.bufferDrainDone 0 16 0 true, .bufferDrainDone 0 0 4 true, .bridgeTensorPass 32 0 0 0 0 [], .bridgeTensorPass 0 12 0 0 0 [],
   .bridgeTensorPass 0 0 0 262144 0 [], .selftestStart 12 0 0, .selftestStart 0 16 0, .selftestStart 0 0 33,
   .selftestResult 12 0 0 0 0 0 0, .selftestResult 0 16 0 0 0 0 0, .selftestResult 0 0 33 0 0 0 0, .selftestResult 0 0 0 4 0 0 0,
   .selftestResult 0 0 0 0 4 0 0, .periodicScanDue 12 0 0, .periodicScanDue 0 16 0, .periodicScanDue 0 0 33, .observationEnd 12 0 0,
   .observationEnd 0 16 0, .observationEnd 0 0 33, .hbmPatrolScrub 12 0 0 0, .hbmPatrolScrub 0 2 0 0, .sensorSample 12 0 0#16,
   .sensorSample 28 0 0#16, .sensorSample 33 0 0#16, .sensorSample 0 8 0#16, .thermalTrip 12 0 0#16]
def illFormed8 : List Instr :=
  [.thermalTrip 28 0 0#16, .thermalTrip 33 0 0#16, .thermalTrip 0 10 0#16, .kvAppendPiece 12 0 true 0 0 0 0 true [] [],
   .kvAppendPiece 0 262144 true 0 0 0 0 true [] [], .attentionStep 12 0 0 true, .attentionStep 0 262144 0 true,
   .attentionOutput 12 0 0 [] [], .attentionOutput 0 262144 0 [] [], .stagingFlushAck 12 0 0 0, .stagingFlushAck 0 262144 0 0,
   .editPublish 12 0, .generationEnd 12, .batchFormation 32, .stepBoundary 262144, .draftStepDone 262144 [], .pickSample 262144 [],
   .deadlineReached 262144, .parkExpiry 262144, .kvHoldTimeout 262144, .schedulerResume 32, .stagePassTimeout 12 0 0,
   .stagePassTimeout 0 16 0, .stagePassTimeout 0 0 4, .farPrefetchStart 32 0 0#32 0, .farPrefetchStart 0 4 0#32 0]
def illFormed9 : List Instr :=
  [.farReadTimeout 12 true, .epochRetireBy 32 0, .epochRetireBy 0 4, .windowIdleTimeout 1024, .ptpDelayRespRx 256 0,
   .consortJoinResultRx 6 [], .consortJoinResultRx 0 [16], .strumAckRx 16 0#64, .loadCommitResult 1024 true, .atRiskTtft 262144,
   .editDataTransferDone 12 [], .exactGroupDone 12 0 0 0, .exactGroupDone 0 16 0 0, .exactGroupDone 0 0 4 0]

/-- `WellFormed` refuses each of them, and running one changes nothing but what was sent. -/
theorem test_ill_formed : (illFormed1 ++ illFormed2 ++ illFormed3 ++ illFormed4 ++ illFormed5 ++ illFormed6 ++ illFormed7 ++ illFormed8 ++ illFormed9).all (fun i => !WellFormed i) = true := by decide +kernel
theorem test_ill_formed_does_nothing : exec (.dieResetDone 12) State.reset = .next State.reset ∧ exec (.treeResult 0 0 0 0 512 true) State.reset = .next State.reset :=
  ⟨rfl, rfl⟩

end Sys2Proof.Tests
end

namespace Sys2Proof.Machine

/-! ### Bit fields of a register word -/

/-- What lies above a field and the field itself, as a multiple of the field's unit. -/
theorem above_add_field (q f lo n : Nat) : q * 2 ^ (lo + n) + f * 2 ^ lo = 2 ^ lo * (2 ^ n * q + f) := by
  rw [Nat.pow_add, Nat.mul_add]
  ac_rfl

/-- A value that a field of `n` bits from bit `lo` divides into what lies above, in and below it. -/
theorem field_split (w lo n : Nat) : w = w / 2 ^ (lo + n) * 2 ^ (lo + n) + bits w lo n * 2 ^ lo + w % 2 ^ lo := by
  have hlow := Nat.div_add_mod w (2 ^ lo)
  have hmid := Nat.div_add_mod (w / 2 ^ lo) (2 ^ n)
  rw [Nat.div_div_eq_div_mul, ← Nat.pow_add] at hmid
  unfold bits
  rw [above_add_field, hmid, hlow]

/-- A field and what lies below it stay below what lies above it. -/
theorem field_add_lt {lo n f low : Nat} (hf : f < 2 ^ n) (hlow : low < 2 ^ lo) : f * 2 ^ lo + low < 2 ^ (lo + n) :=
  calc f * 2 ^ lo + low < f * 2 ^ lo + 2 ^ lo := Nat.add_lt_add_left hlow _
    _ = (f + 1) * 2 ^ lo := (Nat.succ_mul f _).symm
    _ ≤ 2 ^ n * 2 ^ lo := Nat.mul_le_mul_right _ hf
    _ = 2 ^ (lo + n) := by rw [Nat.add_comm, Nat.pow_add]

/-- The word that a replaced field makes: what lies above, the new value, what lies below. -/
theorem setWordField_toNat (w : Word) {lo n : Nat} (v : Nat) (h : lo + n ≤ 32) :
    (setWordField w lo n v).toNat = w.toNat / 2 ^ (lo + n) * 2 ^ (lo + n) + v % 2 ^ n * 2 ^ lo + w.toNat % 2 ^ lo := by
  have hsplit := field_split w.toNat lo n
  have hsum : w.toNat - bits w.toNat lo n * 2 ^ lo + v % 2 ^ n * 2 ^ lo
      = w.toNat / 2 ^ (lo + n) * 2 ^ (lo + n) + v % 2 ^ n * 2 ^ lo + w.toNat % 2 ^ lo := by omega
  have hfield : v % 2 ^ n * 2 ^ lo + w.toNat % 2 ^ lo < 2 ^ (lo + n) :=
    field_add_lt (Nat.mod_lt _ (Nat.two_pow_pos n)) (Nat.mod_lt _ (Nat.two_pow_pos lo))
  have htop : w.toNat / 2 ^ (lo + n) < 2 ^ (32 - (lo + n)) := by
    rw [Nat.div_lt_iff_lt_mul (Nat.two_pow_pos _), ← Nat.pow_add, Nat.sub_add_cancel h]
    exact w.isLt
  have hword := field_add_lt htop hfield
  rw [Nat.add_sub_cancel' h] at hword
  rw [setWordField, hsum, BitVec.toNat_ofNat, Nat.mod_eq_of_lt (by omega)]

/-- The replaced field reads as the new value. -/
theorem wordField_setWordField (w : Word) {lo n : Nat} (v : Nat) (h : lo + n ≤ 32) :
    wordField (setWordField w lo n v) lo n = v % 2 ^ n := by
  have hlow : w.toNat % 2 ^ lo < 2 ^ lo := Nat.mod_lt _ (Nat.two_pow_pos lo)
  rw [wordField, bits, setWordField_toNat w v h, above_add_field, Nat.mul_add_div (Nat.two_pow_pos lo), Nat.div_eq_of_lt hlow, Nat.add_zero,
    Nat.mul_add_mod, Nat.mod_mod]

/-- The bits outside a replaced field stay. -/
theorem getLsbD_setWordField_outside (w : Word) {lo n j : Nat} (v : Nat) (h : lo + n ≤ 32) (hj : j < lo ∨ lo + n ≤ j) :
    (setWordField w lo n v).getLsbD j = w.getLsbD j := by
  rw [BitVec.getLsbD, BitVec.getLsbD, setWordField_toNat w v h]
  have hlow : w.toNat % 2 ^ lo < 2 ^ lo := Nat.mod_lt _ (Nat.two_pow_pos lo)
  rcases hj with hj | hj
  · rw [above_add_field, Nat.testBit_two_pow_mul_add _ hlow, if_pos hj, Nat.testBit_mod_two_pow]
    simp [hj]
  · have hfield : v % 2 ^ n * 2 ^ lo + w.toNat % 2 ^ lo < 2 ^ (lo + n) := field_add_lt (Nat.mod_lt _ (Nat.two_pow_pos n)) hlow
    rw [Nat.add_assoc, Nat.mul_comm, Nat.testBit_two_pow_mul_add _ hfield, if_neg (by omega), Nat.testBit_div_two_pow,
      Nat.sub_add_cancel hj]

theorem regField_addField {a lo n : Nat} (k : Nat) (d : Dev) (h : lo + n ≤ 32) :
    regField a lo n (addField a lo n k d) = min (regField a lo n d + k) (2 ^ n - 1) := by
  have hmax : min (regField a lo n d + k) (2 ^ n - 1) < 2 ^ n := by
    have := Nat.two_pow_pos n
    omega
  rw [regField, addField, regSetField, regGet_regPut_self, wordField_setWordField _ _ h, Nat.mod_eq_of_lt hmax]

theorem addField_regsBut (a lo n k : Nat) (d : Dev) : RegsBut [a] d (addField a lo n k d) := by
  intro r hr
  exact regGet_regPut_ne _ d (by simpa using hr)

theorem getLsbD_addField_outside {a lo n j : Nat} (k : Nat) (d : Dev) (h : lo + n ≤ 32) (hj : j < lo ∨ lo + n ≤ j) :
    (regGet a (addField a lo n k d)).getLsbD j = (regGet a d).getLsbD j := by
  rw [addField, regSetField, regGet_regPut_self, getLsbD_setWordField_outside _ _ h hj]

/-! ### Codes, slices and trims -/

theorem codeVal_int4 : ∀ c < 16, codeVal false c = (if c < 8 then (c : Int) else c - 16) := by decide

theorem codeVal_fp4 : ∀ c < 16,
    codeVal true c = (if c < 8 then 1 else -1) * ([0, 1, 2, 3, 4, 6, 8, 12] : List Int).getD (c % 8) 0 := by decide

theorem slotVal_slotOf : ∀ c < 16, ∀ fp4, slotVal (slotOf fp4 c) = codeVal fp4 c := by decide

theorem getD_of_lt {α : Type} {l : List α} {i : Nat} (dflt : α) (h : i < l.length) : l.getD i dflt = l[i] := by
  rw [List.getD_eq_getElem?_getD, List.getElem?_eq_getElem h, Option.getD_some]

theorem length_slicePayload (l : List Nat) : (slicePayload l).length = 256 := by simp [slicePayload]

/-- A byte of a slice's payload holds two codes, the even one in its low half. -/
theorem u8_slicePayload (l : List Nat) {j : Nat} (hj : j < 256) :
    u8 (slicePayload l) j = l.getD (2 * j) 0 % 16 + 16 * (l.getD (2 * j + 1) 0 % 16) := by
  have hbyte : l.getD (2 * j) 0 % 16 + 16 * (l.getD (2 * j + 1) 0 % 16) < 2 ^ 8 := by omega
  have hlen : j < (slicePayload l).length := by rw [length_slicePayload]; exact hj
  rw [u8, getD_of_lt _ hlen]
  simp only [slicePayload, List.getElem_map, List.getElem_range, BitVec.toNat_ofNat, Nat.mod_eq_of_lt hbyte]

theorem sliceCodes_slicePayload {l : List Nat} (hlen : l.length = 512) (hcode : ∀ c ∈ l, c < 16) :
    sliceCodes (slicePayload l) = l := by
  refine List.ext_getElem (by simp [sliceCodes, hlen]) fun i hi hl => ?_
  have hi' : i < 512 := by omega
  have hc : l.getD i 0 = l[i] := getD_of_lt 0 hl
  have hlt : l[i] < 16 := hcode _ (List.getElem_mem hl)
  simp only [sliceCodes, List.getElem_map, List.getElem_range]
  rw [u8_slicePayload l (by omega)]
  split
  · next heven =>
    rw [show 2 * (i / 2) = i by omega, hc]
    omega
  · next hodd =>
    rw [show 2 * (i / 2) + 1 = i by omega, hc]
    omega

/-- Rounding to nearest errs by at most half a unit, and by exactly half only towards an even result. -/
theorem rheDiv_nearest (n d : Int) (hd : 0 < d) :
    2 * (n - d * rheDiv n d).natAbs ≤ d ∧ (2 * (n - d * rheDiv n d).natAbs = d → rheDiv n d % 2 = 0) := by
  have hdiv := Int.mul_ediv_add_emod n d
  have hpos := Int.emod_nonneg n (Int.ne_of_gt hd)
  have hlt := Int.emod_lt_of_pos n hd
  unfold rheDiv
  dsimp only
  have hup : n - d * (n / d + 1) = n % d - d := by rw [Int.mul_add, Int.mul_one]; omega
  have hdown : n - d * (n / d) = n % d := by omega
  split
  · rw [hdown]; omega
  · split
    · rw [hup]; omega
    · split
      · rw [hdown]; omega
      · rw [hup]; omega

theorem lsb2Of_eq {step : Nat} (col : Nat) (h : step < 4) :
    lsb2Of step col = if col < 512 then ([4, 6, 7, 8] : List Int).getD step 0 else ([64, 96, 112, 128] : List Int).getD step 0 := by
  have hstep : ∀ s < 4, lsb2 s = ([4, 6, 7, 8] : List Int).getD s 0
      ∧ 16 * lsb2 s = ([64, 96, 112, 128] : List Int).getD s 0 := by decide
  rw [lsb2Of, (hstep step h).1]
  split
  · rfl
  · rw [← (hstep step h).1, (hstep step h).2]

/-- Settles O58: a field's word divided at the field, codes by their sixteen cases, slices byte by byte, the trim by the two ways a
quotient rounds, the trees level by level. -/
theorem countersCodesTrimsTrees : Obligations.CountersCodesTrimsTrees := by
  refine ⟨fun a lo n k d h => ⟨regField_addField k d h, addField_regsBut a lo n k d, fun j => getLsbD_addField_outside k d h⟩,
    fun c hc => ⟨codeVal_int4 c hc, codeVal_fp4 c hc, slotVal_slotOf c hc⟩,
    fun l hl hcode => ⟨length_slicePayload l, sliceCodes_slicePayload hl hcode⟩, ?_, fun _ _ _ _ _ _ _ _ => ⟨rfl, rfl, rfl⟩⟩
  intro e step col q hstep _
  rw [← lsb2Of_eq col hstep]
  obtain ⟨hnear, htie⟩ := rheDiv_nearest ((64 * q - e.off) * lsb2Of step col * (16384 + e.gain)) 32768 (by decide)
  exact ⟨Int.ofNat_le.1 hnear, fun h => htie (congrArg Int.ofNat h)⟩

end Sys2Proof.Machine

namespace Sys2Proof.Machine

/-! ### Sending keeps what an association holds (12 R483-R486) -/

/-- `y` is the message `x`: numbering or resending it changes only its sequence number, acknowledgement, credit, congestion mark and
time. -/
structure SameMessage (x y : Sent) : Prop where
  ttype : y.hdr.ttype = x.hdr.ttype
  stream : y.hdr.stream = x.hdr.stream
  payload : y.payload = x.payload
  reply : hasFlag x.hdr fREPLY = true → hasFlag y.hdr fREPLY = true

theorem SameMessage.refl (x : Sent) : SameMessage x x := ⟨rfl, rfl, rfl, id⟩

theorem SameMessage.trans {x y z : Sent} (h : SameMessage x y) (k : SameMessage y z) : SameMessage x z :=
  ⟨k.ttype.trans h.ttype, k.stream.trans h.stream, k.payload.trans h.payload, fun r => k.reply (h.reply r)⟩

/-- Every message that `a` keeps, `b` keeps. -/
def HoldsAll (a b : Assoc) : Prop := ∀ x ∈ a.unacked ++ a.queued, ∃ y ∈ b.unacked ++ b.queued, SameMessage x y

theorem HoldsAll.of_eq {a b : Assoc} (hu : b.unacked = a.unacked) (hq : b.queued = a.queued) : HoldsAll a b :=
  fun x hx => ⟨x, by rwa [hu, hq], .refl x⟩

theorem HoldsAll.trans {a b c : Assoc} (h : HoldsAll a b) (k : HoldsAll b c) : HoldsAll a c := fun x hx =>
  let ⟨y, hy, hxy⟩ := h x hx
  let ⟨z, hz, hyz⟩ := k y hy
  ⟨z, hz, hxy.trans hyz⟩

/-- Every association of `b` is in `d` and keeps there what it kept. -/
structure Carries (b d : Dev) : Prop where
  assocs : ∀ aid a, assocAt aid b = some a → ∃ a', assocAt aid d = some a' ∧ HoldsAll a a'

/-- Of the Strand port's state only associations and packet numbers differ; every association keeps what it kept and closes as it
did. -/
structure OnlySends (b d : Dev) : Prop where
  strand : d.strand = { b.strand with assocs := d.strand.assocs, macPn := d.strand.macPn }
  assocs : ∀ aid a, assocAt aid b = some a → ∃ a', assocAt aid d = some a' ∧ a'.closing = a.closing ∧ HoldsAll a a'

theorem Carries.trans {b d e : Dev} (h : Carries b d) (k : Carries d e) : Carries b e where
  assocs aid a ha :=
    let ⟨a', ha', haa'⟩ := h.assocs aid a ha
    let ⟨a'', ha'', ha'a''⟩ := k.assocs aid a' ha'
    ⟨a'', ha'', haa'.trans ha'a''⟩

theorem Carries.isSome {b d : Dev} (h : Carries b d) {aid : Nat} (ha : (assocAt aid b).isSome = true) : (assocAt aid d).isSome = true := by
  obtain ⟨a, ha⟩ := Option.isSome_iff_exists.1 ha
  obtain ⟨a', ha', -⟩ := h.assocs aid a ha
  simp [ha']

theorem Carries.retained {b d : Dev} (h : Carries b d) {aid : Nat} {x : Sent} (hx : Retained aid x b) :
    ∃ y, Retained aid y d ∧ SameMessage x y := by
  obtain ⟨a, ha, hxa⟩ := hx
  obtain ⟨a', ha', hold⟩ := h.assocs aid a ha
  obtain ⟨y, hy, hxy⟩ := hold x hxa
  exact ⟨y, ⟨a', ha', hy⟩, hxy⟩

theorem Carries.answered {b d : Dev} (h : Carries b d) {aid code : Nat} {m : Dgram} {extra : List Byte} (hx : Answered aid m code extra b) :
    Answered aid m code extra d := by
  obtain ⟨x, hxr, htype, hpay⟩ := hx
  obtain ⟨y, hyr, hxy⟩ := h.retained hxr
  exact ⟨y, hyr, hxy.ttype.trans htype, hxy.payload.trans hpay⟩

theorem OnlySends.carries {b d : Dev} (h : OnlySends b d) : Carries b d where
  assocs aid a ha :=
    let ⟨a', ha', _, hold⟩ := h.assocs aid a ha
    ⟨a', ha', hold⟩

theorem OnlySends.sessions {b d : Dev} (h : OnlySends b d) : d.strand.sessions = b.strand.sessions := by rw [h.strand]
theorem OnlySends.held {b d : Dev} (h : OnlySends b d) : d.strand.held = b.strand.held := by rw [h.strand]
theorem OnlySends.sessionOf {b d : Dev} (h : OnlySends b d) (n : Word) : Machine.sessionOf n d = Machine.sessionOf n b := by
  rw [Machine.sessionOf, Machine.sessionOf, h.sessions]

theorem OnlySends.of_strand {b d : Dev} (h : d.strand = b.strand) : OnlySends b d where
  strand := by rw [h]
  assocs aid a ha := ⟨a, by rwa [assocAt, h], rfl, .of_eq rfl rfl⟩

theorem OnlySends.refl (d : Dev) : OnlySends d d := .of_strand rfl

theorem OnlySends.trans {b d e : Dev} (h : OnlySends b d) (k : OnlySends d e) : OnlySends b e where
  strand := by rw [k.strand, h.strand]
  assocs aid a ha :=
    let ⟨a', ha', hc, haa'⟩ := h.assocs aid a ha
    let ⟨a'', ha'', hc', ha'a''⟩ := k.assocs aid a' ha'
    ⟨a'', ha'', hc'.trans hc, haa'.trans ha'a''⟩

/-- A change of one association that keeps its messages. -/
theorem OnlySends.of_one {b d : Dev} {aid : Nat} {a a' : Assoc}
    (hs : d.strand = { b.strand with assocs := d.strand.assocs, macPn := d.strand.macPn }) (ha : assocAt aid b = some a)
    (ha' : assocAt aid d = some a') (hne : ∀ j, j ≠ aid → assocAt j d = assocAt j b) (hc : a'.closing = a.closing) (hold : HoldsAll a a') :
    OnlySends b d where
  strand := hs
  assocs j x hx := by
    by_cases hj : j = aid
    · subst hj
      obtain rfl : a = x := Option.some.inj (ha.symm.trans hx)
      exact ⟨a', ha', hc, hold⟩
    · exact ⟨x, (hne j hj).trans hx, rfl, .of_eq rfl rfl⟩

@[simp] theorem assocAt_putAssoc (i j : Nat) (a : Assoc) (d : Dev) : assocAt j (putAssoc i a d) = if j = i then some a else assocAt j d :=
  mget?_mput ..

theorem assocAt_modAssoc (i j : Nat) (f : Assoc → Assoc) (d : Dev) :
    assocAt j (modAssoc i f d) = if j = i then (assocAt i d).map f else assocAt j d :=
  mget?_mmod ..

theorem putAssoc_onlySends {aid : Nat} {a a' : Assoc} {d : Dev} (ha : assocAt aid d = some a) (hc : a'.closing = a.closing)
    (hold : HoldsAll a a') : OnlySends d (putAssoc aid a' d) :=
  .of_one rfl ha (by simp) (fun j hj => by simp [hj]) hc hold

theorem modAssoc_carries {aid : Nat} {f : Assoc → Assoc} (d : Dev) (hf : ∀ a, HoldsAll a (f a)) : Carries d (modAssoc aid f d) := by
  refine ⟨fun j a ha => ?_⟩
  rw [assocAt_modAssoc]
  by_cases hj : j = aid
  · subst hj
    exact ⟨f a, by simp [ha], hf a⟩
  · exact ⟨a, by simp [hj, ha], .of_eq rfl rfl⟩

theorem putOnWire_strand (a : Assoc) (h : Hdr) (payload key : List Byte) (d : Dev) :
    (putOnWire a h payload key d).strand = { d.strand with macPn := (putOnWire a h payload key d).strand.macPn } := by
  unfold putOnWire countPn
  split
  · split <;> rfl
  · rfl

theorem assocAt_putOnWire (j : Nat) (a : Assoc) (h : Hdr) (payload key : List Byte) (d : Dev) :
    assocAt j (putOnWire a h payload key d) = assocAt j d := by
  rw [assocAt, putOnWire_strand, assocAt]

theorem putOnWire_onlySends (a : Assoc) (h : Hdr) (payload key : List Byte) (d : Dev) : OnlySends d (putOnWire a h payload key d) where
  strand := by rw [putOnWire_strand]
  assocs aid x hx := ⟨x, by rwa [assocAt_putOnWire], rfl, .of_eq rfl rfl⟩

/-- A message as it leaves on an association: numbered, with the acknowledgement and credit of the moment (R483, R485, R490). -/
def numbered (a : Assoc) (m : Sent) (now : DWord) : Sent :=
  { m with first := now,
           hdr := { m.hdr with seq := a.mySeq + 1#32, ack := a.lastSeq, credit := a.limit,
                               flags := if a.ece then m.hdr.flags ||| fECE else m.hdr.flags } }

/-- The association once it has sent a message. -/
def afterSend (a : Assoc) (m : Sent) (now : DWord) : Assoc :=
  { a with mySeq := a.mySeq + 1#32, myUsed := a.myUsed + BitVec.ofNat 32 (sentCost m), unacked := a.unacked ++ [numbered a m now],
           ece := false, accepted := none }

theorem transmit_eq {aid : Nat} {a : Assoc} {d : Dev} (m : Sent) (ha : assocAt aid d = some a) :
    transmit aid m d = putOnWire a (numbered a m d.time).hdr m.payload m.key (putAssoc aid (afterSend a m d.time) d) := by
  simp only [transmit, ha]
  rfl

theorem hasFlag_reply_or_ece (f : Byte) (h : f &&& fREPLY ≠ 0#8) : (f ||| fECE) &&& fREPLY ≠ 0#8 := by
  rw [BitVec.and_comm, BitVec.and_or_distrib_left, BitVec.and_comm fREPLY f]
  exact fun hz => h (BitVec.or_eq_zero_iff.1 hz).1

theorem sameMessage_numbered (a : Assoc) (m : Sent) (now : DWord) : SameMessage m (numbered a m now) where
  ttype := rfl
  stream := rfl
  payload := rfl
  reply h := by
    simp only [hasFlag, numbered, bne_iff_ne] at h ⊢
    split
    · exact hasFlag_reply_or_ece _ h
    · exact h

theorem assocAt_transmit {aid : Nat} {a : Assoc} {d : Dev} (m : Sent) (ha : assocAt aid d = some a) :
    assocAt aid (transmit aid m d) = some (afterSend a m d.time) := by
  rw [transmit_eq m ha, assocAt_putOnWire]
  simp

theorem assocAt_transmit_ne {aid j : Nat} (m : Sent) (d : Dev) (hj : j ≠ aid) : assocAt j (transmit aid m d) = assocAt j d := by
  cases ha : assocAt aid d with
  | none => simp [transmit, ha]
  | some a =>
    rw [transmit_eq m ha, assocAt_putOnWire]
    simp [hj]

theorem transmit_strand (aid : Nat) (m : Sent) (d : Dev) :
    (transmit aid m d).strand
      = { d.strand with assocs := (transmit aid m d).strand.assocs, macPn := (transmit aid m d).strand.macPn } := by
  cases ha : assocAt aid d with
  | none => simp [transmit, ha]
  | some a =>
    rw [transmit_eq m ha, putOnWire_strand]
    rfl

theorem transmit_onlySends (aid : Nat) (m : Sent) (d : Dev) : OnlySends d (transmit aid m d) := by
  cases ha : assocAt aid d with
  | none =>
    rw [transmit, ha]
    exact .refl d
  | some a =>
    refine .of_one (transmit_strand ..) ha (assocAt_transmit m ha) (fun j => assocAt_transmit_ne m d) rfl fun x hx => ⟨x, ?_, .refl x⟩
    rcases List.mem_append.1 hx with hx | hx <;> simp [afterSend, hx]

/-- The first queued message leaves: it is unacknowledged now instead of queued. -/
theorem transmit_next_onlySends {aid : Nat} {a : Assoc} {m : Sent} {r : List Sent} {d : Dev} (ha : assocAt aid d = some a)
    (hq : a.queued = m :: r) : OnlySends d (transmit aid m (putAssoc aid { a with queued := r } d)) := by
  have hput : assocAt aid (putAssoc aid { a with queued := r } d) = some { a with queued := r } := by simp
  refine .of_one (by rw [transmit_strand]; rfl) ha (assocAt_transmit m hput)
    (fun j hj => by rw [assocAt_transmit_ne m _ hj]; simp [hj]) rfl fun x hx => ?_
  rw [hq] at hx
  by_cases hxm : x = m
  · subst hxm
    exact ⟨numbered { a with queued := r } x d.time, by simp [afterSend], sameMessage_numbered ..⟩
  · have hkept : x ∈ a.unacked ∨ x ∈ r := by simpa [hxm] using hx
    exact ⟨x, by rcases hkept with h | h <;> simp [afterSend, h], .refl x⟩

theorem sendHeaderOnly_onlySends (aid : Nat) (flags : Byte) (d : Dev) : OnlySends d (sendHeaderOnly aid flags d) := by
  unfold sendHeaderOnly
  split
  · exact .refl d
  · next a ha =>
    dsimp only
    split
    · exact .refl d
    · split
      · exact putAssoc_onlySends ha rfl (.of_eq rfl rfl)
      · refine OnlySends.trans (putAssoc_onlySends ha ?_ ?_) (putOnWire_onlySends ..)
        · rfl
        · exact .of_eq rfl rfl

theorem flushN_onlySends (k aid : Nat) (d : Dev) : OnlySends d (flushN k aid d) := by
  induction k generalizing d with
  | zero => exact .refl d
  | succ k ih =>
    unfold flushN
    split
    · exact .refl d
    · next a ha =>
      split
      · exact .refl d
      · next m r hq =>
        split
        · exact (transmit_next_onlySends ha hq).trans (ih _)
        · exact .refl d

theorem flushAssoc_onlySends (aid : Nat) (d : Dev) : OnlySends d (flushAssoc aid d) := by
  unfold flushAssoc
  split
  · exact .refl d
  · split
    · exact (sendHeaderOnly_onlySends ..).trans (flushN_onlySends ..)
    · exact flushN_onlySends ..

theorem queueMsg_onlySends (aid : Nat) (m : Sent) (d : Dev) : OnlySends d (queueMsg aid m d) := by
  unfold queueMsg
  split
  · exact .refl d
  · next a ha =>
    split
    · exact transmit_onlySends ..
    · refine (putAssoc_onlySends ha ?_ ?_).trans (flushAssoc_onlySends ..)
      · rfl
      · exact fun x hx => ⟨x, by simpa [or_assoc] using Or.inl (List.mem_append.1 hx), .refl x⟩

/-- A message given to an association is kept until acknowledged (R486). -/
theorem queueMsg_retained {aid : Nat} (m : Sent) {d : Dev} (ha : (assocAt aid d).isSome = true) :
    ∃ y, Retained aid y (queueMsg aid m d) ∧ SameMessage m y := by
  obtain ⟨a, ha⟩ := Option.isSome_iff_exists.1 ha
  simp only [queueMsg, ha]
  split
  · exact ⟨numbered a m d.time, ⟨_, assocAt_transmit m ha, by simp [afterSend]⟩, sameMessage_numbered ..⟩
  · refine (flushAssoc_onlySends aid _).carries.retained ⟨{ a with queued := a.queued ++ [m] }, ?_, ?_⟩
    · simp
    · simp

theorem forEach_onlySends {α : Type} (l : List α) {f : α → Dev → Dev} (hf : ∀ x d, OnlySends d (f x d)) (d : Dev) :
    OnlySends d (forEach l f d) := by
  induction l generalizing d with
  | nil => exact .refl d
  | cons x r ih => exact (hf x d).trans (ih (f x d))

/-! ### Events (12 R499; 15 R587) -/

theorem ringPut_strand (part flags : Byte) (payload : List Byte) (d : Dev) : (ringPut part flags payload d).strand = d.strand :=
  (ringPut_same (al := { peg := true }) _ _ _ d (.refl _ d) rfl).strand rfl

theorem logQueue_if_strand (persist : Bool) (d : Dev) : (if persist then logQueue d else d).strand = d.strand := by
  split
  · exact (logQueue_same (al := { regs := true, peg := true }) d (.refl _ d) rfl rfl).strand rfl
  · rfl

theorem raiseEventTo_onlySends (dest : Nat) (payload : List Byte) (persist : Bool) (d : Dev) :
    OnlySends d (raiseEventTo dest payload persist d) := by
  unfold raiseEventTo
  extract_lets recv flags ringed logged pay
  have hlogged : logged.strand = d.strand := (logQueue_if_strand persist ringed).trans (ringPut_strand ..)
  exact OnlySends.trans (.of_strand hlogged) (forEach_onlySends _ (fun _ _ => queueMsg_onlySends ..) _)

theorem raiseEvent_onlySends (p ty : Nat) (rest : List Byte) (persist : Bool) (d : Dev) : OnlySends d (raiseEvent p ty rest persist d) :=
  raiseEventTo_onlySends ..

/-- An event that is not kept in the log changes no register. -/
theorem raiseEventTo_false_same {al : Allow} {b : Dev} (dest : Nat) (payload : List Byte) (d : Dev) (hd : Same al b d)
    (hs : al.strand = true) (hp : al.peg = true) (ht : al.tx = true) : Same al b (raiseEventTo dest payload false d) := by
  unfold raiseEventTo
  exact forEach_same (fun _ _ h => queueMsg_same _ _ _ h hs ht) (ringPut_same _ _ _ _ hd hp)

/-- The ring holds the record put last (R587). -/
theorem ringPut_mem (part flags : Byte) (payload : List Byte) (d : Dev) :
    ∃ r ∈ (ringPut part flags payload d).peg.ring, r.payload = payload := by
  simp only [ringPut]
  rw [List.drop_append_of_le_length (by simp only [List.length_append, List.length_singleton]; omega)]
  exact ⟨_, List.mem_append_right _ (List.mem_singleton_self _), rfl⟩

/-- The ring holds the event raised last (R587). -/
theorem raiseEventTo_false_ring (dest : Nat) (payload : List Byte) (d : Dev) :
    ∃ r ∈ (raiseEventTo dest payload false d).peg.ring, r.payload = payload := by
  have hpeg : ∀ (l : List (Nat × Assoc)) (f : Dev → Sent) (e : Dev), (forEach l (fun a d => queueMsg a.1 (f d) d) e).peg = e.peg :=
    fun l f e => (forEach_same (a := { strand := true, tx := true }) (fun _ _ h => queueMsg_same _ _ _ h rfl rfl) (.refl _ e)).peg rfl
  simp only [raiseEventTo, Bool.false_eq_true, if_false]
  rw [hpeg]
  exact ringPut_mem ..

/-! ### Losing an association (12 R487, R488) -/

theorem updEnd_onlySends (code : Nat) (d : Dev) : OnlySends d (updEnd code d) := by
  unfold updEnd fwEvent
  refine OnlySends.trans (.of_strand ?_) (raiseEvent_onlySends ..)
  split
  · rfl
  · rfl

theorem settleUpdate_onlySends (d : Dev) : OnlySends d (settleUpdate d) := by
  unfold settleUpdate updAbort
  split
  · exact .refl d
  · split
    · exact updEnd_onlySends ..
    · exact .refl d

theorem endAssoc_carries (aid : Nat) (d : Dev) : Carries d (endAssoc aid d) := by
  unfold endAssoc closeAll
  extract_lets lost
  have hlost : Carries d lost := modAssoc_carries d fun _ => .of_eq rfl rfl
  have hclosed : Carries lost (closeSessions (fun s => s.aid == aid) lost) := ⟨fun _ a ha => ⟨a, ha, .of_eq rfl rfl⟩⟩
  have hwaits : ∀ (f : Wait → Bool) (e : Dev), Carries e (dropWaits f e) := fun f e =>
    (OnlySends.of_strand (b := e) (d := dropWaits f e) rfl).carries
  exact ((hlost.trans hclosed).trans (settleUpdate_onlySends _).carries).trans (hwaits ..)

theorem tryClose_carries (aid : Nat) (d : Dev) : Carries d (tryClose aid d) := by
  unfold tryClose
  split
  · exact (OnlySends.refl d).carries
  · split
    · split
      · exact (sendHeaderOnly_onlySends ..).carries.trans (endAssoc_carries ..)
      · exact endAssoc_carries ..
    · exact (OnlySends.refl d).carries

/-- An association that no CLOSE has named stays as it is. -/
theorem tryClose_open {aid : Nat} {a : Assoc} {d : Dev} (ha : assocAt aid d = some a) (hc : a.closing = false) : tryClose aid d = d := by
  simp [tryClose, ha, hc]

/-- Taking the host's acknowledgement and credit loses no association. -/
theorem takePeer_isSome {i aid : Nat} (h : Hdr) {d : Dev} (hi : (assocAt i d).isSome = true) : (assocAt i (takePeer aid h d)).isSome = true := by
  unfold takePeer
  split
  · exact hi
  · dsimp only
    refine (tryClose_carries ..).isSome ((flushAssoc_onlySends ..).carries.isSome ?_)
    have hconfirm : ∀ (l : List Sent) (e : Dev), (forEach l confirmSent e).strand = e.strand := fun l e =>
      (forEach_same (a := { regs := true, streams := true, scheds := true }) (fun _ _ h => confirmSent_same _ _ h rfl rfl rfl)
        (.refl _ e)).strand rfl
    rw [assocAt, hconfirm, ← assocAt, assocAt_putAssoc]
    split
    · rfl
    · exact hi

end Sys2Proof.Machine

namespace Sys2Proof.Machine

/-! ### A message accepted and processed (12 R481-R490) -/

/-- A message that the part takes is processed on the block that has heard it. -/
theorem receive_takes {m : Dgram} {aid : Nat} {d : Dev} (h : Takes (splitDgram m) aid d) :
    receive m d = runMsg aid (splitDgram m) (heardOn aid (splitDgram m) d) := by
  obtain ⟨⟨hup, hkept, hbody, a, hfind, -, hopen, hnext, hcost⟩, hnow, -⟩ := h
  generalize hm : splitDgram m = n at *
  have hcredit : ((msgCost n.hdr.ttype.toNat n.payload.length ≠ 0)
      && !seqGe a.limit (a.used + w32 (msgCost n.hdr.ttype.toNat n.payload.length))) = false := by
    rcases hcost with h0 | hge
    · simp [h0]
    · simp [hge]
  calc receive m d = takeMsg aid a n (if n.ce && ecnEn d then modAssoc aid (fun a => { a with ece := true }) d else d) := by
        simp [receive, hm, hup, hkept, opensAndCloses, hbody, hfind, hopen, takeOn]
    _ = serve aid (msgCost n.hdr.ttype.toNat n.payload.length) n (accepted aid n d) := by
        simp only [takeMsg, hnext, if_true, hcredit]
        rfl
    _ = runMsg aid n (heardOn aid n d) := by
        simp only [serve, hnow]
        rfl

theorem assocAt_noteAccept (i p aid cycle : Nat) (d : Dev) : assocAt i (noteAccept p aid cycle d) = assocAt i d := by
  have hchoice : ∀ e : Dev, (choice p true e).strand = e.strand := fun e =>
    (choice_same (al := { regs := true }) p true e (.refl _ e) rfl).strand rfl
  unfold noteAccept
  extract_lets e
  have he : e.strand = d.strand := by
    unfold e
    split
    · split
      · exact hchoice d
      · rfl
    · rfl
  change mget? e.strand.assocs i = mget? d.strand.assocs i
  rw [he]

theorem modAssoc_isSome {i aid : Nat} (f : Assoc → Assoc) {d : Dev} (h : (assocAt i d).isSome = true) :
    (assocAt i (modAssoc aid f d)).isSome = true := by
  rw [assocAt_modAssoc]
  split
  · next hi =>
    subst hi
    simpa using h
  · exact h

theorem returnUnits_isSome {i aid : Nat} (n : Nat) {d : Dev} (h : (assocAt i d).isSome = true) :
    (assocAt i (returnUnits aid n d)).isSome = true := by
  unfold returnUnits
  split
  · exact h
  · rw [assocAt_putAssoc]
    split
    · rfl
    · exact h

/-- The association that a message came on is there while the message acts. -/
theorem heardOn_isSome {m : Dgram} {aid i : Nat} {d : Dev} (h : (assocAt i d).isSome = true) :
    (assocAt i (heardOn aid m d)).isSome = true := by
  unfold heardOn accepted
  refine returnUnits_isSome _ ?_
  extract_lets cost marked heard counted
  have hmarked : (assocAt i marked).isSome = true := by
    unfold marked
    split
    · exact modAssoc_isSome _ h
    · exact h
  have hcounted : (assocAt i counted).isSome = true := modAssoc_isSome _ (takePeer_isSome _ hmarked)
  split
  · rwa [assocAt_noteAccept]
  · exact hcounted

theorem InSequence.isSome {m : Dgram} {aid : Nat} {d : Dev} (h : InSequence m aid d) : (assocAt aid d).isSome = true := by
  obtain ⟨a, -, ha, -⟩ := h.next
  simp [ha]

/-! ### Sessions (12 R504-R507) -/

theorem sessionOf_num {n : Word} {s : Session} {d : Dev} (h : sessionOf n d = some s) : s.num = n := by
  simpa using List.find?_some h

theorem sessionOf_modSession {f : Session → Session} (hf : ∀ s, (f s).num = s.num) (k n : Word) (d : Dev) :
    sessionOf k (modSession n f d) = (sessionOf k d).map fun s => if s.num = n then f s else s := by
  have hnum : ((fun s : Session => s.num == k) ∘ fun s => if s.num = n then f s else s) = fun s => s.num == k := by
    funext s
    simp only [Function.comp]
    split <;> simp [hf]
  simp only [sessionOf, modSession, List.find?_map, hnum]

theorem sessionOf_modSession_self {f : Session → Session} (hf : ∀ s, (f s).num = s.num) {n : Word} {s : Session} {d : Dev}
    (h : sessionOf n d = some s) : sessionOf n (modSession n f d) = some (f s) := by
  rw [sessionOf_modSession hf, h]
  simp [sessionOf_num h]

theorem assocAt_modSession (aid : Nat) (n : Word) (f : Session → Session) (d : Dev) : assocAt aid (modSession n f d) = assocAt aid d := rfl

section Managed
variable {m : Dgram} {aid : Nat} {x : Session} {d : Dev} (h : Managed m aid x d)
include h

theorem Managed.assoc_isSome : (assocAt aid (commandOn aid m x d)).isSome = true := heardOn_isSome h.isSome

/-- The session that a command acts for is the one its number names. -/
theorem Managed.sessionOf_commandOn : sessionOf x.num (commandOn aid m x d) = some (commander aid m x d) := by
  have hmem : x ∈ (heardOn aid m d).strand.sessions := List.mem_of_find?_eq_some h.named
  have hsome : (sessionOf x.num (heardOn aid m d)).isSome = true := List.find?_isSome.2 ⟨x, hmem, by simp⟩
  obtain ⟨y, hy⟩ := Option.isSome_iff_exists.1 hsome
  have hc := sessionOf_modSession_self (f := fun s => { s with last := (heardOn aid m d).time }) (fun _ => rfl) hy
  rw [← commandOn] at hc
  rw [commander, hc]
  rfl

theorem Managed.commander_num : (commander aid m x d).num = x.num := sessionOf_num h.sessionOf_commandOn

theorem Managed.sessionOf_commander :
    sessionOf (commander aid m x d).num (commandOn aid m x d) = some (commander aid m x d) := by
  rw [h.commander_num]
  exact h.sessionOf_commandOn

/-- A session's command that R506 lets through acts for its session, whose time of last use is noted. -/
theorem Managed.withSession (f : Session → Dev → Dev) :
    withSession aid m f (heardOn aid m d) = f (commander aid m x d) (commandOn aid m x d) := by
  have hnamed := h.named
  have hroom : inProgress x (commandOn aid m x d) < 4 := h.room
  have htag : (m.tag != macTag x.khd m.hdr m.payload) = false := by simp [← h.tag]
  simp only [Machine.withSession, h.auth, hnamed, htag, Bool.not_true, Bool.false_eq_true, if_false]
  exact if_neg (Nat.not_le.2 hroom)

end Managed

/-! ### Management answers (12 R506, R508, R511) -/

theorem mgmtAnswer_onlySends (t : Byte) (aid : Nat) (m : Dgram) (s : Option Session) (code : Nat) (extra : List Byte) (d : Dev) :
    OnlySends d (mgmtAnswer t aid m s code extra d) := queueMsg_onlySends ..

theorem mgmtReply_onlySends (aid : Nat) (m : Dgram) (s : Option Session) (extra : List Byte) (d : Dev) :
    OnlySends d (mgmtReply aid m s extra d) := queueMsg_onlySends ..

theorem mgmtNack_onlySends (aid : Nat) (m : Dgram) (s : Option Session) (code addr : Nat) (d : Dev) :
    OnlySends d (mgmtNack aid m s code addr d) := queueMsg_onlySends ..

/-- An answer changes only the Strand port and what it sends. -/
theorem mgmtReply_sendsOnly (aid : Nat) (m : Dgram) (s : Option Session) (extra : List Byte) (d : Dev) :
    Same { strand := true, tx := true } d (mgmtReply aid m s extra d) := mgmtReply_same _ _ _ _ _ (.refl _ d) rfl rfl

theorem mgmtNack_sendsOnly (aid : Nat) (m : Dgram) (s : Option Session) (code addr : Nat) (d : Dev) :
    Same { strand := true, tx := true } d (mgmtNack aid m s code addr d) := mgmtNack_same _ _ _ _ _ _ (.refl _ d) rfl rfl

theorem mgmtAnswer_retained {aid : Nat} (t : Byte) (m : Dgram) (s : Option Session) (code : Nat) (extra : List Byte) {d : Dev}
    (ha : (assocAt aid d).isSome = true) :
    ∃ y, Retained aid y (mgmtAnswer t aid m s code extra d) ∧ y.hdr.ttype = t
      ∧ y.payload = leBytes 4 m.hdr.seq.toNat ++ leBytes 2 code ++ [0#8, 0#8] ++ extra := by
  obtain ⟨y, hy, hsame⟩ := queueMsg_retained (match s with
    | some s => { mkSent t fAUTH (destOf m) 0#32 s.num (leBytes 4 m.hdr.seq.toNat ++ leBytes 2 code ++ [0#8, 0#8] ++ extra) d with key := s.kdh }
    | none => mkSent t 0#8 (destOf m) 0#32 0#32 (leBytes 4 m.hdr.seq.toNat ++ leBytes 2 code ++ [0#8, 0#8] ++ extra) d) ha
  refine ⟨y, hy, hsame.ttype.trans ?_, hsame.payload.trans ?_⟩
  · cases s <;> rfl
  · cases s <;> rfl

theorem mgmtReply_answered {aid : Nat} (m : Dgram) (s : Option Session) (extra : List Byte) {d : Dev}
    (ha : (assocAt aid d).isSome = true) : Answered aid m 0 extra (mgmtReply aid m s extra d) := mgmtAnswer_retained _ m s stOK extra ha

theorem mgmtNack_answered {aid code : Nat} (m : Dgram) (s : Option Session) (addr : Nat) {d : Dev} (hcode : code ≠ 0)
    (ha : (assocAt aid d).isSome = true) : Answered aid m code (leBytes 4 addr) (mgmtNack aid m s code addr d) := by
  rw [Answered, if_neg hcode]
  exact mgmtAnswer_retained _ m s code _ ha

/-! ### Rows of management commands -/

theorem hasFlag_reply_asReq (t : Byte) (m : Dgram) : hasFlag (asReq t m).hdr fREPLY = false := by
  simp only [hasFlag, asReq, asFlags, asType, BitVec.or_zero]
  rw [BitVec.and_assoc]
  simp

theorem splitDgram_hdr (m : Dgram) : (splitDgram m).hdr = m.hdr := rfl

/-- A management request of a session, processed, is given to its meaning. -/
theorem receive_managed {m : Dgram} {aid : Nat} {x : Session} {d : Dev} (h : Managed (splitDgram m) aid x d)
    (hreply : hasFlag m.hdr fREPLY = false) (hmgmt : isMgmt m.hdr.ttype.toNat = true) :
    receive m d = runMgmt aid (splitDgram m) (heardOn aid (splitDgram m) d) := by
  rw [receive_takes h.toTakes, runMsg, h.firmware, splitDgram_hdr, hreply, hmgmt]
  rfl

theorem receive_read {m : Dgram} {aid : Nat} {x : Session} {d : Dev} (h : Managed (splitDgram m) aid x d)
    (hreply : hasFlag m.hdr fREPLY = false) (ht : m.hdr.ttype = 0x30#8) :
    receive m d = doMgmtRead aid (splitDgram m) (commander aid (splitDgram m) x d) (commandOn aid (splitDgram m) x d) := by
  rw [receive_managed h hreply (by rw [ht]; rfl), runMgmt, splitDgram_hdr, ht]
  exact h.withSession _

theorem receive_write {m : Dgram} {aid : Nat} {x : Session} {d : Dev} (h : Managed (splitDgram m) aid x d)
    (hreply : hasFlag m.hdr fREPLY = false) (ht : m.hdr.ttype = 0x31#8) :
    receive m d = doMgmtWrite aid (splitDgram m) (commander aid (splitDgram m) x d) (commandOn aid (splitDgram m) x d) := by
  rw [receive_managed h hreply (by rw [ht]; rfl), runMgmt, splitDgram_hdr, ht]
  exact h.withSession _

/-- A row's own payload is what its datagram carries. -/
theorem splitDgram_asBody_payload (t : Byte) {pay : List Byte} (m : Dgram) (h : pay.length < 2 ^ 16) :
    (splitDgram (asBody t pay m)).payload = pay := by
  simp only [splitDgram, asBody, BitVec.toNat_ofNat, Nat.mod_eq_of_lt h]
  exact List.take_left' rfl

end Sys2Proof.Machine

namespace Sys2Proof.Machine

/-! ### The checks of a message (12 R509) -/

theorem firstRefused_code_ne_zero {s : Session} {l : List (Nat × Option Word)} {d : Dev} {e : Nat × Nat}
    (h : firstRefused s l d = some e) : e.2 ≠ 0 := by simpa using List.find?_some h

/-- One address that passes its check refuses nothing. -/
theorem firstRefused_one {s : Session} {a : Nat} {v : Option Word} {d : Dev} (h : addrCheck s a v d = 0) :
    firstRefused s [(a, v)] d = none := by simp [firstRefused, h]

/-- A refusal of an address: answered with its code, counted when it is one of a partition's rights, and nothing else. -/
theorem refuseAddr_spec {aid a code : Nat} (m : Dgram) (s : Session) {d : Dev} (hcode : code ≠ 0) (ha : (assocAt aid d).isSome = true) :
    Answered aid m code (leBytes 4 a) (refuseAddr aid m s (a, code) d)
      ∧ (code = stNOT_OWNER → s.keeper = false →
          regGet (PT_FWMGMT s.part) (refuseAddr aid m s (a, code) d) = satAdd (regGet (PT_FWMGMT s.part) d) 1)
      ∧ RegsBut [PT_FWMGMT s.part] d (refuseAddr aid m s (a, code) d)
      ∧ Same { regs := true, strand := true, tx := true } d (refuseAddr aid m s (a, code) d) := by
  have hreg : ∀ (r : Nat) (e : Dev), regGet r (mgmtNack aid m (some s) code a e) = regGet r e := fun r e => by
    rw [regGet, (mgmtNack_sendsOnly ..).regs rfl, ← regGet]
  have hframe := refuseAddr_same aid m s (a, code) d (.refl { regs := true, strand := true, tx := true } d) rfl rfl rfl
  unfold refuseAddr at hframe ⊢
  dsimp only at hframe ⊢
  split
  · refine ⟨mgmtNack_answered m (some s) a hcode ha, fun _ _ => ?_, fun r hr => ?_, ?_⟩
    · rw [hreg, regGet_bump_self]
    · rw [hreg, regGet_bump_ne d (by simpa using hr)]
    · next hcount => rwa [if_pos hcount] at hframe
  · next hcount =>
    refine ⟨mgmtNack_answered m (some s) a hcode ha, fun hown hpart => ?_, fun r _ => hreg r d, by rwa [if_neg hcount] at hframe⟩
    exact absurd (by simp [hown, hpart]) hcount

/-- An access that must wait is held, and nothing is sent or written (R18, 17 R638). -/
theorem holdAccess_spec (aid : Nat) (m : Dgram) (items : List (Nat × Option Word)) (d : Dev) :
    (holdAccess aid m items d).strand.held = d.strand.held ++ [⟨aid, m, 0, d.time⟩] ∧ (holdAccess aid m items d).regs = d.regs
      ∧ (holdAccess aid m items d).tx = d.tx ∧ Same { fret := true, pwr := true, strand := true } d (holdAccess aid m items d) := by
  have hframe := holdAccess_same aid m items d (.refl { fret := true, pwr := true, strand := true } d) rfl rfl rfl
  have hstrand : (holdAccess aid m items d).strand = (holdMsg aid m 0 d).strand := by
    unfold holdAccess
    dsimp only
    split
    · exact (startWake_same (al := { fret := true, pwr := true }) 4 _ (.refl _ _) rfl rfl).strand rfl
    · rfl
  exact ⟨by rw [hstrand]; rfl, hframe.regs rfl, hframe.tx rfl, hframe⟩

/-! ### MGMT_READ (R508, R509) -/

section Read
variable {aid : Nat} {m : Dgram} {s : Session} {d : Dev} (hform : readBad m.payload = false) (hcount : countBad m.payload = false)
include hform hcount

theorem doMgmtRead_refused {e : Nat × Nat} (h : firstRefused s ((addrsOf m.payload).map fun a => (a, none)) d = some e) :
    doMgmtRead aid m s d = refuseAddr aid m s e d := by simp [doMgmtRead, hform, hcount, h]

theorem doMgmtRead_held (h : firstRefused s ((addrsOf m.payload).map fun a => (a, none)) d = none)
    (hwait : accessWaits s ((addrsOf m.payload).map fun a => (a, none)) d = true) :
    doMgmtRead aid m s d = holdAccess aid m ((addrsOf m.payload).map fun a => (a, none)) d := by
  simp [doMgmtRead, hform, hcount, h, hwait]

theorem doMgmtRead_served (h : firstRefused s ((addrsOf m.payload).map fun a => (a, none)) d = none)
    (hwait : accessWaits s ((addrsOf m.payload).map fun a => (a, none)) d = false) :
    doMgmtRead aid m s d = mgmtReply aid m (some s)
      (m.payload.take 8 ++ (readRegs s (addrsOf m.payload) (accountThrottle d)).1.flatMap fun w => leBytes 4 w.toNat)
      (readRegs s (addrsOf m.payload) (accountThrottle d)).2 := by simp [doMgmtRead, hform, hcount, h, hwait]

end Read

theorem accountThrottle_strand (d : Dev) : (accountThrottle d).strand = d.strand :=
  (accountThrottle_same (al := { regs := true, pwr := true }) d (.refl _ d) rfl rfl).strand rfl

theorem sessionOf_accountThrottle (n : Word) (d : Dev) : sessionOf n (accountThrottle d) = sessionOf n d := by
  rw [sessionOf, accountThrottle_strand, ← sessionOf]

theorem assocAt_accountThrottle (i : Nat) (d : Dev) : assocAt i (accountThrottle d) = assocAt i d := by
  rw [assocAt, accountThrottle_strand, ← assocAt]

/-! ### One register access of a read (R18, R111; 10 R432; 13 R525) -/

/-- The words that a read of `a` captures for the session `y`. -/
def capturedBy (y : Session) (a : Nat) (d : Dev) : SMap Word :=
  (captures a).foldl (fun m b => mput m b (viewAt (some y) b d)) y.cap

/-- A read of a log word whose entry failed its check counts. -/
def logCounted (y : Session) (a : Nat) (d : Dev) : Dev :=
  if a == 0x4002C0 && logBad (bits (selOf (some y) PG_LOGSEL) 0 10) d then bump PG_LOGCRC d else d

section ReadReg
variable {s y : Session} {a : Nat} {d : Dev} (hs : sessionOf s.num d = some y)
include hs

theorem readReg_captured {v : Word} (hc : mget? y.cap a = some v) : readReg s a d = (v, d) := by simp [readReg, hs, hc]

theorem readReg_recordWord (hc : mget? y.cap a = none) (hr : recordWord a = true) : readReg s a d = (0#32, d) := by
  simp [readReg, hs, hc, hr]

theorem readReg_fresh (hc : mget? y.cap a = none) (hr : recordWord a = false) :
    readReg s a d = (viewAt (some y) a d,
      modSession y.num (fun x => { x with cap := capturedBy y a (logCounted y a d) }) (logCounted y a d)) := by
  simp only [readReg, hs, Option.getD_some, hc, hr]
  rfl

end ReadReg

theorem logCounted_strand (y : Session) (a : Nat) (d : Dev) : (logCounted y a d).strand = d.strand := by
  unfold logCounted
  split <;> rfl

theorem readReg_assocAt (s : Session) (a i : Nat) (d : Dev) : assocAt i (readReg s a d).2 = assocAt i d := by
  have hcap : ∀ (n : Word) (f : Session → Session) (e : Dev), e.strand = d.strand → assocAt i (modSession n f e) = assocAt i d :=
    fun n f e he => by rw [assocAt_modSession, assocAt, he, ← assocAt]
  unfold readReg
  extract_lets y v bad e cap
  split
  · rfl
  · split
    · rfl
    · refine hcap _ _ _ ?_
      unfold e
      split <;> rfl

theorem readRegs_assocAt (s : Session) (l : List Nat) (i : Nat) (d : Dev) : assocAt i (readRegs s l d).2 = assocAt i d := by
  induction l generalizing d with
  | nil => rfl
  | cons a r ih => exact (ih _).trans (readReg_assocAt s a i d)

theorem readRegs_one (s : Session) (a : Nat) (d : Dev) : readRegs s [a] d = ([(readReg s a d).1], (readReg s a d).2) := rfl

/-- Every captured word is the one that its register shows. -/
theorem mget?_capturedBy {y : Session} {a k : Nat} {d : Dev} (h : k ∈ captures a) :
    mget? (capturedBy y a d) k = some (viewAt (some y) k d) := by
  have hfold : ∀ (l : List Nat) (m : SMap Word), k ∈ l ∨ mget? m k = some (viewAt (some y) k d) →
      mget? (l.foldl (fun m b => mput m b (viewAt (some y) b d)) m) k = some (viewAt (some y) k d) := by
    intro l
    induction l with
    | nil => exact fun m h => h.resolve_left (by simp)
    | cons b r ih =>
      intro m h
      refine ih _ ?_
      rw [mget?_mput]
      by_cases hb : k = b
      · simp [hb]
      · simpa [hb] using h
  exact hfold _ _ (.inl h)

/-- The words of a log entry are read from flash (R588). -/
theorem viewPeg_log (s : Option Session) {o : Nat} (d : Dev) (h : inWords o 0x2C0 0x2FC = true) :
    viewPeg s o d = word4 (logEntry (bits (selOf s PG_LOGSEL) 0 10) d) ((o - 0x2C0) / 4) := by
  have hrange : 0x2C0 ≤ o ∧ o ≤ 0x2FC := by simp [inWords] at h; omega
  have hnot : ∀ lo hi, hi < 0x2C0 → inWords o lo hi = false := fun lo hi hlt => by simp [inWords]; omega
  unfold viewPeg
  rw [if_neg (by omega), if_neg (by omega), if_neg (by omega), hnot _ _ (by decide), hnot _ _ (by decide), hnot _ _ (by decide), h]
  simp only [Bool.false_eq_true, if_false, if_true]
  rw [if_neg (by omega), if_neg (by omega), if_neg (by omega)]

/-- Counting a bad log entry changes none of the words that its read captures. -/
theorem viewAt_logCounted {y : Session} {a k : Nat} {d : Dev} (h : k ∈ captures a) :
    viewAt (some y) k (logCounted y a d) = viewAt (some y) k d := by
  unfold logCounted
  split
  · next hbad =>
    have ha : a = 0x4002C0 := by simp at hbad; exact hbad.1
    subst ha
    obtain ⟨j, hj, rfl⟩ : ∃ j, j < 15 ∧ 0x4002C4 + 4 * j = k := by simpa [captures, locOf] using h
    have hloc : locOf (0x4002C4 + 4 * j) = some (.peg (0x2C4 + 4 * j)) := by
      rw [locOf, if_neg (by omega), if_pos (by omega)]
      exact congrArg (fun o => some (Loc.peg o)) (by omega)
    have hword : inWords (0x2C4 + 4 * j) 0x2C0 0x2FC = true := by simp [inWords]; omega
    simp only [viewAt, hloc, view, viewPeg_log _ _ hword]
    rfl
  · rfl

/-! ### A read of one register -/

theorem leNat_leBytes (n v : Nat) : leNat (leBytes n v) = v % 256 ^ n := by
  induction n generalizing v with
  | zero => simp [leBytes, leNat, Nat.mod_one]
  | succ n ih => rw [leBytes, leNat, ih, BitVec.toNat_ofNat, Nat.pow_succ' (m := 256), Nat.mod_mul]

theorem length_leBytes (n v : Nat) : (leBytes n v).length = n := by
  induction n generalizing v with
  | zero => rfl
  | succ n ih => rw [leBytes, List.length_cons, ih]

theorem u32_leBytes_append {v : Nat} (l : List Byte) (h : v < 2 ^ 32) : u32 (leBytes 4 v ++ l) 0 = v := by
  rw [u32, List.drop_zero, List.take_left' (length_leBytes 4 v), leNat_leBytes]
  exact Nat.mod_eq_of_lt h

/-- A payload that names one register. -/
theorem addrsOf_one {a : Nat} (l : List Byte) (h : a < 2 ^ 32) : addrsOf (leBytes 4 a ++ [1#8, 0#8, 0#8, 0#8] ++ l) = [a] := by
  have hcount : u16 (leBytes 4 a ++ [1#8, 0#8, 0#8, 0#8] ++ l) 4 = 1 := rfl
  rw [addrsOf, hcount, List.append_assoc, u32_leBytes_append _ h]
  rfl

theorem countBad_one (a : Nat) (l : List Byte) : countBad (leBytes 4 a ++ [1#8, 0#8, 0#8, 0#8] ++ l) = false := rfl

theorem readOne_payload (a : Nat) (m : Dgram) : (splitDgram (readOne a m)).payload = leBytes 4 a ++ [1#8, 0#8, 0#8, 0#8] :=
  splitDgram_asBody_payload _ m (by simp [length_leBytes])

theorem readOne_addrs {a : Nat} (m : Dgram) (h : a < 2 ^ 32) : addrsOf (splitDgram (readOne a m)).payload = [a] := by
  rw [readOne_payload]
  exact addrsOf_one [] h

/-- The two commands that read one register are one read. -/
theorem exec_captureRead {i : Instr} {m : Dgram} {a : Word} (s : State) (hi : i = .loCaptureRead m a ∨ i = .multiWordCaptureRead m a) :
    exec i s = lift (receive (readOne a.toNat m)) s := by rcases hi with rfl | rfl <;> rfl

section ReadOne
variable {a aid : Nat} {m n : Dgram} {x : Session} {d : Dev} (hn : splitDgram (readOne a m) = n) (ha : a < 2 ^ 32)
  (h : MayRead n aid x a d)
include hn ha h

/-- A read of one register that the session may make is answered with what one access reads. -/
theorem receive_readOne : receive (readOne a m) d = mgmtReply aid n (some (commander aid n x d))
    (n.payload.take 8 ++ leBytes 4 (readReg (commander aid n x d) a (accountThrottle (commandOn aid n x d))).1.toNat)
    (readReg (commander aid n x d) a (accountThrottle (commandOn aid n x d))).2 := by
  subst hn
  have hform : readBad (splitDgram (readOne a m)).payload = false := by rw [readOne_payload]; rfl
  have hcount : countBad (splitDgram (readOne a m)).payload = false := by rw [readOne_payload]; rfl
  have haddr := readOne_addrs m ha
  rw [receive_read h.toManaged (hasFlag_reply_asReq ..) rfl,
    doMgmtRead_served hform hcount (by rw [haddr]; exact firstRefused_one h.right) (by rw [haddr]; exact h.awake), haddr, readRegs_one]
  simp

theorem receive_readOne_answered : Answered aid n 0
    (n.payload.take 8 ++ leBytes 4 (readReg (commander aid n x d) a (accountThrottle (commandOn aid n x d))).1.toNat)
    (receive (readOne a m) d) := by
  rw [receive_readOne hn ha h]
  refine mgmtReply_answered n _ _ ?_
  rw [readReg_assocAt, assocAt_accountThrottle]
  exact h.assoc_isSome

theorem receive_readOne_same :
    Same { regs := true, strand := true, tx := true } (accountThrottle (commandOn aid n x d)) (receive (readOne a m) d) := by
  rw [receive_readOne hn ha h]
  exact mgmtReply_same _ _ _ _ _ (readReg_same _ _ _ (.refl _ _) rfl rfl) rfl rfl

theorem receive_readOne_sessionOf (k : Word) : sessionOf k (receive (readOne a m) d)
    = sessionOf k (readReg (commander aid n x d) a (accountThrottle (commandOn aid n x d))).2 := by
  rw [receive_readOne hn ha h, (mgmtReply_onlySends ..).sessionOf]

end ReadOne

/-- Settles O35: each answer is the message's one equation, and what is captured is the fold over the group's words. -/
theorem managementReads : Obligations.ManagementReads := by
  refine ⟨fun m0 aid x s => ?_, fun m0 aid a code x s => ?_, fun i m0 aid a x s hi => ?_, fun i m0 aid a v x s hi => ?_⟩
  · intro m b c as_ items h hform hcount hpass
    have hrecv : receive (asReq 0x30#8 m0) s.found = doMgmtRead aid m c b := receive_read h (hasFlag_reply_asReq ..) rfl
    refine ⟨fun hwait => completes_lift rfl ?_, fun hwait => completes_lift rfl ?_⟩
    · rw [hrecv, doMgmtRead_served hform hcount hpass hwait]
      have hassoc : (assocAt aid (readRegs c as_ (accountThrottle b)).2).isSome = true := by
        rw [readRegs_assocAt, assocAt_accountThrottle]
        exact h.assoc_isSome
      exact ⟨mgmtReply_answered m (some c) _ hassoc,
        mgmtReply_same _ _ _ _ _ (readRegs_same _ _ _ (accountThrottle_same _ (.refl _ b) rfl rfl) rfl rfl) rfl rfl⟩
    · rw [hrecv, doMgmtRead_held hform hcount hpass hwait]
      exact holdAccess_spec aid m _ b
  · intro m b c h hform hcount hrefused
    refine completes_lift rfl ?_
    rw [receive_read h (hasFlag_reply_asReq ..) rfl, doMgmtRead_refused hform hcount hrefused]
    exact refuseAddr_spec m c (firstRefused_code_ne_zero hrefused) h.assoc_isSome
  · intro m b c h hcap
    refine completes_lift (exec_captureRead s hi) ?_
    have hs : sessionOf c.num b = some c := (sessionOf_accountThrottle ..).trans h.sessionOf_commander
    refine ⟨?_, fun hrecord => ?_, receive_readOne_same rfl a.isLt h⟩
    · have hvalue : (readReg c a.toNat b).1.toNat = if recordWord a.toNat then 0 else (viewAt (some c) a.toNat b).toNat := by
        split
        · next hr => rw [readReg_recordWord hs hcap hr]; rfl
        · next hr => rw [readReg_fresh hs hcap (by simpa using hr)]
      rw [← hvalue]
      exact receive_readOne_answered rfl a.isLt h
    · have hcounted : sessionOf c.num (logCounted c a.toNat b) = some c := by rw [sessionOf, logCounted_strand, ← sessionOf, hs]
      rw [receive_readOne_sessionOf rfl a.isLt h, readReg_fresh hs hcap hrecord, ← h.commander_num]
      exact ⟨_, sessionOf_modSession_self (f := fun y => { y with cap := capturedBy c a.toNat (logCounted c a.toNat b) }) (fun _ => rfl)
        hcounted, fun k hk => (mget?_capturedBy hk).trans (congrArg some (viewAt_logCounted hk))⟩
  · intro m b c h hcap
    refine completes_lift (exec_captureRead s hi) ?_
    have hs : sessionOf c.num (accountThrottle b) = some c := (sessionOf_accountThrottle ..).trans h.sessionOf_commander
    have hanswer := receive_readOne_answered rfl a.isLt h
    have hframe := receive_readOne_same rfl a.isLt h
    have hthrottle := accountThrottle_same (al := { regs := true, pwr := true }) b (.refl _ b) rfl rfl
    rw [readReg_captured hs hcap] at hanswer
    exact ⟨hanswer, (hframe.peg rfl).trans (hthrottle.peg rfl), (hframe.mem rfl).trans (hthrottle.mem rfl)⟩

end Sys2Proof.Machine

namespace Sys2Proof.Machine

/-! ### MGMT_WRITE (R508, R509; 16 R629) -/

section Write
variable {aid : Nat} {m : Dgram} {s : Session} {d : Dev}

theorem doMgmtWrite_badForm (hform : writeBad m.payload = true) : doMgmtWrite aid m s d = mgmtNack aid m (some s) stBAD_MESSAGE 0 d := by
  simp [doMgmtWrite, hform]

theorem doMgmtWrite_badCount (hform : writeBad m.payload = false) (hcount : countBad m.payload = true) :
    doMgmtWrite aid m s d = mgmtNack aid m (some s) stBAD_PARAM 0 d := by simp [doMgmtWrite, hform, hcount]

variable (hform : writeBad m.payload = false) (hcount : countBad m.payload = false)
include hform hcount

theorem doMgmtWrite_refused {e : Nat × Nat} (h : firstRefused s ((writesOf m.payload).map fun e => (e.1, some e.2)) d = some e) :
    doMgmtWrite aid m s d = refuseAddr aid m s e d := by simp [doMgmtWrite, hform, hcount, h]

theorem doMgmtWrite_held (h : firstRefused s ((writesOf m.payload).map fun e => (e.1, some e.2)) d = none)
    (hwait : accessWaits s ((writesOf m.payload).map fun e => (e.1, some e.2)) d = true) :
    doMgmtWrite aid m s d = holdAccess aid m ((writesOf m.payload).map fun e => (e.1, some e.2)) d := by
  simp [doMgmtWrite, hform, hcount, h, hwait]

variable (h : firstRefused s ((writesOf m.payload).map fun e => (e.1, some e.2)) d = none)
  (hwait : accessWaits s ((writesOf m.payload).map fun e => (e.1, some e.2)) d = false)
include h hwait

theorem doMgmtWrite_refusedByValue {e : Nat × Nat} (hw : (writeRegs s (writesOf m.payload) d).1 = some e) :
    doMgmtWrite aid m s d = mgmtNack aid m (some s) e.2 e.1 (writeRegs s (writesOf m.payload) d).2 := by
  simp [doMgmtWrite, hform, hcount, h, hwait, hw]

theorem doMgmtWrite_served (hw : (writeRegs s (writesOf m.payload) d).1 = none)
    (hreset : (writesOf m.payload).find? (fun e => e.1 == HS_RSTCTL) = none) :
    doMgmtWrite aid m s d = mgmtReply aid m (some s) (m.payload.take 8) (writeRegs s (writesOf m.payload) d).2 := by
  simp [doMgmtWrite, hform, hcount, h, hwait, hw, hreset]

theorem doMgmtWrite_reset {e : Nat × Word} (hw : (writeRegs s (writesOf m.payload) d).1 = none)
    (hreset : (writesOf m.payload).find? (fun e => e.1 == HS_RSTCTL) = some e) :
    doMgmtWrite aid m s d
      = softwareReset e.2 (mgmtReply aid m (some s) (m.payload.take 8) (writeRegs s (writesOf m.payload) d).2) := by
  simp [doMgmtWrite, hform, hcount, h, hwait, hw, hreset]

end Write

theorem writeRegs_code_ne_zero {s : Session} {l : List (Nat × Word)} {d : Dev} {e : Nat × Nat} (h : (writeRegs s l d).1 = some e) :
    e.2 ≠ 0 := by
  induction l generalizing d with
  | nil => simp [writeRegs] at h
  | cons x r ih =>
    rw [writeRegs] at h
    split at h
    · next hx =>
      obtain rfl : (x.1, (writeReg s x.1 x.2 d).1) = e := Option.some.inj h
      exact hx
    · exact ih h

/-! ### MGMT_COMMAND_TIMEOUT (R610) -/

/-- What waited is served from an empty queue; with nothing waiting nothing happens. -/
theorem serveHeld_nil {d : Dev} (h : d.strand.held = []) : serveHeld d = d := by
  have hstrand : { d.strand with held := [] } = d.strand := by rw [← h]
  rw [serveHeld, h, hstrand]
  rfl

/-- The record of a device or partition event of R627 that the log does not keep. -/
theorem rstEvent_false_spec {aid : Nat} {a : Assoc} (p scope source cause stage die course stream arg : Nat) {d : Dev}
    (ha : assocAt aid d = some a) (hc : a.closing = false) :
    let e := rstEvent p 0x00A2 scope source cause stage die course stream arg false d
    OnlySends d e ∧ Same { peg := true, strand := true, tx := true } d e ∧ (∃ r, r ∈ e.peg.ring ∧ u16 r.payload 0 = 0x00A2)
      ∧ tryClose aid e = e := by
  intro e
  have hsends : OnlySends d e := raiseEvent_onlySends ..
  obtain ⟨a', ha', hc', -⟩ := hsends.assocs aid a ha
  obtain ⟨r, hr, hpay⟩ := raiseEventTo_false_ring p (leBytes 2 0x00A2 ++ [partByte p] ++ (leBytes 1 scope ++ leBytes 1 source
    ++ leBytes 1 cause ++ leBytes 1 stage ++ leBytes 1 die ++ leBytes 1 course ++ [0#8, 0#8, 0#8] ++ leBytes 4 stream ++ leBytes 8 arg
    ++ timeBytes d)) d
  exact ⟨hsends, raiseEventTo_false_same _ _ d (.refl _ d) rfl rfl rfl, ⟨r, hr, by rw [hpay]; rfl⟩, tryClose_open ha' (hc'.trans hc)⟩

/-- The block once the time of the `k`th waiting access has been counted and the access taken from the queue. -/
def abandoned (k : Nat) (s : State) : Dev :=
  bump HS_MGMTTMO { s.found with strand := { s.dev.strand with held := s.dev.strand.held.eraseIdx k } }

/-- An access accepted 2 s ago ends after the registers that it may have accessed. -/
theorem mgmtTimeout_due {k n : Nat} {h : Held} {x : Session} {s : State} (hk : s.dev.strand.held[k]? = some h)
    (ht : h.msg.hdr.ttype = 0x30#8 ∨ h.msg.hdr.ttype = 0x31#8) (hx : msgSession h.aid h.msg s.dev = some x)
    (hlate : sec 2 ≤ since h.at_ s.dev) :
    let first := !((s.dev.strand.held.take k).any fun y => y.aid == h.aid && y.msg.hdr.session == h.msg.hdr.session
      && isMgmt y.msg.hdr.ttype.toNat)
    let done := if first then n else 0
    let w := if h.msg.hdr.ttype = 0x31#8 then (writeRegs x ((writesOf h.msg.payload).take done) (abandoned k s)).2 else abandoned k s
    mgmtTimeout k n s.found = serveHeld (tryClose h.aid (rstEvent (if x.keeper then 255 else x.part) 0x00A2 0 0 0 0xFF 0xFF 0xFF 0x3FFFF
      ((addrsOf h.msg.payload).getD done 0) false
      (mgmtNack h.aid h.msg (some x) stMGMT_BUSY ((addrsOf h.msg.payload).getD done 0) w))) := by
  have hstrand : s.found.strand = s.dev.strand := rfl
  have hx' : msgSession h.aid h.msg (abandoned k s) = some x := hx
  have hlate' : ¬ since h.at_ s.found < sec 2 := Nat.not_lt.2 hlate
  rw [abandoned] at hx'
  rcases ht with ht | ht
  · simp [mgmtTimeout, hstrand, hk, ht, hlate', hx', abandoned]
  · simp [mgmtTimeout, hstrand, hk, ht, hlate', hx', abandoned]

theorem mgmtTimeout_early {k n : Nat} {h : Held} {d : Dev} (hk : d.strand.held[k]? = some h) (hsoon : since h.at_ d < sec 2) :
    mgmtTimeout k n d = d := by simp [mgmtTimeout, hk, hsoon]

/-- A read that waits alone: it is answered MGMT_BUSY, counted and recorded, and nothing else happens. -/
theorem timedOutRead_alone {h : Held} {x : Session} {a : Assoc} {s : State} (p addr : Nat) (hheld : s.dev.strand.held = [h])
    (ha : assocAt h.aid s.dev = some a) (hc : a.closing = false) :
    let d := serveHeld (tryClose h.aid (rstEvent p 0x00A2 0 0 0 0xFF 0xFF 0xFF 0x3FFFF addr false
      (mgmtNack h.aid h.msg (some x) stMGMT_BUSY addr (abandoned 0 s))))
    d.strand.held = [] ∧ regGet HS_MGMTTMO d = satAdd (regGet HS_MGMTTMO s.dev) 1
      ∧ Answered h.aid h.msg stMGMT_BUSY (leBytes 4 addr) d ∧ (∃ r, r ∈ d.peg.ring ∧ u16 r.payload 0 = 0x00A2)
      ∧ Same { peg := true, regs := true, strand := true, tx := true } s.found d := by
  have hb : assocAt h.aid (abandoned 0 s) = some a := ha
  have hempty : (abandoned 0 s).strand.held = [] := by
    change s.dev.strand.held.eraseIdx 0 = []
    rw [hheld]
    rfl
  have hnack := mgmtNack_onlySends h.aid h.msg (some x) stMGMT_BUSY addr (abandoned 0 s)
  obtain ⟨a', ha', hc', -⟩ := hnack.assocs h.aid a hb
  obtain ⟨hsends, hframe, hring, hopen⟩ := rstEvent_false_spec p 0 0 0 0xFF 0xFF 0xFF 0x3FFFF addr ha' (hc'.trans hc)
  have hheld' := hsends.held.trans (hnack.held.trans hempty)
  rw [hopen, serveHeld_nil hheld']
  refine ⟨hheld', ?_, ?_, hring, ?_⟩
  · rw [regGet, hframe.regs rfl, (mgmtNack_sendsOnly ..).regs rfl, ← regGet]
    exact regGet_bump_self ..
  · exact hsends.carries.answered (mgmtNack_answered h.msg (some x) addr (by decide) (by rw [hb]; rfl))
  · have hcount : Same { peg := true, regs := true, strand := true, tx := true } s.found (abandoned 0 s) :=
      bump_same _ _ ((same_strand rfl).2 (.refl _ _)) rfl
    exact raiseEventTo_false_same _ _ _ (mgmtNack_same _ _ _ _ _ _ hcount rfl rfl) rfl rfl rfl

/-! ### TRACKER_CLEAR (02 R107) -/

/-- A tile's registers fill 0x200 bytes, the first tile's from 0x400 on (00 R9). -/
theorem tileOffset_split {t o b : Nat} (ho : o < 0x200) (hb : b = 0x400 + t * 0x200 + o) :
    (b - 0x400) / 0x200 = t ∧ (b - 0x400) % 0x200 = o := by omega

theorem locOf_addrTile {f c t o : Nat} (hf : f < 12) (hc : c < 16) (ht : t < 33) (ho : o < 0x200) :
    locOf (addrTile f c t o) = some (.tile f c t o) := by
  generalize ha : addrTile f c t o = a
  simp only [addrTile, addrCs] at ha
  have hregion : 0x2000000 ≤ a ∧ a < 0x2C00000 := by omega
  have hdie : (a - 0x2000000) / 0x100000 = f := by omega
  have hcourse : a % 0x100000 / 0x10000 = c := by omega
  have hlow : a % 0x10000 = 0x400 + t * 0x200 + o := by omega
  clear ha
  obtain ⟨htile, hoff⟩ := tileOffset_split ho hlow
  rw [locOf, if_neg (by omega), if_neg (by omega), if_neg (by omega), if_pos hregion]
  simp only [hdie, hcourse, htile, hoff]
  rw [if_neg (by omega), if_pos (by omega)]

theorem writeReg_tile {f c t a o : Nat} {s y : Session} {r : RegDef} {v : Word} {d : Dev} (hs : sessionOf s.num d = some y)
    (hloc : locOf a = some (.tile f c t o)) (hdef : regDefOf (.tile f c t o) = some r) :
    writeReg s a v d
      = if o = 0x100 then (0, when_ (v.getLsbD 31) (trackerClear f c t) (writeSel y a r v d)) else (0, clearCtrs a r v d) := by
  simp only [writeReg, hs, hloc, hdef, Option.getD_some]

/-- A write of a tile's selector register with its top bit set clears the tile's trackers. -/
theorem writeReg_trackerClear {f c t : Nat} {s y : Session} {v : Word} {d : Dev} (hf : f < 12) (hc : c < 16) (ht : t < 33)
    (hv : v.getLsbD 31 = true) (hs : sessionOf s.num d = some y) :
    writeReg s (addrTile f c t 0x100) v d
      = (0, trackerClear f c t (writeSel y (addrTile f c t 0x100) { rw := 0x3FF#32, wo := 0x80000000#32 } v d)) := by
  rw [writeReg_tile hs (locOf_addrTile hf hc ht (by decide)) (r := { rw := 0x3FF#32, wo := 0x80000000#32 }) rfl, if_pos rfl, hv]
  rfl

theorem tileAt_trackerClear_self (f c t : Nat) (d : Dev) : ∀ e, e ∈ (tileAt f c t (trackerClear f c t d)).cols →
    e.2.min = emptyStat.min ∧ e.2.max = emptyStat.max := by
  intro e he
  rw [tileAt, trackerClear, modTile, putTile, mgetD_mputD_self] at he
  obtain ⟨e', -, rfl⟩ := List.mem_map.1 he
  exact ⟨rfl, rfl⟩

theorem tileAt_trackerClear_ne {f c t f' c' t' : Nat} (d : Dev) (h : tileKey f' c' t' ≠ tileKey f c t) :
    tileAt f' c' t' (trackerClear f c t d) = tileAt f' c' t' d := mgetD_mputD_ne _ _ _ _ h

theorem assocAt_trackerClear (f c t i : Nat) (d : Dev) : assocAt i (trackerClear f c t d) = assocAt i d := rfl

theorem assocAt_writeSel (s : Session) (a i : Nat) (r : RegDef) (v : Word) (d : Dev) : assocAt i (writeSel s a r v d) = assocAt i d := rfl

theorem tileAt_writeSel (f c t a : Nat) (s : Session) (r : RegDef) (v : Word) (d : Dev) :
    tileAt f c t (writeSel s a r v d) = tileAt f c t d := rfl

theorem tileAt_mgmtReply (f c t aid : Nat) (m : Dgram) (s : Option Session) (extra : List Byte) (d : Dev) :
    tileAt f c t (mgmtReply aid m s extra d) = tileAt f c t d := by
  rw [tileAt, (mgmtReply_sendsOnly ..).fret rfl, ← tileAt]

/-! ### A write of one register -/

theorem writeOne_payload (a v : Nat) (m : Dgram) :
    (splitDgram (writeOne a v m)).payload = leBytes 4 a ++ [1#8, 0#8, 0#8, 0#8] ++ leBytes 4 v :=
  splitDgram_asBody_payload _ m (by simp [length_leBytes])

theorem writesOf_one {a v : Nat} (ha : a < 2 ^ 32) (hv : v < 2 ^ 32) :
    writesOf (leBytes 4 a ++ [1#8, 0#8, 0#8, 0#8] ++ leBytes 4 v) = [(a, w32 v)] := by
  have hvalue : u32 (leBytes 4 a ++ [1#8, 0#8, 0#8, 0#8] ++ leBytes 4 v) 8 = v := u32_leBytes_append [] hv
  rw [writesOf, addrsOf_one _ ha, List.zipIdx_singleton, List.map_singleton]
  exact congrArg (fun n => [(a, w32 n)]) hvalue

/-- A write of one register that the session may make is answered once the register is written. -/
theorem receive_writeOne {a v aid : Nat} {m n : Dgram} {x : Session} {d : Dev} (hn : splitDgram (writeOne a v m) = n) (ha : a < 2 ^ 32)
    (hv : v < 2 ^ 32) (hreset : a ≠ HS_RSTCTL) (h : MayWrite n aid x a (w32 v) d)
    (hok : (writeReg (commander aid n x d) a (w32 v) (commandOn aid n x d)).1 = 0) :
    receive (writeOne a v m) d = mgmtReply aid n (some (commander aid n x d)) (n.payload.take 8)
      (writeReg (commander aid n x d) a (w32 v) (commandOn aid n x d)).2 := by
  subst hn
  have hform : writeBad (splitDgram (writeOne a v m)).payload = false := by rw [writeOne_payload]; rfl
  have hcount : countBad (splitDgram (writeOne a v m)).payload = false := by rw [writeOne_payload]; rfl
  have hwrites : writesOf (splitDgram (writeOne a v m)).payload = [(a, w32 v)] := by rw [writeOne_payload, writesOf_one ha hv]
  rw [receive_write h.toManaged (hasFlag_reply_asReq ..) rfl,
    doMgmtWrite_served hform hcount (by rw [hwrites]; exact firstRefused_one h.right) (by rw [hwrites]; exact h.awake)
      (by simp [hwrites, writeRegs, hok]) (by simp [hwrites, hreset]), hwrites]
  simp [writeRegs, hok]

/-- Settles O36: each outcome of a write is one equation of the message, the timeout's is its own; a tracker clear is the write of the
tile's selector. -/
theorem managementWrites : Obligations.ManagementWrites := by
  refine ⟨fun m0 aid x s => ?_, fun m0 aid a code x s => ?_, fun k n h x s hk ht hx => ?_, fun m0 aid f c t col x s => ?_⟩
  · intro m b c ws items w h
    have hrecv : receive (asReq 0x31#8 m0) s.found = doMgmtWrite aid m c b := receive_write h (hasFlag_reply_asReq ..) rfl
    refine ⟨fun hform => completes_lift rfl ?_, fun hform hcount => completes_lift rfl ?_,
      fun hform hcount hpass hwait => ⟨fun hw hreset => completes_lift rfl ?_, fun e hw hreset => completes_lift rfl ?_,
        fun e hw => completes_lift rfl ?_⟩, fun hform hcount hpass hwait => completes_lift rfl ?_⟩
    · rw [hrecv, doMgmtWrite_badForm hform]
      exact ⟨mgmtNack_answered m (some c) 0 (by decide) h.assoc_isSome, mgmtNack_sendsOnly ..⟩
    · rw [hrecv, doMgmtWrite_badCount hform hcount]
      exact ⟨mgmtNack_answered m (some c) 0 (by decide) h.assoc_isSome, mgmtNack_sendsOnly ..⟩
    · rw [hrecv, doMgmtWrite_served hform hcount hpass hwait hw hreset]
      exact ⟨fun hassoc => mgmtReply_answered m (some c) _ hassoc, mgmtReply_sendsOnly ..⟩
    · rw [hrecv, doMgmtWrite_reset hform hcount hpass hwait hw hreset]
    · rw [hrecv, doMgmtWrite_refusedByValue hform hcount hpass hwait hw]
      exact ⟨fun hassoc => mgmtNack_answered m (some c) e.1 (writeRegs_code_ne_zero hw) hassoc, mgmtNack_sendsOnly ..⟩
    · rw [hrecv, doMgmtWrite_held hform hcount hpass hwait]
      exact holdAccess_spec aid m _ b
  · intro m b c h hform hcount hrefused
    refine completes_lift rfl ?_
    rw [receive_write h (hasFlag_reply_asReq ..) rfl, doMgmtWrite_refused hform hcount hrefused]
    exact refuseAddr_spec m c (firstRefused_code_ne_zero hrefused) h.assoc_isSome
  · intro first done b w e
    refine ⟨fun hsoon => completes_lift rfl (mgmtTimeout_early hk hsoon), fun hlate => completes_lift rfl ?_⟩
    have hdue : mgmtTimeout k n s.found = _ := mgmtTimeout_due hk ht hx hlate
    refine ⟨hdue, fun a hheld hread ha hc => ?_⟩
    have hk0 : k = 0 := by
      have hlt := (List.getElem?_eq_some_iff.1 hk).1
      rw [hheld, List.length_singleton] at hlt
      omega
    subst hk0
    have hne : ¬ h.msg.hdr.ttype = 0x31#8 := by rw [hread]; decide
    rw [hdue, if_neg hne]
    exact timedOutRead_alone _ _ hheld ha hc
  · intro m b hf hc ht h
    have hcol := col.isLt
    have haddr : addrTile f c t 0x100 < 2 ^ 32 ∧ addrTile f c t 0x100 ≠ HS_RSTCTL := by simp only [addrTile, addrCs, HS_RSTCTL]; omega
    have hbit : (w32 (2 ^ 31 + col.toNat)).getLsbD 31 = true := by
      rw [BitVec.getLsbD_ofNat, Nat.testBit_eq_decide_div_mod_eq]
      simp only [Bool.and_eq_true, decide_eq_true_eq]
      omega
    have hwrite := writeReg_trackerClear hf hc ht hbit h.sessionOf_commander
    have hok : okFct f c t = true := by simp [okFct, okFc, okDie, okTile, hf, hc, ht]
    refine completes_liftWf rfl hok ?_
    rw [receive_writeOne rfl haddr.1 (by omega) haddr.2 h (by rw [hwrite]), hwrite]
    refine ⟨mgmtReply_answered m _ _ ?_, fun e he => ?_, fun f' c' t' hne => ?_, ?_⟩
    · rw [assocAt_trackerClear, assocAt_writeSel]
      exact h.assoc_isSome
    · rw [tileAt_mgmtReply] at he
      exact tileAt_trackerClear_self f c t _ e he
    · rw [tileAt_mgmtReply, tileAt_trackerClear_ne _ hne, tileAt_writeSel]
    · exact mgmtReply_same _ _ _ _ _ (trackerClear_same _ _ _ _ (writeSel_same _ _ _ _ _ (.refl _ b) rfl) rfl) rfl rfl

end Sys2Proof.Machine

namespace Sys2Proof.Machine

/-! ### Channels and links read back -/

theorem chanAt_putChan_ne {ch c : Nat} (x : Chan) (d : Dev) (h : c ≠ ch) : chanAt c (putChan ch x d) = chanAt c d :=
  mgetD_mputD_ne _ _ _ _ h
theorem linkAt_putLink_ne {l k : Nat} (x : Link) (d : Dev) (h : k ≠ l) : linkAt k (putLink l x d) = linkAt k d :=
  mgetD_mputD_ne _ _ _ _ h
@[simp] theorem linkAt_putChan (l ch : Nat) (x : Chan) (d : Dev) : linkAt l (putChan ch x d) = linkAt l d := rfl
@[simp] theorem linkAt_send (l : Nat) (t : Tx) (d : Dev) : linkAt l (send t d) = linkAt l d := rfl
@[simp] theorem chanAt_send (ch : Nat) (t : Tx) (d : Dev) : chanAt ch (send t d) = chanAt ch d := rfl
@[simp] theorem links_putChan (ch : Nat) (x : Chan) (d : Dev) : (putChan ch x d).links.links = d.links.links := rfl

theorem chanAt_congr {b d : Dev} (h : d.links = b.links) (ch : Nat) : chanAt ch d = chanAt ch b := by rw [chanAt, chanAt, h]
theorem linkAt_congr {b d : Dev} (h : d.links.links = b.links.links) (l : Nat) : linkAt l d = linkAt l b := by rw [linkAt, linkAt, h]

@[simp] theorem countReplay_links (ch : Nat) (d : Dev) : (countReplay ch d).links = d.links :=
  (countReplay_same (al := { regs := true }) ch d (.refl _ d) rfl).links rfl

@[simp] theorem countReplay_tx (ch : Nat) (d : Dev) : (countReplay ch d).tx = d.tx :=
  (countReplay_same (al := { regs := true }) ch d (.refl _ d) rfl).tx rfl

@[simp] theorem chanAt_countReplay (c ch : Nat) (d : Dev) : chanAt c (countReplay ch d) = chanAt c d :=
  chanAt_congr (countReplay_links ch d) c
@[simp] theorem linkAt_countReplay (l ch : Nat) (d : Dev) : linkAt l (countReplay ch d) = linkAt l d :=
  linkAt_congr (by rw [countReplay_links]) l

/-- A retraining sets its link's state and touches no channel (R26). -/
theorem startRetrain_links (l : Nat) (d : Dev) : (startRetrain l d).links = (putLink l { linkAt l d with state := 1 } d).links := by
  unfold startRetrain
  dsimp only
  split <;> rfl

@[simp] theorem startRetrain_tx (l : Nat) (d : Dev) : (startRetrain l d).tx = d.tx :=
  (startRetrain_same (al := { regs := true, links := true }) l d (.refl _ d) rfl rfl).tx rfl

@[simp] theorem chanAt_startRetrain (ch l : Nat) (d : Dev) : chanAt ch (startRetrain l d) = chanAt ch d :=
  chanAt_congr (startRetrain_links l d) ch

theorem linkAt_startRetrain_self (l : Nat) (d : Dev) : linkAt l (startRetrain l d) = { linkAt l d with state := 1 } :=
  (linkAt_congr (by rw [startRetrain_links]) l).trans (linkAt_putLink_same ..)

theorem linkAt_startRetrain_ne {l k : Nat} (d : Dev) (h : k ≠ l) : linkAt k (startRetrain l d) = linkAt k d :=
  (linkAt_congr (by rw [startRetrain_links]) k).trans (linkAt_putLink_ne _ d h)

/-! ### A flit whose CRC fails (R25, R26) -/

/-- The receiver of a channel counts a replay and asks for it, its own state being `c` from then on. -/
def askReplay (ch lseq : Nat) (c : Chan) (d : Dev) : Dev := send (.replayRequest ch lseq) (countReplay ch (putChan ch c d))

section AskReplay
variable (ch lseq : Nat) (c : Chan) (d : Dev)

@[simp] theorem chanAt_askReplay_self : chanAt ch (askReplay ch lseq c d) = c := by simp [askReplay]
theorem chanAt_askReplay_ne {k : Nat} (h : k ≠ ch) : chanAt k (askReplay ch lseq c d) = chanAt k d := by
  simp [askReplay, chanAt_putChan_ne _ _ h]
@[simp] theorem linkAt_askReplay (l : Nat) : linkAt l (askReplay ch lseq c d) = linkAt l d := by simp [askReplay]
@[simp] theorem askReplay_links : (askReplay ch lseq c d).links.links = d.links.links := by simp [askReplay, send]
@[simp] theorem askReplay_tx : (askReplay ch lseq c d).tx = d.tx ++ [.replayRequest ch lseq] := by simp [askReplay, send]

end AskReplay

section CrcFail
variable {ch : Nat} {h : DWord} {payload : List Byte} {crc : BitVec 40} {d : Dev}

/-- The first failure of a flit, or of one after the replay awaited has come: what follows is discarded, and a replay asked for. -/
theorem flitCrcFail_first {rep : Bool} (hcrc : crc40 h payload ≠ crc) (hup : (linkAt (linkOf ch) d).state = 2)
    (hfree : (chanAt ch d).discard = none ∨ rep = true) :
    flitCrcFail ch h payload crc rep d = askReplay ch (fLseq h) { chanAt ch d with discard := some (fLseq h), fails := 1 } d := by
  cases rep with
  | true => simp [flitCrcFail, hcrc, hup, askReplay]
  | false =>
    have hnone : (chanAt ch d).discard = none := hfree.resolve_right (by decide)
    simp [flitCrcFail, hcrc, hup, hnone, askReplay]

/-- A further failure of the flit awaited asks again. -/
theorem flitCrcFail_again (hcrc : crc40 h payload ≠ crc) (hup : (linkAt (linkOf ch) d).state = 2)
    (hawaited : (chanAt ch d).discard = some (fLseq h)) (hfewer : (chanAt ch d).fails + 1 ≠ 16) :
    flitCrcFail ch h payload crc false d = askReplay ch (fLseq h) { chanAt ch d with fails := (chanAt ch d).fails + 1 } d := by
  have hfails : (chanAt ch d).fails ≠ 15 := by omega
  simp [flitCrcFail, hcrc, hup, hawaited, askReplay, hfails]

/-- The sixteenth failure in a row asks again and retrains the link. -/
theorem flitCrcFail_sixteenth (hcrc : crc40 h payload ≠ crc) (hup : (linkAt (linkOf ch) d).state = 2)
    (hawaited : (chanAt ch d).discard = some (fLseq h)) (hsixteenth : (chanAt ch d).fails + 1 = 16) :
    flitCrcFail ch h payload crc false d = startRetrain (linkOf ch) (putChan ch { chanAt ch d with fails := 0 }
      (askReplay ch (fLseq h) { chanAt ch d with fails := (chanAt ch d).fails + 1 } d)) := by
  simp [flitCrcFail, hcrc, hup, hawaited, askReplay, hsixteenth]

/-- A flit that follows the one awaited is discarded unseen. -/
theorem flitCrcFail_passed {q : Nat} (hawaited : (chanAt ch d).discard = some q) (hq : q ≠ fLseq h) :
    flitCrcFail ch h payload crc false d = d := by
  simp [flitCrcFail, hawaited, hq]

end CrcFail

/-! ### Replays (R25, R26) -/

theorem forEach_send {α : Type} (l : List α) (f : α → Tx) (d : Dev) :
    forEach l (fun x => send (f x)) d = { d with tx := d.tx ++ l.map f } := by
  induction l generalizing d with
  | nil => simp [forEach]
  | cons x r ih =>
    have hrest := ih (send (f x) d)
    rw [forEach, List.foldl_cons, ← forEach, hrest]
    simp [send]

/-- The flits that a replay sends: from the one named on, in the original order. -/
def replayFlits (ch lseq : Nat) (d : Dev) : List Tx :=
  ((chanAt ch d).buf.dropWhile fun f => fLseq f.hdr != lseq).map fun f => .flit ch f.hdr f.payload (crc40 f.hdr f.payload)

theorem replayFrom_eq (ch lseq : Nat) (d : Dev) : replayFrom ch lseq d = { d with tx := d.tx ++ replayFlits ch lseq d } := forEach_send ..

/-! ### Flits that wait and go (R26, R34-R36) -/

theorem chanFree_iff {ch : Nat} {d : Dev} :
    chanFree ch d = true ↔ (linkAt (linkOf ch) d).state = 2 ∧ (chanAt ch d).held = [] ∧ (chanAt ch d).replay = none := by
  simp [chanFree, and_assoc]

/-- A flit with the payload of `x` has been sent on a channel. -/
def SentOn (ch : Nat) (x : HeldFlit) (d : Dev) : Prop := ∃ h crc, Tx.flit ch h x.flit.payload crc ∈ d.tx

/-- What flits that go their way leave true: no link changes, a channel that nothing keeps stays so, what was sent was sent, and what
waited for a channel waits there still or has been sent on it. -/
structure Flushed (b d : Dev) : Prop where
  links : d.links.links = b.links.links
  free : ∀ c, chanFree c b = true → chanFree c d = true
  sent : ∀ t, t ∈ b.tx → t ∈ d.tx
  held : ∀ c x, x ∈ (chanAt c b).held → x ∈ (chanAt c d).held ∨ SentOn c x d

theorem Flushed.refl (d : Dev) : Flushed d d := ⟨rfl, fun _ h => h, fun _ h => h, fun _ _ h => .inl h⟩

theorem Flushed.sentOn {b d : Dev} (h : Flushed b d) {c : Nat} {x : HeldFlit} (hx : SentOn c x b) : SentOn c x d :=
  let ⟨hdr, crc, hmem⟩ := hx
  ⟨hdr, crc, h.sent _ hmem⟩

theorem Flushed.trans {b d e : Dev} (h : Flushed b d) (k : Flushed d e) : Flushed b e where
  links := k.links.trans h.links
  free c hc := k.free c (h.free c hc)
  sent t ht := k.sent t (h.sent t ht)
  held c x hx := (h.held c x hx).elim (k.held c x) fun hsent => .inr (k.sentOn hsent)

theorem forEach_flushed {α : Type} (l : List α) {f : α → Dev → Dev} (hf : ∀ x d, Flushed d (f x d)) (d : Dev) : Flushed d (forEach l f d) := by
  induction l generalizing d with
  | nil => exact .refl d
  | cons x r ih => exact (hf x d).trans (ih (f x d))

theorem sendFlit_keeps (c ch : Nat) (h : DWord) (payload : List Byte) (d : Dev) :
    (chanAt c (sendFlit ch h payload d)).held = (chanAt c d).held ∧ (chanAt c (sendFlit ch h payload d)).replay = (chanAt c d).replay := by
  unfold sendFlit
  rw [chanAt_send]
  by_cases hc : c = ch
  · subst hc
    rw [chanAt_putChan_same]
    exact ⟨rfl, rfl⟩
  · rw [chanAt_putChan_ne _ _ hc]
    exact ⟨rfl, rfl⟩

theorem sendFlit_flushed (ch : Nat) (h : DWord) (payload : List Byte) (d : Dev) : Flushed d (sendFlit ch h payload d) where
  links := rfl
  free c hc := by
    obtain ⟨hheld, hreplay⟩ := sendFlit_keeps c ch h payload d
    rw [chanFree_iff] at hc ⊢
    rwa [hheld, hreplay]
  sent t ht := List.mem_append_left _ ht
  held c _ hx := .inl ((sendFlit_keeps c ch h payload d).1.symm ▸ hx)

/-- Where the channel is not free the flit waits behind those that wait there. -/
theorem hold_flushed {ch : Nat} (x : HeldFlit) {d : Dev} (hbusy : chanFree ch d ≠ true) :
    Flushed d (putChan ch { chanAt ch d with held := (chanAt ch d).held ++ [x] } d) where
  links := rfl
  free c hc := by
    have hne : c ≠ ch := fun e => hbusy (e ▸ hc)
    rw [chanFree_iff] at hc ⊢
    rwa [chanAt_putChan_ne _ _ hne]
  sent _ ht := ht
  held c y hy := by
    left
    by_cases hc : c = ch
    · subst hc
      rw [chanAt_putChan_same]
      exact List.mem_append_left _ hy
    · rwa [chanAt_putChan_ne _ _ hc]

theorem relay_flushed (l : List (Nat × Nat)) (h : DWord) (payload : List Byte) (d : Dev) : Flushed d (relay l h payload d) := by
  induction l generalizing d with
  | nil => exact .refl d
  | cons hop r ih =>
    obtain ⟨ch, vc⟩ := hop
    unfold relay
    split
    · exact (sendFlit_flushed ..).trans (ih _)
    · next hbusy => exact hold_flushed _ hbusy

theorem replayFrom_flushed (ch lseq : Nat) (d : Dev) : Flushed d (replayFrom ch lseq d) := by
  rw [replayFrom_eq]
  exact ⟨rfl, fun _ hc => hc, fun _ ht => List.mem_append_left _ ht, fun _ _ hx => .inl hx⟩

/-- A flit whose first channel is free is sent on it. -/
theorem relay_sent {ch vc : Nat} {rest : List (Nat × Nat)} {h : DWord} {payload : List Byte} {d : Dev} (hfree : chanFree ch d = true) :
    ∃ h' crc, Tx.flit ch h' payload crc ∈ (relay ((ch, vc) :: rest) h payload d).tx := by
  rw [relay, if_pos hfree]
  exact ⟨_, _, (relay_flushed rest h payload _).sent _ (List.mem_append_right _ (List.mem_singleton_self _))⟩

/-- Everything that waited for a channel that has become free is sent on it. -/
theorem forEach_relay_sent {ch : Nat} (l : List HeldFlit) {d : Dev} (hfree : chanFree ch d = true) :
    ∀ x ∈ l, SentOn ch x (forEach l (fun x d => relay ((ch, x.vc) :: x.rest) x.flit.hdr x.flit.payload d) d) := by
  induction l generalizing d with
  | nil => simp
  | cons y r ih =>
    have hy := relay_flushed ((ch, y.vc) :: y.rest) y.flit.hdr y.flit.payload d
    intro x hx
    rcases List.mem_cons.1 hx with rfl | hx
    · exact (forEach_flushed r (fun _ _ => relay_flushed ..) _).sentOn (relay_sent hfree)
    · exact ih (hy.free ch hfree) x hx

/-- The channel with nothing waiting any more. -/
def emptied (ch : Nat) (d : Dev) : Dev := putChan ch { chanAt ch d with replay := none, held := [] } d

/-- The replay that was asked for while the link was down goes first. -/
def replayed (ch : Nat) (d : Dev) : Dev :=
  match (chanAt ch d).replay with
  | some q => replayFrom ch q (emptied ch d)
  | none => emptied ch d

theorem flushChan_eq (ch : Nat) (d : Dev) :
    flushChan ch d = forEach (chanAt ch d).held (fun x d => relay ((ch, x.vc) :: x.rest) x.flit.hdr x.flit.payload d) (replayed ch d) := rfl

theorem replayed_flushed (ch : Nat) (d : Dev) : Flushed (emptied ch d) (replayed ch d) := by
  unfold replayed
  split
  · exact replayFrom_flushed ..
  · exact .refl _

theorem emptied_flushed_flushChan (ch : Nat) (d : Dev) : Flushed (emptied ch d) (flushChan ch d) := by
  rw [flushChan_eq]
  exact (replayed_flushed ch d).trans (forEach_flushed _ (fun _ _ => relay_flushed ..) _)

section FlushChan
variable {ch : Nat} {d : Dev} (hup : (linkAt (linkOf ch) d).state = 2)
include hup

theorem emptied_free : chanFree ch (emptied ch d) = true := by
  rw [chanFree_iff, emptied, chanAt_putChan_same]
  exact ⟨hup, rfl, rfl⟩

theorem flushChan_free : chanFree ch (flushChan ch d) = true := (emptied_flushed_flushChan ch d).free ch (emptied_free hup)

/-- With its link up a channel takes up what waited there. -/
theorem flushChan_flushed : Flushed d (flushChan ch d) where
  links := (emptied_flushed_flushChan ch d).links
  free c hc := by
    by_cases he : c = ch
    · subst he
      exact flushChan_free hup
    · refine (emptied_flushed_flushChan ch d).free c ?_
      rw [chanFree_iff] at hc ⊢
      rwa [emptied, chanAt_putChan_ne _ _ he]
  sent t ht := (emptied_flushed_flushChan ch d).sent t ht
  held c x hx := by
    by_cases he : c = ch
    · subst he
      rw [flushChan_eq]
      exact .inr (forEach_relay_sent _ ((replayed_flushed c d).free c (emptied_free hup)) x hx)
    · exact (emptied_flushed_flushChan ch d).held c x (by rwa [emptied, chanAt_putChan_ne _ _ he])

end FlushChan

/-- Channels whose links are up take up what waited, one after the other, and nothing waits there any more. -/
theorem forEach_flushChan (l : List Nat) {d : Dev} (hup : ∀ ch ∈ l, (linkAt (linkOf ch) d).state = 2) :
    Flushed d (forEach l flushChan d) ∧ ∀ ch ∈ l, chanFree ch (forEach l flushChan d) = true := by
  induction l generalizing d with
  | nil => exact ⟨.refl d, by simp⟩
  | cons c r ih =>
    have hc := hup c (List.mem_cons_self ..)
    have hfirst := flushChan_flushed hc
    obtain ⟨hrest, hfree⟩ := ih (d := flushChan c d) fun ch hch => by
      rw [linkAt_congr hfirst.links]
      exact hup ch (List.mem_cons_of_mem _ hch)
    refine ⟨hfirst.trans hrest, fun ch hch => ?_⟩
    rcases List.mem_cons.1 hch with rfl | hch
    · exact hrest.free _ (flushChan_free hc)
    · exact hfree ch hch

/-! ### The end of a retraining (R26, R27) -/

theorem okLink_lt {l : Nat} (h : okLink l = true) : l < 112 := by
  simp only [okLink, Bool.or_eq_true, Bool.and_eq_true, decide_eq_true_eq] at h
  omega

/-- The two channels of a link belong to it. -/
theorem linkOf_linkChans {l ch : Nat} (h : okLink l = true) (hch : ch ∈ linkChans l) : linkOf ch = l := by
  have hall : ∀ l < 112, okLink l = true → ∀ ch ∈ linkChans l, linkOf ch = l := by decide +kernel
  exact hall l (okLink_lt h) h ch hch

theorem linkUp_flushed {l : Nat} (d : Dev) (h : okLink l = true) :
    Flushed (putLink l { state := 2, failed := 0 } d) (linkUp l d) ∧ ∀ ch ∈ linkChans l, chanFree ch (linkUp l d) = true :=
  forEach_flushChan (linkChans l) fun ch hch => by rw [linkOf_linkChans h hch, linkAt_putLink_same]

theorem linkAt_linkUp_self {l : Nat} (d : Dev) (h : okLink l = true) : linkAt l (linkUp l d) = { state := 2, failed := 0 } :=
  (linkAt_congr (linkUp_flushed d h).1.links l).trans (linkAt_putLink_same ..)

theorem linkAt_linkUp_ne {l k : Nat} (d : Dev) (h : okLink l = true) (hk : k ≠ l) : linkAt k (linkUp l d) = linkAt k d :=
  (linkAt_congr (linkUp_flushed d h).1.links k).trans (linkAt_putLink_ne _ d hk)

section RetrainDone
variable {l : Nat} {d : Dev} (hstate : (linkAt l d).state = 1)
include hstate

theorem linkRetrainDone_up (h : okLink l = true) : linkRetrainDone l true d = linkUp l d := by
  have hup : retrained l true d = linkUp l d := rfl
  simp [linkRetrainDone, hstate, hup, linkAt_linkUp_self d h]

/-- The first and the second retraining that fail start another. -/
theorem linkRetrainDone_again (hfailed : (linkAt l d).failed < 2) :
    linkRetrainDone l false d = startRetrain l (putLink l { linkAt l d with failed := (linkAt l d).failed + 1 } d) := by
  have hagain : retrained l false d = startRetrain l (putLink l { linkAt l d with failed := (linkAt l d).failed + 1 } d) := by
    have hcount : (linkAt l d).failed + 1 < 3 := by omega
    simp [retrained, hcount]
  simp [linkRetrainDone, hstate, hagain, linkAt_startRetrain_self]

/-- The request that a failed link makes for a pair at its ends (R27, R60). -/
def pairReset (n : Nat) : SubReset := { scope := .die, part := 0, stage := 0, die := n, source := srcLINK, t0 := 0 }

theorem linkRetrainDone_failed (hfailed : 2 ≤ (linkAt l d).failed) :
    linkRetrainDone l false d = forEach (linkPairs l) (fun n => subRequest (pairReset n)) (putLink l { state := 3, failed := 3 } d) := by
  have hthird : retrained l false d = putLink l { state := 3, failed := 3 } d := by
    have hcount : ¬ (linkAt l d).failed + 1 < 3 := by omega
    simp [retrained, hcount]
  simp only [linkRetrainDone, hstate, hthird, linkAt_putLink_same]
  rfl

end RetrainDone

/-! ### The pairs at the ends of a failed link (01 R27, R60; 16 R615) -/

/-- The part is awake, and the resets in progress are those of pairs that a failed link asked for at `t`. -/
structure PairsReset (t : Nat) (d : Dev) : Prop where
  powered : powered d = true
  idle : d.rst.phase = .idle
  awake : d.pwr.state < 2
  settled : d.pwr.target = none
  now : d.osc = t
  subs : ∀ r ∈ d.rst.subs, r.scope = .die ∧ r.source = srcLINK ∧ r.t0 = t

/-- A die reset leaves the record of resets, the clock and the power state alone. -/
theorem startDie_leaves (n : Nat) (d : Dev) : (startDie n d).rst = d.rst ∧ (startDie n d).osc = d.osc ∧ (startDie n d).pwr = d.pwr := by
  have hsame := startDie_same (al := { regs := true, strand := true, peg := true, links := true, fret := true, loads := true, streams := true,
                                       scheds := true, kv := true, tx := true }) n d (.refl _ d) rfl rfl rfl rfl rfl rfl rfl rfl rfl rfl
  exact ⟨hsame.rst rfl, hsame.osc rfl, hsame.pwr rfl⟩

section PairsReset
variable {t : Nat} {d : Dev} (h : PairsReset t d)
include h

theorem PairsReset.asks_eq (n : Nat) : subRequest (pairReset n) d = admitSub (pairReset n) d := by
  have hawake : asleep d = false := by
    have := h.awake
    simp [asleep]
    omega
  simp [subRequest, h.powered, h.idle, hawake, h.settled]

theorem PairsReset.absorbs_iff {r : SubReset} (hr : r ∈ d.rst.subs) (n : Nat) (e : Dev) : subAbsorbs r (pairReset n) e = true ↔ r.die = n := by
  simp [subAbsorbs, pairReset, (h.subs r hr).1]

/-- The resets in progress once the pair's is among them: those before, and its own unless it runs already. -/
theorem PairsReset.next (n : Nat) :
    PairsReset t (subRequest (pairReset n) d) ∧ (∀ r ∈ d.rst.subs, r ∈ (subRequest (pairReset n) d).rst.subs)
      ∧ ∃ r ∈ (subRequest (pairReset n) d).rst.subs, r.die = n := by
  rw [h.asks_eq, admitSub]
  split
  · next hruns =>
    obtain ⟨r, hr, habs⟩ := List.any_eq_true.1 hruns
    exact ⟨⟨h.powered, h.idle, h.awake, h.settled, h.now, h.subs⟩, fun _ hr => hr, r, hr, (h.absorbs_iff hr n d).1 habs⟩
  · next hnone =>
    have hother : ∀ r ∈ d.rst.subs, r.die ≠ n := fun r hr hdie =>
      hnone (List.any_eq_true.2 ⟨r, hr, (h.absorbs_iff hr n d).2 hdie⟩)
    have hmay : mayStart (pairReset n) d = true := by
      refine List.all_eq_true.2 fun r hr => ?_
      simp [diffDie, pairReset, (h.subs r hr).1, hother r hr]
    have hkept : d.rst.subs.filter (fun r => !subAbsorbs (pairReset n) r d) = d.rst.subs := by
      refine List.filter_eq_self.2 fun r hr => ?_
      simp [subAbsorbs, pairReset, (h.subs r hr).1, (hother r hr).symm]
    rw [if_pos hmay, hkept]
    obtain ⟨hrst, hosc, hpwr⟩ := startDie_leaves n (addSub { pairReset n with t0 := d.osc } d)
    have hsubs : (startSub (pairReset n) d).rst.subs = d.rst.subs ++ [{ pairReset n with t0 := d.osc }] := congrArg Rst.subs hrst
    refine ⟨⟨?_, ?_, ?_, ?_, hosc.trans h.now, fun r hr => ?_⟩, fun r hr => ?_, { pairReset n with t0 := d.osc }, ?_, rfl⟩
    · exact (congrArg (fun p : Pwr => p.supply && !p.tripped) hpwr).trans h.powered
    · exact (congrArg Rst.phase hrst).trans h.idle
    · exact Nat.lt_of_le_of_lt (Nat.le_of_eq (congrArg Pwr.state hpwr)) h.awake
    · exact (congrArg Pwr.target hpwr).trans h.settled
    · rw [hsubs] at hr
      rcases List.mem_append.1 hr with hr | hr
      · exact h.subs r hr
      · obtain rfl := List.mem_singleton.1 hr
        exact ⟨rfl, rfl, h.now⟩
    · exact hsubs ▸ List.mem_append_left _ hr
    · exact hsubs ▸ List.mem_append_right _ (List.mem_singleton_self _)

theorem PairsReset.all (l : List Nat) :
    PairsReset t (forEach l (fun n => subRequest (pairReset n)) d)
      ∧ (∀ r ∈ d.rst.subs, r ∈ (forEach l (fun n => subRequest (pairReset n)) d).rst.subs)
      ∧ ∀ n ∈ l, ∃ r ∈ (forEach l (fun n => subRequest (pairReset n)) d).rst.subs, r.die = n := by
  induction l generalizing d with
  | nil => exact ⟨h, fun _ hr => hr, by simp⟩
  | cons m r ih =>
    obtain ⟨hfirst, hkeep, x, hx, hdie⟩ := h.next m
    obtain ⟨hrest, hkeeps, hall⟩ := ih hfirst
    refine ⟨hrest, fun y hy => hkeeps y (hkeep y hy), fun n hn => ?_⟩
    rcases List.mem_cons.1 hn with rfl | hn
    · exact ⟨x, hkeeps x hx, hdie⟩
    · exact hall n hn

end PairsReset

/-! ### The flit firewall (R30; 13 R526) -/

theorem firewallFlit_refused {b : Nat} {h : DWord} {d : Dev} (hrefused : flitAllowed b h d = false) :
    firewallFlit b h d = bump (if enabled (fPart h) d then PT_FWFLIT (fPart h) else HS_RXDROP) d := by
  simp only [firewallFlit, hrefused, Bool.false_eq_true, if_false]
  split <;> rfl

theorem bump_counts (a : Nat) (b : Dev) :
    regGet a (bump a b) = satAdd (regGet a b) 1 ∧ RegsBut [a] b (bump a b) ∧ bump a b = { b with regs := (bump a b).regs } :=
  ⟨regGet_bump_self a b, fun r hr => regGet_bump_ne b (by simpa using hr), bump_frame a b⟩

/-- Settles O11: a failed CRC and a replay are each one equation; what waited for a link that comes up has gone once both its channels are
free; the resets of the pairs at a failed link's ends start beside each other. -/
theorem linkEvents : Obligations.LinkEvents := by
  refine ⟨⟨?_, ?_, ?_, ?_⟩, ?_, ?_, ?_, ?_⟩
  · intro ch h payload crc rep s hch hlen hcrc hup hfree
    refine completes_liftWf rfl (by simp [WellFormed, hch, hlen]) ?_
    have hsame := flitCrcFail_same (al := { regs := true, links := true, tx := true }) ch h payload crc rep s.found (.refl _ _) rfl rfl rfl
    have heq : flitCrcFail ch h payload crc rep s.found = _ := flitCrcFail_first hcrc hup hfree
    rw [heq] at hsame ⊢
    rw [chanAt_askReplay_self]
    exact ⟨rfl, rfl, rfl, rfl, askReplay_tx .., fun c hc => chanAt_askReplay_ne _ _ _ _ hc, askReplay_links .., hsame⟩
  · intro ch h payload crc s hch hlen hcrc hup hawaited
    refine completes_liftWf rfl (by simp [WellFormed, hch, hlen]) ?_
    have hsame := flitCrcFail_same (al := { regs := true, links := true, tx := true }) ch h payload crc false s.found (.refl _ _) rfl rfl rfl
    by_cases hsixteenth : (chanAt ch s.dev).fails + 1 = 16
    · have heq : flitCrcFail ch h payload crc false s.found = _ := flitCrcFail_sixteenth hcrc hup hawaited hsixteenth
      rw [heq] at hsame ⊢
      rw [startRetrain_tx, chanAt_startRetrain, linkAt_startRetrain_self, chanAt_putChan_same, if_pos hsixteenth, if_pos hsixteenth]
      exact ⟨askReplay_tx .., hawaited, rfl, rfl, hsame⟩
    · have heq : flitCrcFail ch h payload crc false s.found = _ := flitCrcFail_again hcrc hup hawaited hsixteenth
      rw [heq] at hsame ⊢
      rw [chanAt_askReplay_self, linkAt_askReplay, if_neg hsixteenth, if_neg hsixteenth]
      exact ⟨askReplay_tx .., hawaited, rfl, hup, hsame⟩
  · intro ch h payload crc q s hch hlen hcrc hawaited hq
    exact completes_liftWf rfl (by simp [WellFormed, hch, hlen]) (flitCrcFail_passed hawaited hq)
  · intro ch lseq s hch hlseq
    refine ⟨fun hup => ?_, fun hdown => ?_⟩
    · refine completes_liftWf rfl (by simp [WellFormed, hch, hlseq]) ?_
      have heq : replayRequestRx ch lseq s.found = replayFrom ch lseq s.found := if_pos hup
      rw [heq, replayFrom_eq]
      exact ⟨rfl, rfl⟩
    · refine completes_liftWf rfl (by simp [WellFormed, hch, hlseq]) ?_
      have heq : replayRequestRx ch lseq s.found = putChan ch { chanAt ch s.found with replay := some lseq } s.found := if_neg hdown
      rw [heq, chanAt_putChan_same]
      exact ⟨rfl, fun c hc => chanAt_putChan_ne _ _ hc, rfl, rfl⟩
  · intro l s hl hstate
    refine completes_liftWf rfl hl ?_
    have heq : linkRetrainDone l true s.found = linkUp l s.found := linkRetrainDone_up hstate hl
    obtain ⟨hflushed, hfree⟩ := linkUp_flushed s.found hl
    rw [heq]
    refine ⟨linkAt_linkUp_self _ hl, fun k hk => linkAt_linkUp_ne _ hl hk, fun ch hch => ?_, linkUp_same _ _ (.refl _ _) rfl rfl⟩
    obtain ⟨-, hheld, hreplay⟩ := chanFree_iff.1 (hfree ch hch)
    refine ⟨hheld, hreplay, fun x hx => (hflushed.held ch x hx).resolve_left ?_⟩
    rw [hheld]
    exact List.not_mem_nil
  · intro l s hl hstate hfailed
    refine completes_liftWf rfl hl ?_
    have heq : linkRetrainDone l false s.found = _ := linkRetrainDone_again hstate hfailed
    rw [heq]
    refine ⟨?_, fun k hk => ?_, startRetrain_same _ _ (putLink_same _ _ _ (.refl _ _) rfl) rfl rfl⟩
    · rw [linkAt_startRetrain_self, linkAt_putLink_same]
      rfl
    · rw [linkAt_startRetrain_ne _ hk, linkAt_putLink_ne _ _ hk]
      rfl
  · intro l n s hl hstate hfailed hpowered hidle hsubs hawake hsettled hn
    refine completes_liftWf rfl hl ?_
    have heq : linkRetrainDone l false s.found = _ := linkRetrainDone_failed hstate hfailed
    have hpairs : PairsReset s.dev.osc (putLink l { state := 3, failed := 3 } s.found) :=
      ⟨hpowered, hidle, hawake, hsettled, rfl, fun r hr => absurd (hsubs ▸ hr) List.not_mem_nil⟩
    obtain ⟨hreset, -, hall⟩ := hpairs.all (linkPairs l)
    obtain ⟨x, hx, hdie⟩ := hall n hn
    obtain ⟨hscope, hsource, hnow⟩ := hreset.subs x hx
    rw [heq]
    exact ⟨x, hx, hscope, hdie, hsource, hnow⟩
  · intro b h s hb hrefused
    have heq : firewallFlit b h s.found = _ := firewallFlit_refused hrefused
    refine completes_liftWf rfl (by simp [WellFormed, okDie, hb]) ?_
    rw [heq]
    exact bump_counts _ s.found

end Sys2Proof.Machine

namespace Sys2Proof.Machine

/-! ### A message whose slot is none of the course's (05 R195; 06 R241)

O55 speaks of every state and bounds no slot of the messages that wait in the Capo. A course has the slots 0 to 3; the settings of a slot
162 would lie at the address of CS_OUTPAR, where a parity error is counted before its stage is read. -/

theorem stgCfg_162_addr (f c : Nat) : CS_STGCFG0 f c + 4 * 162 = CS_OUTPAR f c := by
  unfold CS_STGCFG0 CS_OUTPAR addrCs
  omega

theorem stgStage_162 (f c : Nat) (d : Dev) : stgStage f c 162 d = bits (regGet (CS_OUTPAR f c) d).toNat 16 8 := by
  rw [stgStage, stgCfg, stgCfg_162_addr]

/-- The terms of a vector whose stream is gone, in slot 162. -/
def strayTerms : TermMsg :=
  { pid := 0, group := 0, slot := 162, wtile := 0, tile := 0, vec := ⟨0, 0, 0#64⟩, layer := 0, terms := [], last := false, tries := 0 }

/-- Partition 0, which owns course 0 of Fret 0, has seen 65,535 parity errors there, and the Capo of the course holds `strayTerms`. -/
def strayState : State :=
  { dev := { resetDev with
      regs := [(CS_OUTPAR 0 0, 0xFFFF#32)],
      map := { resetDev.map with cur := [(0, [1#8] ++ List.replicate 7 0#8 ++ [1#8] ++ List.replicate 1015 0#8)] },
      fret := { resetDev.fret with courses := [(courseKey 0 0, { emptyCourse with capoOut := [strayTerms] })] } },
    pending := [] }

/-- Before the command the settings of the slot name stage 0. -/
theorem strayState_stage : stgStage 0 0 162 strayState.dev = 0 := by
  rw [stgStage_162]
  decide +kernel

/-- The count carries into the field of the stage: the context that the fault leaves names stage 1. -/
theorem strayState_faultStage :
    regField (PT_FAULTCTX0 0) 16 8 (termArrival 0 0 false true strayState.found) = 1 := by decide +kernel

theorem strayState_owner : coursePart 0 0 strayState.dev = 0 := by decide +kernel

theorem strayState_next :
    nextTerm 0 0 (assignWaiting 0 0 (purgeSets 0 0 strayState.found)) = some ([], strayTerms, []) := by decide +kernel

/-- Refutes O55: a parity error of a message in slot 162 adds one to the word that holds the slot's stage, 0x0000FFFF, so the stage that
faults is 1 and not the 0 that `StageFaulted` asks for. No slot that a course has, 0 to 3, shares an address with the counter. -/
theorem not_tailpiece : ¬ Obligations.Tailpiece := by
  intro h
  obtain ⟨hterm, -⟩ := h
  obtain ⟨-, hnext⟩ := hterm 0 0 false true strayState (by decide) (by decide)
  obtain ⟨-, hparity, -⟩ := hnext strayTerms [] [] strayState_next
  obtain ⟨d, hd, hfaulted, -⟩ := hparity (.inl rfl) (by rw [strayState_owner]; decide)
  obtain ⟨-, -, hstage, -⟩ := hfaulted
  have hdev : d = termArrival 0 0 false true strayState.found :=
    congrArg State.dev (liftWf_next (t := { strayState with dev := d }) hd)
  rw [hdev, strayState_owner, strayState_faultStage] at hstage
  change 1 = stgStage 0 0 162 strayState.dev % 256 at hstage
  rw [strayState_stage] at hstage
  exact absurd hstage (by decide)

end Sys2Proof.Machine

namespace Sys2Proof.Machine

/-! ### Windows that wait open (08 R329) -/

/-- Only events are sent and windows change, each keeping its number. -/
structure OnlyOpens (b d : Dev) : Prop where
  same : Same { strand := true, peg := true, loads := true, tx := true } b d
  loads : d.loads = { b.loads with windows := d.loads.windows }
  nums : d.loads.windows.map (·.num) = b.loads.windows.map (·.num)

theorem OnlyOpens.refl (d : Dev) : OnlyOpens d d := ⟨.refl _ d, rfl, rfl⟩

/-- An event of a window is not kept in the log, so it changes no register. -/
theorem windowEvent_false_same {al : Allow} {b : Dev} (p ty model window cause epoch handle : Nat) (d : Dev) (hd : Same al b d)
    (hs : al.strand = true) (hp : al.peg = true) (ht : al.tx = true) : Same al b (windowEvent p ty model window cause epoch handle d) :=
  raiseEventTo_false_same _ _ d hd hs hp ht

theorem windowEvent_sends (p ty model window cause epoch handle : Nat) (d : Dev) :
    Same { strand := true, peg := true, tx := true } d (windowEvent p ty model window cause epoch handle d) :=
  windowEvent_false_same _ _ _ _ _ _ _ d (.refl _ d) rfl rfl rfl

theorem windowEvent_loads (p ty model window cause epoch handle : Nat) (d : Dev) :
    (windowEvent p ty model window cause epoch handle d).loads = d.loads := (windowEvent_sends ..).loads rfl

theorem OnlyOpens.windowEvent {b d : Dev} (h : OnlyOpens b d) (p ty model window cause epoch handle : Nat) :
    OnlyOpens b (windowEvent p ty model window cause epoch handle d) where
  same := windowEvent_false_same _ _ _ _ _ _ _ d h.same rfl rfl rfl
  loads := by rw [windowEvent_loads]; exact h.loads
  nums := by rw [windowEvent_loads]; exact h.nums

/-- A change of windows that keeps their numbers. -/
theorem OnlyOpens.mapWindows {b d : Dev} (h : OnlyOpens b d) {f : Window → Window} (hf : ∀ w, (f w).num = w.num) :
    OnlyOpens b { d with loads := { d.loads with windows := d.loads.windows.map f } } where
  same := (same_loads rfl).2 h.same
  loads := by rw [h.loads]
  nums := by
    rw [← h.nums, List.map_map]
    exact List.map_congr_left fun w _ => hf w

theorem forEach_onlyOpens {α : Type} {b : Dev} (l : List α) {f : α → Dev → Dev} (hf : ∀ x d, OnlyOpens b d → OnlyOpens b (f x d)) {d : Dev}
    (h : OnlyOpens b d) : OnlyOpens b (forEach l f d) := by
  induction l generalizing d with
  | nil => exact h
  | cons x r ih => exact ih (hf x d h)

theorem openWaiting_onlyOpens (d : Dev) : OnlyOpens d (openWaiting d) := by
  refine forEach_onlyOpens _ (fun w e h => ?_) (.refl d)
  dsimp only
  split
  · exact h
  · split
    · exact h
    · exact (h.mapWindows fun x => by split <;> rfl).windowEvent ..

/-! ### References settle (08 R323, R334) -/

/-- The block once RETIRING epochs and generations without references are freed, before windows that wait open. -/
def freed (d : Dev) : Dev :=
  { d with loads := { d.loads with
    epochs := d.loads.epochs.filter (fun e => !(e.retiring && epochRefs e d == 0)),
    gens := d.loads.gens.filter fun g => !(g.retiring && genRefs g d == 0) } }

theorem settleRefs_onlyOpens (d : Dev) : OnlyOpens (freed d) (settleRefs d) := openWaiting_onlyOpens (freed d)

/-- Settling references changes no register. -/
theorem settleRefs_regs (d : Dev) : (settleRefs d).regs = d.regs := (settleRefs_onlyOpens d).same.regs rfl
theorem settleRefs_streams (d : Dev) : (settleRefs d).streams = d.streams := (settleRefs_onlyOpens d).same.streams rfl
theorem settleRefs_prefixes (d : Dev) : (settleRefs d).prefixes = d.prefixes := (settleRefs_onlyOpens d).same.prefixes rfl

theorem settleRefs_nums (d : Dev) : (settleRefs d).loads.windows.map (·.num) = d.loads.windows.map (·.num) := (settleRefs_onlyOpens d).nums

/-- What a filter keeps is found as before. -/
theorem find?_filter_of_imp {α : Type} {p q : α → Bool} (h : ∀ x, q x = true → p x = true) (l : List α) : (l.filter p).find? q = l.find? q := by
  rw [List.find?_filter]
  congr 1
  funext x
  rw [Bool.eq_iff_iff]
  simpa using h x

/-- A CURRENT epoch stays when references settle. -/
theorem curEpoch_settleRefs (p m : Nat) (d : Dev) : curEpoch p m (settleRefs d) = curEpoch p m d := by
  rw [curEpoch, (settleRefs_onlyOpens d).loads, curEpoch]
  refine find?_filter_of_imp (fun e he => ?_) _
  have hcurrent : e.retiring = false := by simpa using (Bool.and_eq_true_iff.1 he).2
  simp [hcurrent]

/-- A CURRENT generation stays when references settle. -/
theorem curGenOf_settleRefs (slot : Nat) (d : Dev) : curGenOf slot (settleRefs d) = curGenOf slot d := by
  rw [curGenOf, (settleRefs_onlyOpens d).loads, curGenOf]
  refine find?_filter_of_imp (fun g hg => ?_) _
  have hcurrent : g.retiring = false := by simpa using (Bool.and_eq_true_iff.1 hg).2
  simp [hcurrent]

/-! ### Windows by number -/

theorem windowAt_eq_none_iff {n : Nat} {d : Dev} : windowAt n d = none ↔ n ∉ d.loads.windows.map (·.num) := by
  simp [windowAt, List.find?_eq_none]

theorem windowAt_num {n : Nat} {w : Window} {d : Dev} (h : windowAt n d = some w) : w.num = n := by
  simpa using List.find?_some h

theorem windowAt_dropWindow (n : Nat) (d : Dev) : windowAt n (dropWindow n d) = none := by
  simp [windowAt_eq_none_iff, dropWindow]

theorem windowAt_of_nums {n : Nat} {b d : Dev} (h : d.loads.windows.map (·.num) = b.loads.windows.map (·.num)) (hb : windowAt n b = none) :
    windowAt n d = none := by
  rw [windowAt_eq_none_iff, h]
  exact windowAt_eq_none_iff.1 hb

theorem windowAt_settleRefs {n : Nat} {d : Dev} (h : windowAt n d = none) : windowAt n (settleRefs d) = none :=
  windowAt_of_nums (settleRefs_nums d) h

theorem windowAt_modWindow {n : Nat} {f : Window → Window} (hf : ∀ w, (f w).num = w.num) {w : Window} {d : Dev} (h : windowAt n d = some w) :
    windowAt n (modWindow n f d) = some (f w) := by
  have hnum : ∀ x : Window, ((if x.num = n then f x else x).num == n) = (x.num == n) := fun x => by
    split
    · rw [hf]
    · rfl
  have hw : w.num = n := windowAt_num h
  rw [windowAt, modWindow, List.find?_map]
  simp only [Function.comp_def, hnum]
  change Option.map _ (windowAt n d) = _
  simp [h, hw]

/-! ### An aborted window (R314) -/

/-- After the abort of a window its number is free and the abort is counted. -/
theorem abortWindow_frees (w : Window) (cause : Nat) (d : Dev) :
    windowAt w.num (abortWindow w cause d) = none ∧ (abortWindow w cause d).regs = (bump HS_LDABORT d).regs := by
  unfold abortWindow
  extract_lets dropped loads restored told
  have hdropped : windowAt w.num dropped = none := windowAt_dropWindow w.num d
  obtain ⟨hwindows, hrestored⟩ : restored.loads.windows = dropped.loads.windows ∧ restored.regs = dropped.regs := by
    unfold restored
    split <;> exact ⟨rfl, rfl⟩
  obtain ⟨hloads, htold⟩ : told.loads = restored.loads ∧ told.regs = restored.regs := by
    unfold told
    split
    · exact ⟨rfl, rfl⟩
    · exact ⟨windowEvent_loads .., (windowEvent_sends ..).regs rfl⟩
  refine ⟨windowAt_settleRefs ?_, ?_⟩
  · rw [windowAt, hloads, hwindows]
    exact hdropped
  · rw [settleRefs_regs, htold, hrestored]
    rfl

theorem windowIdleTimeout_idle {n : Nat} {w : Window} {d : Dev} (hw : windowAt n d = some w) (hidle : sec 600 ≤ since w.last d)
    (hopen : w.state ≠ 3) : windowIdleTimeout n d = abortWindow w 1 d := by
  simp [windowIdleTimeout, hw, Nat.not_lt.2 hidle, hopen]

/-! ### A commit that fails (R310, R313, R333) -/

/-- A committed window is open again. -/
def reopened (now : DWord) (w : Window) : Window := { w with state := 2, reply := none, last := now }

/-- The checks of a committed window fail: it is open again, the failure is counted and LOAD_COMMIT is answered with its status. -/
def commitFails (n : Nat) (w : Window) (st : Nat) (missing : List Nat) (d : Dev) : Dev :=
  replyCommit w st w.epoch.toNat missing (bump HS_LDFAIL (modWindow n (reopened d.time) d))

/-- The checks that refuse a committed window, once no value is non-finite: shards are missing, an adapter's slot still holds a RETIRING
generation, or the directory or the block index of a weight image is not as it must be. -/
def CommitRefused (w : Window) (d : Dev) : Prop :=
  missingShards w d ≠ []
    ∨ (∃ slot, w.adapter = some slot ∧ (oldGenOf slot d).isSome = true)
    ∨ (w.adapter = none ∧ (w.counts.getD 0 0 = 0 ∨ directoryOk w d = false
        ∨ indexOk w (imgOf w.part d) (blockList w.counts w.place d) = false))

theorem replyCommit_sends (w : Window) (st epoch : Nat) (missing : List Nat) (d : Dev) :
    Same { strand := true, tx := true } d (replyCommit w st epoch missing d) :=
  replyCommit_same w st epoch missing d (.refl _ d) rfl rfl

theorem commitFails_regs (n : Nat) (w : Window) (st : Nat) (missing : List Nat) (d : Dev) :
    (commitFails n w st missing d).regs = (bump HS_LDFAIL d).regs := (replyCommit_sends ..).regs rfl

theorem commitFails_same {al : Allow} {b d : Dev} (n : Nat) (w : Window) (st : Nat) (missing : List Nat) (h : Same al b d) (hr : al.regs = true)
    (hs : al.strand = true) (hl : al.loads = true) (ht : al.tx = true) : Same al b (commitFails n w st missing d) :=
  replyCommit_same _ _ _ _ _ (bump_same _ _ (modWindow_same _ _ _ h hl) hr) hs ht

/-- A failed commit opens the window again with what was written, and leaves epochs and generations. -/
theorem commitFails_reopens {n : Nat} {w : Window} {d : Dev} (st : Nat) (missing : List Nat) (hw : windowAt n d = some w) :
    windowAt n (commitFails n w st missing d) = some (reopened d.time w)
      ∧ (commitFails n w st missing d).loads.epochs = d.loads.epochs ∧ (commitFails n w st missing d).loads.gens = d.loads.gens := by
  have hloads : (commitFails n w st missing d).loads = (modWindow n (reopened d.time) d).loads := (replyCommit_sends ..).loads rfl
  rw [windowAt, hloads]
  exact ⟨windowAt_modWindow (f := reopened d.time) (fun _ => rfl) hw, rfl, rfl⟩

/-- The end of a commit that succeeds: LOAD_COMMIT is answered and references settle. -/
def concluded (w : Window) (epoch : Nat) (d : Dev) : Dev := settleRefs (replyCommit w stOK epoch [] d)

/-- The number of a slot's next generation (R334). -/
def nextGen (slot : Nat) (d : Dev) : Nat := match mget? d.loads.adpLast slot with | some g => (g + 1) % 65536 | none => 0

theorem hbmBytes_congr {d e : Dev} (h : e.mem = d.mem) (b a n : Nat) : hbmBytes b a n e = hbmBytes b a n d := by
  simp only [hbmBytes, hbmByte, h]

theorem walkBlocks_congr {d e : Dev} (h : e.mem = d.mem) (b base len k o : Nat) : walkBlocks b base len e k o = walkBlocks b base len d k o := by
  induction k generalizing o with
  | zero => rfl
  | succ k ih => simp only [walkBlocks, hbmBytes_congr h, ih]

/-- The blocks of an image are those of the bytes in HBM. -/
theorem blockList_congr {d e : Dev} (h : e.mem = d.mem) (counts : List Nat) (place : List (List Nat)) :
    blockList counts place e = blockList counts place d := by
  simp only [blockList, hbmBytes_congr h, walkBlocks_congr h]

/-- Every Bridge has counted a non-finite value (R333). -/
def nonFiniteCounted (d : Dev) : Dev := forEach (List.range 12) (fun b => bump (BR_NONFINITE b)) d

section Result
variable {n : Nat} {w : Window} {d : Dev} (hw : windowAt n d = some w) (hstate : w.state = 3)
include hw hstate

theorem loadCommitResult_nonFinite {slot : Nat} (hslot : w.adapter = some slot) :
    loadCommitResult n true d = commitFails n w stNONFINITE_INPUT (missingShards w d) (nonFiniteCounted d) := by
  simp only [loadCommitResult, hw, hstate, hslot]
  rfl

theorem loadCommitResult_refused {nonFinite : Bool} (hfinite : w.adapter = none ∨ nonFinite = false) (hrefused : CommitRefused w d) :
    ∃ st, loadCommitResult n nonFinite d = commitFails n w st (missingShards w d) d := by
  by_cases hmissing : missingShards w d = []
  · rcases hrefused with h | ⟨slot, hslot, hold⟩ | ⟨hnone, hform⟩
    · exact absurd hmissing h
    · have hnf : nonFinite = false := by simpa [hslot] using hfinite
      refine ⟨stADAPTER_BUSY, ?_⟩
      simp only [loadCommitResult, hw, hstate, hslot, hmissing, hold, hnf]
      rfl
    · have hbad : (decide (w.counts.getD 0 0 = 0) || !directoryOk w d || !indexOk w (imgOf w.part d) (blockList w.counts w.place d)) = true := by
        simpa [or_assoc] using hform
      refine ⟨stIMAGE_FORMAT, ?_⟩
      simp only [loadCommitResult, hw, hstate, hnone, hmissing, hbad]
      rfl
  · have hsome : (!(missingShards w d).isEmpty) = true := by simpa using hmissing
    refine ⟨stSHARD_MISSING, ?_⟩
    cases hadapter : w.adapter with
    | none =>
      simp only [loadCommitResult, hw, hstate, hadapter, hsome]
      rfl
    | some slot =>
      have hnf : nonFinite = false := by simpa [hadapter] using hfinite
      simp only [loadCommitResult, hw, hstate, hadapter, hsome, hnf]
      rfl

theorem loadCommitResult_epoch {nonFinite : Bool} (hnone : w.adapter = none) (hmissing : missingShards w d = [])
    (hcount : w.counts.getD 0 0 ≠ 0) (hdir : directoryOk w d = true)
    (hindex : indexOk w (imgOf w.part d) (blockList w.counts w.place d) = true) :
    loadCommitResult n nonFinite d
      = concluded w w.epoch.toNat (commitEpoch w (blockList w.counts w.place d) (bump HS_LDCOMMIT (dropWindow n d))) := by
  have hform : (decide (w.counts.getD 0 0 = 0) || !directoryOk w d || !indexOk w (imgOf w.part d) (blockList w.counts w.place d)) = false := by
    simpa [hdir, hindex] using hcount
  simp only [loadCommitResult, hw, hstate, hnone, hmissing, hform]
  rfl

theorem loadCommitResult_gen {slot : Nat} (hslot : w.adapter = some slot) (hmissing : missingShards w d = [])
    (hold : oldGenOf slot d = none) :
    loadCommitResult n false d
      = concluded w (nextGen slot d) (commitGen w slot (nextGen slot d) (bump HS_LDCOMMIT (dropWindow n d))) := by
  simp only [loadCommitResult, hw, hstate, hslot, hmissing, hold]
  rfl

end Result

/-! ### A commit that succeeds (R311, R323, R334) -/

theorem curEpoch_retireEpoch (p m after : Nat) (by_ : Option Nat) (d : Dev) : curEpoch p m (retireEpoch p m after by_ d) = none := by
  simp only [curEpoch, retireEpoch, List.find?_eq_none, List.mem_map, forall_exists_index, and_imp]
  rintro _ e - rfl
  split
  · simp
  · next h => simpa using h

/-- The CURRENT epoch is that of the committed window. -/
theorem curEpoch_commitEpoch (w : Window) (blocks : List (Nat × Nat)) (d : Dev) :
    ∃ e, curEpoch w.part w.model (commitEpoch w blocks d) = some e ∧ e.num = w.epoch ∧ e.layout = w.layout ∧ e.place = w.place := by
  have hold := curEpoch_retireEpoch w.part w.model w.retireAfter none d
  rw [curEpoch] at hold
  refine ⟨?e, ?current, ?num, ?layout, ?place⟩
  case current =>
    rw [curEpoch, commitEpoch, List.find?_append, hold]
    simp only [Option.none_or, List.find?_cons, beq_self_eq_true, Bool.not_false, Bool.and_self]
    rfl
  all_goals rfl

theorem curGenOf_retireGen (slot : Nat) (d : Dev) : curGenOf slot (retireGen slot d) = none := by
  rw [retireGen, curGenOf_settleRefs]
  simp only [curGenOf, List.find?_eq_none, List.mem_map, forall_exists_index, and_imp]
  rintro _ g - rfl
  split
  · simp
  · next h => simpa using h

/-- The CURRENT generation of the slot is the one committed. -/
theorem curGenOf_commitGen (w : Window) (slot gen : Nat) (d : Dev) :
    ∃ g, curGenOf slot (commitGen w slot gen d) = some g ∧ g.model = w.model ∧ g.rank = w.rank ∧ g.place = w.place ∧ g.gen = gen := by
  have hold := curGenOf_retireGen slot d
  rw [curGenOf] at hold
  refine ⟨?g, ?current, ?model, ?rank, ?place, ?gen⟩
  case current =>
    rw [curGenOf, commitGen, List.find?_append, hold]
    simp only [Option.none_or, List.find?_cons, beq_self_eq_true, Bool.not_false, Bool.and_self]
    rfl
  all_goals rfl

theorem commitGen_nums (w : Window) (slot gen : Nat) (d : Dev) :
    (commitGen w slot gen d).loads.windows.map (·.num) = d.loads.windows.map (·.num) := settleRefs_nums _

theorem commitGen_regs (w : Window) (slot gen : Nat) (d : Dev) : (commitGen w slot gen d).regs = d.regs := settleRefs_regs _

theorem replyCommit_loads (w : Window) (st epoch : Nat) (missing : List Nat) (d : Dev) : (replyCommit w st epoch missing d).loads = d.loads :=
  (replyCommit_sends ..).loads rfl

theorem concluded_regs (w : Window) (epoch : Nat) (d : Dev) : (concluded w epoch d).regs = d.regs :=
  (settleRefs_regs _).trans ((replyCommit_sends ..).regs rfl)

theorem windowAt_concluded {n : Nat} (w : Window) (epoch : Nat) {d : Dev} (h : windowAt n d = none) :
    windowAt n (concluded w epoch d) = none :=
  windowAt_settleRefs (by rwa [windowAt, replyCommit_loads])

theorem curEpoch_concluded (w : Window) (epoch p m : Nat) (d : Dev) : curEpoch p m (concluded w epoch d) = curEpoch p m d := by
  rw [concluded, curEpoch_settleRefs, curEpoch, replyCommit_loads, curEpoch]

theorem curGenOf_concluded (w : Window) (epoch slot : Nat) (d : Dev) : curGenOf slot (concluded w epoch d) = curGenOf slot d := by
  rw [concluded, curGenOf_settleRefs, curGenOf, replyCommit_loads, curGenOf]

/-! ### Counters of the Bridges (R333) -/

theorem regGet_congr {d e : Dev} (h : d.regs = e.regs) (a : Nat) : regGet a d = regGet a e := by rw [regGet, h, regGet]

/-- Counting once at each of several addresses leaves the others. -/
theorem regGet_forEach_bump_ne {addr : Nat → Nat} {a : Nat} (l : List Nat) (h : ∀ b ∈ l, a ≠ addr b) (d : Dev) :
    regGet a (forEach l (fun b => bump (addr b)) d) = regGet a d := by
  induction l generalizing d with
  | nil => rfl
  | cons b r ih =>
    have hr : ∀ c ∈ r, a ≠ addr c := fun c hc => h c (List.mem_cons_of_mem _ hc)
    exact (ih hr (bump (addr b) d)).trans (regGet_bump_ne d (h b List.mem_cons_self))

/-- Counting once at each of several different addresses counts one at each. -/
theorem regGet_forEach_bump {addr : Nat → Nat} (hinj : Function.Injective addr) {l : List Nat} (hl : l.Nodup) {b : Nat} (hb : b ∈ l) (d : Dev) :
    regGet (addr b) (forEach l (fun b => bump (addr b)) d) = satAdd (regGet (addr b) d) 1 := by
  induction l generalizing d with
  | nil => exact absurd hb List.not_mem_nil
  | cons c r ih =>
    obtain ⟨hc, hr⟩ := List.nodup_cons.1 hl
    by_cases hbc : b = c
    · subst hbc
      have hothers : ∀ x ∈ r, addr b ≠ addr x := fun x hx he => hc (hinj he ▸ hx)
      exact (regGet_forEach_bump_ne r hothers (bump (addr b) d)).trans (regGet_bump_self ..)
    · have hbr : b ∈ r := (List.mem_cons.1 hb).resolve_left hbc
      exact (ih hr hbr (bump (addr c) d)).trans (by rw [regGet_bump_ne d fun he => hbc (hinj he)])

theorem BR_NONFINITE_injective : Function.Injective BR_NONFINITE := fun a b h => by
  simp only [BR_NONFINITE, addrBr] at h
  omega

theorem BR_NONFINITE_ne_HS_LDFAIL (b : Nat) : BR_NONFINITE b ≠ HS_LDFAIL := by
  simp only [BR_NONFINITE, addrBr, HS_LDFAIL]
  omega

theorem nonFiniteCounted_same {al : Allow} {b d : Dev} (h : Same al b d) (hr : al.regs = true) : Same al b (nonFiniteCounted d) :=
  forEach_same (fun _ _ he => bump_same _ _ he hr) h

theorem regGet_nonFiniteCounted {b : Nat} (hb : b < 12) (d : Dev) :
    regGet (BR_NONFINITE b) (nonFiniteCounted d) = satAdd (regGet (BR_NONFINITE b) d) 1 :=
  regGet_forEach_bump BR_NONFINITE_injective List.nodup_range (List.mem_range.2 hb) d

theorem regGet_HS_LDFAIL_nonFiniteCounted (d : Dev) : regGet HS_LDFAIL (nonFiniteCounted d) = regGet HS_LDFAIL d :=
  regGet_forEach_bump_ne (List.range 12) (fun b _ => (BR_NONFINITE_ne_HS_LDFAIL b).symm) d

/-! ### Streams end (10 R391, R395) -/

theorem streamAt_modStream (i j : Nat) (f : Stream → Stream) (d : Dev) :
    streamAt j (modStream i f d) = if j = i then (streamAt i d).map f else streamAt j d := mget?_mmod ..

/-- A stream is freed, or the table stays. -/
theorem tryFree_streams (i : Nat) (d : Dev) : (tryFree i d).streams = d.streams ∨ (tryFree i d).streams = mdel d.streams i := by
  unfold tryFree
  split
  · exact .inl rfl
  · split
    · exact .inr rfl
    · exact .inl rfl

theorem streamAt_tryFree_ne {i j : Nat} (d : Dev) (h : j ≠ i) : streamAt j (tryFree i d) = streamAt j d := by
  rcases tryFree_streams i d with hs | hs
  · rw [streamAt, hs, streamAt]
  · rw [streamAt, hs, mget?_mdel_ne _ h, streamAt]

/-- What is left of the stream in the table is as it was. -/
theorem streamAt_tryFree_self {i : Nat} {y : Stream} {d : Dev} (h : streamAt i (tryFree i d) = some y) : streamAt i d = some y := by
  rcases tryFree_streams i d with hs | hs
  · rwa [streamAt, hs] at h
  · rw [streamAt, hs, mget?_mdel_self] at h
    exact absurd h (by simp)

/-- A stream as it ends for a reason of R395. -/
def endedAs (reason : Nat) (s : Stream) : Stream :=
  { s with state := if reason < 0x10 then 6 else 7, endr := reason, turn := false, moving := false, heldKv := false, heldTok := false,
           park := none, unpark := false, stop := 0, atRisk := false, draftDone := false, drafts := [] }

/-- The end of a live stream marks it, and may free it last; in between no entry of the table changes. -/
theorem endStream_live {i : Nat} {s : Stream} {d : Dev} (reason : Nat) (hs : streamAt i d = some s) (hlive : streamLive s = true) :
    ∃ e, e.streams = (modStream i (endedAs reason) d).streams ∧ endStream i reason d = tryFree i e := by
  obtain ⟨r, hr⟩ : ∃ r, r = endStream i reason d := ⟨_, rfl⟩
  rw [← hr]
  rw [endStream] at hr
  split at hr
  · next hnone => exact absurd (hs.symm.trans hnone) (by simp)
  · next x hx =>
    obtain rfl : s = x := Option.some.inj (hs.symm.trans hx)
    rw [if_neg (by simp [hlive])] at hr
    extract_lets marked calm told walked released at hr
    refine ⟨_, ?_, hr⟩
    have hcalm : Same { scheds := true } marked calm := by
      unfold calm
      exact ite_same (modSched_same _ _ _ (.refl _ _) rfl) (.refl _ _)
    have htold : told.streams = calm.streams := (sendStatus_same (al := { strand := true, tx := true }) i calm (.refl _ _) rfl rfl).streams rfl
    have hwalked : Same { kv := true } told walked := dropWalks_same _ _ _ (dropBufs_same _ _ _ (.refl _ _) rfl) rfl
    have hreleased : Same { kv := true } walked released := by
      unfold released
      exact ite_same (releaseStream_same _ _ (.refl _ _) rfl) (.refl _ _)
    calc (settleRefs released).streams = released.streams := settleRefs_streams _
      _ = walked.streams := hreleased.streams rfl
      _ = told.streams := hwalked.streams rfl
      _ = calm.streams := htold
      _ = marked.streams := hcalm.streams rfl

theorem endStream_gone {i : Nat} {d : Dev} (reason : Nat) (h : ∀ s, streamAt i d = some s → streamLive s = false) : endStream i reason d = d := by
  unfold endStream
  split
  · rfl
  · next s hs => simp [h s hs]

/-- The end of a stream is no other stream's. -/
theorem endStream_otherStreams (i reason : Nat) (d : Dev) : OtherStreams i d (endStream i reason d) := by
  by_cases h : ∃ s, streamAt i d = some s ∧ streamLive s = true
  · obtain ⟨s, hs, hlive⟩ := h
    obtain ⟨e, he, heq⟩ := endStream_live reason hs hlive
    intro j hj
    rw [heq, streamAt_tryFree_ne _ hj, streamAt, he, ← streamAt, streamAt_modStream, if_neg hj]
  · have hgone : ∀ s, streamAt i d = some s → streamLive s = false := fun s hs =>
      Bool.eq_false_iff.2 fun hlive => h ⟨s, hs, hlive⟩
    rw [endStream_gone reason hgone]
    exact fun _ _ => rfl

/-- A live stream has ended for the reason given, or is freed. -/
theorem endStream_ended {i : Nat} {s : Stream} {d : Dev} (reason : Nat) (hs : streamAt i d = some s) (hlive : streamLive s = true) :
    Ended i reason (endStream i reason d) := by
  obtain ⟨e, he, heq⟩ := endStream_live reason hs hlive
  intro y hy
  rw [heq] at hy
  have hy' := streamAt_tryFree_self hy
  rw [streamAt, he, ← streamAt, streamAt_modStream, if_pos rfl, hs] at hy'
  obtain rfl : endedAs reason s = y := Option.some.inj hy'
  exact ⟨rfl, rfl, rfl⟩

/-! ### Retire-by (R326) -/

theorem Ended.of_streamAt {i reason : Nat} {b d : Dev} (h : Ended i reason b) (hd : streamAt i d = streamAt i b) : Ended i reason d :=
  fun y hy => h y (hd ▸ hy)

theorem retireStream_otherStreams (i : Nat) (d : Dev) : OtherStreams i d (retireStream i d) := by
  unfold retireStream
  split
  · split
    · exact endStream_otherStreams i 0x15 (bump HS_EPOCHRET d)
    · exact fun _ _ => rfl
  · exact fun _ _ => rfl

/-- A stream that has failed is ended no second time. -/
theorem retireStream_gone {i : Nat} {d : Dev} (h : Ended i 0x15 d) : retireStream i d = d := by
  unfold retireStream
  split
  · next s hs =>
    obtain ⟨hstate, -, -⟩ := h s hs
    have hdead : streamLive s = false := by simp [streamLive, hstate]
    simp [hdead]
  · rfl

theorem retireStream_keeps_ended {i : Nat} (j : Nat) {d : Dev} (h : Ended i 0x15 d) : Ended i 0x15 (retireStream j d) := by
  by_cases hj : i = j
  · subst hj
    rwa [retireStream_gone h]
  · exact h.of_streamAt (retireStream_otherStreams j d i hj)

theorem retireStream_ended {i : Nat} {x : Stream} {d : Dev} (hx : streamAt i d = some x) (hlive : streamLive x = true) (hsteps : x.steps = []) :
    Ended i 0x15 (retireStream i d) := by
  simp only [retireStream, hx, hlive, hsteps, List.isEmpty_nil, Bool.and_self, if_true]
  exact endStream_ended 0x15 (d := bump HS_EPOCHRET d) hx hlive

theorem forEach_retireStream_keeps_ended {i : Nat} (l : List Nat) {d : Dev} (h : Ended i 0x15 d) : Ended i 0x15 (forEach l retireStream d) := by
  induction l generalizing d with
  | nil => exact h
  | cons j r ih => exact ih (retireStream_keeps_ended j h)

/-- Every stream of the list that lives at a boundary has failed with EPOCH_RETIRED at the end. -/
theorem forEach_retireStream_ended {i : Nat} {x : Stream} {l : List Nat} (hi : i ∈ l) {d : Dev} (hx : streamAt i d = some x)
    (hlive : streamLive x = true) (hsteps : x.steps = []) : Ended i 0x15 (forEach l retireStream d) := by
  induction l generalizing d with
  | nil => exact absurd hi List.not_mem_nil
  | cons j r ih =>
    by_cases hj : i = j
    · subst hj
      exact forEach_retireStream_keeps_ended r (retireStream_ended hx hlive hsteps)
    · have hir : i ∈ r := (List.mem_cons.1 hi).resolve_left hj
      exact ih hir ((retireStream_otherStreams j d i hj).trans hx)

/-- An entry that a key reads stands in the list. -/
theorem mem_of_mget? {α : Type} {m : SMap α} {k : Nat} {v : α} (h : mget? m k = some v) : (k, v) ∈ m := by
  induction m with
  | nil => exact absurd h (by simp [mget?_nil])
  | cons e r ih =>
    obtain ⟨j, w⟩ := e
    rw [mget?_cons] at h
    split at h
    · next hk =>
      obtain rfl : w = v := Option.some.inj h
      exact hk ▸ List.mem_cons_self
    · exact List.mem_cons_of_mem _ (ih h)

theorem dropPrefix_prefixes (h k : Nat) (d : Dev) : mget? (dropPrefix h d).prefixes k = if k = h then none else mget? d.prefixes k := by
  unfold dropPrefix
  split
  · next hnone =>
    split
    · next hk => rw [hk, hnone]
    · rfl
  · next x hx =>
    have hframes : (forEach (x.frames ++ x.draftFrames) (fun e d => unrefFrame x.bridge e.2 d) d).prefixes = d.prefixes :=
      (forEach_same (a := { kv := true }) (fun _ _ he => unrefFrame_same _ _ _ he rfl) (.refl _ d)).prefixes rfl
    rw [settleRefs_prefixes, hframes, mget?_mdel]

/-- A handle that is there after others were dropped was there before and is none of them. -/
theorem forEach_dropPrefix_left {g : Nat × Prefix → Dev → Dev} (hg : ∀ x d, (g x d).prefixes = d.prefixes) {k : Nat} {f : Prefix}
    {l : List (Nat × Prefix)} {d : Dev} (h : mget? (forEach l (fun x d => g x (dropPrefix x.1 d)) d).prefixes k = some f) :
    mget? d.prefixes k = some f ∧ ∀ x ∈ l, k ≠ x.1 := by
  induction l generalizing d with
  | nil => exact ⟨h, fun x hx => absurd hx List.not_mem_nil⟩
  | cons x r ih =>
    obtain ⟨hleft, hr⟩ := ih h
    rw [hg, dropPrefix_prefixes] at hleft
    split at hleft
    · exact absurd hleft (by simp)
    · next hx => exact ⟨hleft, List.forall_mem_cons.2 ⟨hx, hr⟩⟩

/-- No handle bound to the epoch is left (R326). -/
theorem dropEpochPrefixes_unbound (e : Epoch) {h : Nat} {f : Prefix} {d : Dev} (hf : mget? (dropEpochPrefixes e d).prefixes h = some f) :
    ¬ (f.part = e.part ∧ f.model = e.model ∧ f.epoch = e.num) := by
  rintro ⟨hpart, hmodel, hepoch⟩
  obtain ⟨hwas, hnot⟩ := forEach_dropPrefix_left (g := fun x d => windowEvent e.part 0x0046 e.model 0xFFFF 0 e.num.toNat x.1 d)
    (fun x d => (windowEvent_sends ..).prefixes rfl) hf
  refine hnot (h, f) (List.mem_filter.2 ⟨mem_of_mget? hwas, ?_⟩) rfl
  simp [hpart, hmodel, hepoch]

theorem oldEpoch_of {p m : Nat} {e : Epoch} {d : Dev} (h : oldEpoch p m d = some e) : e.part = p ∧ e.model = m := by
  have := List.find?_some h
  simp only [Bool.and_eq_true, beq_iff_eq] at this
  exact this.1

theorem epochRetireBy_expired {p m : Nat} {e : Epoch} {d : Dev} (he : oldEpoch p m d = some e) (hexpired : epochExpired p m e.num d = true)
    (hawake : asleep d = false) :
    epochRetireBy p m d = settleRefs (forEach (epochStreams e d) retireStream (dropEpochPrefixes e d)) := by
  simp [epochRetireBy, he, hexpired, hawake]

/-- Nothing that waits is an UNPARK: nothing is served. -/
theorem serveWork_idle {d : Dev} (h : ∀ x, x ∈ d.strand.held → x.msg.hdr.ttype ≠ 0x07#8) : serveWork d = d := by
  have hnone : (d.strand.held.any fun x => x.msg.hdr.ttype == 0x07#8) = false := by simpa using h
  simp [serveWork, hnone]

/-! ### The three commands -/

theorem windowIdleTimeout_aborts {n : Nat} {w : Window} {d : Dev} (hw : windowAt n d = some w) (hidle : sec 600 ≤ since w.last d)
    (hopen : w.state ≠ 3) :
    windowAt n (windowIdleTimeout n d) = none
      ∧ regGet HS_LDABORT (windowIdleTimeout n d) = satAdd (regGet HS_LDABORT d) 1 := by
  rw [windowIdleTimeout_idle hw hidle hopen]
  obtain ⟨hfree, hregs⟩ := abortWindow_frees w 1 d
  rw [windowAt_num hw] at hfree
  exact ⟨hfree, (regGet_congr hregs _).trans (regGet_bump_self ..)⟩

theorem loadCommitResult_reopens_nonFinite {n slot : Nat} {w : Window} {d : Dev} (hw : windowAt n d = some w) (hstate : w.state = 3)
    (hslot : w.adapter = some slot) :
    let d' := loadCommitResult n true d
    windowAt n d' = some (reopened d.time w) ∧ regGet HS_LDFAIL d' = satAdd (regGet HS_LDFAIL d) 1
      ∧ (∀ b, b < 12 → regGet (BR_NONFINITE b) d' = satAdd (regGet (BR_NONFINITE b) d) 1)
      ∧ d'.loads.epochs = d.loads.epochs ∧ d'.loads.gens = d.loads.gens
      ∧ Same { loads := true, regs := true, strand := true, tx := true } d d' := by
  rw [loadCommitResult_nonFinite hw hstate hslot]
  have hcounted : Same { regs := true } d (nonFiniteCounted d) := nonFiniteCounted_same (.refl _ d) rfl
  have hwindow : windowAt n (nonFiniteCounted d) = some w := by rwa [windowAt, hcounted.loads rfl]
  have hregs := commitFails_regs n w stNONFINITE_INPUT (missingShards w d) (nonFiniteCounted d)
  obtain ⟨hopen, hepochs, hgens⟩ := commitFails_reopens stNONFINITE_INPUT (missingShards w d) hwindow
  rw [hcounted.time rfl] at hopen
  rw [hcounted.loads rfl] at hepochs hgens
  refine ⟨hopen, ?_, fun b hb => ?_, hepochs, hgens,
    commitFails_same _ _ _ _ (nonFiniteCounted_same (.refl _ d) rfl) rfl rfl rfl rfl⟩
  · rw [regGet_congr hregs, regGet_bump_self, regGet_HS_LDFAIL_nonFiniteCounted]
  · rw [regGet_congr hregs, regGet_bump_ne _ (BR_NONFINITE_ne_HS_LDFAIL b), regGet_nonFiniteCounted hb]

theorem loadCommitResult_reopens_refused {n : Nat} {nonFinite : Bool} {w : Window} {d : Dev} (hw : windowAt n d = some w)
    (hstate : w.state = 3) (hfinite : w.adapter = none ∨ nonFinite = false) (hrefused : CommitRefused w d) :
    let d' := loadCommitResult n nonFinite d
    windowAt n d' = some (reopened d.time w) ∧ regGet HS_LDFAIL d' = satAdd (regGet HS_LDFAIL d) 1 ∧ RegsBut [HS_LDFAIL] d d'
      ∧ d'.loads.epochs = d.loads.epochs ∧ d'.loads.gens = d.loads.gens
      ∧ Same { loads := true, regs := true, strand := true, tx := true } d d' := by
  obtain ⟨st, heq⟩ := loadCommitResult_refused hw hstate hfinite hrefused
  rw [heq]
  have hregs := commitFails_regs n w st (missingShards w d) d
  obtain ⟨hopen, hepochs, hgens⟩ := commitFails_reopens st (missingShards w d) hw
  obtain ⟨hcount, hbut, -⟩ := bump_counts HS_LDFAIL d
  exact ⟨hopen, (regGet_congr hregs _).trans hcount, fun r hr => (regGet_congr hregs _).trans (hbut r hr), hepochs, hgens,
    commitFails_same _ _ _ _ (.refl _ d) rfl rfl rfl rfl⟩

theorem loadCommitResult_commits_epoch {n : Nat} {nonFinite : Bool} {w : Window} {d : Dev} (hw : windowAt n d = some w) (hstate : w.state = 3)
    (hnone : w.adapter = none) (hmissing : missingShards w d = []) (hcount : w.counts.getD 0 0 ≠ 0) (hdir : directoryOk w d = true)
    (hindex : indexOk w (imgOf w.part d) (blockList w.counts w.place d) = true) :
    let d' := loadCommitResult n nonFinite d
    windowAt n d' = none ∧ regGet HS_LDCOMMIT d' = satAdd (regGet HS_LDCOMMIT d) 1
      ∧ ∃ e, curEpoch w.part w.model d' = some e ∧ e.num = w.epoch ∧ e.layout = w.layout ∧ e.place = w.place := by
  rw [loadCommitResult_epoch hw hstate hnone hmissing hcount hdir hindex]
  refine ⟨windowAt_concluded _ _ (windowAt_dropWindow n d), ?_, ?_⟩
  · rw [regGet_congr (concluded_regs ..)]
    exact regGet_bump_self HS_LDCOMMIT (dropWindow n d)
  · rw [curEpoch_concluded]
    exact curEpoch_commitEpoch ..

theorem loadCommitResult_commits_gen {n slot : Nat} {w : Window} {d : Dev} (hw : windowAt n d = some w) (hstate : w.state = 3)
    (hslot : w.adapter = some slot) (hmissing : missingShards w d = []) (hold : oldGenOf slot d = none) :
    let d' := loadCommitResult n false d
    windowAt n d' = none ∧ regGet HS_LDCOMMIT d' = satAdd (regGet HS_LDCOMMIT d) 1
      ∧ ∃ g, curGenOf slot d' = some g ∧ g.model = w.model ∧ g.rank = w.rank ∧ g.place = w.place
          ∧ g.gen = nextGen slot d := by
  rw [loadCommitResult_gen hw hstate hslot hmissing hold]
  refine ⟨windowAt_concluded _ _ (windowAt_of_nums (commitGen_nums ..) (windowAt_dropWindow n d)), ?_, ?_⟩
  · rw [regGet_congr (concluded_regs ..), regGet_congr (commitGen_regs ..)]
    exact regGet_bump_self HS_LDCOMMIT (dropWindow n d)
  · rw [curGenOf_concluded]
    exact curGenOf_commitGen ..

/-- At a retire-by every stream of the epoch that lives at a boundary fails with EPOCH_RETIRED, and no handle is bound to it any more. -/
theorem epochRetireBy_retires {p m : Nat} {e : Epoch} {d : Dev} (he : oldEpoch p m d = some e) (hexpired : epochExpired p m e.num d = true)
    (hawake : asleep d = false) :
    (∀ i x, streamAt i d = some x → x.part = p → x.model = m → x.epoch = e.num → streamLive x = true → x.steps = [] →
        Ended i 0x15 (epochRetireBy p m d))
      ∧ ∀ h f, mget? (epochRetireBy p m d).prefixes h = some f → ¬ (f.part = p ∧ f.model = m ∧ f.epoch = e.num) := by
  obtain ⟨rfl, rfl⟩ := oldEpoch_of he
  rw [epochRetireBy_expired he hexpired hawake]
  refine ⟨fun i x hx hpart hmodel hepoch hlive hsteps => ?_, fun h f hf => ?_⟩
  · have hdropped : (dropEpochPrefixes e d).streams = d.streams :=
      (dropEpochPrefixes_same (al := { regs := true, strand := true, peg := true, loads := true, prefixes := true, kv := true, tx := true })
        e d (.refl _ d) rfl rfl rfl rfl rfl rfl rfl).streams rfl
    have hi : i ∈ epochStreams e d :=
      List.mem_map.2 ⟨(i, x), List.mem_filter.2 ⟨mem_of_mget? hx, by simp [hpart, hmodel, hepoch]⟩, rfl⟩
    have hended : Ended i 0x15 (forEach (epochStreams e d) retireStream (dropEpochPrefixes e d)) :=
      forEach_retireStream_ended hi (by rwa [streamAt, hdropped]) hlive hsteps
    exact hended.of_streamAt (by rw [streamAt, settleRefs_streams, streamAt])
  · have hkept : (forEach (epochStreams e d) retireStream (dropEpochPrefixes e d)).prefixes = (dropEpochPrefixes e d).prefixes :=
      (forEach_same (a := { regs := true, strand := true, peg := true, loads := true, streams := true, scheds := true, kv := true, tx := true })
        (fun _ _ hs => retireStream_same _ _ hs rfl rfl rfl rfl rfl rfl rfl rfl) (.refl _ _)).prefixes rfl
    rw [settleRefs_prefixes, hkept] at hf
    exact dropEpochPrefixes_unbound e hf

/-- What a command finds holds the bytes of the block as it was. -/
theorem blockList_found (counts : List Nat) (place : List (List Nat)) (s : State) :
    blockList counts place s.found = blockList counts place s.dev := blockList_congr (d := s.dev) (e := s.found) rfl counts place

/-- Settles O48: a failed check only opens the window again and counts; a commit ends with references that settle, which frees no CURRENT
epoch or generation; at a retire-by each stream that lives at a boundary is ended in its turn, and no other turn touches it. -/
theorem windowsAndEpochs : Obligations.WindowsAndEpochs := by
  refine ⟨?idle, ?result, ?retire⟩
  case idle =>
    intro n w s hn hw hidle hopen
    refine completes_liftWf rfl (by simpa [WellFormed] using hn) ?_
    have hsame := windowIdleTimeout_same (al := { loads := true, peg := true, regs := true, strand := true, tx := true }) n s.found
      (.refl _ _) rfl rfl rfl rfl rfl
    obtain ⟨hfree, hcount⟩ := windowIdleTimeout_aborts (d := s.found) hw hidle hopen
    exact ⟨hfree, hcount, hsame.mem rfl, hsame⟩
  case result =>
    intro n nonFinite w s hn hw hstate
    have hwf : WellFormed (.loadCommitResult n nonFinite) = true := by simpa [WellFormed] using hn
    have hsame := loadCommitResult_same (al := { loads := true, peg := true, regs := true, strand := true, tx := true }) n nonFinite s.found
      (.refl _ _) rfl rfl rfl rfl rfl
    refine ⟨?nonFinite, ?refused, ?epoch, ?gen⟩
    case nonFinite =>
      rintro slot hslot rfl
      obtain ⟨hopen, hverdict⟩ := loadCommitResult_reopens_nonFinite (d := s.found) hw hstate hslot
      exact completes_liftWf rfl hwf ⟨⟨_, hopen, rfl, rfl, rfl⟩, hverdict⟩
    case refused =>
      intro hfinite hrefused
      rw [← blockList_found] at hrefused
      obtain ⟨hopen, hverdict⟩ := loadCommitResult_reopens_refused (d := s.found) hw hstate hfinite hrefused
      exact completes_liftWf rfl hwf ⟨⟨_, hopen, rfl, rfl, rfl⟩, hverdict⟩
    case epoch =>
      intro hnone hmissing hcount hdir hindex
      rw [← blockList_found] at hindex
      obtain ⟨hfree, hcommit, hcur⟩ :=
        loadCommitResult_commits_epoch (nonFinite := nonFinite) (d := s.found) hw hstate hnone hmissing hcount hdir hindex
      exact completes_liftWf rfl hwf ⟨hfree, hcommit, hcur, hsame.mem rfl, hsame.streams rfl⟩
    case gen =>
      rintro slot hslot hmissing rfl hold
      obtain ⟨hfree, hcommit, hcur⟩ := loadCommitResult_commits_gen (d := s.found) hw hstate hslot hmissing hold
      exact completes_liftWf rfl hwf ⟨hfree, hcommit, hcur, hsame.mem rfl, hsame.streams rfl⟩
  case retire =>
    intro p model e s hp hmodel he hexpired hawake
    have hsame := epochRetireBy_same
      (al := { regs := true, strand := true, peg := true, loads := true, streams := true, prefixes := true, scheds := true, kv := true, tx := true })
      p model s.found (.refl _ _) rfl rfl rfl rfl rfl rfl rfl rfl rfl
    obtain ⟨hended, hunbound⟩ := epochRetireBy_retires (d := s.found) he hexpired hawake
    refine completes_liftWf (f := epochRetired p model) rfl (by simp [WellFormed, okPart, hp, hmodel]) ?_
    exact ⟨epochRetireBy p model s.found, rfl, serveWork_idle, hended, hunbound, hsame.mem rfl, hsame.time rfl⟩

end Sys2Proof.Machine
